-- ==== Sys2Proof/Word.lean ====
section
/-! DEFINITION. The words of the machine: bytes, the register widths, and the numbers of bricks, tiles, ports and stacks. -/
namespace Sys2Proof

/-- One byte of memory, of a payload or of a packet (R14). -/
abbrev Byte := BitVec 8
/-- A 64-bit word: a register of the device, a general register of a mason, a global address (R34). -/
abbrev Word := BitVec 64
/-- A sequence of bytes, lowest address first. -/
abbrev Bytes := List Byte

/-- One of the four bricks of the package (chapter 00, glossary). -/
abbrev Brick := Fin 4
/-- A logical tile of the package, 32 per brick (R39). -/
abbrev Tile := Fin 128
/-- A package port, brick × 6 + local port (chapter 02). -/
abbrev Port := Fin 24
/-- A stack, two per brick (R39). -/
abbrev Stack := Fin 8
/-- A traffic label (chapter 08). -/
abbrev Label := Fin 16

end Sys2Proof
end

