-- ==== Sys2Proof/Syntax.lean ====
section
/-! DEFINITION. The syntax of the block: packets, flits and the other things commands carry, and Instr, the commands themselves, one
constructor for each row of spec/opcode_table.json. A command comes from outside the package: from a link, a pin, the host, a runtime,
fleet management, or from a timer or engine of the package whose happening the spec names as a row. -/
namespace Sys2Proof

/-- A packet of the mortar: the 40 B header of R155, field by field, and its payload of SIZE bytes. `rsv` holds the reserved header bits [197:192], which a
transmitter sends as zero and a receiver ignores but the ECRC covers (R162); `pad` holds the padding bytes of R154 up to the last that is not zero. -/
structure Packet where
  acks : BitVec 32
  tis : BitVec 16
  dpid : BitVec 16
  inc : BitVec 16
  att : BitVec 8
  size : BitVec 10
  via : BitVec 6
  sgen : BitVec 8
  aux : BitVec 8
  ph : BitVec 2
  seq : BitVec 32
  fep : BitVec 8
  gen : BitVec 8
  sseat : BitVec 16
  addr : BitVec 64
  ecrc : BitVec 32
  opc : BitVec 8
  lbl : BitVec 4
  ptype : BitVec 4
  len : BitVec 7
  hops : BitVec 3
  nm : Bool
  sbrk : BitVec 2
  dbrk : BitVec 2
  opn : Bool
  payload : Bytes
  rsv : BitVec 6 := 0
  pad : Bytes := []
  deriving DecidableEq, Repr

/-- The packet whose every field is zero. -/
def Packet.zero : Packet :=
  { acks := 0, tis := 0, dpid := 0, inc := 0, att := 0, size := 0, via := 0, sgen := 0, aux := 0, ph := 0, seq := 0, fep := 0,
    gen := 0, sseat := 0, addr := 0, ecrc := 0, opc := 0, lbl := 0, ptype := 0, len := 0, hops := 0, nm := false, sbrk := 0,
    dbrk := 0, opn := false, payload := [] }

/-- An operation as its issuer names it, before transport makes a packet of it: the fields of R155 that the issuer fills. -/
structure Op where
  addr : Word
  opc : BitVec 8
  aux : BitVec 8
  lbl : Label
  size : Nat
  payload : Bytes
  deriving DecidableEq, Repr

/-- Who waits for the outcome of an operation (R57), and what it needs to take the result. -/
inductive Issuer where
  /-- A blocking operation of a mason, by its number (R495, R498, R500, R503). -/
  | masonLoad (t : Nat) (n : Nat)
  /-- A posted operation of a mason (R520); its number in the tile's program order. -/
  | masonPosted (t : Nat)
  /-- A bond wait of a mason in a wait slot, by the number of the blocking operation (R501). -/
  | masonWait (t : Nat) (slot : Nat) (n : Nat)
  /-- A release marker of a mason's drain (R230). -/
  | masonRelm (t : Nat)
  /-- A check of a registered wait (R262). -/
  | wchk (t : Nat) (slot : Nat)
  /-- A request of a sieve command, by item number (R684). -/
  | sieve (t : Nat) (item : Nat)
  /-- A wake sent by a bond engine (R257). -/
  | wake (b : Nat)
  /-- A request of a host command, by command ID (R745). -/
  | host (id : Nat)
  /-- A write through a drop window (R727): window + 16 × its number in arrival order. -/
  | drop (n : Nat)
  /-- An access of the host over CXL.mem, by tag (R735). -/
  | hdm (tag : Nat)
  /-- A record of an observation ring of brick b (R901), or of a pull (R904). -/
  | ring (b : Nat)
  | pull
  /-- A slab yard's or a pass's own request. -/
  | engine (b : Nat)
  /-- A load or a store of prefix walk `n` of the yard of brick b (R661). -/
  | walk (b : Nat) (n : Nat)
  /-- A request of Hod, whose traffic the region keys do not check (R772). -/
  | hod
  /-- An operation that a runtime or a test program issues through no unit the model keeps. -/
  | outside (tag : Nat)
  deriving DecidableEq, Repr

/-- Who reaches a register: a request that the region keys check (over the mortar, inside the package, or from the host through BAR0), Hod's internal
port, or the tray controller (R23, R722, R772, R812, R865). -/
inductive RegSource where
  | request
  | hod
  | tray
  deriving DecidableEq, Repr

/-- A flow as its source brick names it (R156): destination seat, generation and brick, label, and the source seat with its generation under which
the flow was opened; 0xFFFF and 0 while the package held no seat (R936). -/
structure FlowId where
  seat : BitVec 16
  gen : BitVec 8
  brk : Brick
  lbl : Label
  sseat : BitVec 16 := 0xFFFF
  sgen : BitVec 8 := 0
  deriving DecidableEq, Repr

/-- One end of a link: a package port, or local bridge q of brick b. -/
inductive LinkId where
  | port (p : Port)
  | bridge (b : Brick) (q : Fin 3)
  deriving DecidableEq, Repr

/-- A PAM4 level of a lane: one symbol (R74). -/
abbrev Level := Fin 4

/-- What arrives for a flit on a link: at a port the levels that each of its eight receive lanes delivers, by own lane number, with the alignment marker
where one falls into it (R74, R79); at a bridge the 256 bytes that one of its modules delivers (R126). -/
inductive Arrival where
  | lanes (levels : List (List Level))
  | module (m : Fin 18) (flit : Bytes)
  deriving DecidableEq, Repr

/-- A flit of R82: the header of R84, the packet area of 232 B and the CRC it carries. The reserved header bits, which a transmitter sends as zero and
a receiver ignores but the CRC covers (R83), are `rsv0` [7:4], `rsv1` [35:34], `rsv2` [63:49] and `rsv3` [159:128]. -/
structure Flit where
  typ : BitVec 4
  fsn : BitVec 12
  ack : BitVec 12
  av : Bool
  nak : Bool
  vc : BitVec 3
  fill : BitVec 5
  first : BitVec 5
  cra : BitVec 32
  crb : BitVec 32
  area : Bytes
  crc : BitVec 32
  rsv0 : BitVec 4 := 0
  rsv1 : BitVec 2 := 0
  rsv2 : BitVec 15 := 0
  rsv3 : BitVec 32 := 0
  deriving DecidableEq, Repr

/-- What Hod reads of a cable module over CMIS (R120): its media class, its lower memory bytes 0 to 17 and its identity. The own lanes it reports faulty come beside it. -/
structure CableModule where
  cls : Fin 8
  lower : Bytes
  ident : Bytes
  deriving DecidableEq, Repr

/-- What a port measures on its own lanes while it trains: the load test of Detect, the outcome of Tune, and the test of Verify (R103, R112,
R115). Transmit masks are by own lane; `corrected` and `alone` are by the partner's transmit lane. `eq` holds, by own transmit lane, what the lane's
training word says of equalisation: request code [3:0], response code [7:4] and preset [11:8] (R101). -/
structure LaneTest where
  openTx : BitVec 8       -- lanes with no far termination
  shortTx : BitVec 8      -- lanes with an abnormal load
  eqDone : Bool           -- the equaliser exchange is done
  corrected : List Nat    -- corrected bytes of each lane in the Verify test
  alone : BitVec 8        -- lanes that alone made a flit fail in the Verify test
  eq : List Nat := []     -- equalisation codes to send
  deriving DecidableEq, Repr

/-- How the recovery of a stuck sideband bus ends (R808): freed by the SCL pulses, freed by MOD_RST_N on a module bus, still stuck, or SCL held low. -/
inductive BusEnd where
  | pulses
  | moduleReset
  | stuck
  | sclLow
  deriving DecidableEq, Repr

/-- A request that waits at an arbitration point other than a link's: its label, age in ns, bytes, flow, 64 B sector, pseudo-channel, and whether
it hits an open row (R421 to R432). -/
structure LabelReq where
  lbl : Label
  age : Nat
  size : Nat
  flow : Nat
  sector : Nat
  channel : Nat
  rowHit : Bool
  deriving DecidableEq, Repr

/-- What the memories report while a command is carried out: stack contents that have decayed unseen, bursts that on-die ECC reports uncorrectable,
stacks with a corrected report, and SECDED errors of the bed cache, the check cache, the tiles' stores and the tables of keys and seats (R325, R351,
R373, R379, R409, R489, R878). -/
structure MemEnv where
  decay : List (Nat × Nat × Bytes)   -- stack, physical offset, the bytes now held there
  unc : List (Nat × Nat)             -- stack, physical offset of a 32 B burst
  corr : List Nat                    -- stacks
  bedUnc : List (Nat × Nat)          -- stack, physical offset of a 64 B sector that the bed cache holds
  bedCorr : List Nat                 -- bricks whose bed cache corrected an error
  copyUnc : List (Nat × Nat)         -- brick, line of a remote-copy line
  slotLost : List (Nat × Nat)        -- stack, physical offset of an 8 B word of the check cache
  storeUnc : List (Nat × Nat)        -- tile, offset of an 8 B word of the tile store
  masonUnc : List (Nat × Nat)        -- tile, offset of an 8 B word of the mason store
  masonCorr : List Nat               -- tiles
  glazeUnc : List (Nat × Nat)        -- tile, 64 × glaze register + word
  keyUnc : List Nat                  -- region keys
  seatUnc : List Nat                 -- entries of the seat table
  deriving DecidableEq, Repr

/-- Memories that report nothing. -/
def MemEnv.quiet : MemEnv :=
  { decay := [], unc := [], corr := [], bedUnc := [], bedCorr := [], copyUnc := [], slotLost := [], storeUnc := [], masonUnc := [], masonCorr := [], glazeUnc := [],
    keyUnc := [], seatUnc := [] }

/-- The fuses of R771 but the device unique secret. -/
structure Fuses where
  rootHash : Bytes := []                     -- Tydiel root key hash
  intKey : Option Bytes := none              -- INTKEY, where it is fused
  sealReq : Bool := false
  counter : Nat := 0                         -- the anti-rollback counter
  fmax : List Nat := List.replicate 4 0x78   -- the maximum of the V/f table of each brick
  deriving DecidableEq, Repr

/-- The boot block in NOR (R783, R794): the active bank, TRIAL, and how often the trial image was begun. -/
structure BootBlock where
  bank : Nat := 0
  trial : Bool := false
  tries : Nat := 0
  deriving DecidableEq, Repr

/-- What the fuses and the NOR hold when the always-on supply comes up (R771, R783). -/
structure Factory where
  fuses : Fuses
  boot : BootBlock
  bankA : Bytes
  bankB : Bytes
  sheet : Bytes
  incarnation : BitVec 16
  retire : List Nat                   -- RETIRE and SPARE of each brick,
  spare : List Nat
  repairs : List (Nat × Nat × Nat)    -- the soft-repair log: stack, pseudo-channel, row,
  swap : Bool                         -- and the coolant-swap flag
  log : List (Nat × Bytes)            -- the NOR log ring: slot and record
  deriving DecidableEq, Repr

/-- Identities as Hod reads them (R788): a regulator's MFR_ID (8 B), MFR_MODEL (16 B), revision and serial, in VR_EN order; a stack's manufacturer
(2 B), part (16 B), density (2 B), height (1 B) and serial; and the record of the cold plate (R789). An absent module has no bytes. -/
structure Modules where
  regulators : List Bytes := []
  hbm : List Bytes := []
  coldPlate : Bytes := []
  deriving DecidableEq, Repr

/-- The commands. Every constructor is a row of spec/opcode_table.json; its operands say which unit acts and what comes with the command. A
`MemEnv` operand is what the memories report while the command is carried out. -/
inductive Instr where
  /-- REGISTER_WRITE (R19): A write to a register field that has no row of its own sets the field according to its access code. -/
  | registerWrite (src : RegSource) (off : BitVec 32) (wide : Bool) (v : Word) (e : MemEnv)
  /-- RC_FIELD_READ (R933): A read of an RC field returns the bits it covers and clears only those bits. -/
  | rcFieldRead (src : RegSource) (off : BitVec 32) (wide : Bool)
  /-- OPERATION_ISSUE (R175): A source brick takes a new operation addressed to a seat and sends it, holds it or completes it according to the seat
  entry. -/
  | operationIssue (b : Brick) (issuer : Issuer) (op : Op)
  /-- FLOW_ENTRY_FREED_SEND (R191): A request waiting for a source flow entry is sent when an entry frees, starting its TE2E timer. -/
  | flowEntryFreedSend (b : Brick)
  /-- OUTMAX_RELEASE (R181): A request held by OUTMAX becomes ready to leave once it lies within OUTMAX of the oldest unsettled operation of its
  flow. -/
  | outmaxRelease (b : Brick) (i : FlowId)
  /-- HELD_OPERATION_SEND (R175): An operation kept at the source under a Held seat entry is sent once the entry becomes Live. -/
  | heldOperationSend (b : Brick)
  /-- HELD_OPERATION_UNREACHABLE (R198): A request that has waited at the source for TE2E without leaving is removed from the queue and ends Seat
  unreachable. -/
  | heldOperationUnreachable (b : Brick) (routed : Bool) (k : Nat)
  /-- PACKET_ROUTE (R166): The deciding brick chooses a candidate port for a packet by the routing tables and forwards it. -/
  | packetRoute (b : Brick) (p : Packet) (draw : Nat)
  /-- WAITING_PACKET_SEND (R171): A packet waiting for an Active candidate port is sent when one becomes Active. -/
  | waitingPacketSend (b : Brick)
  /-- WAITING_PACKET_AGE_OUT (R171): A packet waiting at a brick other than its source is discarded with event 0x1108 once its age exceeds PLIFE. -/
  | waitingPacketAgeOut (b : Brick)
  /-- REQ_RECEIVE (R185): The destination package handles a REQ by the first applicable row of its check table. -/
  | reqReceive (b : Brick) (p : Packet) (e : MemEnv)
  /-- RETENTION_STORE_RESUME (R188): A brick whose retention store was full resumes performing requests once acknowledgements free enough space. -/
  | retentionStoreResume (b : Brick) (e : MemEnv)
  /-- RSP_RECEIVE (R195): The source acts on a received RSP according to its status. -/
  | rspReceive (b : Brick) (p : Packet)
  /-- TE2E_EXPIRY (R192): A request whose end-to-end timer expires without answer goes in doubt. -/
  | te2eExpiry (b : Brick) (i : FlowId) (seq : Nat)
  /-- PROBE_RESEND (R193): An unanswered probe is resent every TE2E. -/
  | probeResend (b : Brick) (i : FlowId)
  /-- PRB_RECEIVE (R194): The destination answers a probe by the first applicable row of its table. -/
  | prbReceive (b : Brick) (p : Packet)
  /-- PRA_RECEIVE (R195): The source acts on a probe answer, taking a retained result, going back, or reporting Unsettled. -/
  | praReceive (b : Brick) (p : Packet)
  /-- STALE_SOURCE_RESEND (R195): After RSP 0x81 the source resends the operation after TE2E, reporting Seat unreachable after PROBEMAX refusals. -/
  | staleSourceResend (b : Brick) (i : FlowId) (seq : Nat)
  /-- FLOW_REOPEN (R195): After RSP 0x84 or early 0x83 the source reopens the flow after TE2E with operations renumbered from 0. -/
  | flowReopen (b : Brick) (i : FlowId)
  /-- WRONG_SEAT_CAST_WAIT_EXPIRY (R195): After RSP 0x80 with unchanged GEN and no cast within TE2E, the operation becomes Seat unreachable or stays
  in doubt. -/
  | wrongSeatCastWaitExpiry (b : Brick) (i : FlowId) (seq : Nat)
  /-- FACK_SEND (R189): A source sends FACK when FACKDLY has passed since a response with no request sent on the flow. -/
  | fackSend (b : Brick) (i : FlowId)
  /-- FACK_RECEIVE (R187): The destination frees retained responses below ACKS. -/
  | fackReceive (b : Brick) (p : Packet)
  /-- FLOW_CLOSE (R190): A source closes an idle settled flow by sending FCLS. -/
  | flowClose (b : Brick) (i : FlowId)
  /-- FCLS_RECEIVE (R190): The destination deletes matching flow state and answers FCA. -/
  | fclsReceive (b : Brick) (p : Packet)
  /-- FCA_RECEIVE (R190): The source frees its flow state on any FCA. -/
  | fcaReceive (b : Brick) (p : Packet)
  /-- FCLS_REPEAT (R190): An unanswered FCLS is repeated every TE2E. -/
  | fclsRepeat (b : Brick) (i : FlowId)
  /-- FLOW_RESET_START (R200): A source decides to reset a flow before SEQ would exceed 0xFFFF_0000 and stops assigning sequence numbers. -/
  | flowResetStart (b : Brick) (i : FlowId)
  /-- FRST_SEND (R201): Once every operation of the draining flow has an outcome, the source sends FRST. -/
  | frstSend (b : Brick) (i : FlowId)
  /-- FRST_RECEIVE (R201): The destination advances the flow epoch or deletes its state and answers FRA. -/
  | frstReceive (b : Brick) (p : Packet)
  /-- FRA_RECEIVE (R202): The source resumes at the new epoch or acts on the FRA status. -/
  | fraReceive (b : Brick) (p : Packet)
  /-- FRST_REPEAT (R202): An unanswered FRST is repeated every TE2E. -/
  | frstRepeat (b : Brick) (i : FlowId)
  /-- SEAT_CAST (R939): A single 64-bit write to SEAT_CAST applies the entry under the generation rule and floods it. -/
  | seatCast (v : Word) (wide : Bool)
  /-- SEAT_TBL_WRITE (R215): A direct write sets a seat-table entry without generation check or flooding. -/
  | seatTblWrite (seat : BitVec 16) (entry : BitVec 32)
  /-- CAST_RECEIVE (R177): A package applies a received cast with a newer generation and forwards it, else discards it. -/
  | castReceive (b : Brick) (p : Packet)
  /-- INCARNATION_QUARANTINE_END (R183): PLIFE after a reset that cleared flow tables, the package starts performing requests and answering probes. -/
  | incarnationQuarantineEnd
  /-- MRT_TTMO_WRITE (R203): A write to the transport timeout register is refused with event 0x110C if it breaks the budget nesting. -/
  | mrtTtmoWrite (b : Brick) (v : Word)
  /-- FLIT_RECEIVE (R94): The link receiver accepts, discards or NAKs an arriving flit. -/
  | flitReceive (l : LinkId) (a : Arrival)
  /-- NAK_RECEIVE (R96): The transmitter starts a replay from ACK + 1 on receipt of a NAK. -/
  | nakReceive (l : LinkId)
  /-- ACKTMR_EXPIRY (R96): The oldest unacknowledged flit waits longer than ACKTMR and a replay starts. -/
  | acktmrExpiry (l : LinkId)
  /-- TLIMIT_EXPIRY (R98): A replay episode open for TLIMIT declares the link down. -/
  | tlimitExpiry (l : LinkId)
  /-- FAST_RETRAIN_TIMEOUT (R137): A fast retrain not Active within 1 ms falls back to full training. -/
  | fastRetrainTimeout (p : Port)
  /-- DOWN_RECEIVE (R135): A receiver that gets DOWN declares the link down. -/
  | downReceive (l : LinkId)
  /-- LOSS_OF_LOCK (R135): Loss of lock on all lanes for 100 ns, or on one lane while Active, takes the link down. -/
  | lossOfLock (p : Port) (lanes : BitVec 8)
  /-- PORT_ENABLE (R103): Setting EN starts a full training at Detect. -/
  | portEnable (l : LinkId)
  /-- PORT_DISABLE (R941): Clearing EN takes the link down with reason 0x6 and the port to Disabled. -/
  | portDisable (l : LinkId)
  /-- RETRAIN (R146): A write of RETRAIN declares the link down with reason 0x6 and starts a full training. -/
  | retrain (l : LinkId)
  /-- HOLDCLR (R146): A write of HOLDCLR leaves Held and starts a full training. -/
  | holdclr (p : Port)
  /-- TRAINING_WORD_RECEIVE (R102): The receiver acts on an intact lane training word and discards one whose CRC fails. -/
  | trainingWordReceive (p : Port) (lane : Fin 8) (word : List Level)
  /-- TRAINING_STATE_ADVANCE (R104): A port leaves a training state once its step is complete and 16 partner words show the same or later state. -/
  | trainingStateAdvance (p : Port) (t : LaneTest)
  /-- TRAINING_TIMEOUT (R105): A training not Active within 50 ms fails with reason training timeout. -/
  | trainingTimeout (p : Port)
  /-- TRAINING_RETRY (R106): After a failed training the port waits its back-off time and tries again. -/
  | trainingRetry (p : Port)
  /-- DETECT_REPEAT (R107): While the partner is absent the port repeats Detect every 10 ms. -/
  | detectRepeat (p : Port)
  /-- NEIGHBOUR_ABSENT (R107): An expected neighbour not seen within 1 s of EN raises event 0x1010 once. -/
  | neighbourAbsent (p : Port)
  /-- CREDINIT_RECEIVE (R91): A port takes the partner's initial credit division from CREDINIT. -/
  | credinitReceive (l : LinkId)
  /-- TSREQ_RECEIVE (R88): A port answers a TSREQ with a TSRSP carrying t1, t2 and t3. -/
  | tsreqReceive (l : LinkId)
  /-- TSRSP_RECEIVE (R828): A port stamps t4 and computes the one-way delay and offset. -/
  | tsrspReceive (p : Port)
  /-- MODULE_PRESENCE_CHANGE (R788): A change of MOD_PRS_N makes Hod read and check the cable module and may restart training. -/
  | modulePresenceChange (p : Port) (present : Bool) (readable : Bool) (faulty : BitVec 8) (m : CableModule) (int : Bool)
  /-- CORRECTED_RATE_HIGH (R141): More than 20,000 corrected bytes on a lane within 10 ms while Active raises event 0x100E. -/
  | correctedRateHigh (p : Port) (lane : Fin 8)
  /-- LANE_DRIVER_FAULT (R141): An abnormal lane load while Active raises event 0x100F. -/
  | laneDriverFault (p : Port) (lane : Fin 8)
  /-- BRIDGE_LINK_UP (R129): After UCIe link-up the bridge ends exchange brick numbers and stay down on a geometry mismatch. -/
  | bridgeLinkUp (b : Brick) (q : Fin 3) (brick : Nat) (modules : BitVec 18) (fast : Bool)
  /-- BRIDGE_MODULE_REMOVE (R128): An unrecoverable UCIe module is removed and the bridge continues on the rest. -/
  | bridgeModuleRemove (b : Brick) (q : Fin 3) (m : Fin 18)
  /-- COPY_FILL (R223): A returning load fills a mirror or remote-copy line unless a later store of the brick discards the fill. -/
  | copyFill (t : Tile) (addr : Word) (data : Bytes) (poisoned : Bool) (mirror : Bool) (remote : Bool) (e : MemEnv)
  /-- COPY_EVICT (R942): The device evicts a mirror or remote-copy line. -/
  | copyEvict (t : Tile) (addr : Word) (mirror : Bool)
  /-- WAKE (R256): A wake reaching the waiter's brick makes the open wait slot Done. -/
  | wake (b : Brick)
  /-- WAIT_TIMEOUT (R260): A wait's armed timeout fires and the wait is woken with status 0x1. -/
  | waitTimeout (b : Brick) (k : Fin 16384) (seat : BitVec 16) (tile : Tile) (slot : Fin 16)
  /-- WCHK_SEND (R262): Every WCHKINT the waiter's brick checks remote waits and completes lost ones with status 0x3. -/
  | wchkSend (b : Brick)
  /-- RELEASE_SEND (R230): When the release drain ends the release leaves or completes with 0x16. -/
  | releaseSend (t : Tile)
  /-- DOMAIN_REQUEST (R293): A write of REQ in PWR_DOM is judged against dependencies and grant and queued or refused. -/
  | domainRequest (d : Fin 144) (v : BitVec 2)
  /-- DOMAIN_TRANSITION_START (R297): Hod starts a queued domain transition when a transition slot frees. -/
  | domainTransitionStart
  /-- DOMAIN_TRANSITION_DONE (R291): A domain reaches its requested state. -/
  | domainTransitionDone (d : Fin 144) (slow : Bool) (held : List (Nat × Bytes)) (e : MemEnv)
  /-- DOMAIN_FAULT (R303): A domain not in its state within four times its wake time is left OFF with DOMFLT set. -/
  | domainFault (d : Fin 144) (e : MemEnv)
  /-- FREQ_WRITE (R290): A write to FREQ starts a tile-clock change of the brick. -/
  | freqWrite (b : Brick) (f : BitVec 7)
  /-- TILE_CLOCK_SWITCH_DONE (R290): The tile clock change of a brick completes. -/
  | tileClockSwitchDone (b : Brick)
  /-- REFERENCE_CLOCK_LOSS (R304): Loss of MREF, HREF or AON_CLK clears its lock bit and sets CLKLOSS. -/
  | referenceClockLoss (clk : Fin 3) (e : MemEnv)
  /-- GROUT_READ (R320): A small random read takes the grout path, checking bed cache tags and merging buffered folds. -/
  | groutRead (st : Stack) (off : BitVec 44) (n : Fin 33) (tag : Nat) (e : MemEnv)
  /-- FOLD_ENTRY_EVICT (R337): A fold-buffer entry is merged into the stack by read, combine and write-back. -/
  | foldEntryEvict (st : Stack) (sector : BitVec 30) (e : MemEnv)
  /-- BED_LINE_EVICT (R323): A bed cache line is evicted and its dirty sectors written back. -/
  | bedLineEvict (st : Stack) (off : BitVec 44) (e : MemEnv)
  /-- FOLD_CHG (R345): A write to FOLD_CHG starts changing the mode of a range of granules, or is refused with CHGREF. -/
  | foldChg (b : Brick) (v : Word)
  /-- GRANULE_CHANGE_DONE (R345): One granule finishes its mode change and held operations are performed in the new mode. -/
  | granuleChangeDone (st : Stack) (e : MemEnv)
  /-- DRAIN0 (R359): A write of DRAIN0 merges every fold-buffer entry of local stack 0. -/
  | drain0 (b : Brick) (e : MemEnv)
  /-- DRAIN1 (R359): A write of DRAIN1 merges every fold-buffer entry of local stack 1. -/
  | drain1 (b : Brick) (e : MemEnv)
  /-- TEMPERATURE_BAND_CHANGE (R350): A stack's temperature band changes and refresh doubles or resumes with event 0x2008. -/
  | temperatureBandChange (st : Stack) (t : BitVec 16)
  /-- PHY_TRAINING_LOSS (R351): A stack loses PHY training in service, holds operations and retrains once, else fails. -/
  | phyTrainingLoss (st : Stack)
  /-- PGC_CLR (R389): A write to PGC_CLR starts clearing a range of pages, or all pages with ALL. -/
  | pgcClr (st : Stack) (v : Word)
  /-- PAGE_CLEAR_DONE (R389): A page clear completes and DONE is set. -/
  | pageClearDone (st : Stack)
  /-- REMAP_INSTALL (R394): An install command holds a window page, copies it to a spare and sets the remap entry. -/
  | remapInstall (st : Stack) (page : BitVec 24)
  /-- REMAP_INSTALL_DONE (R394): An install completes and the held accesses are performed. -/
  | remapInstallDone (st : Stack) (e : MemEnv)
  /-- REMAP_RELEASE (R396): A release command copies the spare back, frees the entry and raises event 0x210B. -/
  | remapRelease (st : Stack) (entry : Fin 32) (e : MemEnv)
  /-- PASS_START (R401): A repointing pass starts on a stack, or is refused. -/
  | passStart (st : Stack)
  /-- PASS_SUSPEND (R403): A suspend finishes the page in progress and records NEXT. -/
  | passSuspend (st : Stack)
  /-- PASS_RESUME (R403): A resume continues the pass from NEXT. -/
  | passResume (st : Stack)
  /-- PASS_CANCEL (R403): A cancel finishes the page in progress and ends the pass cancelled. -/
  | passCancel (st : Stack)
  /-- PASS_PAGE (R402): A pass processes one page: merges folds, decodes, writes back and may remap. -/
  | passPage (st : Stack) (e : MemEnv)
  /-- PASS_END (R404): A pass ends, writes its summary record and raises event 0x2107. -/
  | passEnd (st : Stack)
  /-- SOFT_REPAIR (R398): Hod issues soft post-package repair for a fully remapped row and releases the entries. -/
  | softRepair (st : Stack) (off : BitVec 36) (e : MemEnv)
  /-- LABEL_GRANT (R428): An arbitration point grants the highest-level label and updates its average. -/
  | labelGrant (pt : Fin 58) (rs : List LabelReq) (rivals : List LabelReq)
  /-- LABEL_WINDOW_START (R436): At each window boundary the point zeroes MISSES and WORST of every label. -/
  | labelWindowStart (pt : Fin 58)
  /-- ALU_ADD (R492): rd = RA + RB. -/
  | aluAdd (t : Tile) (e : MemEnv)
  /-- ALU_SUB (R492): rd = RA − RB. -/
  | aluSub (t : Tile) (e : MemEnv)
  /-- ALU_AND (R492): rd = RA & RB. -/
  | aluAnd (t : Tile) (e : MemEnv)
  /-- ALU_OR (R492): rd = RA | RB. -/
  | aluOr (t : Tile) (e : MemEnv)
  /-- ALU_XOR (R492): rd = RA ^ RB. -/
  | aluXor (t : Tile) (e : MemEnv)
  /-- ALU_ANDN (R492): rd = RA & ~RB. -/
  | aluAndn (t : Tile) (e : MemEnv)
  /-- ALU_SLL (R492): Logical shift left by RB[5:0]. -/
  | aluSll (t : Tile) (e : MemEnv)
  /-- ALU_SRL (R492): Logical shift right by RB[5:0]. -/
  | aluSrl (t : Tile) (e : MemEnv)
  /-- ALU_SRA (R492): Arithmetic shift right by RB[5:0]. -/
  | aluSra (t : Tile) (e : MemEnv)
  /-- ALU_MUL (R492): Low 64 bits of the product. -/
  | aluMul (t : Tile) (e : MemEnv)
  /-- ALU_MULH (R492): Signed high 64 bits of the product. -/
  | aluMulh (t : Tile) (e : MemEnv)
  /-- ALU_MULHU (R492): Unsigned high 64 bits of the product. -/
  | aluMulhu (t : Tile) (e : MemEnv)
  /-- ALU_DIV (R493): Signed division that never traps. -/
  | aluDiv (t : Tile) (e : MemEnv)
  /-- ALU_DIVU (R493): Unsigned division that never traps. -/
  | aluDivu (t : Tile) (e : MemEnv)
  /-- ALU_REM (R493): Signed remainder that never traps. -/
  | aluRem (t : Tile) (e : MemEnv)
  /-- ALU_REMU (R493): Unsigned remainder that never traps. -/
  | aluRemu (t : Tile) (e : MemEnv)
  /-- ALU_CMPEQ (R492): Writes 1 if RA equals RB, else 0. -/
  | aluCmpeq (t : Tile) (e : MemEnv)
  /-- ALU_CMPLT (R492): Writes 1 if RA is signed less than RB. -/
  | aluCmplt (t : Tile) (e : MemEnv)
  /-- ALU_CMPLTU (R492): Writes 1 if RA is unsigned less than RB. -/
  | aluCmpltu (t : Tile) (e : MemEnv)
  /-- ALU_MIN (R492): Signed minimum. -/
  | aluMin (t : Tile) (e : MemEnv)
  /-- ALU_MAX (R492): Signed maximum. -/
  | aluMax (t : Tile) (e : MemEnv)
  /-- ALU_MINU (R492): Unsigned minimum. -/
  | aluMinu (t : Tile) (e : MemEnv)
  /-- ALU_MAXU (R492): Unsigned maximum. -/
  | aluMaxu (t : Tile) (e : MemEnv)
  /-- ALU_CLZ (R493): Count of leading zeros of RA. -/
  | aluClz (t : Tile) (e : MemEnv)
  /-- ALU_CTZ (R493): Count of trailing zeros of RA. -/
  | aluCtz (t : Tile) (e : MemEnv)
  /-- ALU_POPC (R492): Population count of RA. -/
  | aluPopc (t : Tile) (e : MemEnv)
  /-- ALU_ADDW (R492): 32-bit sum, sign-extended. -/
  | aluAddw (t : Tile) (e : MemEnv)
  /-- ALU_SUBW (R492): 32-bit difference, sign-extended. -/
  | aluSubw (t : Tile) (e : MemEnv)
  /-- ADDI (R491): rd = RA + sext(IMM16). -/
  | addi (t : Tile) (e : MemEnv)
  /-- ANDI (R491): rd = RA & zext(IMM16). -/
  | andi (t : Tile) (e : MemEnv)
  /-- ORI (R491): rd = RA | zext(IMM16). -/
  | ori (t : Tile) (e : MemEnv)
  /-- XORI (R491): rd = RA ^ zext(IMM16). -/
  | xori (t : Tile) (e : MemEnv)
  /-- SHI_SLL (R491): Shift left by an immediate count. -/
  | shiSll (t : Tile) (e : MemEnv)
  /-- SHI_SRL (R491): Logical shift right by an immediate count. -/
  | shiSrl (t : Tile) (e : MemEnv)
  /-- SHI_SRA (R491): Arithmetic shift right by an immediate count. -/
  | shiSra (t : Tile) (e : MemEnv)
  /-- MOVW (R491): rd = zext(IMM16) shifted into halfword H. -/
  | movw (t : Tile) (e : MemEnv)
  /-- MOVK (R491): Writes IMM16 into halfword H of rd keeping other bits. -/
  | movk (t : Tile) (e : MemEnv)
  /-- LD (R495): The mason issues a load and blocks until its value is written to rd. -/
  | ld (t : Tile) (e : MemEnv)
  /-- ST (R496): The mason posts a store and goes on. -/
  | st (t : Tile) (e : MemEnv)
  /-- MASON_LOAD_RETURN (R495): A loaded value or blocking result arrives and is written to rd. -/
  | masonLoadReturn (t : Tile)
  /-- POSTED_OUTCOME (R520): A posted operation's non-success outcome is recorded in MSN_OPERR, making a deferred fault pending. -/
  | postedOutcome (t : Tile)
  /-- ATOM (R498): The mason issues one element of a bed-mode atomic or a fold. -/
  | atom (t : Tile) (e : MemEnv)
  /-- BOP_SIGADD (R499): BOND instruction issuing SIGADD to the bond at RA. -/
  | bopSigadd (t : Tile) (e : MemEnv)
  /-- BOP_WAITGE (R501): BOND instruction registering a WAITGE on a Free slot. -/
  | bopWaitge (t : Tile) (e : MemEnv)
  /-- BOP_WAITEQ (R501): BOND instruction registering a WAITEQ on a Free slot. -/
  | bopWaiteq (t : Tile) (e : MemEnv)
  /-- BOP_TEST (R500): BOND instruction issuing TEST and blocking for its answer. -/
  | bopTest (t : Tile) (e : MemEnv)
  /-- BOP_RESET (R499): BOND instruction issuing RESET, with UNPOISON from MODE. -/
  | bopReset (t : Tile) (e : MemEnv)
  /-- BOP_ARMTO (R499): BOND instruction issuing ARMTO with the timeout from WTO. -/
  | bopArmto (t : Tile) (e : MemEnv)
  /-- BOP_WCANCEL (R501): BOND instruction issuing WCANCEL for a slot. -/
  | bopWcancel (t : Tile) (e : MemEnv)
  /-- BOP_ARMSIG (R499): BOND instruction issuing ARMSIG. -/
  | bopArmsig (t : Tile) (e : MemEnv)
  /-- BOP_DISARM (R499): BOND instruction issuing DISARM. -/
  | bopDisarm (t : Tile) (e : MemEnv)
  /-- BOP_POISON (R499): BOND instruction issuing POISON with cause 0x01. -/
  | bopPoison (t : Tile) (e : MemEnv)
  /-- CFENCE (R503): Later mason requests enter issue order after every request of earlier tile commands. -/
  | cfence (t : Tile) (e : MemEnv)
  /-- REL (R503): Release on a range; the mason blocks until it completes. -/
  | rel (t : Tile) (e : MemEnv)
  /-- ACQ (R237): Range acquire invalidating overlapping copies. -/
  | acq (t : Tile) (e : MemEnv)
  /-- ACQF (R503): Full acquire. -/
  | acqf (t : Tile) (e : MemEnv)
  /-- TWAIT (R503): Waits until every earlier command of the masked units has completed. -/
  | twait (t : Tile) (e : MemEnv)
  /-- DRAIN (R503): Waits until every earlier mason request has an outcome and any deferred fault is taken. -/
  | drain (t : Tile) (e : MemEnv)
  /-- WSL (R502): Waits on, collects or polls wait slots. -/
  | wsl (t : Tile) (e : MemEnv)
  /-- TCMD (R504): Places a 128-bit command into the press, glaze or sieve queue, stalling if full. -/
  | tcmd (t : Tile) (e : MemEnv)
  /-- RDS (R512): Reads a summary register, stalling while it is pending. -/
  | rds (t : Tile) (e : MemEnv)
  /-- BR (R491): Branch on RA by COND. -/
  | br (t : Tile) (e : MemEnv)
  /-- BRS (R511): Branch on a summary register by COND. -/
  | brs (t : Tile) (e : MemEnv)
  /-- CALL (R491): Writes the return address to h0 and jumps. -/
  | call (t : Tile) (e : MemEnv)
  /-- JLNK (R491): Writes the return address to rd and jumps to RA + offset. -/
  | jlnk (t : Tile) (e : MemEnv)
  /-- ENTER (R484): Moves to the next ring window, trapping on overflow. -/
  | enter (t : Tile) (e : MemEnv)
  /-- LEAVE (R484): Moves to the previous ring window, trapping on underflow. -/
  | leave (t : Tile) (e : MemEnv)
  /-- NOP (R494): No operation. -/
  | nop (t : Tile) (e : MemEnv)
  /-- YLD (R527): A suspension point at which a pending suspend request is taken. -/
  | yld (t : Tile) (e : MemEnv)
  /-- BRK (R494): Breakpoint trap with XVAL = code. -/
  | brk (t : Tile) (e : MemEnv)
  /-- HALT (R494): STATE becomes Halted. -/
  | halt (t : Tile) (e : MemEnv)
  /-- SRD (R486): Reads a special register into rd. -/
  | srd (t : Tile) (e : MemEnv)
  /-- SWR (R486): Writes a special register. -/
  | swr (t : Tile) (e : MemEnv)
  /-- XRET (R522): Restores CWIN and LBL, clears T and continues at XPC. -/
  | xret (t : Tile) (e : MemEnv)
  /-- SUSP (R528): STATE becomes Suspended. -/
  | susp (t : Tile) (e : MemEnv)
  /-- SPILLW (R484): Moves the oldest resident frame to the spill stack. -/
  | spillw (t : Tile) (e : MemEnv)
  /-- FILLW (R484): Moves a frame back from the spill stack. -/
  | fillw (t : Tile) (e : MemEnv)
  /-- MASON_START (R524): START sets up the mason, performs a full acquire and begins at MSN_ENTRY. -/
  | masonStart (t : Tile)
  /-- MASON_STOP (R526): STOP halts the mason after blocking operations end and cancels its open slots. -/
  | masonStop (t : Tile)
  /-- SUSPREQ (R527): A suspend request is made pending until a YLD or WSL takes it. -/
  | suspreq (t : Tile)
  /-- MASON_RESUME (R528): RESUME continues a Suspended mason after its SUSP. -/
  | masonResume (t : Tile)
  /-- CLRFLT (R535): CLRFLT moves a Faulted mason to Halted and clears MSN_DFLT. -/
  | clrflt (t : Tile)
  /-- MMA (R547): The press starts a matrix multiply-accumulate from its descriptor. -/
  | mma (t : Tile) (fault : Option (Fin 256 × Fin 256 × Fin 2048)) (e : MemEnv)
  /-- PMODE (R557): Selects full- or quarter-array mode for later commands. -/
  | pmode (t : Tile)
  /-- PRESS_COMMAND_COMPLETE (R550): A press command completes when its D writes and summary are performed. -/
  | pressCommandComplete (t : Tile)
  /-- PRESS_CLRQ (R577): Discards every queued press command not started when the mason is stopped. -/
  | pressClrq (t : Tile)
  /-- RINJ (R577): Arms residue injection for the next integer command. -/
  | rinj (t : Tile)
  /-- VLD (R586): Loads 512 B of tile store into a register. -/
  | vld (t : Tile) (e : MemEnv)
  /-- VST (R586): Stores active elements of a register to the tile store. -/
  | vst (t : Tile) (e : MemEnv)
  /-- VBC (R586): Broadcasts IMM to active elements. -/
  | vbc (t : Tile) (e : MemEnv)
  /-- GLZ_ADD (R588): Element-wise add. -/
  | glzAdd (t : Tile) (e : MemEnv)
  /-- GLZ_SUB (R588): Element-wise subtract. -/
  | glzSub (t : Tile) (e : MemEnv)
  /-- GLZ_MUL (R588): Element-wise multiply. -/
  | glzMul (t : Tile) (e : MemEnv)
  /-- FMA (R588): Element-wise fused multiply-add rounded once. -/
  | fma (t : Tile) (e : MemEnv)
  /-- GLZ_MIN (R588): Element-wise minimum. -/
  | glzMin (t : Tile) (e : MemEnv)
  /-- GLZ_MAX (R588): Element-wise maximum. -/
  | glzMax (t : Tile) (e : MemEnv)
  /-- ABS (R588): Element-wise magnitude. -/
  | abs (t : Tile) (e : MemEnv)
  /-- NEG (R588): Element-wise negation. -/
  | neg (t : Tile) (e : MemEnv)
  /-- GLZ_AND (R586): Bitwise AND of registers. -/
  | glzAnd (t : Tile) (e : MemEnv)
  /-- GLZ_OR (R586): Bitwise OR of registers. -/
  | glzOr (t : Tile) (e : MemEnv)
  /-- GLZ_XOR (R586): Bitwise XOR of registers. -/
  | glzXor (t : Tile) (e : MemEnv)
  /-- GLZ_ANDN (R586): Bitwise va & ~vb. -/
  | glzAndn (t : Tile) (e : MemEnv)
  /-- CMP (R589): Per-element compare by predicate, with an optional count summary. -/
  | cmp (t : Tile) (e : MemEnv)
  /-- SEL (R586): Selects va or vb by the vc element. -/
  | sel (t : Tile) (e : MemEnv)
  /-- CVT (R590): Converts elements from FMTA to FMTD. -/
  | cvt (t : Tile) (e : MemEnv)
  /-- QNT (R592): Quantising conversion into INT8 or UINT8. -/
  | qnt (t : Tile) (e : MemEnv)
  /-- RED_SUM (R595): Sum of active elements by the fixed tree. -/
  | redSum (t : Tile) (e : MemEnv)
  /-- RED_MAX (R594): Largest non-NaN active element. -/
  | redMax (t : Tile) (e : MemEnv)
  /-- RED_MIN (R594): Smallest non-NaN active element. -/
  | redMin (t : Tile) (e : MemEnv)
  /-- RED_ARGMAX (R594): Index of the largest non-NaN element. -/
  | redArgmax (t : Tile) (e : MemEnv)
  /-- RED_COUNT (R594): Count of active elements greater than IMM. -/
  | redCount (t : Tile) (e : MemEnv)
  /-- SFN_EXP (R603): Evaluates e^x per element. -/
  | sfnExp (t : Tile) (e : MemEnv)
  /-- SFN_EXP2 (R603): Evaluates 2^x per element. -/
  | sfnExp2 (t : Tile) (e : MemEnv)
  /-- SFN_LOG (R603): Evaluates the natural logarithm per element. -/
  | sfnLog (t : Tile) (e : MemEnv)
  /-- SFN_REC (R603): Evaluates 1 ÷ x per element. -/
  | sfnRec (t : Tile) (e : MemEnv)
  /-- SFN_RSQ (R603): Evaluates 1 ÷ √x per element. -/
  | sfnRsq (t : Tile) (e : MemEnv)
  /-- SFN_TANH (R603): Evaluates tanh per element. -/
  | sfnTanh (t : Tile) (e : MemEnv)
  /-- SFN_SIGMOID (R603): Evaluates the sigmoid per element. -/
  | sfnSigmoid (t : Tile) (e : MemEnv)
  /-- SFN_ERF (R603): Evaluates erf per element. -/
  | sfnErf (t : Tile) (e : MemEnv)
  /-- CLRS (R606): Clears a row statistics slot as a softmax slot. -/
  | clrs (t : Tile) (e : MemEnv)
  /-- CLRN (R606): Clears a row statistics slot as a norm slot with reference K. -/
  | clrn (t : Tile) (e : MemEnv)
  /-- SMX (R608): Softmax update of a slot with one chunk. -/
  | smx (t : Tile) (e : MemEnv)
  /-- NACC (R609): Norm accumulate of one chunk into a slot. -/
  | nacc (t : Tile) (e : MemEnv)
  /-- MRG (R608): Merges a partial softmax state into a slot. -/
  | mrg (t : Tile) (e : MemEnv)
  /-- RSTAT_RD (R610): Reads a slot's results into a register. -/
  | rstatRd (t : Tile) (e : MemEnv)
  /-- GLAZE_COMMAND_COMPLETE (R614): A glaze command completes when its results and summary are written. -/
  | glazeCommandComplete (t : Tile)
  /-- GLAZE_CLRQ (R623): Discards every queued glaze command not started when the mason is stopped. -/
  | glazeClrq (t : Tile)
  /-- GATHER (R688): Gathers slab data named by a step manifest into the tile store. -/
  | gather (t : Tile) (e : MemEnv)
  /-- SIEVE_YARD (R691): Issues a table of slab-yard requests and records their results. -/
  | sieveYard (t : Tile) (e : MemEnv)
  /-- DISPATCH (R696): Reserves expert rows, stores token rows and signals expert bonds. -/
  | dispatch (t : Tile) (e : MemEnv)
  /-- COMBINE (R700): Combines expert outputs into token rows by weight. -/
  | combine (t : Tile) (e : MemEnv)
  /-- POINTS (R705): Turns a point-cloud sweep into voxel records. -/
  | points (t : Tile) (e : MemEnv)
  /-- SIEVE_COMMAND_COMPLETE (R684): A sieve command completes when every request has an outcome, writes are performed and pins returned. -/
  | sieveCommandComplete (t : Tile)
  /-- SIEVE_SUSP (R712): SUSP moves the sieve to Suspending or Suspended. -/
  | sieveSusp (t : Tile)
  /-- SIEVE_SUSPENSION_POINT (R712): A suspending sieve reaches a suspension point and becomes Suspended. -/
  | sieveSuspensionPoint (t : Tile)
  /-- SIEVE_RESUME (R712): RESUME returns the sieve to Running. -/
  | sieveResume (t : Tile)
  /-- SIEVE_CANCEL (R713): CANCEL ends the command in progress and discards queued commands. -/
  | sieveCancel (t : Tile)
  /-- SIEVE_CLRQ (R716): Discards every queued sieve command not started when the mason is stopped. -/
  | sieveClrq (t : Tile)
  /-- SCOW_COPY_DONE (R645): A SCOW copy completes, the memo entry is made and held requests are performed. -/
  | scowCopyDone (b : Brick) (e : MemEnv)
  /-- EPOCH_AUTO_ADVANCE (R652): Every EPINT µs the yard attempts an epoch advance. -/
  | epochAutoAdvance (b : Brick) (e : MemEnv)
  /-- YARD_FORMAT (R635): FMT formats the slab table and free lists. -/
  | yardFormat (b : Brick)
  /-- YARD_FORMAT_DONE (R635): Format completes and raises event 0x2301. -/
  | yardFormatDone (b : Brick) (e : MemEnv)
  /-- YARD_ENABLE (R677): EN checks the configuration and starts the enable scan. -/
  | yardEnable (b : Brick) (e : MemEnv)
  /-- ENABLE_SCAN_DONE (R677): The enable scan repairs abandoned copies and sets READY. -/
  | enableScanDone (b : Brick) (e : MemEnv)
  /-- TREE_FORMAT (R679): FMT nulls the buckets and frees the nodes. -/
  | treeFormat (b : Brick)
  /-- TREE_ENABLE (R677): The tree's EN checks the header and sets READY. -/
  | treeEnable (b : Brick) (e : MemEnv)
  /-- KEY_INSTALL (R679): A write of PFX_KEY1 installs the namespace key. -/
  | keyInstall (b : Brick) (v : Word)
  /-- PFX_KCLR (R679): Invalidates the key of the selected namespace. -/
  | pfxKclr (b : Brick) (clr : Bool)
  /-- JOB_START (R668): Starts a yard job from its descriptor, or refuses it with JREF. -/
  | jobStart (b : Brick)
  /-- JOB_SUSPEND (R669): Suspends the yard job after the item in progress. -/
  | jobSuspend (b : Brick)
  /-- JOB_RESUME (R669): Resumes a suspended yard job. -/
  | jobResume (b : Brick)
  /-- JOB_CANCEL (R669): Cancels the yard job after the item in progress. -/
  | jobCancel (b : Brick)
  /-- JOB_ITEM (R669): A yard job processes one bucket or slab. -/
  | jobItem (b : Brick) (e : MemEnv)
  /-- JOB_END (R670): A yard job ends, writes its record and raises event 0x2307. -/
  | jobEnd (b : Brick)
  /-- DOORBELL (R728): A doorbell write makes ring entries visible after earlier drop-window stores have outcomes. -/
  | doorbell (r : Fin 32) (tail : Word)
  /-- COMPLETION_HEAD (R739): The host writes its consumer index, freeing completion ring space. -/
  | completionHead (r : Fin 32) (head : Word)
  /-- DROP_WRITE (R727): A host write to a drop window becomes stores or is discarded. -/
  | dropWrite (off : BitVec 34) (data : Bytes)
  /-- HDM_MEMRD (R735): A host CXL.mem read is served at the home and recorded in the snoop filter. -/
  | hdmMemrd (tag : Nat) (n : Fin 8) (off : BitVec 44) (own : Bool)
  /-- HDM_MEMWR (R735): A host CXL.mem write is performed at the home. -/
  | hdmMemwr (tag : Nat) (n : Fin 8) (off : BitVec 44) (data : Bytes) (keep : Bool)
  /-- BISNP_RESPONSE (R735): A host back-invalidate response lets the waiting device access proceed. -/
  | bisnpResponse (st : Stack) (sector : BitVec 30) (wb : Option Bytes) (e : MemEnv)
  /-- H2D_SNOOP (R732): A host snoop drops a cached host line. -/
  | h2dSnoop (hpa : BitVec 52)
  /-- COMMAND_FETCH (R740): A fetched command entry is accepted, answered as duplicate or refused. -/
  | commandFetch (r : Fin 32) (data : Bytes) (poisoned : Bool)
  /-- CMD_NOP (R745): Host NOP command. -/
  | cmdNop
  /-- CMD_SUSPEND (R749): Suspends a long operation by ID. -/
  | cmdSuspend
  /-- CMD_RESUME (R749): Resumes a long operation by ID. -/
  | cmdResume
  /-- CMD_CANCEL (R749): Cancels a long operation by ID. -/
  | cmdCancel
  /-- CMD_POLICY (R745): Sets the host-loss policy and adds or removes preserved ranges. -/
  | cmdPolicy
  /-- CMD_YARD (R745): Issues one slab-yard request on behalf of the host. -/
  | cmdYard
  /-- CMD_RUN (R746): Starts masons of a tile set and runs until they halt. -/
  | cmdRun
  /-- CMD_COPY (R746): Copies data in 64 KiB chunks. -/
  | cmdCopy
  /-- CMD_SCRUB (R746): Runs a repointing pass. -/
  | cmdScrub
  /-- CMD_PFXJOB (R746): Runs a prefix-tree yard job. -/
  | cmdPfxjob
  /-- CMD_SLABJOB (R746): Runs a slab yard job. -/
  | cmdSlabjob
  /-- CMD_MEMTEST (R746): Tests stack pages and leaves them zeroed. -/
  | cmdMemtest
  /-- CMD_FWSTAGE (R793): Stages a kiln image into the inactive bank and checks it. -/
  | cmdFwstage
  /-- LONG_OP_START (R747): A queued long operation starts in acceptance order when its resources free. -/
  | longOpStart
  /-- LONG_OP_SUSPENSION_POINT (R751): A suspending long operation reaches a suspension point and becomes Suspended. -/
  | longOpSuspensionPoint (id : Word) (e : MemEnv)
  /-- LONG_OP_END (R749): A long operation reaches Done or Failed and its final completion is posted. -/
  | longOpEnd (id : Word)
  /-- INTERIM_COMPLETION (R742): A command not final within the command settle time gets an interim completion. -/
  | interimCompletion (id : Word)
  /-- COMPLETION_RING_ROOM (R739): Waiting completions are written and fetch resumes when ring space frees. -/
  | completionRingRoom (r : Fin 32)
  /-- MSIX_SIGNAL (R725): A vector is signalled after its completion write is observed, at most once per µs. -/
  | msixSignal (v : Fin 64)
  /-- HOST_LOSS (R754): On detected host loss the package disables rings and windows and applies its policy. -/
  | hostLoss (reason : Fin 4) (e : MemEnv)
  /-- HLDEB_EXPIRY (R753): The host link staying down longer than HLDEB counts as host loss. -/
  | hldebExpiry (e : MemEnv)
  /-- SNOOP_FILTER_SETTLE (R756): Within 50 µs of host loss every snoop-filter entry is removed, poisoning modified sectors. -/
  | snoopFilterSettle (e : MemEnv)
  /-- MANIFEST_WRITE (R759): Hod writes a signed retention manifest, incrementing SEQ. -/
  | manifestWrite
  /-- FREEZE (R762): Writes a final manifest with the nonce and sets READY. -/
  | freeze
  /-- ATTACH (R762): Attaches a driver when SEQ matches and starts fetch. -/
  | attach (seq : BitVec 32)
  /-- DISCARD (R762): Attaches after cancelling listed operations with STATUS 0x09. -/
  | discard (seq : BitVec 32)
  /-- HOST_LINK_UP (R721): The host link trains and enters service or raises event 0x4001 with width 0. -/
  | hostLinkUp (width : Fin 4) (rate : Fin 4) (cache : Bool) (mem : Bool) (e : MemEnv)
  /-- SEAL (R790): Hod writes SWAPOK and SPARE and makes RWS fields read-only. -/
  | seal
  /-- BSLOAD (R787): Loads and checks a build sheet and writes it to both NOR copies. -/
  | bsload
  /-- ACTIVATE (R794): Makes the staged bank the trial image and restarts Hod. -/
  | activate
  /-- RESTART (R773): Restarts Hod alone. -/
  | restart
  /-- CLRSWAP (R809): Clears the coolant-swap flag. -/
  | clrswap
  /-- WATCHDOG_EXPIRY (R773): The Hod watchdog expires and restarts Hod with event 0x5054. -/
  | watchdogExpiry
  /-- TRIAL_TIMEOUT (R794): A trial image not committed within 60 s falls back to the previous bank. -/
  | trialTimeout
  /-- IMAGE_COMMIT (R795): A trial image commits and may raise the anti-rollback counter. -/
  | imageCommit
  /-- BOOT_ROM (R811): The boot ROM checks RECOV_N, runs a valid bank and measures it. -/
  | bootRom (recov : Bool) (m : Modules) (bad : BitVec 8)
  /-- RECOVERY (R797): The boot ROM accepts an image from the tray controller into bank A. -/
  | recovery (img : Bytes)
  /-- SENSOR_SAMPLE (R775): Hardware samples every die sensor and compares with ALERT and TRIP. -/
  | sensorSample (reads : List (Nat × BitVec 16)) (suspect : List Nat)
  /-- STACK_TEMP_READ (R776): Hod reads each powered stack's temperature every 10 ms. -/
  | stackTempRead (st : Stack) (t : BitVec 16) (e : MemEnv)
  /-- COOLANT_READ (R776): Hod reads the coolant sensors every 100 ms. -/
  | coolantRead (inlet : Option (BitVec 16)) (outlet : Option (BitVec 16))
  /-- LEAK (R809): LEAK_N asserted makes THERMTRIP_N assert within 1 ms. -/
  | leak
  /-- VOLTAGE_OUT_OF_WINDOW (R777): A domain out of its voltage window for 10 µs is handled as a fault. -/
  | voltageOutOfWindow (d : Fin 145) (mv : BitVec 16) (e : MemEnv)
  /-- OVERCURRENT (R809): A rail overcurrent stops the affected tile clocks. -/
  | overcurrent (g : Fin 8) (amps : BitVec 16) (e : MemEnv)
  /-- OVERCURRENT_CLOCK_RESTART (R809): Hod restarts the stopped tile clock 100 µs after an overcurrent trip. -/
  | overcurrentClockRestart (b : Brick)
  /-- PMB_ALERT (R779): Hod answers PMB_ALERT_N by reading the alert response and status. -/
  | pmbAlert (g : Fin 8) (status : BitVec 16) (phase : Option Nat) (output : Bool) (e : MemEnv)
  /-- TELEMETRY_POLL (R779): Hod reads regulator telemetry every 10 ms. -/
  | telemetryPoll (g : Fin 8) (vout : BitVec 16) (iout : BitVec 16)
  /-- GRANT_COMPUTE (R802): Every 1 ms Hod computes the package and brick grants. -/
  | grantCompute (meas : List (BitVec 16)) (other : BitVec 16)
  /-- EVENT_LOG (R780): An event record enters Hod's RAM ring. -/
  | eventLog
  /-- LOG_PERSIST (R784): A persisted record is written to the NOR log. -/
  | logPersist (ok : Bool)
  /-- LOG_DROP_REPORT (R782): While records are dropped Hod writes record 0x5010 once per second. -/
  | logDropReport
  /-- LOG_FETCH (R812): A write of HOD_LOGRD SEQ fetches a record from NOR. -/
  | logFetch (seq : BitVec 32)
  /-- BUS_RECOVERY (R808): Hod pulses a stuck sideband bus free or fails it. -/
  | busRecovery (bus : Fin 7) (how : BusEnd)
  /-- BUS_RETRY (R808): A failed sideband bus is tried again every 10 s. -/
  | busRetry (bus : Fin 7) (ok : Bool)
  /-- GET_VERSION (R798): SPDM GET_VERSION answered by Hod. -/
  | getVersion (req : Bytes)
  /-- GET_CAPABILITIES (R798): SPDM GET_CAPABILITIES answered by Hod. -/
  | getCapabilities (req : Bytes)
  /-- NEGOTIATE_ALGORITHMS (R798): SPDM NEGOTIATE_ALGORITHMS answered by Hod. -/
  | negotiateAlgorithms (req : Bytes)
  /-- GET_DIGESTS (R798): SPDM GET_DIGESTS answered by Hod. -/
  | getDigests (req : Bytes)
  /-- GET_CERTIFICATE (R799): SPDM GET_CERTIFICATE returns the slot 0 chain. -/
  | getCertificate (req : Bytes)
  /-- CHALLENGE (R798): SPDM CHALLENGE answered by Hod. -/
  | challenge (req : Bytes)
  /-- GET_MEASUREMENTS (R796): SPDM GET_MEASUREMENTS returns the measurement blocks. -/
  | getMeasurements (req : Bytes)
  /-- POWER_ON (R819): The always-on supply comes up and the power-on sequence runs. -/
  | powerOn (f : Option Factory)
  /-- COLD_RESET (R814): PKG_RST_N low holds Hod in reset and lowers the rails in order. -/
  | coldReset
  /-- COLD_RESET_RELEASE (R819): Release of PKG_RST_N starts the power-on sequence. -/
  | coldResetRelease
  /-- MAIN_POWER_LOSS (R813): MAIN_PWRGD falls or a main rail collapses and every switched domain is lost. -/
  | mainPowerLoss
  /-- MAIN_PWRGD_RISE (R823): The power-on sequence resumes when MAIN_PWRGD rises. -/
  | mainPwrgdRise (bad : BitVec 8)
  /-- MAIN_PWRGD_TIMEOUT (R823): MAIN_PWRGD not high within 1 s raises event 0x5103. -/
  | mainPwrgdTimeout
  /-- FABRIC_READY (R820): Hod declares fabric-ready when every used port has resolved or 1 s has passed. -/
  | fabricReady
  /-- PERST_DEASSERT (R822): Deassertion of HOST_PERST_N starts host link training. -/
  | perstDeassert
  /-- BRESET (R880): A write of BRESET requests a brick warm reset. -/
  | breset (b : Brick)
  /-- BRICK_WARM_RESET (R817): A brick's tiles go OFF, its uncore is reset and its incarnation raised. -/
  | brickWarmReset (b : Brick) (e : MemEnv)
  /-- BRICK_POWER_CYCLE (R818): An uncore domain returning to ON performs the reset steps of a brick warm reset. -/
  | brickPowerCycle (b : Brick)
  /-- SHADOW_VISIT_END (R840): A shadow visit ends after its length and the next visit begins. -/
  | shadowVisitEnd (b : Brick)
  /-- SHADOW_JOIN (R842): A tile unit joins the shadow at its next boundary, copying state. -/
  | shadowJoin (b : Brick) (unit : Fin 4)
  /-- SHADOW_MISMATCH (R843): The shadow detects an output differing from the active tile's. -/
  | shadowMismatch (b : Brick) (unit : Fin 5)
  /-- FENCE (R847): SAF_TCMD FENCE fences a logical tile. -/
  | fence (b : Brick) (k : Fin 32)
  /-- UNFENCE (R851): SAF_TCMD UNFENCE clears a tile's fence when its site is OFF and passed. -/
  | unfence (b : Brick) (k : Fin 32)
  /-- STEST (R852): SAF_TCMD STEST starts a site test on an OFF site. -/
  | stest (b : Brick) (site : Fin 64)
  /-- SITE_TEST_DONE (R852): A site test completes and records its result. -/
  | siteTestDone (b : Brick) (fail : BitVec 5)
  /-- AUTOTEST_START (R853): After a mismatch, once the fenced site may go OFF, Hod turns it OFF and tests it. -/
  | autotestStart (b : Brick)
  /-- ROTATION_PAUSE (R924): PAUSE written during a visit lets it end and then pauses rotation. -/
  | rotationPause (b : Brick) (pause : Bool)
  /-- BRICK_SAFE_STATE (R859): A brick enters its safe state: fences tiles, poisons bonds, downs links. -/
  | brickSafeState (b : Brick) (cause : Fin 5) (e : MemEnv)
  /-- AUTO_BRICK_RESET (R859): With AUTOBR, Hod warm-resets the brick once the cause clears. -/
  | autoBrickReset (b : Brick) (e : MemEnv)
  /-- BRICK_SAFE_ESCALATE (R859): A brick cause not cleared within 1 s escalates to the package safe state. -/
  | brickSafeEscalate (b : Brick) (e : MemEnv)
  /-- PACKAGE_SAFE_STATE (R860): The package enters its safe state, holding ports and retaining stacks. -/
  | packageSafeState (cause : Fin 4) (e : MemEnv)
  /-- SYNC_INTERVAL (R884): Every SYNCINT the UPPORT exchanges timestamps and the plumb slews or steps. -/
  | syncInterval
  /-- HOLDOVER_LIMIT (R887): Holdover longer than HOLDMAX clears ALIGNED. -/
  | holdoverLimit
  /-- SAMPLER_INSTANT (R897): At each INTV multiple the sampler latches the selected tiles' counters. -/
  | samplerInstant (b : Brick)
  /-- RING_RECORD_WRITE (R901): A record's stores are performed and PROD advances past it. -/
  | ringRecordWrite (b : Brick)
  /-- RING_ENABLE (R915): A write of EN = 1 enables a ring or is refused with CFG. -/
  | ringEnable (b : Brick) (trace : Bool)
  /-- CONS_WRITE (R900): A write of CONS frees ring space unless out of range. -/
  | consWrite (b : Brick) (trace : Bool) (v : Word)
  /-- PULL (R904): OBS_PGO latches the selected tiles' counters and writes records. -/
  | pull
  /-- PULL_DONE (R905): A pull sets DONE once its stores are performed, or ERR on a failed store. -/
  | pullDone
  /-- PC_SAMPLE (R908): A tile takes a PC sample every PCINT µs. -/
  | pcSample (t : Tile) (switching : Bool)
  /-- LOSS_MARKER (R911): After trace drops, a loss marker is written once space returns. -/
  | lossMarker (b : Brick)
  /-- DROP_EVENT_REPORT (R911): Dropped records are reported by event 0x7001 at most once per second per ring. -/
  | dropEventReport (b : Brick) (trace : Bool)
  /-- COUNTER_CLEAR (R895): CLR sets all 64 tile counters to zero in one cycle. -/
  | counterClear (t : Tile)
  /-- REFERENCE_CLOCK_RESTORED (R809): MREF stable again for 10 ms switches the tile and mortar clocks back, lets the ports retrain and raises event
  0x5053. -/
  | referenceClockRestored (clk : Fin 3)
  /-- HOD_RESTART_COMPLETE (R773): A Hod restart completes within 300 ms, Hod resumes grants and queued domain requests, and a watchdog restart
  raises event 0x5054. -/
  | hodRestartComplete
  /-- TREE_FORMAT_DONE (R679): The prefix-tree format finishes, BUSY clears and event 0x2301 is raised. -/
  | treeFormatDone (b : Brick) (e : MemEnv)
  /-- STACK_PHY_RETRAIN_DONE (R351): The single in-service PHY retrain of a stack ends within 40 µs, either releasing the held operations or failing
  the stack with event 0x2009. -/
  | stackPhyRetrainDone (st : Stack) (ok : Bool) (e : MemEnv)
  /-- HOST_CACHE_RESPONSE (R730): The host's CXL.cache response, global observation for a WOWrInv or WOWrInvF or data for a RdCurr, arrives and
  completes the device's region 0xB access. -/
  | hostCacheResponse (tag : Nat) (poisoned : Bool) (data : Bytes) (e : MemEnv)
  deriving DecidableEq, Repr

end Sys2Proof
end

