-- ==== Sys2Proof/Decode.lean ====
section
/-! DEFINITION. The command that a word spells. The rows of spec/opcode_table.json give their commands no bits: commands reach the block over its
links, pins and registers, whose own formats are decoded where they arrive (Machine/Codec.lean, Machine/Flits.lean, Machine/Operands.lean). -/
namespace Sys2Proof

/-- The command that a word of the table spells: none, because no row of the table gives bits. -/
def decodeTableWord (_nbits _w : Nat) : Option Instr := none

end Sys2Proof
end

