-- ==== Sys2Proof/Config.lean ====
section
/-! DEFINITION. The free values: what the spec leaves open, as constants without a body. Nothing can be proved about the value of any of them, so
a claim that holds of this model holds whatever a device gives there. -/
namespace Sys2Proof

/-- The n-th undefined byte drawn (data of a poisoned read, R379; what a rejected frame leaves in its tables). -/
opaque Config.freeByte : Nat → Byte

/-- The n-th choice that the spec leaves to the device without naming a rule: which fold entry or remote-copy line gives way (R324, R337). -/
opaque Config.freeIndex : Nat → Nat

/-- The n-th undefined word drawn. -/
opaque Config.freeWord : Nat → Word

/-- Which of the codes within the bound of R603 special function `f` of R597 gives for the FP32 code `x` with `iter` iterations: the spec gives the
bound, and that the value is the same on every tile (R604). -/
opaque Config.specialFn : (f iter x : Nat) → Nat

/-- The voltage, in mV, that the fused V/f table of a brick gives for a clock in units of 12.5 MHz (R801): a fuse, which the spec gives no values
for. -/
opaque Config.vfVolt : (brick freq : Nat) → Nat

/-- The 64 KiB of the boot ROM (R771), which the spec does not list. -/
opaque Config.bootRom : Bytes

/-- The signature, `r ‖ s` (96 B), that the device attestation key makes over a SHA-384 digest (R760, R799): the key comes from a unique secret. -/
opaque Config.deviceSign : Bytes → Bytes

/-- The certificate chain of slot 0 (R799), which the spec does not list. -/
opaque Config.certChain : Bytes

/-- The integrator's public key whose SHA-384 equals a fused INTKEY (R787), which Hod has to find by its hash. -/
opaque Config.keyOfHash : Bytes → Bytes

/-- The set of a brick's snoop filter that a sector falls into (R735): the spec gives the number of sets and ways, and no index. -/
opaque Config.snoopSet : (brick sector : Nat) → Nat

end Sys2Proof
end

