-- ==== Sys2Proof/Machine/Bits.lean ====
section
/-! DEFINITION. Bit fields, byte order and checksums: the helpers every other file computes with (R13, R14). -/
namespace Sys2Proof.Machine

/-- Bits [hi:lo] of `v`, both ends included (R13). -/
def bitsOf (v hi lo : Nat) : Nat := v / 2 ^ lo % 2 ^ (hi + 1 - lo)

/-- Bit `n` of `v`. -/
def bitOf (v n : Nat) : Bool := v / 2 ^ n % 2 == 1

/-- `v` with its bits [hi:lo] replaced by the low bits of `x`. -/
def withBits (v hi lo x : Nat) : Nat :=
  v - bitsOf v hi lo * 2 ^ lo + x % 2 ^ (hi + 1 - lo) * 2 ^ lo

/-- One bit for a Boolean. -/
def bit (b : Bool) : Nat := if b then 1 else 0

/-- The least natural number that `n` may saturate at in a field of `w` bits. -/
def satNat (w n : Nat) : Nat := min n (2 ^ w - 1)

/-- The `n` little-endian bytes of `v` (R14). -/
def leBytes : Nat → Nat → Bytes
  | 0, _ => []
  | n + 1, v => BitVec.ofNat 8 v :: leBytes n (v / 256)

/-- The number that little-endian bytes spell (R14). -/
def leNat : Bytes → Nat
  | [] => 0
  | b :: bs => b.toNat + 256 * leNat bs

/-- The signed value of the low `w` bits of `v`. -/
def sextInt (w v : Nat) : Int :=
  let m := v % 2 ^ w
  if m < 2 ^ (w - 1) then (m : Int) else (m : Int) - (2 : Int) ^ w

/-- The `w`-bit two's complement of an integer. -/
def wrapNat (w : Nat) (i : Int) : Nat := (i % (2 : Int) ^ w).toNat

/-- `v` rounded up to a whole number of `m`. -/
def ceilDiv (v m : Nat) : Nat := (v + m - 1) / m

/-- One step of a reflected CRC over a bit: `poly` is the reflected polynomial. -/
def crcBit (poly r : Nat) : Nat := if r % 2 == 1 then Nat.xor (r / 2) poly else r / 2

/-- One byte into a reflected CRC register. -/
def crcByte (poly r : Nat) (b : Byte) : Nat :=
  let r := Nat.xor r b.toNat
  let r := crcBit poly (crcBit poly (crcBit poly (crcBit poly r)))
  crcBit poly (crcBit poly (crcBit poly (crcBit poly r)))

/-- A reflected CRC with initial value and final XOR of 0xFFFF_FFFF. -/
def crcReflected (poly : Nat) (bs : Bytes) : Nat :=
  Nat.xor (bs.foldl (crcByte poly) 0xFFFFFFFF) 0xFFFFFFFF

/-- CRC-32 of R162: polynomial 0x04C1_1DB7, reflected. -/
def crc32 (bs : Bytes) : Nat := crcReflected 0xEDB88320 bs

/-- CRC-32C of R83: polynomial 0x1EDC_6F41, reflected. -/
def crc32c (bs : Bytes) : Nat := crcReflected 0x82F63B78 bs

/-- The indices of the set bits of `m` below `n`, lowest first. -/
def setBits (n m : Nat) : List Nat := (List.range n).filter (bitOf m)

/-- The number of set bits of `m` below `n`. -/
def popcount (n m : Nat) : Nat := (setBits n m).length

/-- `bs` cut or filled with zero bytes to exactly `n` bytes. -/
def padTo (n : Nat) (bs : Bytes) : Bytes := (bs ++ List.replicate (n - bs.length) 0).take n

end Sys2Proof.Machine
end

