-- ==== Sys2Proof/Machine/Codec.lean ====
section
/-! DEFINITION. Reed–Solomon codes over GF(2^m), as the flit code (R76 to R78, R81) and the page code (chapter 07) use them: systematic encoding,
and decoding of errors and erasures. A codeword is a list of symbols, the first the coefficient of the highest power. -/
namespace Sys2Proof.Machine

/-- A code: symbol width, primitive polynomial with its top bit, primitive element, and number of check symbols; the generator has the roots
α^0 … α^(checks − 1). -/
structure Code where
  m : Nat
  poly : Nat
  alpha : Nat
  checks : Nat

/-- Product in GF(2^m), over the bits of `b`. -/
def gfMulAux (m poly a : Nat) : Nat → Nat → Nat → Nat
  | 0, _, acc => acc
  | n + 1, b, acc =>
    let acc := acc * 2
    let acc := if bitOf acc m then Nat.xor acc poly else acc
    gfMulAux m poly a n b (if bitOf b n then Nat.xor acc a else acc)

/-- Product in the field of a code. -/
def gfMul (c : Code) (a b : Nat) : Nat := gfMulAux c.m c.poly a c.m b 0

/-- `a` to the power 2^n − 1 times `acc`^(2^n): the square-and-multiply ladder of an inverse. -/
def gfPowAux (c : Code) (a : Nat) : Nat → Nat → Nat
  | 0, acc => acc
  | n + 1, acc => gfPowAux c a n (gfMul c (gfMul c acc acc) a)

/-- The inverse of a non-zero element: a^(2^m − 2). -/
def gfInv (c : Code) (a : Nat) : Nat := let y := gfPowAux c a (c.m - 1) 1; gfMul c y y

/-- α^i. -/
def gfPow (c : Code) (x : Nat) : Nat → Nat
  | 0 => 1
  | n + 1 => gfMul c (gfPow c x n) x

/-- Value of a polynomial, highest coefficient first. -/
def gfEval (c : Code) (x : Nat) (p : List Nat) : Nat := p.foldl (fun acc a => Nat.xor (gfMul c acc x) a) 0

/-- Generator polynomial without its leading 1, highest coefficient first. -/
def rsGen (c : Code) : Nat → List Nat
  | 0 => []
  | n + 1 =>
    let g := rsGen c n
    let r := gfPow c c.alpha n
    -- (x^n + g)(x + r): coefficients of x^n down to x^0
    List.zipWith (fun a b => Nat.xor a (gfMul c b r)) (g ++ [0]) (1 :: g)

/-- The check symbols of a message: the remainder of m(x)·x^checks by the generator (R77). -/
def rsParity (c : Code) (msg : List Nat) : List Nat :=
  let g := rsGen c c.checks
  msg.foldl (fun r a =>
    let q := Nat.xor a (r.headD 0)
    List.zipWith (fun x y => Nat.xor x (gfMul c q y)) (r.drop 1 ++ [0]) g) (List.replicate c.checks 0)

/-- The syndromes of a received word. -/
def rsSyndromes (c : Code) (w : List Nat) : List Nat := (List.range c.checks).map (fun j => gfEval c (gfPow c c.alpha j) w)

/-- Product of polynomials, lowest coefficient first. -/
def polyMul (c : Code) (p q : List Nat) : List Nat :=
  (List.range (p.length + q.length - 1)).map (fun k =>
    (List.range (k + 1)).foldl (fun acc i => Nat.xor acc (gfMul c (p.getD i 0) (q.getD (k - i) 0))) 0)

/-- Value of a polynomial, lowest coefficient first. -/
def polyEval (c : Code) (x : Nat) (p : List Nat) : Nat := gfEval c x p.reverse

/-- The error-and-erasure locator by Berlekamp and Massey: lowest coefficient first, with the number of errors and erasures it stands for. -/
def rsLocator (c : Code) (syn : List Nat) (erase : List Nat) : List Nat × Nat :=
  let gamma := erase.foldl (fun g x => polyMul c g [1, x]) [1]
  let rho := erase.length
  let stepBm := fun (st : List Nat × List Nat × Nat) (n : Nat) =>
    let (lam, b, l) := st
    let delta := (List.range (lam.length)).foldl (fun acc i => if i ≤ n then Nat.xor acc (gfMul c (lam.getD i 0) (syn.getD (n - i) 0)) else acc) 0
    let b' := 0 :: b
    if delta = 0 then (lam, b', l) else
    let lam' := (List.range (max lam.length b'.length)).map (fun i => Nat.xor (lam.getD i 0) (gfMul c delta (b'.getD i 0)))
    if 2 * l ≤ n + rho then (lam', lam.map (fun x => gfMul c x (gfInv c delta)), n + 1 + rho - l) else (lam', b', l)
  let (lam, _, l) := ((List.range c.checks).drop rho).foldl stepBm (gamma, gamma, rho)
  (lam, l)

/-- Decoding: the corrected word and the positions corrected, counted from the first symbol; none where the word is uncorrectable.
`erase` lists erased positions. -/
def rsDecode (c : Code) (w : List Nat) (erase : List Nat) : Option (List Nat × List Nat) :=
  let n := w.length
  let syn := rsSyndromes c w
  if syn.all (fun x => x == 0) then some (w, []) else
  if c.checks < erase.length then none else
  let loc := fun (i : Nat) => gfPow c c.alpha (n - 1 - i)
  let (lam, l) := rsLocator c syn (erase.map loc)
  let pos := (List.range n).filter (fun i => polyEval c (gfInv c (loc i)) lam == 0)
  if pos.length ≠ l || c.checks < 2 * (l - erase.length) + erase.length then none else
  let omega := (polyMul c syn lam).take c.checks
  let dlam := lam.mapIdx (fun i a => (i, a))
  let err := fun (i : Nat) =>
    let x := loc i
    let xi := gfInv c x
    let d := dlam.foldl (fun acc e => if e.1 % 2 = 1 then Nat.xor acc (gfMul c e.2 (gfPow c xi (e.1 - 1))) else acc) 0
    gfMul c x (gfMul c (polyEval c xi omega) (gfInv c d))
  let w' := w.mapIdx (fun i a => if pos.contains i then Nat.xor a (err i) else a)
  if (rsSyndromes c w').all (fun x => x == 0) then some (w', pos.filter (fun i => w'.getD i 0 ≠ w.getD i 0)) else none

/-! ### The flit code (R76 to R78) -/

/-- The flit code: RS(136,128) over GF(2^8). -/
def flitCode : Code := { m := 8, poly := 0x11D, alpha := 2, checks := 8 }

/-- Every second element from an index. -/
def everySecond : List Nat → List Nat
  | [] => []
  | [a] => [a]
  | a :: _ :: t => a :: everySecond t

/-- Elements of two lists in turn. -/
def interleave : List Nat → List Nat → List Nat
  | a :: s, b :: t => a :: b :: interleave s t
  | s, [] => s
  | [], t => t

/-- The wire block of a flit: its 256 bytes and the interleaved parity of both codewords (R77, R78). -/
def wireBlock (flit : Bytes) : Bytes :=
  let v := flit.map BitVec.toNat
  flit ++ (interleave (rsParity flitCode (everySecond v)) (rsParity flitCode (everySecond (v.drop 1)))).map (BitVec.ofNat 8)

/-- A received wire block: the corrected 256 bytes and the wire-block positions that were corrected, or none where either codeword is
uncorrectable (R81). -/
def fecDecode (block : Bytes) : Option (Bytes × List Nat) :=
  let v := block.map BitVec.toNat
  match rsDecode flitCode (everySecond v) [], rsDecode flitCode (everySecond (v.drop 1)) [] with
  | some (a, ea), some (b, eb) =>
    if 4 < ea.length || 4 < eb.length then none else
    some (((interleave a b).take 256).map (BitVec.ofNat 8), ea.map (fun i => 2 * i) ++ eb.map (fun i => 2 * i + 1))
  | _, _ => none

end Sys2Proof.Machine
end

