-- ==== Sys2Proof/Machine/Tab.lean ====
section
/-! DEFINITION. Sparse tables: lists of (key, value) pairs with keys strictly rising, so that equal tables are equal data. -/
namespace Sys2Proof.Machine

/-- A sparse table keyed by a number, keys strictly rising. -/
abbrev Tab (α : Type) := List (Nat × α)

/-- The value listed for `k`, if any. -/
def tabFind {α : Type} : Tab α → Nat → Option α
  | [], _ => none
  | (k', v) :: t, k => if k' = k then some v else tabFind t k

/-- The value for `k`: the listed one, or `d`. -/
def tabGet {α : Type} (d : α) (t : Tab α) (k : Nat) : α := (tabFind t k).getD d

/-- The table with `v` listed for `k`. -/
def tabPut {α : Type} : Tab α → Nat → α → Tab α
  | [], k, v => [(k, v)]
  | (k', v') :: t, k, v =>
    if k < k' then (k, v) :: (k', v') :: t
    else if k = k' then (k, v) :: t
    else (k', v') :: tabPut t k v

/-- The table with nothing listed for `k`. -/
def tabErase {α : Type} : Tab α → Nat → Tab α
  | [], _ => []
  | (k', v') :: t, k => if k' = k then tabErase t k else (k', v') :: tabErase t k

/-- The table in which `k` reads `v`, where unlisted keys read `d`: `d` itself is never listed. -/
def tabSet {α : Type} [DecidableEq α] (d : α) (t : Tab α) (k : Nat) (v : α) : Tab α :=
  if v = d then tabErase t k else tabPut t k v

/-- The table with the value at `k` changed by `f`, unlisted keys reading `d`. -/
def tabMod {α : Type} (d : α) (t : Tab α) (k : Nat) (f : α → α) : Tab α :=
  tabPut t k (f (tabGet d t k))

/-- Every key is greater than `lo` and the keys rise strictly. -/
def tabSortedFrom {α : Type} : Nat → Tab α → Bool
  | _, [] => true
  | lo, (k, _) :: t => decide (lo < k) && tabSortedFrom k t

/-- The keys rise strictly. -/
def tabSorted {α : Type} : Tab α → Bool
  | [] => true
  | (k, _) :: t => tabSortedFrom k t

/-- The canonical form: keys rise strictly and no listed value is the value `d` that an unlisted key reads as. -/
def tabWf {α : Type} [DecidableEq α] (d : α) (t : Tab α) : Bool :=
  tabSorted t && t.all (fun e => decide (e.2 ≠ d))

end Sys2Proof.Machine
end

