-- ==== Sys2Proof/Machine/Regs.lean ====
section
/-! DEFINITION. The register map of region 0xA: every register block, register and field the spec lays out, its access code, its reset value
and the values a write may give it (R18, R19, R42, R43); and what one access does to a register's bits (R15, R19, R22, R933). -/
namespace Sys2Proof.Machine

/-- The access codes of R19. -/
inductive Access where
  | ro | rw | w1c | wo | rc | rws
  deriving DecidableEq, Repr

/-- Which values a write may give a field; any other value leaves the field unchanged. -/
inductive WriteRule where
  | any                            -- every value
  | upto (lo hi : Nat)             -- lo to hi, both included
  | orUpto (x lo hi : Nat)         -- x, or lo to hi
  | setBits (m : Nat)              -- every value, the bits of m always reading 1
  deriving DecidableEq, Repr

/-- One field of a register table: bits [hi:lo], access code, reset value, write rule. -/
structure FieldSpec where
  hi : Nat
  lo : Nat
  acc : Access
  reset : Nat
  rule : WriteRule
  deriving DecidableEq, Repr

/-- One register of a block: its name in the spec, its first offset, its width in bits, and up to two array
dimensions (stride and count each). -/
structure RegSpec where
  name : String
  base : Nat
  width : Nat
  stride1 : Nat
  count1 : Nat
  stride2 : Nat
  count2 : Nat
  fields : List FieldSpec
  deriving DecidableEq, Repr

/-- A field of one register, by the register's offset in region 0xA. -/
structure FieldRef where
  reg : Nat
  hi : Nat
  lo : Nat
  deriving DecidableEq, Repr

/-- Offset of a package-scope register (R42). -/
def pkgReg (blk off : Nat) : Nat := blk * 0x100000 + off
/-- Offset of a register of brick `b` (R42: scope 0x1 + b). -/
def brickReg (b blk off : Nat) : Nat := (b + 1) * 0x10000000 + blk * 0x100000 + off
/-- Offset of a register of logical tile `t` (R42: scope 0x8). -/
def tileReg (t blk off : Nat) : Nat := 0x80000000 + t * 0x200000 + blk * 0x10000 + off
/-- Offset of a register of package port `p` (R145). -/
def portReg (p off : Nat) : Nat := brickReg (p / 6) 0 (p % 6 * 0x1000 + off)
/-- Offset of a register of local bridge `q` of brick `b` (R145). -/
def bridgeReg (b q off : Nat) : Nat := brickReg b 0 (0x6000 + q * 0x1000 + off)
/-- Offset of a register of stack `st`, whose brick keeps the registers of its two stacks `stride` apart (R355, R412). -/
def stackReg (st blk stride off : Nat) : Nat := brickReg (st / 2) blk (st % 2 * stride + off)
/-- Offset of a register of an arbitration point: points 14b + n are brick b's, points 56 and 57 the package's (R441). -/
def labelPointReg (pt off : Nat) : Nat :=
  if pt < 56 then brickReg (pt / 14) 6 (pt % 14 * 0x400 + off) else pkgReg 7 ((pt - 56) * 0x400 + off)

/-- The pkg-scope block 0x0 (R43). -/
def seatBlock : List RegSpec := [
  ⟨"SEAT_OWN", 0, 64, 0x100000, 1, 0x100000, 1,
    [⟨32, 32, .ro, 0, .any⟩, ⟨31, 16, .ro, 0xffff, .any⟩, ⟨15, 8, .ro, 0, .any⟩]⟩,
  ⟨"SEAT_PID", 8, 64, 0x100000, 1, 0x100000, 1,
    [⟨15, 0, .ro, 0, .any⟩]⟩,
  ⟨"SEAT_INC", 0x10, 64, 0x100000, 1, 0x100000, 1,
    [⟨15, 0, .ro, 1, .any⟩]⟩,
  ⟨"SEAT_CAST", 0x18, 64, 0x100000, 1, 0x100000, 1,
    [⟨47, 32, .wo, 0, .any⟩, ⟨31, 0, .wo, 0, .any⟩]⟩,
  ⟨"SEAT_CSTAT", 0x20, 64, 0x100000, 1, 0x100000, 1,
    [⟨31, 0, .rc, 0, .any⟩]⟩,
  ⟨"SEAT_TBL", 0x10000, 32, 4, 65535, 0x100000, 1,
    [⟨31, 0, .rw, 0, .any⟩]⟩]

/-- The pkg-scope block 0x1 (R43). -/
def hstBlock : List RegSpec := [
  ⟨"HST_CTL", 0, 64, 0x100000, 1, 0x100000, 1,
    [⟨39, 32, .rw, 0xa, (.upto 1 255)⟩, ⟨0, 0, .rw, 0, .any⟩]⟩,
  ⟨"HST_STAT", 8, 64, 0x100000, 1, 0x100000, 1,
    [⟨31, 16, .ro, 0, .any⟩, ⟨15, 12, .ro, 0, .any⟩, ⟨11, 8, .ro, 0, .any⟩, ⟨7, 7, .ro, 0, .any⟩, ⟨6, 6, .ro, 0, .any⟩, ⟨5, 5, .ro, 0, .any⟩, ⟨4, 4, .ro, 0, .any⟩, ⟨3, 3, .ro, 0, .any⟩]⟩,
  ⟨"HST_ERR", 0x10, 64, 0x100000, 1, 0x100000, 1,
    [⟨4, 4, .w1c, 0, .any⟩, ⟨3, 3, .w1c, 0, .any⟩, ⟨2, 2, .w1c, 0, .any⟩, ⟨1, 1, .w1c, 0, .any⟩, ⟨0, 0, .w1c, 0, .any⟩]⟩,
  ⟨"HST_CNT0", 0x18, 64, 0x100000, 1, 0x100000, 1,
    [⟨63, 32, .rc, 0, .any⟩, ⟨31, 0, .rc, 0, .any⟩]⟩,
  ⟨"HST_CNT1", 0x20, 64, 0x100000, 1, 0x100000, 1,
    [⟨63, 32, .rc, 0, .any⟩, ⟨31, 16, .rc, 0, .any⟩, ⟨15, 0, .rc, 0, .any⟩]⟩,
  ⟨"HST_RECBASE", 0x28, 64, 0x100000, 1, 0x100000, 1,
    [⟨63, 0, .rw, 0, .any⟩]⟩,
  ⟨"HST_EVBASE", 0x30, 64, 0x100000, 1, 0x100000, 1,
    [⟨51, 12, .rw, 0, .any⟩]⟩,
  ⟨"HST_EVCFG", 0x38, 64, 0x100000, 1, 0x100000, 1,
    [⟨31, 16, .rw, 0, .any⟩, ⟨8, 8, .rw, 0, .any⟩, ⟨4, 0, .rw, 6, (.upto 6 16)⟩]⟩,
  ⟨"HST_MANSTAT", 0x40, 64, 0x100000, 1, 0x100000, 1,
    [⟨34, 34, .ro, 0, .any⟩, ⟨33, 33, .ro, 0, .any⟩, ⟨32, 32, .ro, 0, .any⟩, ⟨31, 0, .ro, 0, .any⟩]⟩,
  ⟨"HST_MANCMD", 0x48, 64, 0x100000, 1, 0x100000, 1,
    [⟨63, 32, .wo, 0, .any⟩, ⟨3, 0, .wo, 0, .any⟩]⟩,
  ⟨"HST_NONCE", 0x50, 64, 8, 4, 0x100000, 1,
    [⟨63, 0, .rw, 0, .any⟩]⟩,
  ⟨"HST_HWIN", 0x100, 64, 0x10, 16, 0x100000, 1,
    [⟨63, 63, .rw, 0, .any⟩, ⟨62, 62, .rw, 0, .any⟩, ⟨61, 61, .rw, 0, .any⟩, ⟨51, 12, .rw, 0, .any⟩]⟩,
  ⟨"HST_HWLIM", 0x108, 64, 0x10, 16, 0x100000, 1,
    [⟨39, 12, .rw, 0, .any⟩]⟩,
  ⟨"HST_DROP", 0x200, 64, 8, 16, 0x100000, 1,
    [⟨63, 63, .rw, 0, .any⟩, ⟨59, 56, .rw, 0, .any⟩, ⟨47, 44, .rw, 0, (.upto 0 8)⟩, ⟨43, 16, .rw, 0, .any⟩]⟩,
  ⟨"HST_HDM", 0x300, 64, 0x10, 8, 0x100000, 1,
    [⟨63, 63, .rw, 0, .any⟩, ⟨59, 56, .rw, 0, .any⟩, ⟨47, 44, .rw, 0, (.upto 0 7)⟩, ⟨43, 28, .rw, 0, .any⟩]⟩,
  ⟨"HST_HDMSZ", 0x308, 64, 0x10, 8, 0x100000, 1,
    [⟨15, 0, .rw, 0, .any⟩]⟩,
  ⟨"HST_CBASE", 0x1000, 64, 0x20, 32, 0x100000, 1,
    [⟨63, 63, .rw, 0, .any⟩, ⟨59, 56, .rw, 0, .any⟩, ⟨51, 12, .rw, 0, .any⟩, ⟨4, 0, .rw, 6, (.upto 6 16)⟩]⟩,
  ⟨"HST_QBASE", 0x1008, 64, 0x20, 32, 0x100000, 1,
    [⟨51, 12, .rw, 0, .any⟩, ⟨4, 0, .rw, 6, (.upto 6 16)⟩]⟩,
  ⟨"HST_RSTAT", 0x1010, 64, 0x20, 32, 0x100000, 1,
    [⟨63, 48, .ro, 0, .any⟩, ⟨47, 32, .ro, 0, .any⟩, ⟨31, 16, .ro, 0, .any⟩, ⟨15, 0, .ro, 0, .any⟩]⟩]

/-- The pkg-scope block 0x2 (R43). -/
def hodBlock : List RegSpec := [
  ⟨"HOD_STAT", 0, 64, 0x100000, 1, 0x100000, 1,
    [⟨31, 24, .ro, 0, .any⟩, ⟨23, 16, .ro, 0, .any⟩, ⟨15, 15, .ro, 0, .any⟩, ⟨14, 14, .ro, 0, .any⟩, ⟨13, 12, .ro, 0, .any⟩, ⟨11, 11, .ro, 0, .any⟩, ⟨10, 10, .ro, 0, .any⟩, ⟨9, 8, .ro, 0, .any⟩, ⟨7, 7, .ro, 0, .any⟩]⟩,
  ⟨"HOD_CMD", 8, 64, 0x100000, 1, 0x100000, 1,
    [⟨7, 0, .wo, 0, .any⟩]⟩,
  ⟨"HOD_CARG", 0x10, 64, 0x100000, 1, 0x100000, 1,
    [⟨63, 0, .rw, 0, .any⟩]⟩,
  ⟨"HOD_CSTAT", 0x18, 64, 0x100000, 1, 0x100000, 1,
    [⟨63, 63, .ro, 0, .any⟩, ⟨62, 62, .w1c, 0, .any⟩, ⟨61, 61, .w1c, 0, .any⟩, ⟨7, 0, .ro, 0, .any⟩]⟩,
  ⟨"HOD_VER", 0x20, 64, 0x100000, 1, 0x100000, 1,
    [⟨63, 32, .ro, 0, .any⟩, ⟨31, 0, .ro, 0, .any⟩]⟩,
  ⟨"HOD_PCAP", 0x28, 64, 0x100000, 1, 0x100000, 1,
    [⟨31, 16, .ro, 0x9c4, .any⟩, ⟨15, 0, .rw, 0x9c4, (.upto 500 2500)⟩]⟩,
  ⟨"HOD_BWGT", 0x30, 64, 0x100000, 1, 0x100000, 1,
    [⟨7, 0, .rw, 1, (.upto 1 255)⟩, ⟨15, 8, .rw, 1, (.upto 1 255)⟩, ⟨23, 16, .rw, 1, (.upto 1 255)⟩, ⟨31, 24, .rw, 1, (.upto 1 255)⟩]⟩,
  ⟨"HOD_THERM", 0x38, 64, 0x100000, 1, 0x100000, 1,
    [⟨63, 48, .ro, 0, .any⟩, ⟨47, 32, .ro, 0, .any⟩, ⟨31, 16, .ro, 0, .any⟩, ⟨7, 0, .ro, 0, .any⟩]⟩,
  ⟨"HOD_ERR", 0x40, 64, 0x100000, 1, 0x100000, 1,
    [⟨9, 9, .w1c, 0, .any⟩, ⟨8, 8, .w1c, 0, .any⟩, ⟨7, 7, .w1c, 0, .any⟩, ⟨6, 6, .w1c, 0, .any⟩, ⟨5, 5, .w1c, 0, .any⟩, ⟨4, 4, .w1c, 0, .any⟩, ⟨3, 3, .w1c, 0, .any⟩, ⟨2, 2, .w1c, 0, .any⟩, ⟨1, 1, .w1c, 0, .any⟩, ⟨0, 0, .w1c, 0, .any⟩]⟩,
  ⟨"HOD_LOGCTL", 0x48, 64, 0x100000, 1, 0x100000, 1,
    [⟨15, 0, .rw, 0x60, (.setBits 0x60)⟩]⟩,
  ⟨"HOD_LOGSTAT", 0x50, 64, 0x100000, 1, 0x100000, 1,
    [⟨63, 32, .ro, 0, .any⟩, ⟨31, 16, .rc, 0, .any⟩, ⟨12, 0, .ro, 0, .any⟩]⟩,
  ⟨"HOD_LOGRD", 0x58, 64, 0x100000, 1, 0x100000, 1,
    [⟨63, 63, .ro, 0, .any⟩, ⟨62, 62, .ro, 0, .any⟩, ⟨31, 0, .rw, 0, .any⟩]⟩,
  ⟨"HOD_LOGREC", 0x100, 64, 8, 8, 0x100000, 1,
    [⟨63, 0, .ro, 0, .any⟩]⟩,
  ⟨"HOD_TEMP", 0x1000, 64, 8, 212, 0x100000, 1,
    [⟨17, 16, .ro, 2, .any⟩, ⟨15, 0, .ro, 0, .any⟩]⟩,
  ⟨"HOD_VMON", 0x2000, 64, 8, 145, 0x100000, 1,
    [⟨16, 16, .ro, 0, .any⟩, ⟨15, 0, .ro, 0, .any⟩]⟩,
  ⟨"HOD_RAIL", 0x3000, 64, 8, 8, 0x100000, 1,
    [⟨63, 48, .ro, 0, .any⟩, ⟨47, 32, .ro, 0, .any⟩, ⟨31, 24, .ro, 0, .any⟩, ⟨23, 16, .ro, 0, .any⟩, ⟨15, 0, .ro, 0, .any⟩]⟩]

/-- The pkg-scope block 0x3 (R43). -/
def pwrBlock : List RegSpec := [
  ⟨"PWR_STAT", 0, 64, 0x100000, 1, 0x100000, 1,
    [⟨15, 12, .ro, 0, .any⟩, ⟨11, 8, .ro, 0, .any⟩, ⟨7, 7, .ro, 0, .any⟩, ⟨6, 6, .ro, 0, .any⟩, ⟨5, 5, .ro, 0, .any⟩, ⟨3, 0, .ro, 0, .any⟩]⟩,
  ⟨"PWR_ERR", 8, 64, 0x100000, 1, 0x100000, 1,
    [⟨4, 4, .w1c, 0, .any⟩, ⟨3, 3, .w1c, 0, .any⟩, ⟨2, 2, .w1c, 0, .any⟩, ⟨1, 1, .w1c, 0, .any⟩, ⟨0, 0, .w1c, 0, .any⟩]⟩,
  ⟨"PWR_PKG", 0x10, 64, 0x100000, 1, 0x100000, 1,
    [⟨31, 16, .ro, 0, .any⟩, ⟨15, 0, .ro, 0, .any⟩]⟩,
  ⟨"PWR_GRANT", 0x18, 64, 0x100000, 1, 0x100000, 1,
    [⟨15, 0, .ro, 0, .any⟩, ⟨31, 16, .ro, 0, .any⟩, ⟨47, 32, .ro, 0, .any⟩, ⟨63, 48, .ro, 0, .any⟩]⟩,
  ⟨"PWR_MEAS", 0x20, 64, 0x100000, 1, 0x100000, 1,
    [⟨15, 0, .ro, 0, .any⟩, ⟨31, 16, .ro, 0, .any⟩, ⟨47, 32, .ro, 0, .any⟩, ⟨63, 48, .ro, 0, .any⟩]⟩,
  ⟨"PWR_DVFS", 0x100, 64, 8, 4, 0x100000, 1,
    [⟨30, 24, .ro, 0x30, .any⟩, ⟨23, 23, .ro, 0, .any⟩, ⟨22, 16, .ro, 0x78, .any⟩, ⟨6, 0, .rw, 0x30, (.upto 0x30 0x78)⟩]⟩,
  ⟨"PWR_SITEMAP", 0x200, 64, 8, 4, 0x100000, 1,
    [⟨29, 24, .ro, 0x20, .any⟩, ⟨16, 16, .ro, 1, .any⟩, ⟨13, 8, .rw, 0x3f, (.orUpto 0x3F 0 0x20)⟩, ⟨5, 0, .rws, 0x20, (.upto 0 0x20)⟩]⟩,
  ⟨"PWR_DOM", 0x1000, 64, 8, 144, 0x100000, 1,
    [⟨15, 12, .ro, 0, .any⟩, ⟨9, 8, .ro, 0, .any⟩, ⟨4, 4, .ro, 0, .any⟩, ⟨1, 0, .rw, 0, .any⟩]⟩]

/-- The pkg-scope block 0x4 (R43). -/
def pkgSafBlock : List RegSpec := [
  ⟨"SAF_CTL", 0, 64, 0x100000, 1, 0x100000, 1,
    [⟨4, 4, .rw, 1, .any⟩, ⟨3, 3, .rw, 1, .any⟩, ⟨1, 1, .rws, 0, .any⟩, ⟨0, 0, .rw, 0, .any⟩]⟩,
  ⟨"SAF_STAT", 8, 64, 0x100000, 1, 0x100000, 1,
    [⟨15, 8, .ro, 0, .any⟩, ⟨7, 7, .ro, 0, .any⟩, ⟨3, 0, .ro, 0, .any⟩]⟩,
  ⟨"SAF_ERR", 0x10, 64, 0x100000, 1, 0x100000, 1,
    [⟨5, 5, .w1c, 0, .any⟩, ⟨4, 4, .w1c, 0, .any⟩, ⟨3, 3, .w1c, 0, .any⟩, ⟨2, 2, .w1c, 0, .any⟩, ⟨1, 1, .w1c, 0, .any⟩, ⟨0, 0, .w1c, 0, .any⟩]⟩,
  ⟨"SAF_KVLOG0", 0x18, 64, 0x100000, 1, 0x100000, 1,
    [⟨63, 48, .ro, 0, .any⟩, ⟨47, 47, .ro, 0, .any⟩, ⟨43, 40, .ro, 0, .any⟩, ⟨39, 32, .ro, 0, .any⟩]⟩,
  ⟨"SAF_KVLOG1", 0x20, 64, 0x100000, 1, 0x100000, 1,
    [⟨63, 0, .ro, 0, .any⟩]⟩,
  ⟨"SAF_KVCNT", 0x28, 64, 0x100000, 1, 0x100000, 1,
    [⟨31, 0, .rc, 0, .any⟩]⟩,
  ⟨"SAF_KEY", 0x1000, 64, 0x20, 256, 0x100000, 1,
    [⟨63, 63, .rw, 0, .any⟩, ⟨62, 62, .rw, 0, .any⟩, ⟨47, 44, .rw, 0, .any⟩, ⟨43, 12, .rw, 0, .any⟩]⟩,
  ⟨"SAF_KEY", 0x1008, 64, 0x20, 256, 0x100000, 1,
    [⟨43, 12, .rw, 0, .any⟩]⟩,
  ⟨"SAF_KEY", 0x1010, 64, 0x20, 256, 0x100000, 1,
    [⟨63, 48, .rw, 0, .any⟩, ⟨47, 32, .rw, 0, .any⟩, ⟨31, 16, .rw, 0, .any⟩, ⟨7, 0, .rw, 0, .any⟩]⟩,
  ⟨"SAF_KEY", 0x1018, 64, 0x20, 256, 0x100000, 1,
    [⟨59, 48, .rw, 0, .any⟩, ⟨43, 32, .rw, 0, .any⟩]⟩]

/-- The pkg-scope block 0x5 (R43). -/
def pkgObsBlock : List RegSpec := [
  ⟨"OBS_SMP", 0, 64, 0x1000, 4, 0x100000, 1,
    [⟨63, 63, .rw, 0, .any⟩, ⟨48, 32, .rw, 0x3e8, (.upto 10 100000)⟩, ⟨31, 0, .rw, 0xffffffff, .any⟩]⟩,
  ⟨"OBS_SCM", 8, 64, 0x1000, 4, 0x100000, 1,
    [⟨63, 0, .rw, 0xffffffffffffffff, .any⟩]⟩,
  ⟨"OBS_SBASE", 0x10, 64, 0x1000, 4, 0x100000, 1,
    [⟨63, 0, .rw, 0, .any⟩]⟩,
  ⟨"OBS_SRING", 0x18, 64, 0x1000, 4, 0x100000, 1,
    [⟨12, 8, .rw, 0, (.orUpto 0 12 30)⟩, ⟨4, 0, .rw, 0x10, (.upto 16 30)⟩]⟩,
  ⟨"OBS_SPROD", 0x20, 64, 0x1000, 4, 0x100000, 1,
    [⟨63, 0, .ro, 0, .any⟩]⟩,
  ⟨"OBS_SCONS", 0x28, 64, 0x1000, 4, 0x100000, 1,
    [⟨63, 0, .rw, 0, .any⟩]⟩,
  ⟨"OBS_SBOND", 0x30, 64, 0x1000, 4, 0x100000, 1,
    [⟨63, 0, .rw, 0, .any⟩]⟩,
  ⟨"OBS_TRC", 0x40, 64, 0x1000, 4, 0x100000, 1,
    [⟨63, 63, .rw, 0, .any⟩, ⟨12, 8, .rw, 0, (.orUpto 0 12 30)⟩, ⟨4, 0, .rw, 0x10, (.upto 16 30)⟩]⟩,
  ⟨"OBS_TBASE", 0x48, 64, 0x1000, 4, 0x100000, 1,
    [⟨63, 0, .rw, 0, .any⟩]⟩,
  ⟨"OBS_TPROD", 0x50, 64, 0x1000, 4, 0x100000, 1,
    [⟨63, 0, .ro, 0, .any⟩]⟩,
  ⟨"OBS_TCONS", 0x58, 64, 0x1000, 4, 0x100000, 1,
    [⟨63, 0, .rw, 0, .any⟩]⟩,
  ⟨"OBS_TBOND", 0x60, 64, 0x1000, 4, 0x100000, 1,
    [⟨63, 0, .rw, 0, .any⟩]⟩,
  ⟨"OBS_BTR", 0x68, 64, 0x1000, 4, 0x100000, 1,
    [⟨63, 63, .rw, 0, .any⟩, ⟨50, 50, .rw, 0, .any⟩, ⟨49, 49, .rw, 0, .any⟩, ⟨48, 48, .rw, 0, .any⟩, ⟨45, 32, .rw, 0x3fff, .any⟩, ⟨13, 0, .rw, 0, .any⟩]⟩,
  ⟨"OBS_STAMP", 0x70, 64, 0x1000, 4, 0x100000, 1,
    [⟨63, 63, .rw, 0, .any⟩, ⟨62, 62, .rw, 0, .any⟩, ⟨61, 61, .rw, 0, .any⟩, ⟨59, 56, .rw, 0, .any⟩, ⟨52, 48, .rw, 0, .any⟩, ⟨47, 32, .rw, 0, .any⟩, ⟨8, 0, .rw, 0, .any⟩]⟩,
  ⟨"OBS_ERR", 0x78, 64, 0x1000, 4, 0x100000, 1,
    [⟨3, 3, .w1c, 0, .any⟩, ⟨2, 2, .w1c, 0, .any⟩, ⟨1, 1, .w1c, 0, .any⟩, ⟨0, 0, .w1c, 0, .any⟩]⟩,
  ⟨"OBS_DROPS", 0x80, 64, 0x1000, 4, 0x100000, 1,
    [⟨63, 32, .rc, 0, .any⟩, ⟨31, 0, .rc, 0, .any⟩]⟩,
  ⟨"OBS_SKIPS", 0x88, 64, 0x1000, 4, 0x100000, 1,
    [⟨31, 0, .rc, 0, .any⟩]⟩,
  ⟨"OBS_PADDR", 0x8000, 64, 0x100000, 1, 0x100000, 1,
    [⟨63, 0, .rw, 0, .any⟩]⟩,
  ⟨"OBS_PT0", 0x8008, 64, 0x100000, 1, 0x100000, 1,
    [⟨63, 0, .rw, 0, .any⟩]⟩,
  ⟨"OBS_PT1", 0x8010, 64, 0x100000, 1, 0x100000, 1,
    [⟨63, 0, .rw, 0, .any⟩]⟩,
  ⟨"OBS_PCM", 0x8018, 64, 0x100000, 1, 0x100000, 1,
    [⟨63, 0, .rw, 0xffffffffffffffff, .any⟩]⟩,
  ⟨"OBS_PGO", 0x8020, 64, 0x100000, 1, 0x100000, 1,
    [⟨0, 0, .wo, 0, .any⟩]⟩,
  ⟨"OBS_PST", 0x8028, 64, 0x100000, 1, 0x100000, 1,
    [⟨63, 63, .ro, 0, .any⟩, ⟨62, 62, .w1c, 0, .any⟩, ⟨61, 61, .w1c, 0, .any⟩, ⟨39, 32, .ro, 0, .any⟩, ⟨7, 0, .ro, 0, .any⟩]⟩]

/-- The pkg-scope block 0x6 (R43). -/
def plbBlock : List RegSpec := [
  ⟨"PLB_CTL", 0, 64, 0x100000, 1, 0x100000, 1,
    [⟨63, 63, .rw, 0, .any⟩, ⟨62, 62, .rw, 0, .any⟩, ⟨61, 61, .rw, 0, .any⟩, ⟨52, 48, .rw, 0, (.upto 0 23)⟩, ⟨47, 32, .rw, 0x3e8, (.upto 100 10000)⟩, ⟨31, 16, .rw, 0x3c, .any⟩, ⟨15, 0, .rw, 0x10, (.upto 2 1000)⟩]⟩,
  ⟨"PLB_STAT", 8, 64, 0x100000, 1, 0x100000, 1,
    [⟨63, 63, .ro, 0, .any⟩, ⟨62, 62, .ro, 0, .any⟩, ⟨61, 61, .ro, 0, .any⟩, ⟨15, 0, .ro, 0, .any⟩]⟩,
  ⟨"PLB_NOW", 0x10, 64, 0x100000, 1, 0x100000, 1,
    [⟨63, 0, .ro, 0, .any⟩]⟩,
  ⟨"PLB_THETA", 0x18, 64, 0x100000, 1, 0x100000, 1,
    [⟨63, 0, .ro, 0, .any⟩]⟩,
  ⟨"PLB_FREQ", 0x20, 64, 0x100000, 1, 0x100000, 1,
    [⟨63, 0, .ro, 0, .any⟩]⟩,
  ⟨"PLB_STEP", 0x28, 64, 0x100000, 1, 0x100000, 1,
    [⟨63, 0, .ro, 0, .any⟩]⟩,
  ⟨"PLB_PTHETA", 0x1000, 64, 0x20, 24, 0x100000, 1,
    [⟨63, 0, .ro, 0, .any⟩]⟩,
  ⟨"PLB_PDELTA", 0x1008, 64, 0x20, 24, 0x100000, 1,
    [⟨63, 63, .ro, 0, .any⟩, ⟨15, 0, .ro, 0, .any⟩]⟩,
  ⟨"PLB_PTMEAS", 0x1010, 64, 0x20, 24, 0x100000, 1,
    [⟨63, 0, .ro, 0, .any⟩]⟩]

/-- The pkg-scope block 0x7 (R43). -/
def pkgLblBlock : List RegSpec := [
  ⟨"LBL_CFG", 0, 64, 0x400, 2, 8, 16,
    [⟨47, 40, .rw, 0x10, .any⟩, ⟨34, 32, .rw, 0, .any⟩, ⟨15, 0, .rw, 0, .any⟩]⟩,
  ⟨"LBL_MEAS", 0x80, 64, 0x400, 2, 8, 16,
    [⟨63, 48, .ro, 0, .any⟩, ⟨47, 40, .ro, 0, .any⟩, ⟨34, 32, .ro, 0, .any⟩, ⟨31, 0, .ro, 0, .any⟩]⟩,
  ⟨"LBL_PCTL", 0x100, 64, 0x400, 2, 0x100000, 1,
    [⟨55, 40, .rw, 0x3e8, (.upto 1 65535)⟩, ⟨39, 36, .rw, 4, (.upto 1 8)⟩, ⟨35, 26, .rw, 0x64, (.upto 0 1000)⟩, ⟨25, 16, .rw, 0xfa, (.upto 0 1000)⟩, ⟨9, 0, .rw, 0x1e, (.upto 0 1000)⟩]⟩,
  ⟨"LBL_MISSST", 0x108, 64, 0x400, 2, 0x100000, 1,
    [⟨15, 0, .w1c, 0, .any⟩]⟩,
  ⟨"LBL_MISSEN", 0x110, 64, 0x400, 2, 0x100000, 1,
    [⟨15, 0, .rw, 0xffff, .any⟩]⟩]

/-- The brick-scope block 0x0 (R43). -/
def mrtBlock : List RegSpec := [
  ⟨"MRT_PCTL", 0, 64, 0x1000, 6, 0x100000, 1,
    [⟨15, 12, .rw, 4, .any⟩, ⟨11, 11, .rws, 1, .any⟩, ⟨10, 10, .rw, 1, .any⟩, ⟨9, 8, .rw, 0, (.upto 0 2)⟩, ⟨2, 2, .wo, 0, .any⟩, ⟨1, 1, .wo, 0, .any⟩, ⟨0, 0, .rw, 0, .any⟩]⟩,
  ⟨"MRT_PSTAT", 8, 64, 0x1000, 6, 0x100000, 1,
    [⟨63, 48, .ro, 0, .any⟩, ⟨47, 43, .ro, 0, .any⟩, ⟨39, 32, .ro, 0, .any⟩, ⟨31, 24, .ro, 0, .any⟩, ⟨23, 16, .ro, 0, .any⟩, ⟨15, 15, .ro, 0, .any⟩, ⟨14, 13, .ro, 0, .any⟩, ⟨12, 11, .ro, 0, .any⟩, ⟨7, 4, .ro, 0, .any⟩, ⟨3, 0, .ro, 0, .any⟩]⟩,
  ⟨"MRT_RETRY", 0x10, 64, 0x1000, 6, 0x100000, 1,
    [⟨27, 16, .rw, 0x64, (.upto 20 200)⟩, ⟨15, 4, .rw, 0xc8, (.upto 50 400)⟩, ⟨3, 0, .rw, 8, (.upto 1 15)⟩]⟩,
  ⟨"MRT_PERR", 0x18, 64, 0x1000, 6, 0x100000, 1,
    [⟨8, 8, .w1c, 0, .any⟩, ⟨7, 7, .w1c, 0, .any⟩, ⟨6, 6, .w1c, 0, .any⟩, ⟨5, 5, .w1c, 0, .any⟩, ⟨4, 4, .w1c, 0, .any⟩, ⟨3, 3, .w1c, 0, .any⟩, ⟨2, 2, .w1c, 0, .any⟩, ⟨1, 1, .w1c, 0, .any⟩, ⟨0, 0, .w1c, 0, .any⟩]⟩,
  ⟨"MRT_PCNT0", 0x20, 64, 0x1000, 6, 0x100000, 1,
    [⟨63, 32, .rc, 0, .any⟩, ⟨31, 0, .rc, 0, .any⟩]⟩,
  ⟨"MRT_PCNT1", 0x28, 64, 0x1000, 6, 0x100000, 1,
    [⟨47, 32, .rc, 0, .any⟩, ⟨31, 16, .rc, 0, .any⟩, ⟨15, 0, .rc, 0, .any⟩]⟩,
  ⟨"MRT_RTT", 0x30, 64, 0x1000, 6, 0x100000, 1,
    [⟨15, 0, .ro, 0, .any⟩]⟩,
  ⟨"MRT_LANEERR", 0x48, 64, 0x1000, 6, 0x100000, 1,
    [⟨7, 0, .rc, 0, .any⟩, ⟨15, 8, .rc, 0, .any⟩, ⟨23, 16, .rc, 0, .any⟩, ⟨31, 24, .rc, 0, .any⟩, ⟨39, 32, .rc, 0, .any⟩, ⟨47, 40, .rc, 0, .any⟩, ⟨55, 48, .rc, 0, .any⟩, ⟨63, 56, .rc, 0, .any⟩]⟩,
  ⟨"MRT_TTMO", 0x10000, 64, 0x100000, 1, 0x100000, 1,
    [⟨47, 32, .rw, 0x3e8, (.upto 100 8000)⟩, ⟨31, 28, .rw, 4, (.upto 1 15)⟩, ⟨19, 0, .rw, 0x190, (.upto 0x28 0x186A0)⟩]⟩,
  ⟨"MRT_TFLOW", 0x10008, 64, 0x100000, 1, 0x100000, 1,
    [⟨44, 32, .rw, 0x400, (.upto 1 4096)⟩, ⟨31, 16, .rw, 0x7d0, .any⟩, ⟨15, 8, .rw, 0x14, (.upto 1 255)⟩]⟩,
  ⟨"MRT_TROUTE", 0x10010, 64, 0x100000, 1, 0x100000, 1,
    [⟨16, 16, .rw, 1, .any⟩, ⟨15, 8, .rw, 0x10, .any⟩]⟩,
  ⟨"MRT_TERR", 0x10018, 64, 0x100000, 1, 0x100000, 1,
    [⟨8, 8, .w1c, 0, .any⟩, ⟨7, 7, .w1c, 0, .any⟩, ⟨6, 6, .w1c, 0, .any⟩, ⟨5, 5, .w1c, 0, .any⟩, ⟨4, 4, .w1c, 0, .any⟩, ⟨3, 3, .w1c, 0, .any⟩, ⟨2, 2, .w1c, 0, .any⟩, ⟨1, 1, .w1c, 0, .any⟩, ⟨0, 0, .w1c, 0, .any⟩]⟩,
  ⟨"MRT_TCNT0", 0x10020, 64, 0x100000, 1, 0x100000, 1,
    [⟨63, 32, .rc, 0, .any⟩, ⟨31, 0, .rc, 0, .any⟩]⟩,
  ⟨"MRT_TCNT1", 0x10028, 64, 0x100000, 1, 0x100000, 1,
    [⟨63, 32, .rc, 0, .any⟩, ⟨31, 0, .rc, 0, .any⟩]⟩,
  ⟨"MRT_TOPEN", 0x10030, 64, 0x100000, 1, 0x100000, 1,
    [⟨48, 32, .ro, 0, .any⟩, ⟨16, 0, .ro, 0, .any⟩]⟩,
  ⟨"MRT_VCCR0", 0x38, 64, 0x1000, 6, 0x100000, 1,
    [⟨15, 0, .rw, 0x2000, .any⟩, ⟨31, 16, .rw, 0x2000, .any⟩, ⟨47, 32, .rw, 0x2000, .any⟩, ⟨63, 48, .rw, 0x2000, .any⟩]⟩,
  ⟨"MRT_VCCR1", 0x40, 64, 0x1000, 6, 0x100000, 1,
    [⟨15, 0, .rw, 0x2000, .any⟩, ⟨31, 16, .rw, 0x2000, .any⟩, ⟨47, 32, .rw, 0x2000, .any⟩, ⟨63, 48, .rw, 0x2000, .any⟩]⟩,
  ⟨"MRT_TRAY", 0x20000, 64, 8, 8, 0x100000, 1,
    [⟨23, 0, .rw, 0, .any⟩]⟩,
  ⟨"MRT_WALL", 0x20100, 64, 8, 64, 0x100000, 1,
    [⟨27, 27, .rw, 0, .any⟩, ⟨26, 24, .rw, 0, .any⟩, ⟨23, 0, .rw, 0, .any⟩]⟩,
  ⟨"MRT_SITE", 0x20400, 64, 8, 128, 0x100000, 1,
    [⟨33, 33, .rw, 0, .any⟩, ⟨32, 30, .rw, 0, .any⟩, ⟨29, 24, .rw, 0, .any⟩, ⟨23, 0, .rw, 0, .any⟩]⟩,
  ⟨"MRT_BCTL", 0x6000, 64, 0x1000, 3, 0x100000, 1,
    [⟨1, 1, .wo, 0, .any⟩, ⟨0, 0, .rw, 0, .any⟩]⟩,
  ⟨"MRT_BSTAT", 0x6008, 64, 0x1000, 3, 0x100000, 1,
    [⟨63, 46, .ro, 0, .any⟩, ⟨45, 44, .ro, 0, .any⟩]⟩,
  ⟨"MRT_BRETRY", 0x6010, 64, 0x1000, 3, 0x100000, 1,
    [⟨27, 16, .rw, 0xa, (.upto 5 200)⟩, ⟨15, 4, .rw, 0x32, (.upto 20 400)⟩, ⟨3, 0, .rw, 8, (.upto 1 15)⟩]⟩,
  ⟨"MRT_BERR", 0x6018, 64, 0x1000, 3, 0x100000, 1,
    [⟨8, 8, .w1c, 0, .any⟩, ⟨7, 7, .w1c, 0, .any⟩, ⟨6, 6, .w1c, 0, .any⟩, ⟨5, 5, .w1c, 0, .any⟩, ⟨4, 4, .w1c, 0, .any⟩, ⟨3, 3, .w1c, 0, .any⟩, ⟨2, 2, .w1c, 0, .any⟩, ⟨1, 1, .w1c, 0, .any⟩, ⟨0, 0, .w1c, 0, .any⟩]⟩,
  ⟨"MRT_BCNT0", 0x6020, 64, 0x1000, 3, 0x100000, 1,
    [⟨63, 32, .rc, 0, .any⟩, ⟨31, 0, .rc, 0, .any⟩]⟩,
  ⟨"MRT_BCNT1", 0x6028, 64, 0x1000, 3, 0x100000, 1,
    [⟨47, 32, .rc, 0, .any⟩, ⟨31, 16, .rc, 0, .any⟩, ⟨15, 0, .rc, 0, .any⟩]⟩]

/-- The brick-scope block 0x1 (R43). -/
def bndBlock : List RegSpec := [
  ⟨"BND_CTL", 0, 64, 0x100000, 1, 0x100000, 1,
    [⟨31, 16, .rw, 0x3e8, (.orUpto 0 100 60000)⟩]⟩,
  ⟨"BND_STAT", 8, 64, 0x100000, 1, 0x100000, 1,
    [⟨47, 32, .ro, 0, .any⟩, ⟨16, 0, .ro, 0, .any⟩]⟩,
  ⟨"BND_ERR", 0x10, 64, 0x100000, 1, 0x100000, 1,
    [⟨6, 6, .w1c, 0, .any⟩, ⟨5, 5, .w1c, 0, .any⟩, ⟨4, 4, .w1c, 0, .any⟩, ⟨3, 3, .w1c, 0, .any⟩, ⟨2, 2, .w1c, 0, .any⟩, ⟨1, 1, .w1c, 0, .any⟩, ⟨0, 0, .w1c, 0, .any⟩]⟩,
  ⟨"BND_CNT0", 0x18, 64, 0x100000, 1, 0x100000, 1,
    [⟨63, 32, .rc, 0, .any⟩, ⟨31, 0, .rc, 0, .any⟩]⟩,
  ⟨"BND_CNT1", 0x20, 64, 0x100000, 1, 0x100000, 1,
    [⟨63, 32, .rc, 0, .any⟩, ⟨31, 16, .rc, 0, .any⟩, ⟨15, 0, .rc, 0, .any⟩]⟩,
  ⟨"BND_CNT2", 0x28, 64, 0x100000, 1, 0x100000, 1,
    [⟨63, 32, .rc, 0, .any⟩, ⟨31, 16, .rc, 0, .any⟩, ⟨15, 0, .rc, 0, .any⟩]⟩,
  ⟨"BND_PLOG", 0x30, 64, 0x100000, 1, 0x100000, 1,
    [⟨31, 24, .ro, 0, .any⟩, ⟨13, 0, .ro, 0, .any⟩]⟩]

/-- The brick-scope block 0x2 (R43). -/
def stkBlock : List RegSpec := [
  ⟨"STK_CTL", 0, 64, 0x10000, 2, 0x100000, 1,
    [⟨31, 24, .rw, 0x20, (.upto 1 0xFF)⟩, ⟨15, 12, .rw, 2, (.upto 1 2)⟩, ⟨8, 8, .rw, 1, .any⟩]⟩,
  ⟨"STK_STAT", 8, 64, 0x10000, 2, 0x100000, 1,
    [⟨39, 16, .ro, 0, .any⟩, ⟨15, 12, .ro, 0, .any⟩, ⟨9, 8, .ro, 0, .any⟩, ⟨0, 0, .ro, 0, .any⟩]⟩,
  ⟨"STK_ERR", 0x10, 64, 0x10000, 2, 0x100000, 1,
    [⟨3, 3, .w1c, 0, .any⟩, ⟨2, 2, .w1c, 0, .any⟩, ⟨1, 1, .w1c, 0, .any⟩, ⟨0, 0, .w1c, 0, .any⟩]⟩,
  ⟨"STK_RDCNT", 0x18, 64, 0x10000, 2, 0x100000, 1,
    [⟨63, 0, .rc, 0, .any⟩]⟩,
  ⟨"STK_WRCNT", 0x20, 64, 0x10000, 2, 0x100000, 1,
    [⟨63, 0, .rc, 0, .any⟩]⟩,
  ⟨"STK_GRCNT", 0x28, 64, 0x10000, 2, 0x100000, 1,
    [⟨63, 0, .rc, 0, .any⟩]⟩,
  ⟨"STK_ODCNT", 0x30, 64, 0x10000, 2, 0x100000, 1,
    [⟨63, 32, .rc, 0, .any⟩, ⟨31, 0, .rc, 0, .any⟩]⟩,
  ⟨"STK_BEDCTL", 0x20000, 64, 0x100000, 1, 0x100000, 1,
    [⟨3, 0, .rw, 4, (.upto 0 8)⟩]⟩,
  ⟨"STK_BEDERR", 0x20008, 64, 0x100000, 1, 0x100000, 1,
    [⟨1, 1, .w1c, 0, .any⟩, ⟨0, 0, .w1c, 0, .any⟩]⟩,
  ⟨"STK_BEDHIT", 0x20010, 64, 0x100000, 1, 0x100000, 1,
    [⟨63, 0, .rc, 0, .any⟩]⟩,
  ⟨"STK_BEDMISS", 0x20018, 64, 0x100000, 1, 0x100000, 1,
    [⟨63, 0, .rc, 0, .any⟩]⟩,
  ⟨"STK_BEDECC", 0x20020, 64, 0x100000, 1, 0x100000, 1,
    [⟨63, 32, .rc, 0, .any⟩, ⟨31, 0, .rc, 0, .any⟩]⟩]

/-- The brick-scope block 0x3 (R43). -/
def foldBlock : List RegSpec := [
  ⟨"FOLD_CTL", 0, 64, 0x100000, 1, 0x100000, 1,
    [⟨1, 1, .wo, 0, .any⟩, ⟨0, 0, .wo, 0, .any⟩]⟩,
  ⟨"FOLD_CHG", 8, 64, 0x100000, 1, 0x100000, 1,
    [⟨49, 49, .wo, 0, .any⟩, ⟨48, 48, .wo, 0, .any⟩, ⟨47, 32, .wo, 0, .any⟩, ⟨14, 0, .wo, 0, .any⟩]⟩,
  ⟨"FOLD_CHGST", 0x10, 64, 0x100000, 1, 0x100000, 1,
    [⟨31, 31, .ro, 0, .any⟩, ⟨30, 30, .w1c, 0, .any⟩, ⟨14, 0, .ro, 0, .any⟩]⟩,
  ⟨"FOLD_STAT", 0x18, 64, 0x100000, 1, 0x100000, 1,
    [⟨28, 16, .ro, 0, .any⟩, ⟨12, 0, .ro, 0, .any⟩]⟩,
  ⟨"FOLD_ERR", 0x20, 64, 0x100000, 1, 0x100000, 1,
    [⟨3, 3, .w1c, 0, .any⟩, ⟨2, 2, .w1c, 0, .any⟩, ⟨1, 1, .w1c, 0, .any⟩, ⟨0, 0, .w1c, 0, .any⟩]⟩,
  ⟨"FOLD_CNT", 0x28, 64, 8, 2, 0x100000, 1,
    [⟨63, 0, .rc, 0, .any⟩]⟩,
  ⟨"FOLD_MAP", 0x1000, 64, 0x1000, 2, 8, 384,
    [⟨63, 0, .ro, 0, .any⟩]⟩]

/-- The brick-scope block 0x4 (R43). -/
def pgcBlock : List RegSpec := [
  ⟨"PGC_CTL", 0, 64, 0x1000, 2, 0x100000, 1,
    [⟨23, 16, .rw, 0, .any⟩, ⟨12, 12, .rw, 1, .any⟩, ⟨11, 11, .rw, 1, .any⟩, ⟨10, 10, .rw, 1, .any⟩, ⟨9, 9, .rw, 0, .any⟩, ⟨2, 0, .rw, 0, .any⟩]⟩,
  ⟨"PGC_STAT", 8, 64, 0x1000, 2, 0x100000, 1,
    [⟨15, 8, .ro, 0, .any⟩, ⟨2, 0, .ro, 0, .any⟩]⟩,
  ⟨"PGC_ERR", 0x10, 64, 0x1000, 2, 0x100000, 1,
    [⟨6, 6, .w1c, 0, .any⟩, ⟨5, 5, .w1c, 0, .any⟩, ⟨4, 4, .w1c, 0, .any⟩, ⟨3, 3, .w1c, 0, .any⟩, ⟨2, 2, .w1c, 0, .any⟩, ⟨1, 1, .w1c, 0, .any⟩, ⟨0, 0, .w1c, 0, .any⟩]⟩,
  ⟨"PGC_CNT0", 0x18, 64, 0x1000, 2, 0x100000, 1,
    [⟨63, 32, .rc, 0, .any⟩, ⟨31, 0, .rc, 0, .any⟩]⟩,
  ⟨"PGC_CNT1", 0x20, 64, 0x1000, 2, 0x100000, 1,
    [⟨63, 32, .rc, 0, .any⟩, ⟨31, 0, .rc, 0, .any⟩]⟩,
  ⟨"PGC_CLR", 0x28, 64, 0x1000, 2, 0x100000, 1,
    [⟨63, 63, .wo, 0, .any⟩, ⟨47, 24, .wo, 0, .any⟩, ⟨23, 0, .wo, 0, .any⟩]⟩,
  ⟨"PGC_CLRST", 0x30, 64, 0x1000, 2, 0x100000, 1,
    [⟨63, 63, .ro, 0, .any⟩, ⟨62, 62, .w1c, 0, .any⟩, ⟨23, 0, .ro, 0, .any⟩]⟩,
  ⟨"PGC_STRICT", 0x40, 64, 0x1000, 2, 8, 8,
    [⟨63, 63, .rw, 0, .any⟩, ⟨47, 24, .rw, 0, .any⟩, ⟨23, 0, .rw, 0, .any⟩]⟩,
  ⟨"PGC_SDESC", 0x100, 64, 0x1000, 2, 8, 4,
    [⟨63, 0, .rw, 0, .any⟩]⟩,
  ⟨"PGC_SCMD", 0x120, 64, 0x1000, 2, 0x100000, 1,
    [⟨2, 0, .wo, 0, .any⟩]⟩,
  ⟨"PGC_SSTAT", 0x128, 64, 0x1000, 2, 0x100000, 1,
    [⟨63, 61, .ro, 0, .any⟩, ⟨23, 0, .ro, 0, .any⟩]⟩]

/-- The brick-scope block 0x5 (R43). -/
def rmpBlock : List RegSpec := [
  ⟨"RMP_SPUSE", 0x80, 64, 0x1000, 2, 0x100000, 1,
    [⟨63, 0, .ro, 0, .any⟩]⟩,
  ⟨"RMP_WORN", 0x88, 64, 0x1000, 2, 0x100000, 1,
    [⟨63, 0, .w1c, 0, .any⟩]⟩,
  ⟨"RMP_CMD", 0x90, 64, 0x1000, 2, 0x100000, 1,
    [⟨63, 61, .wo, 0, .any⟩, ⟨52, 48, .wo, 0, .any⟩, ⟨23, 0, .wo, 0, .any⟩]⟩,
  ⟨"RMP_CSTAT", 0x98, 64, 0x1000, 2, 0x100000, 1,
    [⟨63, 63, .ro, 0, .any⟩, ⟨62, 62, .w1c, 0, .any⟩, ⟨61, 61, .w1c, 0, .any⟩, ⟨3, 0, .ro, 0, .any⟩]⟩,
  ⟨"RMP_ENT", 0, 64, 0x1000, 2, 8, 16,
    [⟨63, 63, .ro, 0, .any⟩, ⟨55, 32, .ro, 0, .any⟩, ⟨5, 0, .ro, 0, .any⟩]⟩]

/-- The brick-scope block 0x6 (R43). -/
def lblBlock : List RegSpec := [
  ⟨"LBL_CFG", 0, 64, 0x400, 14, 8, 16,
    [⟨47, 40, .rw, 0x10, .any⟩, ⟨34, 32, .rw, 0, .any⟩, ⟨15, 0, .rw, 0, .any⟩]⟩,
  ⟨"LBL_MEAS", 0x80, 64, 0x400, 14, 8, 16,
    [⟨63, 48, .ro, 0, .any⟩, ⟨47, 40, .ro, 0, .any⟩, ⟨34, 32, .ro, 0, .any⟩, ⟨31, 0, .ro, 0, .any⟩]⟩,
  ⟨"LBL_PCTL", 0x100, 64, 0x400, 14, 0x100000, 1,
    [⟨55, 40, .rw, 0x3e8, (.upto 1 65535)⟩, ⟨39, 36, .rw, 4, (.upto 1 8)⟩, ⟨35, 26, .rw, 0x64, (.upto 0 1000)⟩, ⟨25, 16, .rw, 0xfa, (.upto 0 1000)⟩, ⟨9, 0, .rw, 0x1e, (.upto 0 1000)⟩]⟩,
  ⟨"LBL_MISSST", 0x108, 64, 0x400, 14, 0x100000, 1,
    [⟨15, 0, .w1c, 0, .any⟩]⟩,
  ⟨"LBL_MISSEN", 0x110, 64, 0x400, 14, 0x100000, 1,
    [⟨15, 0, .rw, 0xffff, .any⟩]⟩,
  ⟨"LBL_PERMIT", 0x4000, 64, 8, 8, 0x100000, 1,
    [⟨15, 0, .rw, 0x1fff, .any⟩, ⟨31, 16, .rw, 0x1fff, .any⟩, ⟨47, 32, .rw, 0x1fff, .any⟩, ⟨63, 48, .rw, 0x1fff, .any⟩]⟩]

/-- The brick-scope block 0x7 (R43). -/
def slbBlock : List RegSpec := [
  ⟨"SLB_CTL", 0, 64, 0x100000, 1, 0x100000, 1,
    [⟨47, 32, .rw, 0, .any⟩, ⟨2, 2, .wo, 0, .any⟩, ⟨0, 0, .rw, 0, .any⟩]⟩,
  ⟨"SLB_TBASE", 8, 64, 0x100000, 1, 0x100000, 1,
    [⟨47, 44, .rw, 0, .any⟩, ⟨43, 12, .rw, 0, .any⟩]⟩,
  ⟨"SLB_DBASE0", 0x10, 64, 0x100000, 1, 0x100000, 1,
    [⟨47, 44, .rw, 0, .any⟩, ⟨43, 16, .rw, 0, .any⟩]⟩,
  ⟨"SLB_DBASE1", 0x18, 64, 0x100000, 1, 0x100000, 1,
    [⟨47, 44, .rw, 0, .any⟩, ⟨43, 16, .rw, 0, .any⟩]⟩,
  ⟨"SLB_DCNT", 0x20, 64, 0x100000, 1, 0x100000, 1,
    [⟨55, 32, .rw, 0, .any⟩, ⟨23, 0, .rw, 0, .any⟩]⟩,
  ⟨"SLB_STAT", 0x28, 64, 0x100000, 1, 0x100000, 1,
    [⟨63, 48, .ro, 0, .any⟩, ⟨47, 24, .ro, 0, .any⟩, ⟨23, 0, .ro, 0, .any⟩]⟩,
  ⟨"SLB_STATE", 0x30, 64, 0x100000, 1, 0x100000, 1,
    [⟨44, 32, .ro, 0, .any⟩, ⟨5, 4, .ro, 0, .any⟩, ⟨2, 2, .ro, 0, .any⟩, ⟨1, 1, .ro, 0, .any⟩]⟩,
  ⟨"SLB_PINS", 0x38, 64, 0x100000, 1, 0x100000, 1,
    [⟨63, 32, .ro, 0, .any⟩, ⟨31, 0, .ro, 0, .any⟩]⟩,
  ⟨"SLB_ERR", 0x40, 64, 0x100000, 1, 0x100000, 1,
    [⟨5, 5, .w1c, 0, .any⟩, ⟨4, 4, .w1c, 0, .any⟩, ⟨3, 3, .w1c, 0, .any⟩, ⟨2, 2, .w1c, 0, .any⟩, ⟨1, 1, .w1c, 0, .any⟩, ⟨0, 0, .w1c, 0, .any⟩]⟩,
  ⟨"SLB_CNT0", 0x48, 64, 0x100000, 1, 0x100000, 1,
    [⟨63, 32, .rc, 0, .any⟩, ⟨31, 0, .rc, 0, .any⟩]⟩,
  ⟨"SLB_CNT1", 0x50, 64, 0x100000, 1, 0x100000, 1,
    [⟨63, 32, .rc, 0, .any⟩, ⟨31, 0, .rc, 0, .any⟩]⟩,
  ⟨"SLB_HPINS", 0x58, 64, 0x100000, 1, 0x100000, 1,
    [⟨63, 32, .ro, 0, .any⟩, ⟨31, 0, .ro, 0, .any⟩]⟩,
  ⟨"SLB_JDESC", 0x100, 64, 8, 4, 0x100000, 1,
    [⟨63, 0, .rw, 0, .any⟩]⟩,
  ⟨"SLB_JCMD", 0x120, 64, 0x100000, 1, 0x100000, 1,
    [⟨2, 0, .wo, 0, .any⟩]⟩,
  ⟨"SLB_JSTAT", 0x128, 64, 0x100000, 1, 0x100000, 1,
    [⟨63, 61, .ro, 0, .any⟩, ⟨25, 24, .ro, 0, .any⟩, ⟨23, 0, .ro, 0, .any⟩]⟩]

/-- The brick-scope block 0x8 (R43). -/
def pfxBlock : List RegSpec := [
  ⟨"PFX_CTL", 0, 64, 0x100000, 1, 0x100000, 1,
    [⟨20, 16, .rw, 0x10, (.upto 8 24)⟩, ⟨13, 8, .rw, 0, .any⟩, ⟨2, 2, .wo, 0, .any⟩, ⟨0, 0, .rw, 0, .any⟩]⟩,
  ⟨"PFX_NBASE", 8, 64, 0x100000, 1, 0x100000, 1,
    [⟨47, 44, .rw, 0, .any⟩, ⟨43, 12, .rw, 0, .any⟩]⟩,
  ⟨"PFX_BBASE", 0x18, 64, 0x100000, 1, 0x100000, 1,
    [⟨47, 44, .rw, 0, .any⟩, ⟨43, 12, .rw, 0, .any⟩]⟩,
  ⟨"PFX_NCNT", 0x10, 64, 0x100000, 1, 0x100000, 1,
    [⟨23, 0, .rw, 0, .any⟩]⟩,
  ⟨"PFX_STAT", 0x20, 64, 0x100000, 1, 0x100000, 1,
    [⟨49, 49, .ro, 0, .any⟩, ⟨48, 48, .ro, 0, .any⟩, ⟨47, 24, .ro, 0, .any⟩, ⟨23, 0, .ro, 0, .any⟩]⟩,
  ⟨"PFX_ERR", 0x28, 64, 0x100000, 1, 0x100000, 1,
    [⟨3, 3, .w1c, 0, .any⟩, ⟨2, 2, .w1c, 0, .any⟩, ⟨1, 1, .w1c, 0, .any⟩, ⟨0, 0, .w1c, 0, .any⟩]⟩,
  ⟨"PFX_CNT0", 0x30, 64, 0x100000, 1, 0x100000, 1,
    [⟨63, 32, .rc, 0, .any⟩, ⟨31, 0, .rc, 0, .any⟩]⟩,
  ⟨"PFX_CNT1", 0x38, 64, 0x100000, 1, 0x100000, 1,
    [⟨63, 32, .rc, 0, .any⟩, ⟨31, 0, .rc, 0, .any⟩]⟩,
  ⟨"PFX_KSEL", 0x40, 64, 0x100000, 1, 0x100000, 1,
    [⟨16, 16, .ro, 0, .any⟩, ⟨11, 0, .rw, 0, .any⟩]⟩,
  ⟨"PFX_KEY0", 0x48, 64, 0x100000, 1, 0x100000, 1,
    [⟨63, 0, .wo, 0, .any⟩]⟩,
  ⟨"PFX_KEY1", 0x50, 64, 0x100000, 1, 0x100000, 1,
    [⟨63, 0, .wo, 0, .any⟩]⟩,
  ⟨"PFX_KCLR", 0x58, 64, 0x100000, 1, 0x100000, 1,
    [⟨0, 0, .wo, 0, .any⟩]⟩]

/-- The brick-scope block 0x9 (R43). -/
def brickSafBlock : List RegSpec := [
  ⟨"SAF_BCTL", 0, 64, 0x100000, 1, 0x100000, 1,
    [⟨4, 4, .wo, 0, .any⟩, ⟨0, 0, .rw, 0, .any⟩]⟩,
  ⟨"SAF_BSTAT", 8, 64, 0x100000, 1, 0x100000, 1,
    [⟨63, 32, .ro, 0, .any⟩, ⟨31, 16, .ro, 0, .any⟩, ⟨10, 6, .ro, 0, .any⟩, ⟨5, 5, .ro, 0, .any⟩, ⟨4, 4, .ro, 0, .any⟩, ⟨3, 3, .ro, 0, .any⟩]⟩,
  ⟨"SAF_FENCED", 0x10, 64, 0x100000, 1, 0x100000, 1,
    [⟨31, 0, .ro, 0, .any⟩]⟩,
  ⟨"SAF_TCMD", 0x18, 64, 0x100000, 1, 0x100000, 1,
    [⟨63, 56, .wo, 0, .any⟩, ⟨13, 8, .wo, 0, .any⟩, ⟨4, 0, .wo, 0, .any⟩]⟩,
  ⟨"SAF_STRES", 0x20, 64, 0x100000, 1, 0x100000, 1,
    [⟨63, 63, .ro, 0, .any⟩, ⟨62, 62, .w1c, 0, .any⟩, ⟨61, 61, .ro, 0, .any⟩, ⟨13, 8, .ro, 0, .any⟩, ⟨4, 0, .ro, 0, .any⟩]⟩,
  ⟨"SAF_CNT0", 0x28, 64, 0x100000, 1, 0x100000, 1,
    [⟨63, 32, .rc, 0, .any⟩, ⟨31, 16, .rc, 0, .any⟩, ⟨15, 0, .rc, 0, .any⟩]⟩,
  ⟨"SAF_TREC", 0x100, 64, 8, 32, 0x100000, 1,
    [⟨7, 0, .ro, 0, .any⟩]⟩,
  ⟨"SAF_VP", 0x200, 64, 8, 32, 0x100000, 1,
    [⟨63, 0, .ro, 0, .any⟩]⟩]

/-- The tile-scope block 0x0 (R43). -/
def msnBlock : List RegSpec := [
  ⟨"MSN_CTL", 0, 64, 0x100000, 1, 0x100000, 1,
    [⟨11, 8, .rw, 0, .any⟩, ⟨4, 4, .wo, 0, .any⟩, ⟨3, 3, .wo, 0, .any⟩, ⟨2, 2, .wo, 0, .any⟩, ⟨1, 1, .wo, 0, .any⟩, ⟨0, 0, .wo, 0, .any⟩]⟩,
  ⟨"MSN_STAT", 8, 64, 0x100000, 1, 0x100000, 1,
    [⟨63, 48, .ro, 0, .any⟩, ⟨47, 32, .ro, 0, .any⟩, ⟨27, 24, .ro, 0, .any⟩, ⟨23, 23, .ro, 0, .any⟩, ⟨22, 20, .ro, 0, .any⟩, ⟨18, 16, .ro, 0, .any⟩, ⟨5, 5, .ro, 0, .any⟩, ⟨4, 4, .ro, 0, .any⟩, ⟨3, 0, .ro, 0, .any⟩]⟩,
  ⟨"MSN_ENTRY", 0x10, 64, 0x100000, 1, 0x100000, 1,
    [⟨16, 2, .rw, 0, .any⟩]⟩,
  ⟨"MSN_VBASE", 0x18, 64, 0x100000, 1, 0x100000, 1,
    [⟨16, 11, .rw, 0, .any⟩]⟩,
  ⟨"MSN_SSPLO", 0x20, 64, 0x100000, 1, 0x100000, 1,
    [⟨22, 7, .rw, 0, .any⟩]⟩,
  ⟨"MSN_SSPHI", 0x28, 64, 0x100000, 1, 0x100000, 1,
    [⟨22, 7, .rw, 0, (.upto 0 0xC000)⟩]⟩,
  ⟨"MSN_SPILL", 0x30, 64, 0x100000, 1, 0x100000, 1,
    [⟨63, 48, .ro, 0, .any⟩, ⟨22, 7, .ro, 0, .any⟩]⟩,
  ⟨"MSN_TRAP", 0x38, 64, 0x100000, 1, 0x100000, 1,
    [⟨63, 32, .ro, 0, .any⟩, ⟨16, 2, .ro, 0, .any⟩]⟩,
  ⟨"MSN_XVAL", 0x40, 64, 0x100000, 1, 0x100000, 1,
    [⟨63, 0, .ro, 0, .any⟩]⟩,
  ⟨"MSN_DFLT", 0x48, 64, 0x100000, 1, 0x100000, 1,
    [⟨63, 63, .ro, 0, .any⟩, ⟨55, 48, .ro, 0, .any⟩, ⟨47, 40, .ro, 0, .any⟩, ⟨39, 32, .ro, 0, .any⟩, ⟨16, 2, .ro, 0, .any⟩]⟩,
  ⟨"MSN_OPERR", 0x50, 64, 0x100000, 1, 0x100000, 1,
    [⟨63, 63, .ro, 0, .any⟩, ⟨62, 62, .w1c, 0, .any⟩, ⟨39, 32, .ro, 0, .any⟩, ⟨31, 24, .ro, 0, .any⟩, ⟨15, 8, .ro, 0, .any⟩]⟩,
  ⟨"MSN_OPADDR", 0x58, 64, 0x100000, 1, 0x100000, 1,
    [⟨63, 0, .ro, 0, .any⟩]⟩,
  ⟨"MSN_ERR", 0x60, 64, 0x100000, 1, 0x100000, 1,
    [⟨3, 3, .w1c, 0, .any⟩, ⟨2, 2, .w1c, 0, .any⟩, ⟨1, 1, .w1c, 0, .any⟩, ⟨0, 0, .w1c, 0, .any⟩]⟩,
  ⟨"MSN_CNT0", 0x68, 64, 0x100000, 1, 0x100000, 1,
    [⟨63, 0, .rc, 0, .any⟩]⟩,
  ⟨"MSN_CNT1", 0x70, 64, 0x100000, 1, 0x100000, 1,
    [⟨63, 32, .rc, 0, .any⟩, ⟨31, 0, .rc, 0, .any⟩]⟩,
  ⟨"MSN_BKPT", 0x80, 64, 8, 4, 0x100000, 1,
    [⟨16, 2, .rw, 0, .any⟩, ⟨0, 0, .rw, 0, .any⟩]⟩]

/-- The tile-scope block 0x1 (R43). -/
def prsBlock : List RegSpec := [
  ⟨"PRS_CTL", 0, 64, 0x100000, 1, 0x100000, 1,
    [⟨9, 9, .rws, 0, .any⟩, ⟨8, 8, .wo, 0, .any⟩, ⟨0, 0, .wo, 0, .any⟩]⟩,
  ⟨"PRS_STAT", 8, 64, 0x100000, 1, 0x100000, 1,
    [⟨29, 24, .ro, 0, .any⟩, ⟨8, 8, .ro, 0, .any⟩, ⟨4, 4, .ro, 0, .any⟩, ⟨1, 1, .ro, 0, .any⟩, ⟨0, 0, .ro, 0, .any⟩]⟩,
  ⟨"PRS_ERR", 0x10, 64, 0x100000, 1, 0x100000, 1,
    [⟨3, 3, .w1c, 0, .any⟩, ⟨2, 2, .w1c, 0, .any⟩, ⟨1, 1, .w1c, 0, .any⟩, ⟨0, 0, .w1c, 0, .any⟩]⟩,
  ⟨"PRS_REFUSE", 0x18, 64, 0x100000, 1, 0x100000, 1,
    [⟨39, 32, .ro, 0, .any⟩, ⟨31, 28, .ro, 0, .any⟩, ⟨16, 0, .ro, 0, .any⟩]⟩,
  ⟨"PRS_CNT0", 0x20, 64, 0x100000, 1, 0x100000, 1,
    [⟨63, 32, .rc, 0, .any⟩, ⟨31, 0, .rc, 0, .any⟩]⟩,
  ⟨"PRS_CNT1", 0x28, 64, 0x100000, 1, 0x100000, 1,
    [⟨63, 32, .rc, 0, .any⟩, ⟨31, 0, .rc, 0, .any⟩]⟩]

/-- The tile-scope block 0x2 (R43). -/
def glzBlock : List RegSpec := [
  ⟨"GLZ_CTL", 0, 64, 0x100000, 1, 0x100000, 1,
    [⟨0, 0, .wo, 0, .any⟩]⟩,
  ⟨"GLZ_STAT", 8, 64, 0x100000, 1, 0x100000, 1,
    [⟨63, 32, .ro, 0, .any⟩, ⟨29, 24, .ro, 0, .any⟩, ⟨0, 0, .ro, 0, .any⟩]⟩,
  ⟨"GLZ_ERR", 0x10, 64, 0x100000, 1, 0x100000, 1,
    [⟨2, 2, .w1c, 0, .any⟩, ⟨1, 1, .w1c, 0, .any⟩, ⟨0, 0, .w1c, 0, .any⟩]⟩,
  ⟨"GLZ_REFUSE", 0x18, 64, 0x100000, 1, 0x100000, 1,
    [⟨39, 32, .ro, 0, .any⟩, ⟨31, 28, .ro, 0, .any⟩, ⟨7, 0, .ro, 0, .any⟩]⟩,
  ⟨"GLZ_CNT0", 0x20, 64, 0x100000, 1, 0x100000, 1,
    [⟨63, 32, .rc, 0, .any⟩, ⟨31, 0, .rc, 0, .any⟩]⟩]

/-- The tile-scope block 0x3 (R43). -/
def sfnBlock : List RegSpec := [
  ⟨"SFN_CTL", 0, 64, 0x100000, 1, 0x100000, 1,
    [⟨4, 4, .rw, 1, .any⟩, ⟨1, 0, .rw, 2, (.upto 1 3)⟩]⟩,
  ⟨"SFN_STAT", 8, 64, 0x100000, 1, 0x100000, 1,
    [⟨1, 1, .w1c, 0, .any⟩, ⟨0, 0, .w1c, 0, .any⟩]⟩,
  ⟨"SFN_FLUSH0", 0x10, 64, 0x100000, 1, 0x100000, 1,
    [⟨31, 0, .rw, 0xc2ae0000, .any⟩]⟩,
  ⟨"SFN_FLUSH1", 0x18, 64, 0x100000, 1, 0x100000, 1,
    [⟨31, 0, .rw, 0xff800000, .any⟩]⟩,
  ⟨"SFN_FLUSH2", 0x20, 64, 0x100000, 1, 0x100000, 1,
    [⟨31, 0, .rw, 0xff800000, .any⟩]⟩,
  ⟨"SFN_CNT", 0x28, 64, 0x100000, 1, 0x100000, 1,
    [⟨63, 32, .rc, 0, .any⟩, ⟨31, 0, .rc, 0, .any⟩]⟩]

/-- The tile-scope block 0x4 (R43). -/
def fmtBlock : List RegSpec := [
  ⟨"FMT_CTL", 0, 64, 0x100000, 1, 0x100000, 1,
    [⟨9, 8, .rw, 0, (.upto 0 1)⟩, ⟨4, 4, .rw, 0, .any⟩]⟩,
  ⟨"FMT_STAT", 8, 64, 0x100000, 1, 0x100000, 1,
    [⟨5, 5, .w1c, 0, .any⟩, ⟨4, 4, .w1c, 0, .any⟩, ⟨3, 3, .w1c, 0, .any⟩, ⟨2, 2, .w1c, 0, .any⟩, ⟨1, 1, .w1c, 0, .any⟩, ⟨0, 0, .w1c, 0, .any⟩]⟩,
  ⟨"FMT_CNT", 0x10, 64, 0x100000, 1, 0x100000, 1,
    [⟨63, 32, .rc, 0, .any⟩, ⟨31, 0, .rc, 0, .any⟩]⟩]

/-- The tile-scope block 0x5 (R43). -/
def sveBlock : List RegSpec := [
  ⟨"SVE_CTL", 0, 64, 0x100000, 1, 0x100000, 1,
    [⟨3, 3, .wo, 0, .any⟩, ⟨2, 2, .wo, 0, .any⟩, ⟨1, 1, .wo, 0, .any⟩, ⟨0, 0, .wo, 0, .any⟩]⟩,
  ⟨"SVE_STAT", 8, 64, 0x100000, 1, 0x100000, 1,
    [⟨63, 61, .ro, 0, .any⟩, ⟨55, 48, .ro, 0, .any⟩, ⟨44, 40, .ro, 0, .any⟩, ⟨31, 0, .ro, 0, .any⟩]⟩,
  ⟨"SVE_ERR", 0x10, 64, 0x100000, 1, 0x100000, 1,
    [⟨5, 5, .w1c, 0, .any⟩, ⟨4, 4, .w1c, 0, .any⟩, ⟨3, 3, .w1c, 0, .any⟩, ⟨2, 2, .w1c, 0, .any⟩, ⟨1, 1, .w1c, 0, .any⟩, ⟨0, 0, .w1c, 0, .any⟩]⟩,
  ⟨"SVE_REFUSE", 0x18, 64, 0x100000, 1, 0x100000, 1,
    [⟨39, 32, .ro, 0, .any⟩, ⟨31, 28, .ro, 0, .any⟩, ⟨16, 0, .ro, 0, .any⟩]⟩,
  ⟨"SVE_CNT0", 0x20, 64, 0x100000, 1, 0x100000, 1,
    [⟨63, 32, .rc, 0, .any⟩, ⟨31, 0, .rc, 0, .any⟩]⟩,
  ⟨"SVE_CNT1", 0x28, 64, 0x100000, 1, 0x100000, 1,
    [⟨63, 32, .rc, 0, .any⟩, ⟨31, 0, .rc, 0, .any⟩]⟩,
  ⟨"SVE_CNT2", 0x30, 64, 0x100000, 1, 0x100000, 1,
    [⟨63, 32, .rc, 0, .any⟩, ⟨31, 0, .rc, 0, .any⟩]⟩]

/-- The tile-scope block 0x6 (R43). -/
def tileObsBlock : List RegSpec := [
  ⟨"OBS_TILE", 0, 64, 0x100000, 1, 0x100000, 1,
    [⟨47, 32, .rw, 0x3e8, (.upto 1 65535)⟩, ⟨4, 4, .rw, 0, .any⟩, ⟨3, 3, .rw, 0, .any⟩, ⟨2, 2, .rw, 0, .any⟩, ⟨1, 1, .wo, 0, .any⟩, ⟨0, 0, .rw, 1, .any⟩]⟩,
  ⟨"OBS_CNT", 0x100, 64, 8, 64, 0x100000, 1,
    [⟨63, 0, .ro, 0, .any⟩]⟩]

/-- The register blocks of each scope (R43). -/
def pkgBlock : Nat → List RegSpec
  | 0 => seatBlock | 1 => hstBlock | 2 => hodBlock | 3 => pwrBlock
  | 4 => pkgSafBlock | 5 => pkgObsBlock | 6 => plbBlock | 7 => pkgLblBlock
  | _ => []
/-- The register blocks of brick scope (R43). -/
def brickBlock : Nat → List RegSpec
  | 0 => mrtBlock | 1 => bndBlock | 2 => stkBlock | 3 => foldBlock | 4 => pgcBlock
  | 5 => rmpBlock | 6 => lblBlock | 7 => slbBlock | 8 => pfxBlock | 9 => brickSafBlock
  | _ => []
/-- The register blocks of tile scope (R43). -/
def tileBlock : Nat → List RegSpec
  | 0 => msnBlock | 1 => prsBlock | 2 => glzBlock | 3 => sfnBlock
  | 4 => fmtBlock | 5 => sveBlock | 6 => tileObsBlock
  | _ => []

/-- Where an offset of region 0xA leads (R42). -/
inductive RegScope where
  | pkg (blk : Nat)
  | brick (b blk : Nat)
  | tile (t blk : Nat)
  | reserved
  deriving DecidableEq, Repr

/-- The scope and block an offset [31:0] of region 0xA names, and the offset within the block (R42). -/
def regScope (off : Nat) : RegScope × Nat :=
  let sc := bitsOf off 31 28
  if sc = 0 then (.pkg (bitsOf off 27 20), bitsOf off 19 0)
  else if sc ≤ 4 then (.brick (sc - 1) (bitsOf off 27 20), bitsOf off 19 0)
  else if sc = 8 then (.tile (bitsOf off 27 21) (bitsOf off 20 16), bitsOf off 15 0)
  else (.reserved, 0)

/-- The registers of the block an offset names; none where the scope or the block is reserved (R42, R43). -/
def scopeRegs : RegScope → List RegSpec
  | .pkg blk => pkgBlock blk
  | .brick _ blk => brickBlock blk
  | .tile _ blk => tileBlock blk
  | .reserved => []

/-- The start of the copy of `r` that holds block offset `o`, when `o` lies in one. -/
def RegSpec.startOf (r : RegSpec) (o : Nat) : Option Nat :=
  if o < r.base then none else
  let d := o - r.base
  let i := d / r.stride1
  let d1 := d % r.stride1
  let j := d1 / r.stride2
  if i < r.count1 && j < r.count2 && d1 % r.stride2 < r.width / 8 then
    some (r.base + i * r.stride1 + j * r.stride2) else none

/-- The register of a block list that covers block offset `o`, and its first block offset. -/
def findReg : List RegSpec → Nat → Option (RegSpec × Nat)
  | [], _ => none
  | r :: rs, o => match r.startOf o with
    | some st => some (r, st)
    | none => findReg rs o

/-- The register an offset of region 0xA lies in, and the offset of its first byte. -/
def regAt (off : Nat) : Option (RegSpec × Nat) :=
  let (sc, o) := regScope off
  match findReg (scopeRegs sc) o with
  | some (r, st) => some (r, off - o + st)
  | none => none

/-- The reset value of a register (R18). -/
def RegSpec.resetNat (r : RegSpec) : Nat := r.fields.foldl (fun v f => withBits v f.hi f.lo f.reset) 0

/-- The reset value of the register at an offset: zero at a reserved one (R16). -/
def regResetAt (off : Nat) : Word :=
  match regAt off with
  | some (r, _) => BitVec.ofNat 64 r.resetNat
  | none => 0

/-- Whether a write may give a field the value `v`, and the value it then takes. -/
def WriteRule.apply : WriteRule → Nat → Option Nat
  | .any, v => some v
  | .upto lo hi, v => if lo ≤ v && v ≤ hi then some v else none
  | .orUpto x lo hi, v => if v = x || (lo ≤ v && v ≤ hi) then some v else none
  | .setBits m, v => some (Nat.lor v m)

/-- What a write of `v` under the bit mask `mask` does to one field of a register holding `old` (R19, R22): a field that the mask
does not touch keeps its value, and so does one that the rule does not let take the value. -/
def FieldSpec.write (f : FieldSpec) (sealed : Bool) (old v mask cur : Nat) : Nat :=
  let m := bitsOf mask f.hi f.lo
  let o := bitsOf old f.hi f.lo
  let x := Nat.lor (Nat.land o (Nat.xor m (2 ^ (f.hi + 1 - f.lo) - 1))) (Nat.land (bitsOf v f.hi f.lo) m)
  let set := if m = 0 then o else (f.rule.apply x).getD o
  match f.acc with
  | .rw => withBits cur f.hi f.lo set
  | .rws => if sealed then cur else withBits cur f.hi f.lo set
  | .w1c => withBits cur f.hi f.lo (o - Nat.land o (Nat.land (bitsOf v f.hi f.lo) m))
  | .ro | .wo | .rc => cur

/-- The register's value after a write of `v` under `mask` (R19). -/
def RegSpec.write (r : RegSpec) (sealed : Bool) (old v mask : Nat) : Nat :=
  r.fields.foldl (fun cur f => f.write sealed old v mask cur) old

/-- Whether the write counts as a write to a sealed field of the register: it carries a value that differs from the
field's current one (R22). -/
def RegSpec.writesSealed (r : RegSpec) (old v mask : Nat) : Bool :=
  r.fields.any (fun f => f.acc = .rws &&
    decide (Nat.land (Nat.xor (bitsOf v f.hi f.lo) (bitsOf old f.hi f.lo)) (bitsOf mask f.hi f.lo) ≠ 0))

/-- What a read of the register returns: WO fields and reserved bits read zero (R15, R19). -/
def RegSpec.readable (r : RegSpec) (v : Nat) : Nat :=
  r.fields.foldl (fun a f => if f.acc = .wo then a else withBits a f.hi f.lo (bitsOf v f.hi f.lo)) 0

/-- The W1C bits of a register. -/
def RegSpec.w1cBits (r : RegSpec) : Nat := r.fields.foldl (fun m f => if f.acc = .w1c then m + (2 ^ (f.hi + 1) - 2 ^ f.lo) else m) 0

/-- The register's value after a read that returned the bits of `mask`: the RC bits it returned are cleared (R19, R933). -/
def RegSpec.afterRead (r : RegSpec) (v mask : Nat) : Nat :=
  r.fields.foldl (fun a f => if f.acc = .rc then
    withBits a f.hi f.lo (bitsOf v f.hi f.lo - Nat.land (bitsOf v f.hi f.lo) (bitsOf mask f.hi f.lo)) else a) v

end Sys2Proof.Machine
end

