-- ==== Sys2Proof/Machine/RegNames.lean ====
section
/-! DEFINITION. The registers and fields by the spec's own names: each name is the field's place in the register map of Regs.lean.
Brick, tile, port, bridge, stack and array indices are the arguments, in that order. -/
namespace Sys2Proof.Machine.Reg
open Sys2Proof.Machine

def MRT_PCTL (p : Nat) : Nat := portReg p 0
def MRT_PCTL_FLAPMAX (p : Nat) : FieldRef := ⟨MRT_PCTL p, 15, 12⟩
def MRT_PCTL_SWAPOK (p : Nat) : FieldRef := ⟨MRT_PCTL p, 11, 11⟩
def MRT_PCTL_FASTOK (p : Nat) : FieldRef := ⟨MRT_PCTL p, 10, 10⟩
def MRT_PCTL_MINW (p : Nat) : FieldRef := ⟨MRT_PCTL p, 9, 8⟩
def MRT_PCTL_HOLDCLR (p : Nat) : FieldRef := ⟨MRT_PCTL p, 2, 2⟩
def MRT_PCTL_RETRAIN (p : Nat) : FieldRef := ⟨MRT_PCTL p, 1, 1⟩
def MRT_PCTL_EN (p : Nat) : FieldRef := ⟨MRT_PCTL p, 0, 0⟩
def MRT_PSTAT (p : Nat) : Nat := portReg p 8
def MRT_PSTAT_NBRID (p : Nat) : FieldRef := ⟨MRT_PSTAT p, 63, 48⟩
def MRT_PSTAT_NBRPORT (p : Nat) : FieldRef := ⟨MRT_PSTAT p, 47, 43⟩
def MRT_PSTAT_RXLIVE (p : Nat) : FieldRef := ⟨MRT_PSTAT p, 39, 32⟩
def MRT_PSTAT_TXLIVE (p : Nat) : FieldRef := ⟨MRT_PSTAT p, 31, 24⟩
def MRT_PSTAT_RXPOL (p : Nat) : FieldRef := ⟨MRT_PSTAT p, 23, 16⟩
def MRT_PSTAT_RXREV (p : Nat) : FieldRef := ⟨MRT_PSTAT p, 15, 15⟩
def MRT_PSTAT_RXW (p : Nat) : FieldRef := ⟨MRT_PSTAT p, 14, 13⟩
def MRT_PSTAT_TXW (p : Nat) : FieldRef := ⟨MRT_PSTAT p, 12, 11⟩
def MRT_PSTAT_STATE (p : Nat) : FieldRef := ⟨MRT_PSTAT p, 7, 4⟩
def MRT_PSTAT_WHY (p : Nat) : FieldRef := ⟨MRT_PSTAT p, 3, 0⟩
def MRT_RETRY (p : Nat) : Nat := portReg p 0x10
def MRT_RETRY_ACKTMR (p : Nat) : FieldRef := ⟨MRT_RETRY p, 27, 16⟩
def MRT_RETRY_TLIMIT (p : Nat) : FieldRef := ⟨MRT_RETRY p, 15, 4⟩
def MRT_RETRY_MAXREPLAY (p : Nat) : FieldRef := ⟨MRT_RETRY p, 3, 0⟩
def MRT_PERR (p : Nat) : Nat := portReg p 0x18
def MRT_PERR_HELD (p : Nat) : FieldRef := ⟨MRT_PERR p, 8, 8⟩
def MRT_PERR_MODREJ (p : Nat) : FieldRef := ⟨MRT_PERR p, 7, 7⟩
def MRT_PERR_MISWIRE (p : Nat) : FieldRef := ⟨MRT_PERR p, 6, 6⟩
def MRT_PERR_LANEX (p : Nat) : FieldRef := ⟨MRT_PERR p, 5, 5⟩
def MRT_PERR_PROTO (p : Nat) : FieldRef := ⟨MRT_PERR p, 4, 4⟩
def MRT_PERR_DOWN (p : Nat) : FieldRef := ⟨MRT_PERR p, 3, 3⟩
def MRT_PERR_REPLAY (p : Nat) : FieldRef := ⟨MRT_PERR p, 2, 2⟩
def MRT_PERR_FECUNC (p : Nat) : FieldRef := ⟨MRT_PERR p, 1, 1⟩
def MRT_PERR_CRCERR (p : Nat) : FieldRef := ⟨MRT_PERR p, 0, 0⟩
def MRT_PCNT0 (p : Nat) : Nat := portReg p 0x20
def MRT_PCNT0_FAILED (p : Nat) : FieldRef := ⟨MRT_PCNT0 p, 63, 32⟩
def MRT_PCNT0_CORR (p : Nat) : FieldRef := ⟨MRT_PCNT0 p, 31, 0⟩
def MRT_PCNT1 (p : Nat) : Nat := portReg p 0x28
def MRT_PCNT1_NAKS (p : Nat) : FieldRef := ⟨MRT_PCNT1 p, 47, 32⟩
def MRT_PCNT1_DOWNS (p : Nat) : FieldRef := ⟨MRT_PCNT1 p, 31, 16⟩
def MRT_PCNT1_REPLAYS (p : Nat) : FieldRef := ⟨MRT_PCNT1 p, 15, 0⟩
def MRT_RTT (p : Nat) : Nat := portReg p 0x30
def MRT_RTT_RTT (p : Nat) : FieldRef := ⟨MRT_RTT p, 15, 0⟩
def MRT_LANEERR (p : Nat) : Nat := portReg p 0x48
def MRT_LANEERR_LANE0 (p : Nat) : FieldRef := ⟨MRT_LANEERR p, 7, 0⟩
def MRT_LANEERR_LANE1 (p : Nat) : FieldRef := ⟨MRT_LANEERR p, 15, 8⟩
def MRT_LANEERR_LANE2 (p : Nat) : FieldRef := ⟨MRT_LANEERR p, 23, 16⟩
def MRT_LANEERR_LANE3 (p : Nat) : FieldRef := ⟨MRT_LANEERR p, 31, 24⟩
def MRT_LANEERR_LANE4 (p : Nat) : FieldRef := ⟨MRT_LANEERR p, 39, 32⟩
def MRT_LANEERR_LANE5 (p : Nat) : FieldRef := ⟨MRT_LANEERR p, 47, 40⟩
def MRT_LANEERR_LANE6 (p : Nat) : FieldRef := ⟨MRT_LANEERR p, 55, 48⟩
def MRT_LANEERR_LANE7 (p : Nat) : FieldRef := ⟨MRT_LANEERR p, 63, 56⟩
def MRT_TTMO (b : Nat) : Nat := brickReg b 0 (0x10000)
def MRT_TTMO_PLIFE (b : Nat) : FieldRef := ⟨MRT_TTMO b, 47, 32⟩
def MRT_TTMO_PROBEMAX (b : Nat) : FieldRef := ⟨MRT_TTMO b, 31, 28⟩
def MRT_TTMO_TE2E (b : Nat) : FieldRef := ⟨MRT_TTMO b, 19, 0⟩
def MRT_TFLOW (b : Nat) : Nat := brickReg b 0 (0x10008)
def MRT_TFLOW_OUTMAX (b : Nat) : FieldRef := ⟨MRT_TFLOW b, 44, 32⟩
def MRT_TFLOW_FIDLE (b : Nat) : FieldRef := ⟨MRT_TFLOW b, 31, 16⟩
def MRT_TFLOW_FACKDLY (b : Nat) : FieldRef := ⟨MRT_TFLOW b, 15, 8⟩
def MRT_TROUTE (b : Nat) : Nat := brickReg b 0 (0x10010)
def MRT_TROUTE_NMEN (b : Nat) : FieldRef := ⟨MRT_TROUTE b, 16, 16⟩
def MRT_TROUTE_NMBIAS (b : Nat) : FieldRef := ⟨MRT_TROUTE b, 15, 8⟩
def MRT_TERR (b : Nat) : Nat := brickReg b 0 (0x10018)
def MRT_TERR_CFG (b : Nat) : FieldRef := ⟨MRT_TERR b, 8, 8⟩
def MRT_TERR_NOROUTE (b : Nat) : FieldRef := ⟨MRT_TERR b, 7, 7⟩
def MRT_TERR_AGED (b : Nat) : FieldRef := ⟨MRT_TERR b, 6, 6⟩
def MRT_TERR_REORDFULL (b : Nat) : FieldRef := ⟨MRT_TERR b, 5, 5⟩
def MRT_TERR_STALE (b : Nat) : FieldRef := ⟨MRT_TERR b, 4, 4⟩
def MRT_TERR_WRONGSEAT (b : Nat) : FieldRef := ⟨MRT_TERR b, 3, 3⟩
def MRT_TERR_UNSETTLED (b : Nat) : FieldRef := ⟨MRT_TERR b, 2, 2⟩
def MRT_TERR_INDOUBT (b : Nat) : FieldRef := ⟨MRT_TERR b, 1, 1⟩
def MRT_TERR_ECRC (b : Nat) : FieldRef := ⟨MRT_TERR b, 0, 0⟩
def MRT_TCNT0 (b : Nat) : Nat := brickReg b 0 (0x10020)
def MRT_TCNT0_DOUBTS (b : Nat) : FieldRef := ⟨MRT_TCNT0 b, 63, 32⟩
def MRT_TCNT0_PROBES (b : Nat) : FieldRef := ⟨MRT_TCNT0 b, 31, 0⟩
def MRT_TCNT1 (b : Nat) : Nat := brickReg b 0 (0x10028)
def MRT_TCNT1_GOBACKS (b : Nat) : FieldRef := ⟨MRT_TCNT1 b, 63, 32⟩
def MRT_TCNT1_DUPS (b : Nat) : FieldRef := ⟨MRT_TCNT1 b, 31, 0⟩
def MRT_TOPEN (b : Nat) : Nat := brickReg b 0 (0x10030)
def MRT_TOPEN_SRCFLOWS (b : Nat) : FieldRef := ⟨MRT_TOPEN b, 48, 32⟩
def MRT_TOPEN_DSTFLOWS (b : Nat) : FieldRef := ⟨MRT_TOPEN b, 16, 0⟩
def SEAT_OWN : Nat := pkgReg 0 (0)
def SEAT_OWN_VALID : FieldRef := ⟨SEAT_OWN, 32, 32⟩
def SEAT_OWN_SEAT : FieldRef := ⟨SEAT_OWN, 31, 16⟩
def SEAT_OWN_GEN : FieldRef := ⟨SEAT_OWN, 15, 8⟩
def SEAT_PID : Nat := pkgReg 0 (8)
def SEAT_PID_PID : FieldRef := ⟨SEAT_PID, 15, 0⟩
def SEAT_INC : Nat := pkgReg 0 (0x10)
def SEAT_INC_INC : FieldRef := ⟨SEAT_INC, 15, 0⟩
def SEAT_CAST : Nat := pkgReg 0 (0x18)
def SEAT_CAST_SEAT : FieldRef := ⟨SEAT_CAST, 47, 32⟩
def SEAT_CAST_ENTRY : FieldRef := ⟨SEAT_CAST, 31, 0⟩
def SEAT_CSTAT : Nat := pkgReg 0 (0x20)
def SEAT_CSTAT_CASTS : FieldRef := ⟨SEAT_CSTAT, 31, 0⟩
def SEAT_TBL (i : Nat) : Nat := pkgReg 0 (0x10000 + 4 * i)
def SEAT_TBL_ENTRY (i : Nat) : FieldRef := ⟨SEAT_TBL i, 31, 0⟩
def BND_CTL (b : Nat) : Nat := brickReg b 1 (0)
def BND_CTL_WCHKINT (b : Nat) : FieldRef := ⟨BND_CTL b, 31, 16⟩
def BND_STAT (b : Nat) : Nat := brickReg b 1 (8)
def BND_STAT_ACTR (b : Nat) : FieldRef := ⟨BND_STAT b, 47, 32⟩
def BND_STAT_WAITERS (b : Nat) : FieldRef := ⟨BND_STAT b, 16, 0⟩
def BND_ERR (b : Nat) : Nat := brickReg b 1 (0x10)
def BND_ERR_DRAINF (b : Nat) : FieldRef := ⟨BND_ERR b, 6, 6⟩
def BND_ERR_WLFULL (b : Nat) : FieldRef := ⟨BND_ERR b, 5, 5⟩
def BND_ERR_POISON (b : Nat) : FieldRef := ⟨BND_ERR b, 4, 4⟩
def BND_ERR_WRAP (b : Nat) : FieldRef := ⟨BND_ERR b, 3, 3⟩
def BND_ERR_TIMEOUT (b : Nat) : FieldRef := ⟨BND_ERR b, 2, 2⟩
def BND_ERR_LOST (b : Nat) : FieldRef := ⟨BND_ERR b, 1, 1⟩
def BND_ERR_ADDEND (b : Nat) : FieldRef := ⟨BND_ERR b, 0, 0⟩
def BND_CNT0 (b : Nat) : Nat := brickReg b 1 (0x18)
def BND_CNT0_SIGNALS (b : Nat) : FieldRef := ⟨BND_CNT0 b, 63, 32⟩
def BND_CNT0_WAKES (b : Nat) : FieldRef := ⟨BND_CNT0 b, 31, 0⟩
def BND_CNT1 (b : Nat) : Nat := brickReg b 1 (0x20)
def BND_CNT1_WAITS (b : Nat) : FieldRef := ⟨BND_CNT1 b, 63, 32⟩
def BND_CNT1_TIMEOUTS (b : Nat) : FieldRef := ⟨BND_CNT1 b, 31, 16⟩
def BND_CNT1_LOSTS (b : Nat) : FieldRef := ⟨BND_CNT1 b, 15, 0⟩
def BND_CNT2 (b : Nat) : Nat := brickReg b 1 (0x28)
def BND_CNT2_FULLACQ (b : Nat) : FieldRef := ⟨BND_CNT2 b, 63, 32⟩
def BND_CNT2_RANGEACQ (b : Nat) : FieldRef := ⟨BND_CNT2 b, 31, 16⟩
def BND_CNT2_FLUSHES (b : Nat) : FieldRef := ⟨BND_CNT2 b, 15, 0⟩
def BND_PLOG (b : Nat) : Nat := brickReg b 1 (0x30)
def BND_PLOG_CAUSE (b : Nat) : FieldRef := ⟨BND_PLOG b, 31, 24⟩
def BND_PLOG_BOND (b : Nat) : FieldRef := ⟨BND_PLOG b, 13, 0⟩
def PWR_STAT : Nat := pkgReg 3 (0)
def PWR_STAT_UNCON : FieldRef := ⟨PWR_STAT, 15, 12⟩
def PWR_STAT_SHADOW : FieldRef := ⟨PWR_STAT, 11, 8⟩
def PWR_STAT_AONLOCK : FieldRef := ⟨PWR_STAT, 7, 7⟩
def PWR_STAT_HREFOK : FieldRef := ⟨PWR_STAT, 6, 6⟩
def PWR_STAT_MREFOK : FieldRef := ⟨PWR_STAT, 5, 5⟩
def PWR_STAT_TPLL : FieldRef := ⟨PWR_STAT, 3, 0⟩
def PWR_ERR : Nat := pkgReg 3 (8)
def PWR_ERR_DOMFLT : FieldRef := ⟨PWR_ERR, 4, 4⟩
def PWR_ERR_REFUSED : FieldRef := ⟨PWR_ERR, 3, 3⟩
def PWR_ERR_THROT : FieldRef := ⟨PWR_ERR, 2, 2⟩
def PWR_ERR_CLKLOSS : FieldRef := ⟨PWR_ERR, 1, 1⟩
def PWR_ERR_RETIRE : FieldRef := ⟨PWR_ERR, 0, 0⟩
def PWR_PKG : Nat := pkgReg 3 (0x10)
def PWR_PKG_GRANT : FieldRef := ⟨PWR_PKG, 31, 16⟩
def PWR_PKG_MEAS : FieldRef := ⟨PWR_PKG, 15, 0⟩
def PWR_GRANT : Nat := pkgReg 3 (0x18)
def PWR_GRANT_BRICK0 : FieldRef := ⟨PWR_GRANT, 15, 0⟩
def PWR_GRANT_BRICK1 : FieldRef := ⟨PWR_GRANT, 31, 16⟩
def PWR_GRANT_BRICK2 : FieldRef := ⟨PWR_GRANT, 47, 32⟩
def PWR_GRANT_BRICK3 : FieldRef := ⟨PWR_GRANT, 63, 48⟩
def PWR_MEAS : Nat := pkgReg 3 (0x20)
def PWR_MEAS_BRICK0 : FieldRef := ⟨PWR_MEAS, 15, 0⟩
def PWR_MEAS_BRICK1 : FieldRef := ⟨PWR_MEAS, 31, 16⟩
def PWR_MEAS_BRICK2 : FieldRef := ⟨PWR_MEAS, 47, 32⟩
def PWR_MEAS_BRICK3 : FieldRef := ⟨PWR_MEAS, 63, 48⟩
def PWR_DVFS (i : Nat) : Nat := pkgReg 3 (0x100 + 8 * i)
def PWR_DVFS_FCUR (i : Nat) : FieldRef := ⟨PWR_DVFS i, 30, 24⟩
def PWR_DVFS_CHG (i : Nat) : FieldRef := ⟨PWR_DVFS i, 23, 23⟩
def PWR_DVFS_FMAX (i : Nat) : FieldRef := ⟨PWR_DVFS i, 22, 16⟩
def PWR_DVFS_FREQ (i : Nat) : FieldRef := ⟨PWR_DVFS i, 6, 0⟩
def PWR_SITEMAP (i : Nat) : Nat := pkgReg 3 (0x200 + 8 * i)
def PWR_SITEMAP_XCUR (i : Nat) : FieldRef := ⟨PWR_SITEMAP i, 29, 24⟩
def PWR_SITEMAP_SHADOW (i : Nat) : FieldRef := ⟨PWR_SITEMAP i, 16, 16⟩
def PWR_SITEMAP_RETIRE (i : Nat) : FieldRef := ⟨PWR_SITEMAP i, 13, 8⟩
def PWR_SITEMAP_SPARE (i : Nat) : FieldRef := ⟨PWR_SITEMAP i, 5, 0⟩
def PWR_DOM (i : Nat) : Nat := pkgReg 3 (0x1000 + 8 * i)
def PWR_DOM_WHY (i : Nat) : FieldRef := ⟨PWR_DOM i, 15, 12⟩
def PWR_DOM_CUR (i : Nat) : FieldRef := ⟨PWR_DOM i, 9, 8⟩
def PWR_DOM_BUSY (i : Nat) : FieldRef := ⟨PWR_DOM i, 4, 4⟩
def PWR_DOM_REQ (i : Nat) : FieldRef := ⟨PWR_DOM i, 1, 0⟩
def STK_CTL (st : Nat) : Nat := stackReg st 2 0x10000 (0)
def STK_CTL_GACT (st : Nat) : FieldRef := ⟨STK_CTL st, 31, 24⟩
def STK_CTL_RATE (st : Nat) : FieldRef := ⟨STK_CTL st, 15, 12⟩
def STK_CTL_GROUTEN (st : Nat) : FieldRef := ⟨STK_CTL st, 8, 8⟩
def STK_STAT (st : Nat) : Nat := stackReg st 2 0x10000 (8)
def STK_STAT_WTOP (st : Nat) : FieldRef := ⟨STK_STAT st, 39, 16⟩
def STK_STAT_RATECUR (st : Nat) : FieldRef := ⟨STK_STAT st, 15, 12⟩
def STK_STAT_TEMPBAND (st : Nat) : FieldRef := ⟨STK_STAT st, 9, 8⟩
def STK_STAT_UP (st : Nat) : FieldRef := ⟨STK_STAT st, 0, 0⟩
def STK_ERR (st : Nat) : Nat := stackReg st 2 0x10000 (0x10)
def STK_ERR_TRAINF (st : Nat) : FieldRef := ⟨STK_ERR st, 3, 3⟩
def STK_ERR_ODUNC (st : Nat) : FieldRef := ⟨STK_ERR st, 2, 2⟩
def STK_ERR_HOT (st : Nat) : FieldRef := ⟨STK_ERR st, 1, 1⟩
def STK_ERR_FALLBACK (st : Nat) : FieldRef := ⟨STK_ERR st, 0, 0⟩
def STK_RDCNT (st : Nat) : Nat := stackReg st 2 0x10000 (0x18)
def STK_RDCNT_SECT (st : Nat) : FieldRef := ⟨STK_RDCNT st, 63, 0⟩
def STK_WRCNT (st : Nat) : Nat := stackReg st 2 0x10000 (0x20)
def STK_WRCNT_SECT (st : Nat) : FieldRef := ⟨STK_WRCNT st, 63, 0⟩
def STK_GRCNT (st : Nat) : Nat := stackReg st 2 0x10000 (0x28)
def STK_GRCNT_READS (st : Nat) : FieldRef := ⟨STK_GRCNT st, 63, 0⟩
def STK_ODCNT (st : Nat) : Nat := stackReg st 2 0x10000 (0x30)
def STK_ODCNT_UNC (st : Nat) : FieldRef := ⟨STK_ODCNT st, 63, 32⟩
def STK_ODCNT_CORR (st : Nat) : FieldRef := ⟨STK_ODCNT st, 31, 0⟩
def STK_BEDCTL (b : Nat) : Nat := brickReg b 2 (0x20000)
def STK_BEDCTL_REMWAYS (b : Nat) : FieldRef := ⟨STK_BEDCTL b, 3, 0⟩
def STK_BEDERR (b : Nat) : Nat := brickReg b 2 (0x20008)
def STK_BEDERR_UNCORR (b : Nat) : FieldRef := ⟨STK_BEDERR b, 1, 1⟩
def STK_BEDERR_CORR (b : Nat) : FieldRef := ⟨STK_BEDERR b, 0, 0⟩
def STK_BEDHIT (b : Nat) : Nat := brickReg b 2 (0x20010)
def STK_BEDHIT_HITS (b : Nat) : FieldRef := ⟨STK_BEDHIT b, 63, 0⟩
def STK_BEDMISS (b : Nat) : Nat := brickReg b 2 (0x20018)
def STK_BEDMISS_MISSES (b : Nat) : FieldRef := ⟨STK_BEDMISS b, 63, 0⟩
def STK_BEDECC (b : Nat) : Nat := brickReg b 2 (0x20020)
def STK_BEDECC_UNC (b : Nat) : FieldRef := ⟨STK_BEDECC b, 63, 32⟩
def STK_BEDECC_CORR (b : Nat) : FieldRef := ⟨STK_BEDECC b, 31, 0⟩
def FOLD_CTL (b : Nat) : Nat := brickReg b 3 (0)
def FOLD_CTL_DRAIN1 (b : Nat) : FieldRef := ⟨FOLD_CTL b, 1, 1⟩
def FOLD_CTL_DRAIN0 (b : Nat) : FieldRef := ⟨FOLD_CTL b, 0, 0⟩
def FOLD_CHG (b : Nat) : Nat := brickReg b 3 (8)
def FOLD_CHG_STACK (b : Nat) : FieldRef := ⟨FOLD_CHG b, 49, 49⟩
def FOLD_CHG_MODE (b : Nat) : FieldRef := ⟨FOLD_CHG b, 48, 48⟩
def FOLD_CHG_COUNT (b : Nat) : FieldRef := ⟨FOLD_CHG b, 47, 32⟩
def FOLD_CHG_FIRST (b : Nat) : FieldRef := ⟨FOLD_CHG b, 14, 0⟩
def FOLD_CHGST (b : Nat) : Nat := brickReg b 3 (0x10)
def FOLD_CHGST_BUSY (b : Nat) : FieldRef := ⟨FOLD_CHGST b, 31, 31⟩
def FOLD_CHGST_DONE (b : Nat) : FieldRef := ⟨FOLD_CHGST b, 30, 30⟩
def FOLD_CHGST_NEXT (b : Nat) : FieldRef := ⟨FOLD_CHGST b, 14, 0⟩
def FOLD_STAT (b : Nat) : Nat := brickReg b 3 (0x18)
def FOLD_STAT_OCC1 (b : Nat) : FieldRef := ⟨FOLD_STAT b, 28, 16⟩
def FOLD_STAT_OCC0 (b : Nat) : FieldRef := ⟨FOLD_STAT b, 12, 0⟩
def FOLD_ERR (b : Nat) : Nat := brickReg b 3 (0x20)
def FOLD_ERR_CHGREF (b : Nat) : FieldRef := ⟨FOLD_ERR b, 3, 3⟩
def FOLD_ERR_NANRES (b : Nat) : FieldRef := ⟨FOLD_ERR b, 2, 2⟩
def FOLD_ERR_POIS (b : Nat) : FieldRef := ⟨FOLD_ERR b, 1, 1⟩
def FOLD_ERR_WRONGMODE (b : Nat) : FieldRef := ⟨FOLD_ERR b, 0, 0⟩
def FOLD_CNT (st : Nat) : Nat := stackReg st 3 8 (0x28)
def FOLD_CNT_ELEMS (st : Nat) : FieldRef := ⟨FOLD_CNT st, 63, 0⟩
def FOLD_MAP (st i : Nat) : Nat := stackReg st 3 0x1000 (0x1000 + 8 * i)
def FOLD_MAP_MODE (st i : Nat) : FieldRef := ⟨FOLD_MAP st i, 63, 0⟩
def PGC_CTL (st : Nat) : Nat := stackReg st 4 0x1000 (0)
def PGC_CTL_RMAPTHR (st : Nat) : FieldRef := ⟨PGC_CTL st, 23, 16⟩
def PGC_CTL_ERASE (st : Nat) : FieldRef := ⟨PGC_CTL st, 12, 12⟩
def PGC_CTL_RMAPEN (st : Nat) : FieldRef := ⟨PGC_CTL st, 11, 11⟩
def PGC_CTL_WBC (st : Nat) : FieldRef := ⟨PGC_CTL st, 10, 10⟩
def PGC_CTL_VERIFY (st : Nat) : FieldRef := ⟨PGC_CTL st, 9, 9⟩
def PGC_CTL_STRENGTH (st : Nat) : FieldRef := ⟨PGC_CTL st, 2, 0⟩
def PGC_STAT (st : Nat) : Nat := stackReg st 4 0x1000 (8)
def PGC_STAT_DEGOCC (st : Nat) : FieldRef := ⟨PGC_STAT st, 15, 8⟩
def PGC_STAT_STRCUR (st : Nat) : FieldRef := ⟨PGC_STAT st, 2, 0⟩
def PGC_ERR (st : Nat) : Nat := stackReg st 4 0x1000 (0x10)
def PGC_ERR_REFUSED (st : Nat) : FieldRef := ⟨PGC_ERR st, 6, 6⟩
def PGC_ERR_SLOTLOST (st : Nat) : FieldRef := ⟨PGC_ERR st, 5, 5⟩
def PGC_ERR_DEGFULL (st : Nat) : FieldRef := ⟨PGC_ERR st, 4, 4⟩
def PGC_ERR_LANDED (st : Nat) : FieldRef := ⟨PGC_ERR st, 3, 3⟩
def PGC_ERR_POISON (st : Nat) : FieldRef := ⟨PGC_ERR st, 2, 2⟩
def PGC_ERR_CHKONLY (st : Nat) : FieldRef := ⟨PGC_ERR st, 1, 1⟩
def PGC_ERR_CORR (st : Nat) : FieldRef := ⟨PGC_ERR st, 0, 0⟩
def PGC_CNT0 (st : Nat) : Nat := stackReg st 4 0x1000 (0x18)
def PGC_CNT0_CORRPG (st : Nat) : FieldRef := ⟨PGC_CNT0 st, 63, 32⟩
def PGC_CNT0_CHKPG (st : Nat) : FieldRef := ⟨PGC_CNT0 st, 31, 0⟩
def PGC_CNT1 (st : Nat) : Nat := stackReg st 4 0x1000 (0x20)
def PGC_CNT1_POISPG (st : Nat) : FieldRef := ⟨PGC_CNT1 st, 63, 32⟩
def PGC_CNT1_LANDPG (st : Nat) : FieldRef := ⟨PGC_CNT1 st, 31, 0⟩
def PGC_CLR (st : Nat) : Nat := stackReg st 4 0x1000 (0x28)
def PGC_CLR_ALL (st : Nat) : FieldRef := ⟨PGC_CLR st, 63, 63⟩
def PGC_CLR_COUNT (st : Nat) : FieldRef := ⟨PGC_CLR st, 47, 24⟩
def PGC_CLR_FIRST (st : Nat) : FieldRef := ⟨PGC_CLR st, 23, 0⟩
def PGC_CLRST (st : Nat) : Nat := stackReg st 4 0x1000 (0x30)
def PGC_CLRST_BUSY (st : Nat) : FieldRef := ⟨PGC_CLRST st, 63, 63⟩
def PGC_CLRST_DONE (st : Nat) : FieldRef := ⟨PGC_CLRST st, 62, 62⟩
def PGC_CLRST_NEXT (st : Nat) : FieldRef := ⟨PGC_CLRST st, 23, 0⟩
def PGC_STRICT (st i : Nat) : Nat := stackReg st 4 0x1000 (0x40 + 8 * i)
def PGC_STRICT_EN (st i : Nat) : FieldRef := ⟨PGC_STRICT st i, 63, 63⟩
def PGC_STRICT_LAST (st i : Nat) : FieldRef := ⟨PGC_STRICT st i, 47, 24⟩
def PGC_STRICT_FIRST (st i : Nat) : FieldRef := ⟨PGC_STRICT st i, 23, 0⟩
def PGC_SDESC (st i : Nat) : Nat := stackReg st 4 0x1000 (0x100 + 8 * i)
def PGC_SDESC_DESC (st i : Nat) : FieldRef := ⟨PGC_SDESC st i, 63, 0⟩
def PGC_SCMD (st : Nat) : Nat := stackReg st 4 0x1000 (0x120)
def PGC_SCMD_OP (st : Nat) : FieldRef := ⟨PGC_SCMD st, 2, 0⟩
def PGC_SSTAT (st : Nat) : Nat := stackReg st 4 0x1000 (0x128)
def PGC_SSTAT_STATE (st : Nat) : FieldRef := ⟨PGC_SSTAT st, 63, 61⟩
def PGC_SSTAT_NEXT (st : Nat) : FieldRef := ⟨PGC_SSTAT st, 23, 0⟩
def RMP_SPUSE (st : Nat) : Nat := stackReg st 5 0x1000 (0x80)
def RMP_SPUSE_INUSE (st : Nat) : FieldRef := ⟨RMP_SPUSE st, 63, 0⟩
def RMP_WORN (st : Nat) : Nat := stackReg st 5 0x1000 (0x88)
def RMP_WORN_WORN (st : Nat) : FieldRef := ⟨RMP_WORN st, 63, 0⟩
def RMP_CMD (st : Nat) : Nat := stackReg st 5 0x1000 (0x90)
def RMP_CMD_OP (st : Nat) : FieldRef := ⟨RMP_CMD st, 63, 61⟩
def RMP_CMD_ENTRY (st : Nat) : FieldRef := ⟨RMP_CMD st, 52, 48⟩
def RMP_CMD_PAGE (st : Nat) : FieldRef := ⟨RMP_CMD st, 23, 0⟩
def RMP_CSTAT (st : Nat) : Nat := stackReg st 5 0x1000 (0x98)
def RMP_CSTAT_BUSY (st : Nat) : FieldRef := ⟨RMP_CSTAT st, 63, 63⟩
def RMP_CSTAT_DONE (st : Nat) : FieldRef := ⟨RMP_CSTAT st, 62, 62⟩
def RMP_CSTAT_FAIL (st : Nat) : FieldRef := ⟨RMP_CSTAT st, 61, 61⟩
def RMP_CSTAT_WHY (st : Nat) : FieldRef := ⟨RMP_CSTAT st, 3, 0⟩
def LBL_CFG (pt i : Nat) : Nat := labelPointReg pt (0 + 8 * i)
def LBL_CFG_MISSMAX (pt i : Nat) : FieldRef := ⟨LBL_CFG pt i, 47, 40⟩
def LBL_CFG_BASE (pt i : Nat) : FieldRef := ⟨LBL_CFG pt i, 34, 32⟩
def LBL_CFG_TARGET (pt i : Nat) : FieldRef := ⟨LBL_CFG pt i, 15, 0⟩
def LBL_MEAS (pt i : Nat) : Nat := labelPointReg pt (0x80 + 8 * i)
def LBL_MEAS_WORST (pt i : Nat) : FieldRef := ⟨LBL_MEAS pt i, 63, 48⟩
def LBL_MEAS_MISSES (pt i : Nat) : FieldRef := ⟨LBL_MEAS pt i, 47, 40⟩
def LBL_MEAS_STEP (pt i : Nat) : FieldRef := ⟨LBL_MEAS pt i, 34, 32⟩
def LBL_MEAS_EWMA (pt i : Nat) : FieldRef := ⟨LBL_MEAS pt i, 31, 0⟩
def LBL_PCTL (pt : Nat) : Nat := labelPointReg pt (0x100)
def LBL_PCTL_WIN (pt : Nat) : FieldRef := ⟨LBL_PCTL pt, 55, 40⟩
def LBL_PCTL_WSHIFT (pt : Nat) : FieldRef := ⟨LBL_PCTL pt, 39, 36⟩
def LBL_PCTL_CEIL15 (pt : Nat) : FieldRef := ⟨LBL_PCTL pt, 35, 26⟩
def LBL_PCTL_CEIL14 (pt : Nat) : FieldRef := ⟨LBL_PCTL pt, 25, 16⟩
def LBL_PCTL_SHARE13 (pt : Nat) : FieldRef := ⟨LBL_PCTL pt, 9, 0⟩
def LBL_MISSST (pt : Nat) : Nat := labelPointReg pt (0x108)
def LBL_MISSST_MISS (pt : Nat) : FieldRef := ⟨LBL_MISSST pt, 15, 0⟩
def LBL_MISSEN (pt : Nat) : Nat := labelPointReg pt (0x110)
def LBL_MISSEN_EN (pt : Nat) : FieldRef := ⟨LBL_MISSEN pt, 15, 0⟩
def LBL_PERMIT (b i : Nat) : Nat := brickReg b 6 (0x4000 + 8 * i)
def LBL_PERMIT_TILE0 (b i : Nat) : FieldRef := ⟨LBL_PERMIT b i, 15, 0⟩
def LBL_PERMIT_TILE1 (b i : Nat) : FieldRef := ⟨LBL_PERMIT b i, 31, 16⟩
def LBL_PERMIT_TILE2 (b i : Nat) : FieldRef := ⟨LBL_PERMIT b i, 47, 32⟩
def LBL_PERMIT_TILE3 (b i : Nat) : FieldRef := ⟨LBL_PERMIT b i, 63, 48⟩
def FMT_CTL (t : Nat) : Nat := tileReg t 4 (0)
def FMT_CTL_ROUND (t : Nat) : FieldRef := ⟨FMT_CTL t, 9, 8⟩
def FMT_CTL_OVF (t : Nat) : FieldRef := ⟨FMT_CTL t, 4, 4⟩
def FMT_STAT (t : Nat) : Nat := tileReg t 4 (8)
def FMT_STAT_SCALEX (t : Nat) : FieldRef := ⟨FMT_STAT t, 5, 5⟩
def FMT_STAT_IWRAP (t : Nat) : FieldRef := ⟨FMT_STAT t, 4, 4⟩
def FMT_STAT_NANOUT (t : Nat) : FieldRef := ⟨FMT_STAT t, 3, 3⟩
def FMT_STAT_INFOUT (t : Nat) : FieldRef := ⟨FMT_STAT t, 2, 2⟩
def FMT_STAT_SAT (t : Nat) : FieldRef := ⟨FMT_STAT t, 1, 1⟩
def FMT_STAT_UNDER (t : Nat) : FieldRef := ⟨FMT_STAT t, 0, 0⟩
def FMT_CNT (t : Nat) : Nat := tileReg t 4 (0x10)
def FMT_CNT_SATS (t : Nat) : FieldRef := ⟨FMT_CNT t, 63, 32⟩
def FMT_CNT_NANS (t : Nat) : FieldRef := ⟨FMT_CNT t, 31, 0⟩
def MSN_CTL (t : Nat) : Nat := tileReg t 0 (0)
def MSN_CTL_LBLINIT (t : Nat) : FieldRef := ⟨MSN_CTL t, 11, 8⟩
def MSN_CTL_CLRFLT (t : Nat) : FieldRef := ⟨MSN_CTL t, 4, 4⟩
def MSN_CTL_STOP (t : Nat) : FieldRef := ⟨MSN_CTL t, 3, 3⟩
def MSN_CTL_SUSPREQ (t : Nat) : FieldRef := ⟨MSN_CTL t, 2, 2⟩
def MSN_CTL_RESUME (t : Nat) : FieldRef := ⟨MSN_CTL t, 1, 1⟩
def MSN_CTL_START (t : Nat) : FieldRef := ⟨MSN_CTL t, 0, 0⟩
def MSN_STAT (t : Nat) : Nat := tileReg t 0 (8)
def MSN_STAT_SLOTS (t : Nat) : FieldRef := ⟨MSN_STAT t, 63, 48⟩
def MSN_STAT_SUMPEND (t : Nat) : FieldRef := ⟨MSN_STAT t, 47, 32⟩
def MSN_STAT_LBL (t : Nat) : FieldRef := ⟨MSN_STAT t, 27, 24⟩
def MSN_STAT_T (t : Nat) : FieldRef := ⟨MSN_STAT t, 23, 23⟩
def MSN_STAT_CWIN (t : Nat) : FieldRef := ⟨MSN_STAT t, 22, 20⟩
def MSN_STAT_RES (t : Nat) : FieldRef := ⟨MSN_STAT t, 18, 16⟩
def MSN_STAT_DFP (t : Nat) : FieldRef := ⟨MSN_STAT t, 5, 5⟩
def MSN_STAT_SREQ (t : Nat) : FieldRef := ⟨MSN_STAT t, 4, 4⟩
def MSN_STAT_STATE (t : Nat) : FieldRef := ⟨MSN_STAT t, 3, 0⟩
def MSN_ENTRY (t : Nat) : Nat := tileReg t 0 (0x10)
def MSN_ENTRY_PC (t : Nat) : FieldRef := ⟨MSN_ENTRY t, 16, 2⟩
def MSN_VBASE (t : Nat) : Nat := tileReg t 0 (0x18)
def MSN_VBASE_VBASE (t : Nat) : FieldRef := ⟨MSN_VBASE t, 16, 11⟩
def MSN_SSPLO (t : Nat) : Nat := tileReg t 0 (0x20)
def MSN_SSPLO_LO (t : Nat) : FieldRef := ⟨MSN_SSPLO t, 22, 7⟩
def MSN_SSPHI (t : Nat) : Nat := tileReg t 0 (0x28)
def MSN_SSPHI_HI (t : Nat) : FieldRef := ⟨MSN_SSPHI t, 22, 7⟩
def MSN_SPILL (t : Nat) : Nat := tileReg t 0 (0x30)
def MSN_SPILL_NSPILL (t : Nat) : FieldRef := ⟨MSN_SPILL t, 63, 48⟩
def MSN_SPILL_SSP (t : Nat) : FieldRef := ⟨MSN_SPILL t, 22, 7⟩
def MSN_TRAP (t : Nat) : Nat := tileReg t 0 (0x38)
def MSN_TRAP_XCAUSE (t : Nat) : FieldRef := ⟨MSN_TRAP t, 63, 32⟩
def MSN_TRAP_XPC (t : Nat) : FieldRef := ⟨MSN_TRAP t, 16, 2⟩
def MSN_XVAL (t : Nat) : Nat := tileReg t 0 (0x40)
def MSN_XVAL_XVAL (t : Nat) : FieldRef := ⟨MSN_XVAL t, 63, 0⟩
def MSN_DFLT (t : Nat) : Nat := tileReg t 0 (0x48)
def MSN_DFLT_VALID (t : Nat) : FieldRef := ⟨MSN_DFLT t, 63, 63⟩
def MSN_DFLT_CAUSE2 (t : Nat) : FieldRef := ⟨MSN_DFLT t, 55, 48⟩
def MSN_DFLT_SUB2 (t : Nat) : FieldRef := ⟨MSN_DFLT t, 47, 40⟩
def MSN_DFLT_CAUSE1 (t : Nat) : FieldRef := ⟨MSN_DFLT t, 39, 32⟩
def MSN_DFLT_PC (t : Nat) : FieldRef := ⟨MSN_DFLT t, 16, 2⟩
def MSN_OPERR (t : Nat) : Nat := tileReg t 0 (0x50)
def MSN_OPERR_PEND (t : Nat) : FieldRef := ⟨MSN_OPERR t, 63, 63⟩
def MSN_OPERR_LOST (t : Nat) : FieldRef := ⟨MSN_OPERR t, 62, 62⟩
def MSN_OPERR_STATUS (t : Nat) : FieldRef := ⟨MSN_OPERR t, 39, 32⟩
def MSN_OPERR_OPC (t : Nat) : FieldRef := ⟨MSN_OPERR t, 31, 24⟩
def MSN_OPERR_SUB (t : Nat) : FieldRef := ⟨MSN_OPERR t, 15, 8⟩
def MSN_OPADDR (t : Nat) : Nat := tileReg t 0 (0x58)
def MSN_OPADDR_ADDR (t : Nat) : FieldRef := ⟨MSN_OPADDR t, 63, 0⟩
def MSN_ERR (t : Nat) : Nat := tileReg t 0 (0x60)
def MSN_ERR_STOPPED (t : Nat) : FieldRef := ⟨MSN_ERR t, 3, 3⟩
def MSN_ERR_LOST (t : Nat) : FieldRef := ⟨MSN_ERR t, 2, 2⟩
def MSN_ERR_FETCHUNC (t : Nat) : FieldRef := ⟨MSN_ERR t, 1, 1⟩
def MSN_ERR_DFAULT (t : Nat) : FieldRef := ⟨MSN_ERR t, 0, 0⟩
def MSN_CNT0 (t : Nat) : Nat := tileReg t 0 (0x68)
def MSN_CNT0_INSTR (t : Nat) : FieldRef := ⟨MSN_CNT0 t, 63, 0⟩
def MSN_CNT1 (t : Nat) : Nat := tileReg t 0 (0x70)
def MSN_CNT1_TRAPS (t : Nat) : FieldRef := ⟨MSN_CNT1 t, 63, 32⟩
def MSN_CNT1_MSCORR (t : Nat) : FieldRef := ⟨MSN_CNT1 t, 31, 0⟩
def MSN_BKPT (t i : Nat) : Nat := tileReg t 0 (0x80 + 8 * i)
def MSN_BKPT_PC (t i : Nat) : FieldRef := ⟨MSN_BKPT t i, 16, 2⟩
def MSN_BKPT_EN (t i : Nat) : FieldRef := ⟨MSN_BKPT t i, 0, 0⟩
def PRS_CTL (t : Nat) : Nat := tileReg t 1 (0)
def PRS_CTL_RINJEN (t : Nat) : FieldRef := ⟨PRS_CTL t, 9, 9⟩
def PRS_CTL_RINJ (t : Nat) : FieldRef := ⟨PRS_CTL t, 8, 8⟩
def PRS_CTL_CLRQ (t : Nat) : FieldRef := ⟨PRS_CTL t, 0, 0⟩
def PRS_STAT (t : Nat) : Nat := tileReg t 1 (8)
def PRS_STAT_QOCC (t : Nat) : FieldRef := ⟨PRS_STAT t, 29, 24⟩
def PRS_STAT_QFORCE (t : Nat) : FieldRef := ⟨PRS_STAT t, 8, 8⟩
def PRS_STAT_QREQ (t : Nat) : FieldRef := ⟨PRS_STAT t, 4, 4⟩
def PRS_STAT_QCUR (t : Nat) : FieldRef := ⟨PRS_STAT t, 1, 1⟩
def PRS_STAT_BUSY (t : Nat) : FieldRef := ⟨PRS_STAT t, 0, 0⟩
def PRS_ERR (t : Nat) : Nat := tileReg t 1 (0x10)
def PRS_ERR_QFORCED (t : Nat) : FieldRef := ⟨PRS_ERR t, 3, 3⟩
def PRS_ERR_RESIDUE (t : Nat) : FieldRef := ⟨PRS_ERR t, 2, 2⟩
def PRS_ERR_POISIN (t : Nat) : FieldRef := ⟨PRS_ERR t, 1, 1⟩
def PRS_ERR_REFUSED (t : Nat) : FieldRef := ⟨PRS_ERR t, 0, 0⟩
def PRS_REFUSE (t : Nat) : Nat := tileReg t 1 (0x18)
def PRS_REFUSE_OP (t : Nat) : FieldRef := ⟨PRS_REFUSE t, 39, 32⟩
def PRS_REFUSE_WHY (t : Nat) : FieldRef := ⟨PRS_REFUSE t, 31, 28⟩
def PRS_REFUSE_DESC (t : Nat) : FieldRef := ⟨PRS_REFUSE t, 16, 0⟩
def PRS_CNT0 (t : Nat) : Nat := tileReg t 1 (0x20)
def PRS_CNT0_CMDS (t : Nat) : FieldRef := ⟨PRS_CNT0 t, 63, 32⟩
def PRS_CNT0_REFUSALS (t : Nat) : FieldRef := ⟨PRS_CNT0 t, 31, 0⟩
def PRS_CNT1 (t : Nat) : Nat := tileReg t 1 (0x28)
def PRS_CNT1_QKTC (t : Nat) : FieldRef := ⟨PRS_CNT1 t, 63, 32⟩
def PRS_CNT1_RESFAIL (t : Nat) : FieldRef := ⟨PRS_CNT1 t, 31, 0⟩
def GLZ_CTL (t : Nat) : Nat := tileReg t 2 (0)
def GLZ_CTL_CLRQ (t : Nat) : FieldRef := ⟨GLZ_CTL t, 0, 0⟩
def GLZ_STAT (t : Nat) : Nat := tileReg t 2 (8)
def GLZ_STAT_SLOTK (t : Nat) : FieldRef := ⟨GLZ_STAT t, 63, 32⟩
def GLZ_STAT_QOCC (t : Nat) : FieldRef := ⟨GLZ_STAT t, 29, 24⟩
def GLZ_STAT_BUSY (t : Nat) : FieldRef := ⟨GLZ_STAT t, 0, 0⟩
def GLZ_ERR (t : Nat) : Nat := tileReg t 2 (0x10)
def GLZ_ERR_REGUNC (t : Nat) : FieldRef := ⟨GLZ_ERR t, 2, 2⟩
def GLZ_ERR_POISIN (t : Nat) : FieldRef := ⟨GLZ_ERR t, 1, 1⟩
def GLZ_ERR_REFUSED (t : Nat) : FieldRef := ⟨GLZ_ERR t, 0, 0⟩
def GLZ_REFUSE (t : Nat) : Nat := tileReg t 2 (0x18)
def GLZ_REFUSE_OP (t : Nat) : FieldRef := ⟨GLZ_REFUSE t, 39, 32⟩
def GLZ_REFUSE_WHY (t : Nat) : FieldRef := ⟨GLZ_REFUSE t, 31, 28⟩
def GLZ_REFUSE_SUB (t : Nat) : FieldRef := ⟨GLZ_REFUSE t, 7, 0⟩
def GLZ_CNT0 (t : Nat) : Nat := tileReg t 2 (0x20)
def GLZ_CNT0_CMDS (t : Nat) : FieldRef := ⟨GLZ_CNT0 t, 63, 32⟩
def GLZ_CNT0_REFUSALS (t : Nat) : FieldRef := ⟨GLZ_CNT0 t, 31, 0⟩
def SFN_CTL (t : Nat) : Nat := tileReg t 3 (0)
def SFN_CTL_SUBF (t : Nat) : FieldRef := ⟨SFN_CTL t, 4, 4⟩
def SFN_CTL_ITERDEF (t : Nat) : FieldRef := ⟨SFN_CTL t, 1, 0⟩
def SFN_STAT (t : Nat) : Nat := tileReg t 3 (8)
def SFN_STAT_FLUSHED (t : Nat) : FieldRef := ⟨SFN_STAT t, 1, 1⟩
def SFN_STAT_SUBFL (t : Nat) : FieldRef := ⟨SFN_STAT t, 0, 0⟩
def SFN_FLUSH0 (t : Nat) : Nat := tileReg t 3 (0x10)
def SFN_FLUSH0_THR (t : Nat) : FieldRef := ⟨SFN_FLUSH0 t, 31, 0⟩
def SFN_FLUSH1 (t : Nat) : Nat := tileReg t 3 (0x18)
def SFN_FLUSH1_THR (t : Nat) : FieldRef := ⟨SFN_FLUSH1 t, 31, 0⟩
def SFN_FLUSH2 (t : Nat) : Nat := tileReg t 3 (0x20)
def SFN_FLUSH2_THR (t : Nat) : FieldRef := ⟨SFN_FLUSH2 t, 31, 0⟩
def SFN_CNT (t : Nat) : Nat := tileReg t 3 (0x28)
def SFN_CNT_FLUSHES (t : Nat) : FieldRef := ⟨SFN_CNT t, 63, 32⟩
def SFN_CNT_CMDS (t : Nat) : FieldRef := ⟨SFN_CNT t, 31, 0⟩
def SLB_CTL (b : Nat) : Nat := brickReg b 7 (0)
def SLB_CTL_EPINT (b : Nat) : FieldRef := ⟨SLB_CTL b, 47, 32⟩
def SLB_CTL_FMT (b : Nat) : FieldRef := ⟨SLB_CTL b, 2, 2⟩
def SLB_CTL_EN (b : Nat) : FieldRef := ⟨SLB_CTL b, 0, 0⟩
def SLB_TBASE (b : Nat) : Nat := brickReg b 7 (8)
def SLB_TBASE_REGION (b : Nat) : FieldRef := ⟨SLB_TBASE b, 47, 44⟩
def SLB_TBASE_OFFSET (b : Nat) : FieldRef := ⟨SLB_TBASE b, 43, 12⟩
def SLB_DBASE0 (b : Nat) : Nat := brickReg b 7 (0x10)
def SLB_DBASE0_REGION (b : Nat) : FieldRef := ⟨SLB_DBASE0 b, 47, 44⟩
def SLB_DBASE0_OFFSET (b : Nat) : FieldRef := ⟨SLB_DBASE0 b, 43, 16⟩
def SLB_DBASE1 (b : Nat) : Nat := brickReg b 7 (0x18)
def SLB_DBASE1_REGION (b : Nat) : FieldRef := ⟨SLB_DBASE1 b, 47, 44⟩
def SLB_DBASE1_OFFSET (b : Nat) : FieldRef := ⟨SLB_DBASE1 b, 43, 16⟩
def SLB_DCNT (b : Nat) : Nat := brickReg b 7 (0x20)
def SLB_DCNT_N1 (b : Nat) : FieldRef := ⟨SLB_DCNT b, 55, 32⟩
def SLB_DCNT_N0 (b : Nat) : FieldRef := ⟨SLB_DCNT b, 23, 0⟩
def SLB_STAT (b : Nat) : Nat := brickReg b 7 (0x28)
def SLB_STAT_EPOCH (b : Nat) : FieldRef := ⟨SLB_STAT b, 63, 48⟩
def SLB_STAT_FREE1 (b : Nat) : FieldRef := ⟨SLB_STAT b, 47, 24⟩
def SLB_STAT_FREE0 (b : Nat) : FieldRef := ⟨SLB_STAT b, 23, 0⟩
def SLB_STATE (b : Nat) : Nat := brickReg b 7 (0x30)
def SLB_STATE_MEMO (b : Nat) : FieldRef := ⟨SLB_STATE b, 44, 32⟩
def SLB_STATE_RIDX (b : Nat) : FieldRef := ⟨SLB_STATE b, 5, 4⟩
def SLB_STATE_BUSY (b : Nat) : FieldRef := ⟨SLB_STATE b, 2, 2⟩
def SLB_STATE_READY (b : Nat) : FieldRef := ⟨SLB_STATE b, 1, 1⟩
def SLB_PINS (b : Nat) : Nat := brickReg b 7 (0x38)
def SLB_PINS_PINS1 (b : Nat) : FieldRef := ⟨SLB_PINS b, 63, 32⟩
def SLB_PINS_PINS0 (b : Nat) : FieldRef := ⟨SLB_PINS b, 31, 0⟩
def SLB_ERR (b : Nat) : Nat := brickReg b 7 (0x40)
def SLB_ERR_JREF (b : Nat) : FieldRef := ⟨SLB_ERR b, 5, 5⟩
def SLB_ERR_EMPTY (b : Nat) : FieldRef := ⟨SLB_ERR b, 4, 4⟩
def SLB_ERR_SAT (b : Nat) : FieldRef := ⟨SLB_ERR b, 3, 3⟩
def SLB_ERR_FOLDM (b : Nat) : FieldRef := ⟨SLB_ERR b, 2, 2⟩
def SLB_ERR_STRPOIS (b : Nat) : FieldRef := ⟨SLB_ERR b, 1, 1⟩
def SLB_ERR_BADCFG (b : Nat) : FieldRef := ⟨SLB_ERR b, 0, 0⟩
def SLB_CNT0 (b : Nat) : Nat := brickReg b 7 (0x48)
def SLB_CNT0_ALLOCS (b : Nat) : FieldRef := ⟨SLB_CNT0 b, 63, 32⟩
def SLB_CNT0_FREES (b : Nat) : FieldRef := ⟨SLB_CNT0 b, 31, 0⟩
def SLB_CNT1 (b : Nat) : Nat := brickReg b 7 (0x50)
def SLB_CNT1_COPIES (b : Nat) : FieldRef := ⟨SLB_CNT1 b, 63, 32⟩
def SLB_CNT1_EBUSY (b : Nat) : FieldRef := ⟨SLB_CNT1 b, 31, 0⟩
def SLB_HPINS (b : Nat) : Nat := brickReg b 7 (0x58)
def SLB_HPINS_HPINS1 (b : Nat) : FieldRef := ⟨SLB_HPINS b, 63, 32⟩
def SLB_HPINS_HPINS0 (b : Nat) : FieldRef := ⟨SLB_HPINS b, 31, 0⟩
def SLB_JDESC (b i : Nat) : Nat := brickReg b 7 (0x100 + 8 * i)
def SLB_JDESC_DESC (b i : Nat) : FieldRef := ⟨SLB_JDESC b i, 63, 0⟩
def SLB_JCMD (b : Nat) : Nat := brickReg b 7 (0x120)
def SLB_JCMD_OP (b : Nat) : FieldRef := ⟨SLB_JCMD b, 2, 0⟩
def SLB_JSTAT (b : Nat) : Nat := brickReg b 7 (0x128)
def SLB_JSTAT_STATE (b : Nat) : FieldRef := ⟨SLB_JSTAT b, 63, 61⟩
def SLB_JSTAT_PHASE (b : Nat) : FieldRef := ⟨SLB_JSTAT b, 25, 24⟩
def SLB_JSTAT_NEXT (b : Nat) : FieldRef := ⟨SLB_JSTAT b, 23, 0⟩
def PFX_CTL (b : Nat) : Nat := brickReg b 8 (0)
def PFX_CTL_BBITS (b : Nat) : FieldRef := ⟨PFX_CTL b, 20, 16⟩
def PFX_CTL_LGM1 (b : Nat) : FieldRef := ⟨PFX_CTL b, 13, 8⟩
def PFX_CTL_FMT (b : Nat) : FieldRef := ⟨PFX_CTL b, 2, 2⟩
def PFX_CTL_EN (b : Nat) : FieldRef := ⟨PFX_CTL b, 0, 0⟩
def PFX_NBASE (b : Nat) : Nat := brickReg b 8 (8)
def PFX_NBASE_REGION (b : Nat) : FieldRef := ⟨PFX_NBASE b, 47, 44⟩
def PFX_NBASE_OFFSET (b : Nat) : FieldRef := ⟨PFX_NBASE b, 43, 12⟩
def PFX_BBASE (b : Nat) : Nat := brickReg b 8 (0x18)
def PFX_BBASE_REGION (b : Nat) : FieldRef := ⟨PFX_BBASE b, 47, 44⟩
def PFX_BBASE_OFFSET (b : Nat) : FieldRef := ⟨PFX_BBASE b, 43, 12⟩
def PFX_NCNT (b : Nat) : Nat := brickReg b 8 (0x10)
def PFX_NCNT_NCOUNT (b : Nat) : FieldRef := ⟨PFX_NCNT b, 23, 0⟩
def PFX_STAT (b : Nat) : Nat := brickReg b 8 (0x20)
def PFX_STAT_BUSY (b : Nat) : FieldRef := ⟨PFX_STAT b, 49, 49⟩
def PFX_STAT_READY (b : Nat) : FieldRef := ⟨PFX_STAT b, 48, 48⟩
def PFX_STAT_NFREE (b : Nat) : FieldRef := ⟨PFX_STAT b, 47, 24⟩
def PFX_STAT_NLIVE (b : Nat) : FieldRef := ⟨PFX_STAT b, 23, 0⟩
def PFX_ERR (b : Nat) : Nat := brickReg b 8 (0x28)
def PFX_ERR_CHAIN (b : Nat) : FieldRef := ⟨PFX_ERR b, 3, 3⟩
def PFX_ERR_NOKEY (b : Nat) : FieldRef := ⟨PFX_ERR b, 2, 2⟩
def PFX_ERR_FULL (b : Nat) : FieldRef := ⟨PFX_ERR b, 1, 1⟩
def PFX_ERR_BADCFG (b : Nat) : FieldRef := ⟨PFX_ERR b, 0, 0⟩
def PFX_CNT0 (b : Nat) : Nat := brickReg b 8 (0x30)
def PFX_CNT0_HITS (b : Nat) : FieldRef := ⟨PFX_CNT0 b, 63, 32⟩
def PFX_CNT0_MISSES (b : Nat) : FieldRef := ⟨PFX_CNT0 b, 31, 0⟩
def PFX_CNT1 (b : Nat) : Nat := brickReg b 8 (0x38)
def PFX_CNT1_INSERTS (b : Nat) : FieldRef := ⟨PFX_CNT1 b, 63, 32⟩
def PFX_CNT1_COLL (b : Nat) : FieldRef := ⟨PFX_CNT1 b, 31, 0⟩
def PFX_KSEL (b : Nat) : Nat := brickReg b 8 (0x40)
def PFX_KSEL_KVALID (b : Nat) : FieldRef := ⟨PFX_KSEL b, 16, 16⟩
def PFX_KSEL_NS (b : Nat) : FieldRef := ⟨PFX_KSEL b, 11, 0⟩
def PFX_KEY0 (b : Nat) : Nat := brickReg b 8 (0x48)
def PFX_KEY0_KEY (b : Nat) : FieldRef := ⟨PFX_KEY0 b, 63, 0⟩
def PFX_KEY1 (b : Nat) : Nat := brickReg b 8 (0x50)
def PFX_KEY1_KEY (b : Nat) : FieldRef := ⟨PFX_KEY1 b, 63, 0⟩
def PFX_KCLR (b : Nat) : Nat := brickReg b 8 (0x58)
def PFX_KCLR_CLR (b : Nat) : FieldRef := ⟨PFX_KCLR b, 0, 0⟩
def SVE_CTL (t : Nat) : Nat := tileReg t 5 (0)
def SVE_CTL_CANCEL (t : Nat) : FieldRef := ⟨SVE_CTL t, 3, 3⟩
def SVE_CTL_RESUME (t : Nat) : FieldRef := ⟨SVE_CTL t, 2, 2⟩
def SVE_CTL_SUSP (t : Nat) : FieldRef := ⟨SVE_CTL t, 1, 1⟩
def SVE_CTL_CLRQ (t : Nat) : FieldRef := ⟨SVE_CTL t, 0, 0⟩
def SVE_STAT (t : Nat) : Nat := tileReg t 5 (8)
def SVE_STAT_STATE (t : Nat) : FieldRef := ⟨SVE_STAT t, 63, 61⟩
def SVE_STAT_OP (t : Nat) : FieldRef := ⟨SVE_STAT t, 55, 48⟩
def SVE_STAT_QOCC (t : Nat) : FieldRef := ⟨SVE_STAT t, 44, 40⟩
def SVE_STAT_PROG (t : Nat) : FieldRef := ⟨SVE_STAT t, 31, 0⟩
def SVE_ERR (t : Nat) : Nat := tileReg t 5 (0x10)
def SVE_ERR_INDOUBT (t : Nat) : FieldRef := ⟨SVE_ERR t, 5, 5⟩
def SVE_ERR_FRAME (t : Nat) : FieldRef := ⟨SVE_ERR t, 4, 4⟩
def SVE_ERR_TRUNC (t : Nat) : FieldRef := ⟨SVE_ERR t, 3, 3⟩
def SVE_ERR_ITEMERR (t : Nat) : FieldRef := ⟨SVE_ERR t, 2, 2⟩
def SVE_ERR_POISIN (t : Nat) : FieldRef := ⟨SVE_ERR t, 1, 1⟩
def SVE_ERR_REFUSED (t : Nat) : FieldRef := ⟨SVE_ERR t, 0, 0⟩
def SVE_REFUSE (t : Nat) : Nat := tileReg t 5 (0x18)
def SVE_REFUSE_OP (t : Nat) : FieldRef := ⟨SVE_REFUSE t, 39, 32⟩
def SVE_REFUSE_WHY (t : Nat) : FieldRef := ⟨SVE_REFUSE t, 31, 28⟩
def SVE_REFUSE_DESC (t : Nat) : FieldRef := ⟨SVE_REFUSE t, 16, 0⟩
def SVE_CNT0 (t : Nat) : Nat := tileReg t 5 (0x20)
def SVE_CNT0_CMDS (t : Nat) : FieldRef := ⟨SVE_CNT0 t, 63, 32⟩
def SVE_CNT0_REFUSALS (t : Nat) : FieldRef := ⟨SVE_CNT0 t, 31, 0⟩
def SVE_CNT1 (t : Nat) : Nat := tileReg t 5 (0x28)
def SVE_CNT1_SLABS (t : Nat) : FieldRef := ⟨SVE_CNT1 t, 63, 32⟩
def SVE_CNT1_ROWS (t : Nat) : FieldRef := ⟨SVE_CNT1 t, 31, 0⟩
def SVE_CNT2 (t : Nat) : Nat := tileReg t 5 (0x30)
def SVE_CNT2_POINTS (t : Nat) : FieldRef := ⟨SVE_CNT2 t, 63, 32⟩
def SVE_CNT2_VOXELS (t : Nat) : FieldRef := ⟨SVE_CNT2 t, 31, 0⟩
def HST_CTL : Nat := pkgReg 1 (0)
def HST_CTL_HLDEB : FieldRef := ⟨HST_CTL, 39, 32⟩
def HST_CTL_HLPOL : FieldRef := ⟨HST_CTL, 0, 0⟩
def HST_STAT : Nat := pkgReg 1 (8)
def HST_STAT_OPS : FieldRef := ⟨HST_STAT, 31, 16⟩
def HST_STAT_WIDTH : FieldRef := ⟨HST_STAT, 15, 12⟩
def HST_STAT_RATE : FieldRef := ⟨HST_STAT, 11, 8⟩
def HST_STAT_CXLC : FieldRef := ⟨HST_STAT, 7, 7⟩
def HST_STAT_CXLM : FieldRef := ⟨HST_STAT, 6, 6⟩
def HST_STAT_LINKUP : FieldRef := ⟨HST_STAT, 5, 5⟩
def HST_STAT_HOSTLOST : FieldRef := ⟨HST_STAT, 4, 4⟩
def HST_STAT_ATTACHED : FieldRef := ⟨HST_STAT, 3, 3⟩
def HST_ERR : Nat := pkgReg 1 (0x10)
def HST_ERR_HDMREF : FieldRef := ⟨HST_ERR, 4, 4⟩
def HST_ERR_CMPLFULL : FieldRef := ⟨HST_ERR, 3, 3⟩
def HST_ERR_IDCONF : FieldRef := ⟨HST_ERR, 2, 2⟩
def HST_ERR_RINGERR : FieldRef := ⟨HST_ERR, 1, 1⟩
def HST_ERR_DROPERR : FieldRef := ⟨HST_ERR, 0, 0⟩
def HST_CNT0 : Nat := pkgReg 1 (0x18)
def HST_CNT0_FETCHED : FieldRef := ⟨HST_CNT0, 63, 32⟩
def HST_CNT0_CMPL : FieldRef := ⟨HST_CNT0, 31, 0⟩
def HST_CNT1 : Nat := pkgReg 1 (0x20)
def HST_CNT1_DUPS : FieldRef := ⟨HST_CNT1, 63, 32⟩
def HST_CNT1_DROPDISC : FieldRef := ⟨HST_CNT1, 31, 16⟩
def HST_CNT1_EVLOST : FieldRef := ⟨HST_CNT1, 15, 0⟩
def HST_RECBASE : Nat := pkgReg 1 (0x28)
def HST_RECBASE_ADDR : FieldRef := ⟨HST_RECBASE, 63, 0⟩
def HST_EVBASE : Nat := pkgReg 1 (0x30)
def HST_EVBASE_HPA : FieldRef := ⟨HST_EVBASE, 51, 12⟩
def HST_EVCFG : Nat := pkgReg 1 (0x38)
def HST_EVCFG_CLASSMASK : FieldRef := ⟨HST_EVCFG, 31, 16⟩
def HST_EVCFG_EN : FieldRef := ⟨HST_EVCFG, 8, 8⟩
def HST_EVCFG_LOG2N : FieldRef := ⟨HST_EVCFG, 4, 0⟩
def HST_MANSTAT : Nat := pkgReg 1 (0x40)
def HST_MANSTAT_READY : FieldRef := ⟨HST_MANSTAT, 34, 34⟩
def HST_MANSTAT_FROZEN : FieldRef := ⟨HST_MANSTAT, 33, 33⟩
def HST_MANSTAT_AVAIL : FieldRef := ⟨HST_MANSTAT, 32, 32⟩
def HST_MANSTAT_SEQ : FieldRef := ⟨HST_MANSTAT, 31, 0⟩
def HST_MANCMD : Nat := pkgReg 1 (0x48)
def HST_MANCMD_SEQ : FieldRef := ⟨HST_MANCMD, 63, 32⟩
def HST_MANCMD_OP : FieldRef := ⟨HST_MANCMD, 3, 0⟩
def HST_NONCE (i : Nat) : Nat := pkgReg 1 (0x50 + 8 * i)
def HST_NONCE_NONCE (i : Nat) : FieldRef := ⟨HST_NONCE i, 63, 0⟩
def HST_HWIN (i : Nat) : Nat := pkgReg 1 (0x100 + 16 * i)
def HST_HWIN_EN (i : Nat) : FieldRef := ⟨HST_HWIN i, 63, 63⟩
def HST_HWIN_WR (i : Nat) : FieldRef := ⟨HST_HWIN i, 62, 62⟩
def HST_HWIN_RD (i : Nat) : FieldRef := ⟨HST_HWIN i, 61, 61⟩
def HST_HWIN_BASE (i : Nat) : FieldRef := ⟨HST_HWIN i, 51, 12⟩
def HST_HWLIM (i : Nat) : Nat := pkgReg 1 (0x108 + 16 * i)
def HST_HWLIM_LIMIT (i : Nat) : FieldRef := ⟨HST_HWLIM i, 39, 12⟩
def HST_DROP (i : Nat) : Nat := pkgReg 1 (0x200 + 8 * i)
def HST_DROP_EN (i : Nat) : FieldRef := ⟨HST_DROP i, 63, 63⟩
def HST_DROP_LABEL (i : Nat) : FieldRef := ⟨HST_DROP i, 59, 56⟩
def HST_DROP_REGION (i : Nat) : FieldRef := ⟨HST_DROP i, 47, 44⟩
def HST_DROP_OFFSET (i : Nat) : FieldRef := ⟨HST_DROP i, 43, 16⟩
def HST_HDM (i : Nat) : Nat := pkgReg 1 (0x300 + 16 * i)
def HST_HDM_EN (i : Nat) : FieldRef := ⟨HST_HDM i, 63, 63⟩
def HST_HDM_LABEL (i : Nat) : FieldRef := ⟨HST_HDM i, 59, 56⟩
def HST_HDM_REGION (i : Nat) : FieldRef := ⟨HST_HDM i, 47, 44⟩
def HST_HDM_OFFSET (i : Nat) : FieldRef := ⟨HST_HDM i, 43, 28⟩
def HST_HDMSZ (i : Nat) : Nat := pkgReg 1 (0x308 + 16 * i)
def HST_HDMSZ_SIZE (i : Nat) : FieldRef := ⟨HST_HDMSZ i, 15, 0⟩
def HST_CBASE (i : Nat) : Nat := pkgReg 1 (0x1000 + 32 * i)
def HST_CBASE_EN (i : Nat) : FieldRef := ⟨HST_CBASE i, 63, 63⟩
def HST_CBASE_LABEL (i : Nat) : FieldRef := ⟨HST_CBASE i, 59, 56⟩
def HST_CBASE_HPA (i : Nat) : FieldRef := ⟨HST_CBASE i, 51, 12⟩
def HST_CBASE_LOG2N (i : Nat) : FieldRef := ⟨HST_CBASE i, 4, 0⟩
def HST_QBASE (i : Nat) : Nat := pkgReg 1 (0x1008 + 32 * i)
def HST_QBASE_HPA (i : Nat) : FieldRef := ⟨HST_QBASE i, 51, 12⟩
def HST_QBASE_LOG2M (i : Nat) : FieldRef := ⟨HST_QBASE i, 4, 0⟩
def HST_RSTAT (i : Nat) : Nat := pkgReg 1 (0x1010 + 32 * i)
def HST_RSTAT_CTAIL (i : Nat) : FieldRef := ⟨HST_RSTAT i, 63, 48⟩
def HST_RSTAT_CHEAD (i : Nat) : FieldRef := ⟨HST_RSTAT i, 47, 32⟩
def HST_RSTAT_HEAD (i : Nat) : FieldRef := ⟨HST_RSTAT i, 31, 16⟩
def HST_RSTAT_TAIL (i : Nat) : FieldRef := ⟨HST_RSTAT i, 15, 0⟩
def HOD_STAT : Nat := pkgReg 2 (0)
def HOD_STAT_FUSECTR : FieldRef := ⟨HOD_STAT, 31, 24⟩
def HOD_STAT_SVN : FieldRef := ⟨HOD_STAT, 23, 16⟩
def HOD_STAT_SEALED : FieldRef := ⟨HOD_STAT, 15, 15⟩
def HOD_STAT_SEALREQ : FieldRef := ⟨HOD_STAT, 14, 14⟩
def HOD_STAT_BS : FieldRef := ⟨HOD_STAT, 13, 12⟩
def HOD_STAT_TRIAL : FieldRef := ⟨HOD_STAT, 11, 11⟩
def HOD_STAT_BANK : FieldRef := ⟨HOD_STAT, 10, 10⟩
def HOD_STAT_STAGED : FieldRef := ⟨HOD_STAT, 9, 8⟩
def HOD_STAT_RECOV : FieldRef := ⟨HOD_STAT, 7, 7⟩
def HOD_CMD : Nat := pkgReg 2 (8)
def HOD_CMD_OP : FieldRef := ⟨HOD_CMD, 7, 0⟩
def HOD_CARG : Nat := pkgReg 2 (0x10)
def HOD_CARG_ADDR : FieldRef := ⟨HOD_CARG, 63, 0⟩
def HOD_CSTAT : Nat := pkgReg 2 (0x18)
def HOD_CSTAT_BUSY : FieldRef := ⟨HOD_CSTAT, 63, 63⟩
def HOD_CSTAT_DONE : FieldRef := ⟨HOD_CSTAT, 62, 62⟩
def HOD_CSTAT_FAIL : FieldRef := ⟨HOD_CSTAT, 61, 61⟩
def HOD_CSTAT_WHY : FieldRef := ⟨HOD_CSTAT, 7, 0⟩
def HOD_VER : Nat := pkgReg 2 (0x20)
def HOD_VER_RUN : FieldRef := ⟨HOD_VER, 63, 32⟩
def HOD_VER_STAGE : FieldRef := ⟨HOD_VER, 31, 0⟩
def HOD_PCAP : Nat := pkgReg 2 (0x28)
def HOD_PCAP_TRAYCAP : FieldRef := ⟨HOD_PCAP, 31, 16⟩
def HOD_PCAP_PCAP : FieldRef := ⟨HOD_PCAP, 15, 0⟩
def HOD_BWGT : Nat := pkgReg 2 (0x30)
def HOD_BWGT_W0 : FieldRef := ⟨HOD_BWGT, 7, 0⟩
def HOD_BWGT_W1 : FieldRef := ⟨HOD_BWGT, 15, 8⟩
def HOD_BWGT_W2 : FieldRef := ⟨HOD_BWGT, 23, 16⟩
def HOD_BWGT_W3 : FieldRef := ⟨HOD_BWGT, 31, 24⟩
def HOD_THERM : Nat := pkgReg 2 (0x38)
def HOD_THERM_TIN : FieldRef := ⟨HOD_THERM, 63, 48⟩
def HOD_THERM_TOUT : FieldRef := ⟨HOD_THERM, 47, 32⟩
def HOD_THERM_HOT : FieldRef := ⟨HOD_THERM, 31, 16⟩
def HOD_THERM_HOTIDX : FieldRef := ⟨HOD_THERM, 7, 0⟩
def HOD_ERR : Nat := pkgReg 2 (0x40)
def HOD_ERR_NORFAIL : FieldRef := ⟨HOD_ERR, 9, 9⟩
def HOD_ERR_LEAK : FieldRef := ⟨HOD_ERR, 8, 8⟩
def HOD_ERR_OC : FieldRef := ⟨HOD_ERR, 7, 7⟩
def HOD_ERR_VMON : FieldRef := ⟨HOD_ERR, 6, 6⟩
def HOD_ERR_SENSOR : FieldRef := ⟨HOD_ERR, 5, 5⟩
def HOD_ERR_COOLANT : FieldRef := ⟨HOD_ERR, 4, 4⟩
def HOD_ERR_BUSFAIL : FieldRef := ⟨HOD_ERR, 3, 3⟩
def HOD_ERR_IDMISM : FieldRef := ⟨HOD_ERR, 2, 2⟩
def HOD_ERR_PHASE : FieldRef := ⟨HOD_ERR, 1, 1⟩
def HOD_ERR_TRIALFB : FieldRef := ⟨HOD_ERR, 0, 0⟩
def HOD_LOGCTL : Nat := pkgReg 2 (0x48)
def HOD_LOGCTL_PCLASS : FieldRef := ⟨HOD_LOGCTL, 15, 0⟩
def HOD_LOGSTAT : Nat := pkgReg 2 (0x50)
def HOD_LOGSTAT_NORSEQ : FieldRef := ⟨HOD_LOGSTAT, 63, 32⟩
def HOD_LOGSTAT_DROPPED : FieldRef := ⟨HOD_LOGSTAT, 31, 16⟩
def HOD_LOGSTAT_RAMHEAD : FieldRef := ⟨HOD_LOGSTAT, 12, 0⟩
def HOD_LOGRD : Nat := pkgReg 2 (0x58)
def HOD_LOGRD_VALID : FieldRef := ⟨HOD_LOGRD, 63, 63⟩
def HOD_LOGRD_BUSY : FieldRef := ⟨HOD_LOGRD, 62, 62⟩
def HOD_LOGRD_SEQ : FieldRef := ⟨HOD_LOGRD, 31, 0⟩
def HOD_LOGREC (i : Nat) : Nat := pkgReg 2 (0x100 + 8 * i)
def HOD_LOGREC_DATA (i : Nat) : FieldRef := ⟨HOD_LOGREC i, 63, 0⟩
def HOD_TEMP (i : Nat) : Nat := pkgReg 2 (0x1000 + 8 * i)
def HOD_TEMP_STATE (i : Nat) : FieldRef := ⟨HOD_TEMP i, 17, 16⟩
def HOD_TEMP_T (i : Nat) : FieldRef := ⟨HOD_TEMP i, 15, 0⟩
def HOD_VMON (i : Nat) : Nat := pkgReg 2 (0x2000 + 8 * i)
def HOD_VMON_OUT (i : Nat) : FieldRef := ⟨HOD_VMON i, 16, 16⟩
def HOD_VMON_MV (i : Nat) : FieldRef := ⟨HOD_VMON i, 15, 0⟩
def HOD_RAIL (i : Nat) : Nat := pkgReg 2 (0x3000 + 8 * i)
def HOD_RAIL_VOUT (i : Nat) : FieldRef := ⟨HOD_RAIL i, 63, 48⟩
def HOD_RAIL_IOUT (i : Nat) : FieldRef := ⟨HOD_RAIL i, 47, 32⟩
def HOD_RAIL_PHOK (i : Nat) : FieldRef := ⟨HOD_RAIL i, 31, 24⟩
def HOD_RAIL_PHASES (i : Nat) : FieldRef := ⟨HOD_RAIL i, 23, 16⟩
def HOD_RAIL_STATUS (i : Nat) : FieldRef := ⟨HOD_RAIL i, 15, 0⟩
def SAF_CTL : Nat := pkgReg 4 (0)
def SAF_CTL_AUTOBR : FieldRef := ⟨SAF_CTL, 4, 4⟩
def SAF_CTL_AUTOTEST : FieldRef := ⟨SAF_CTL, 3, 3⟩
def SAF_CTL_KLOCK : FieldRef := ⟨SAF_CTL, 1, 1⟩
def SAF_CTL_KEYEN : FieldRef := ⟨SAF_CTL, 0, 0⟩
def SAF_STAT : Nat := pkgReg 4 (8)
def SAF_STAT_PCAUSE : FieldRef := ⟨SAF_STAT, 15, 8⟩
def SAF_STAT_PSAFE : FieldRef := ⟨SAF_STAT, 7, 7⟩
def SAF_STAT_BSAFE : FieldRef := ⟨SAF_STAT, 3, 0⟩
def SAF_ERR : Nat := pkgReg 4 (0x10)
def SAF_ERR_SEATLOST : FieldRef := ⟨SAF_ERR, 5, 5⟩
def SAF_ERR_KEYLOST : FieldRef := ⟨SAF_ERR, 4, 4⟩
def SAF_ERR_KEYVIOL : FieldRef := ⟨SAF_ERR, 3, 3⟩
def SAF_ERR_PSAFE : FieldRef := ⟨SAF_ERR, 2, 2⟩
def SAF_ERR_BSAFE : FieldRef := ⟨SAF_ERR, 1, 1⟩
def SAF_ERR_TFENCE : FieldRef := ⟨SAF_ERR, 0, 0⟩
def SAF_KVLOG0 : Nat := pkgReg 4 (0x18)
def SAF_KVLOG0_SEAT : FieldRef := ⟨SAF_KVLOG0, 63, 48⟩
def SAF_KVLOG0_HOST : FieldRef := ⟨SAF_KVLOG0, 47, 47⟩
def SAF_KVLOG0_LBL : FieldRef := ⟨SAF_KVLOG0, 43, 40⟩
def SAF_KVLOG0_OPC : FieldRef := ⟨SAF_KVLOG0, 39, 32⟩
def SAF_KVLOG1 : Nat := pkgReg 4 (0x20)
def SAF_KVLOG1_ADDR : FieldRef := ⟨SAF_KVLOG1, 63, 0⟩
def SAF_KVCNT : Nat := pkgReg 4 (0x28)
def SAF_KVCNT_COUNT : FieldRef := ⟨SAF_KVCNT, 31, 0⟩
def SAF_KEY (i j : Nat) : Nat := pkgReg 4 (0x1000 + 32 * i + 8 * j)
def SAF_KEY_WORD (i j : Nat) : FieldRef := ⟨SAF_KEY i j, 63, 0⟩
def SAF_BCTL (b : Nat) : Nat := brickReg b 9 (0)
def SAF_BCTL_BRESET (b : Nat) : FieldRef := ⟨SAF_BCTL b, 4, 4⟩
def SAF_BCTL_PAUSE (b : Nat) : FieldRef := ⟨SAF_BCTL b, 0, 0⟩
def SAF_BSTAT (b : Nat) : Nat := brickReg b 9 (8)
def SAF_BSTAT_ROTS (b : Nat) : FieldRef := ⟨SAF_BSTAT b, 63, 32⟩
def SAF_BSTAT_LASTROT (b : Nat) : FieldRef := ⟨SAF_BSTAT b, 31, 16⟩
def SAF_BSTAT_CUR (b : Nat) : FieldRef := ⟨SAF_BSTAT b, 10, 6⟩
def SAF_BSTAT_SHON (b : Nat) : FieldRef := ⟨SAF_BSTAT b, 5, 5⟩
def SAF_BSTAT_ROTRUN (b : Nat) : FieldRef := ⟨SAF_BSTAT b, 4, 4⟩
def SAF_BSTAT_SAFE (b : Nat) : FieldRef := ⟨SAF_BSTAT b, 3, 3⟩
def SAF_FENCED (b : Nat) : Nat := brickReg b 9 (0x10)
def SAF_FENCED_FENCED (b : Nat) : FieldRef := ⟨SAF_FENCED b, 31, 0⟩
def SAF_TCMD (b : Nat) : Nat := brickReg b 9 (0x18)
def SAF_TCMD_OP (b : Nat) : FieldRef := ⟨SAF_TCMD b, 63, 56⟩
def SAF_TCMD_SITE (b : Nat) : FieldRef := ⟨SAF_TCMD b, 13, 8⟩
def SAF_TCMD_TILE (b : Nat) : FieldRef := ⟨SAF_TCMD b, 4, 0⟩
def SAF_STRES (b : Nat) : Nat := brickReg b 9 (0x20)
def SAF_STRES_BUSY (b : Nat) : FieldRef := ⟨SAF_STRES b, 63, 63⟩
def SAF_STRES_DONE (b : Nat) : FieldRef := ⟨SAF_STRES b, 62, 62⟩
def SAF_STRES_PASS (b : Nat) : FieldRef := ⟨SAF_STRES b, 61, 61⟩
def SAF_STRES_SITE (b : Nat) : FieldRef := ⟨SAF_STRES b, 13, 8⟩
def SAF_STRES_FAIL (b : Nat) : FieldRef := ⟨SAF_STRES b, 4, 0⟩
def SAF_CNT0 (b : Nat) : Nat := brickReg b 9 (0x28)
def SAF_CNT0_VISITS (b : Nat) : FieldRef := ⟨SAF_CNT0 b, 63, 32⟩
def SAF_CNT0_UNJOINED (b : Nat) : FieldRef := ⟨SAF_CNT0 b, 31, 16⟩
def SAF_CNT0_MISMATCH (b : Nat) : FieldRef := ⟨SAF_CNT0 b, 15, 0⟩
def SAF_TREC (b i : Nat) : Nat := brickReg b 9 (0x100 + 8 * i)
def SAF_TREC_FCAUSE (b i : Nat) : FieldRef := ⟨SAF_TREC b i, 7, 0⟩
def SAF_VP (b i : Nat) : Nat := brickReg b 9 (0x200 + 8 * i)
def SAF_VP_VP (b i : Nat) : FieldRef := ⟨SAF_VP b i, 63, 0⟩
def OBS_TILE (t : Nat) : Nat := tileReg t 6 (0)
def OBS_TILE_PCINT (t : Nat) : FieldRef := ⟨OBS_TILE t, 47, 32⟩
def OBS_TILE_PCJIT (t : Nat) : FieldRef := ⟨OBS_TILE t, 4, 4⟩
def OBS_TILE_PCEN (t : Nat) : FieldRef := ⟨OBS_TILE t, 3, 3⟩
def OBS_TILE_SIGTR (t : Nat) : FieldRef := ⟨OBS_TILE t, 2, 2⟩
def OBS_TILE_CLR (t : Nat) : FieldRef := ⟨OBS_TILE t, 1, 1⟩
def OBS_TILE_CNTEN (t : Nat) : FieldRef := ⟨OBS_TILE t, 0, 0⟩
def OBS_CNT (t i : Nat) : Nat := tileReg t 6 (0x100 + 8 * i)
def OBS_CNT_COUNT (t i : Nat) : FieldRef := ⟨OBS_CNT t i, 63, 0⟩
def OBS_SMP (i : Nat) : Nat := pkgReg 5 (0 + 4096 * i)
def OBS_SMP_EN (i : Nat) : FieldRef := ⟨OBS_SMP i, 63, 63⟩
def OBS_SMP_INTV (i : Nat) : FieldRef := ⟨OBS_SMP i, 48, 32⟩
def OBS_SMP_TILES (i : Nat) : FieldRef := ⟨OBS_SMP i, 31, 0⟩
def OBS_SCM (i : Nat) : Nat := pkgReg 5 (8 + 4096 * i)
def OBS_SCM_CMASK (i : Nat) : FieldRef := ⟨OBS_SCM i, 63, 0⟩
def OBS_SBASE (i : Nat) : Nat := pkgReg 5 (0x10 + 4096 * i)
def OBS_SBASE_ADDR (i : Nat) : FieldRef := ⟨OBS_SBASE i, 63, 0⟩
def OBS_SRING (i : Nat) : Nat := pkgReg 5 (0x18 + 4096 * i)
def OBS_SRING_WM (i : Nat) : FieldRef := ⟨OBS_SRING i, 12, 8⟩
def OBS_SRING_LOG2SZ (i : Nat) : FieldRef := ⟨OBS_SRING i, 4, 0⟩
def OBS_SPROD (i : Nat) : Nat := pkgReg 5 (0x20 + 4096 * i)
def OBS_SPROD_PROD (i : Nat) : FieldRef := ⟨OBS_SPROD i, 63, 0⟩
def OBS_SCONS (i : Nat) : Nat := pkgReg 5 (0x28 + 4096 * i)
def OBS_SCONS_CONS (i : Nat) : FieldRef := ⟨OBS_SCONS i, 63, 0⟩
def OBS_SBOND (i : Nat) : Nat := pkgReg 5 (0x30 + 4096 * i)
def OBS_SBOND_ADDR (i : Nat) : FieldRef := ⟨OBS_SBOND i, 63, 0⟩
def OBS_TRC (i : Nat) : Nat := pkgReg 5 (0x40 + 4096 * i)
def OBS_TRC_EN (i : Nat) : FieldRef := ⟨OBS_TRC i, 63, 63⟩
def OBS_TRC_WM (i : Nat) : FieldRef := ⟨OBS_TRC i, 12, 8⟩
def OBS_TRC_LOG2SZ (i : Nat) : FieldRef := ⟨OBS_TRC i, 4, 0⟩
def OBS_TBASE (i : Nat) : Nat := pkgReg 5 (0x48 + 4096 * i)
def OBS_TBASE_ADDR (i : Nat) : FieldRef := ⟨OBS_TBASE i, 63, 0⟩
def OBS_TPROD (i : Nat) : Nat := pkgReg 5 (0x50 + 4096 * i)
def OBS_TPROD_PROD (i : Nat) : FieldRef := ⟨OBS_TPROD i, 63, 0⟩
def OBS_TCONS (i : Nat) : Nat := pkgReg 5 (0x58 + 4096 * i)
def OBS_TCONS_CONS (i : Nat) : FieldRef := ⟨OBS_TCONS i, 63, 0⟩
def OBS_TBOND (i : Nat) : Nat := pkgReg 5 (0x60 + 4096 * i)
def OBS_TBOND_ADDR (i : Nat) : FieldRef := ⟨OBS_TBOND i, 63, 0⟩
def OBS_BTR (i : Nat) : Nat := pkgReg 5 (0x68 + 4096 * i)
def OBS_BTR_EN (i : Nat) : FieldRef := ⟨OBS_BTR i, 63, 63⟩
def OBS_BTR_WAKE (i : Nat) : FieldRef := ⟨OBS_BTR i, 50, 50⟩
def OBS_BTR_SIG (i : Nat) : FieldRef := ⟨OBS_BTR i, 49, 49⟩
def OBS_BTR_WAIT (i : Nat) : FieldRef := ⟨OBS_BTR i, 48, 48⟩
def OBS_BTR_BLAST (i : Nat) : FieldRef := ⟨OBS_BTR i, 45, 32⟩
def OBS_BTR_BFIRST (i : Nat) : FieldRef := ⟨OBS_BTR i, 13, 0⟩
def OBS_STAMP (i : Nat) : Nat := pkgReg 5 (0x70 + 4096 * i)
def OBS_STAMP_EN (i : Nat) : FieldRef := ⟨OBS_STAMP i, 63, 63⟩
def OBS_STAMP_SEND (i : Nat) : FieldRef := ⟨OBS_STAMP i, 62, 62⟩
def OBS_STAMP_RECV (i : Nat) : FieldRef := ⟨OBS_STAMP i, 61, 61⟩
def OBS_STAMP_PTM (i : Nat) : FieldRef := ⟨OBS_STAMP i, 59, 56⟩
def OBS_STAMP_SHIFT (i : Nat) : FieldRef := ⟨OBS_STAMP i, 52, 48⟩
def OBS_STAMP_LBLMASK (i : Nat) : FieldRef := ⟨OBS_STAMP i, 47, 32⟩
def OBS_STAMP_LINKS (i : Nat) : FieldRef := ⟨OBS_STAMP i, 8, 0⟩
def OBS_ERR (i : Nat) : Nat := pkgReg 5 (0x78 + 4096 * i)
def OBS_ERR_CFG (i : Nat) : FieldRef := ⟨OBS_ERR i, 3, 3⟩
def OBS_ERR_SKIP (i : Nat) : FieldRef := ⟨OBS_ERR i, 2, 2⟩
def OBS_ERR_TDROP (i : Nat) : FieldRef := ⟨OBS_ERR i, 1, 1⟩
def OBS_ERR_SDROP (i : Nat) : FieldRef := ⟨OBS_ERR i, 0, 0⟩
def OBS_DROPS (i : Nat) : Nat := pkgReg 5 (0x80 + 4096 * i)
def OBS_DROPS_TREC (i : Nat) : FieldRef := ⟨OBS_DROPS i, 63, 32⟩
def OBS_DROPS_SREC (i : Nat) : FieldRef := ⟨OBS_DROPS i, 31, 0⟩
def OBS_SKIPS (i : Nat) : Nat := pkgReg 5 (0x88 + 4096 * i)
def OBS_SKIPS_SKIPS (i : Nat) : FieldRef := ⟨OBS_SKIPS i, 31, 0⟩
def OBS_PADDR : Nat := pkgReg 5 (0x8000)
def OBS_PADDR_ADDR : FieldRef := ⟨OBS_PADDR, 63, 0⟩
def OBS_PT0 : Nat := pkgReg 5 (0x8008)
def OBS_PT0_TILES : FieldRef := ⟨OBS_PT0, 63, 0⟩
def OBS_PT1 : Nat := pkgReg 5 (0x8010)
def OBS_PT1_TILES : FieldRef := ⟨OBS_PT1, 63, 0⟩
def OBS_PCM : Nat := pkgReg 5 (0x8018)
def OBS_PCM_CMASK : FieldRef := ⟨OBS_PCM, 63, 0⟩
def OBS_PGO : Nat := pkgReg 5 (0x8020)
def OBS_PGO_GO : FieldRef := ⟨OBS_PGO, 0, 0⟩
def OBS_PST : Nat := pkgReg 5 (0x8028)
def OBS_PST_BUSY : FieldRef := ⟨OBS_PST, 63, 63⟩
def OBS_PST_DONE : FieldRef := ⟨OBS_PST, 62, 62⟩
def OBS_PST_ERR : FieldRef := ⟨OBS_PST, 61, 61⟩
def OBS_PST_STATUS : FieldRef := ⟨OBS_PST, 39, 32⟩
def OBS_PST_COUNT : FieldRef := ⟨OBS_PST, 7, 0⟩
def PLB_CTL : Nat := pkgReg 6 (0)
def PLB_CTL_ROOT : FieldRef := ⟨PLB_CTL, 63, 63⟩
def PLB_CTL_SYNC : FieldRef := ⟨PLB_CTL, 62, 62⟩
def PLB_CTL_MEASALL : FieldRef := ⟨PLB_CTL, 61, 61⟩
def PLB_CTL_UPPORT : FieldRef := ⟨PLB_CTL, 52, 48⟩
def PLB_CTL_SYNCINT : FieldRef := ⟨PLB_CTL, 47, 32⟩
def PLB_CTL_HOLDMAX : FieldRef := ⟨PLB_CTL, 31, 16⟩
def PLB_CTL_ALTHR : FieldRef := ⟨PLB_CTL, 15, 0⟩
def PLB_STAT : Nat := pkgReg 6 (8)
def PLB_STAT_ALIGNED : FieldRef := ⟨PLB_STAT, 63, 63⟩
def PLB_STAT_HOLD : FieldRef := ⟨PLB_STAT, 62, 62⟩
def PLB_STAT_STEPPED : FieldRef := ⟨PLB_STAT, 61, 61⟩
def PLB_STAT_OKRUN : FieldRef := ⟨PLB_STAT, 15, 0⟩
def PLB_NOW : Nat := pkgReg 6 (0x10)
def PLB_NOW_PLUMB : FieldRef := ⟨PLB_NOW, 63, 0⟩
def PLB_THETA : Nat := pkgReg 6 (0x18)
def PLB_THETA_THETA : FieldRef := ⟨PLB_THETA, 63, 0⟩
def PLB_FREQ : Nat := pkgReg 6 (0x20)
def PLB_FREQ_F : FieldRef := ⟨PLB_FREQ, 63, 0⟩
def PLB_STEP : Nat := pkgReg 6 (0x28)
def PLB_STEP_STEP : FieldRef := ⟨PLB_STEP, 63, 0⟩
def PLB_PTHETA (i : Nat) : Nat := pkgReg 6 (0x1000 + 32 * i)
def PLB_PTHETA_THETA (i : Nat) : FieldRef := ⟨PLB_PTHETA i, 63, 0⟩
def PLB_PDELTA (i : Nat) : Nat := pkgReg 6 (0x1008 + 32 * i)
def PLB_PDELTA_VALID (i : Nat) : FieldRef := ⟨PLB_PDELTA i, 63, 63⟩
def PLB_PDELTA_DELTA (i : Nat) : FieldRef := ⟨PLB_PDELTA i, 15, 0⟩
def PLB_PTMEAS (i : Nat) : Nat := pkgReg 6 (0x1010 + 32 * i)
def PLB_PTMEAS_TMEAS (i : Nat) : FieldRef := ⟨PLB_PTMEAS i, 63, 0⟩
def MRT_VCCR0 (p : Nat) : Nat := portReg p 0x38
def MRT_VCCR0_VC0 (p : Nat) : FieldRef := ⟨MRT_VCCR0 p, 15, 0⟩
def MRT_VCCR0_VC1 (p : Nat) : FieldRef := ⟨MRT_VCCR0 p, 31, 16⟩
def MRT_VCCR0_VC2 (p : Nat) : FieldRef := ⟨MRT_VCCR0 p, 47, 32⟩
def MRT_VCCR0_VC3 (p : Nat) : FieldRef := ⟨MRT_VCCR0 p, 63, 48⟩
def MRT_VCCR1 (p : Nat) : Nat := portReg p 0x40
def MRT_VCCR1_VC4 (p : Nat) : FieldRef := ⟨MRT_VCCR1 p, 15, 0⟩
def MRT_VCCR1_VC5 (p : Nat) : FieldRef := ⟨MRT_VCCR1 p, 31, 16⟩
def MRT_VCCR1_VC6 (p : Nat) : FieldRef := ⟨MRT_VCCR1 p, 47, 32⟩
def MRT_VCCR1_VC7 (p : Nat) : FieldRef := ⟨MRT_VCCR1 p, 63, 48⟩
def MRT_TRAY (b i : Nat) : Nat := brickReg b 0 (0x20000 + 8 * i)
def MRT_TRAY_PORTS (b i : Nat) : FieldRef := ⟨MRT_TRAY b i, 23, 0⟩
def MRT_WALL (b i : Nat) : Nat := brickReg b 0 (0x20100 + 8 * i)
def MRT_WALL_VALID (b i : Nat) : FieldRef := ⟨MRT_WALL b i, 27, 27⟩
def MRT_WALL_GWPOS (b i : Nat) : FieldRef := ⟨MRT_WALL b i, 26, 24⟩
def MRT_WALL_PORTS (b i : Nat) : FieldRef := ⟨MRT_WALL b i, 23, 0⟩
def MRT_SITE (b i : Nat) : Nat := brickReg b 0 (0x20400 + 8 * i)
def MRT_SITE_VALID (b i : Nat) : FieldRef := ⟨MRT_SITE b i, 33, 33⟩
def MRT_SITE_GWPOS (b i : Nat) : FieldRef := ⟨MRT_SITE b i, 32, 30⟩
def MRT_SITE_GWTRAY (b i : Nat) : FieldRef := ⟨MRT_SITE b i, 29, 24⟩
def MRT_SITE_PORTS (b i : Nat) : FieldRef := ⟨MRT_SITE b i, 23, 0⟩
def RMP_ENT (st i : Nat) : Nat := stackReg st 5 0x1000 (0 + 8 * i)
def RMP_ENT_VALID (st i : Nat) : FieldRef := ⟨RMP_ENT st i, 63, 63⟩
def RMP_ENT_FROM (st i : Nat) : FieldRef := ⟨RMP_ENT st i, 55, 32⟩
def RMP_ENT_SPARE (st i : Nat) : FieldRef := ⟨RMP_ENT st i, 5, 0⟩
def MRT_BCTL (b q : Nat) : Nat := bridgeReg b q 0
def MRT_BCTL_RETRAIN (b q : Nat) : FieldRef := ⟨MRT_BCTL b q, 1, 1⟩
def MRT_BCTL_EN (b q : Nat) : FieldRef := ⟨MRT_BCTL b q, 0, 0⟩
def MRT_BSTAT (b q : Nat) : Nat := bridgeReg b q 8
def MRT_BSTAT_MODGOOD (b q : Nat) : FieldRef := ⟨MRT_BSTAT b q, 63, 46⟩
def MRT_BSTAT_SPEED (b q : Nat) : FieldRef := ⟨MRT_BSTAT b q, 45, 44⟩
def MRT_BRETRY (b q : Nat) : Nat := bridgeReg b q 0x10
def MRT_BRETRY_ACKTMR (b q : Nat) : FieldRef := ⟨MRT_BRETRY b q, 27, 16⟩
def MRT_BRETRY_TLIMIT (b q : Nat) : FieldRef := ⟨MRT_BRETRY b q, 15, 4⟩
def MRT_BRETRY_MAXREPLAY (b q : Nat) : FieldRef := ⟨MRT_BRETRY b q, 3, 0⟩
def MRT_BERR (b q : Nat) : Nat := bridgeReg b q 0x18
def MRT_BERR_HELD (b q : Nat) : FieldRef := ⟨MRT_BERR b q, 8, 8⟩
def MRT_BERR_MODREJ (b q : Nat) : FieldRef := ⟨MRT_BERR b q, 7, 7⟩
def MRT_BERR_MISWIRE (b q : Nat) : FieldRef := ⟨MRT_BERR b q, 6, 6⟩
def MRT_BERR_LANEX (b q : Nat) : FieldRef := ⟨MRT_BERR b q, 5, 5⟩
def MRT_BERR_PROTO (b q : Nat) : FieldRef := ⟨MRT_BERR b q, 4, 4⟩
def MRT_BERR_DOWN (b q : Nat) : FieldRef := ⟨MRT_BERR b q, 3, 3⟩
def MRT_BERR_REPLAY (b q : Nat) : FieldRef := ⟨MRT_BERR b q, 2, 2⟩
def MRT_BERR_FECUNC (b q : Nat) : FieldRef := ⟨MRT_BERR b q, 1, 1⟩
def MRT_BERR_CRCERR (b q : Nat) : FieldRef := ⟨MRT_BERR b q, 0, 0⟩
def MRT_BCNT0 (b q : Nat) : Nat := bridgeReg b q 0x20
def MRT_BCNT0_FAILED (b q : Nat) : FieldRef := ⟨MRT_BCNT0 b q, 63, 32⟩
def MRT_BCNT0_CORR (b q : Nat) : FieldRef := ⟨MRT_BCNT0 b q, 31, 0⟩
def MRT_BCNT1 (b q : Nat) : Nat := bridgeReg b q 0x28
def MRT_BCNT1_NAKS (b q : Nat) : FieldRef := ⟨MRT_BCNT1 b q, 47, 32⟩
def MRT_BCNT1_DOWNS (b q : Nat) : FieldRef := ⟨MRT_BCNT1 b q, 31, 16⟩
def MRT_BCNT1_REPLAYS (b q : Nat) : FieldRef := ⟨MRT_BCNT1 b q, 15, 0⟩
end Sys2Proof.Machine.Reg
end

