-- ==== Sys2Proof/Machine/State.lean ====
section
/-! DEFINITION. The state of the package as plain data, the reasons a step can stop, and State.reset.
The registers of region 0xA live in `regs`; everything the spec gives the machine beside them is a field of its own. -/
namespace Sys2Proof.Machine
open Sys2Proof

/-- Why a step may stop with a fault. No meaning of this model raises one: the spec describes an effect for every command, also for
those it refuses, so the one constructor stands for the class. Safe. -/
inductive Fault where
  /-- Reserved for an access that the spec says cannot exist. Raised by nothing. Safe. -/
  | noSuchResource
  deriving DecidableEq, Repr

/-- Why a step may be refused. -/
inductive Refusal where
  /-- The command has no meaning yet. Raised by Dispatch alone. Safe. -/
  | notModelled (mnemonic : String)
  deriving DecidableEq, Repr

/-- An event of R24 as a unit raises it, before Hod numbers and logs it (R780): its code and its arguments, with the plumb time. -/
structure Event where
  code : Nat
  args : List Nat
  time : Word        -- plumb time
  aligned : Bool     -- plumb was aligned to the fabric
  quiet : Bool := false   -- it raises no interrupt of the host (R437)
  deriving DecidableEq, Repr

/-- What leaves the package, in the order it leaves. -/
inductive Output where
  /-- What transmit lanes of a port send, by lane number: the PAM4 levels of a wire block's stripes, or of training words (R74, R79, R101). -/
  | lanes (p : Port) (sent : List (Nat × List Level))
  /-- A flit of a bridge on one of its modules (R126). -/
  | module (b : Brick) (q : Fin 3) (m : Nat) (flit : Bytes)
  /-- The answer of a register read (R19). -/
  | regRead (off : Nat) (bytes : Nat) (v : Nat)
  /-- A store into host memory through region 0xB, a ring or a table (chapter 15): host physical address and bytes. -/
  | hostWrite (tag : Nat) (hpa : Nat) (data : Bytes)
  /-- A read of host memory that the host answers by HOST_CACHE_RESPONSE. -/
  | hostRead (tag : Nat) (hpa : Nat) (bytes : Nat)
  /-- An MSI-X message of vector v (R725). -/
  | msix (vector : Nat)
  /-- An answer to the host's own request: status and data. -/
  | hostAnswer (tag : Nat) (status : Nat) (data : Bytes)
  /-- A back-invalidate snoop toward the host (R735): BISnpInv or BISnpData, and a local address. -/
  | biSnoop (inv : Bool) (addr : Nat)
  /-- A General Media event record of poisoned device memory (R720, R735): a local address. -/
  | mediaEvent (addr : Nat)
  /-- An output pin that changed: its name and its level. -/
  | pin (name : String) (level : Nat)
  /-- A message of Hod on a sideband bus: bus name and bytes. -/
  | sideband (bus : String) (data : Bytes)
  /-- The outcome of an operation that no unit of the package waits for: tag, outcome code and status (R57). -/
  | outcome (tag : Nat) (kind : Nat) (status : Nat) (data : Bytes)
  deriving DecidableEq, Repr

/-- The outcomes of R57, and the report of R197. -/
inductive Outcome57 where
  | completed | rejected | unsettled | unreachable | inDoubt
  deriving DecidableEq, Repr

/-- The outcome of an operation on its way to the unit that issued it (R57). -/
structure Result where
  issuer : Issuer
  kind : Outcome57
  status : Nat
  data : Bytes
  op : Op
  deriving DecidableEq, Repr

/-! ### Links (chapter 02) -/

/-- A packet in the transmit queue of a link, or at another arbitration point, with the time it began to wait (R428). -/
structure Queued where
  pkt : Packet
  vc : Nat
  since : Nat
  deriving DecidableEq, Repr

/-- A replay episode (R97): the oldest unacknowledged FSN when it began, and the replays made. -/
structure Episode where
  oldest : Nat
  replays : Nat
  deriving DecidableEq, Repr

/-- A training in progress (R103 to R113). Masks of the receive direction are numbered as the partner's transmit lanes. -/
structure Training where
  fast : Bool := false                       -- a fast retrain (R136)
  failed : Bool := false                     -- the training failed and its back-off runs (R106)
  portRec : Option Nat := none               -- the build sheet's record for this training (R786, R787)
  txPresent : Nat := 0xFF                    -- own transmit lanes that Detect did not find open or shorted (R115)
  rxLocked : Nat := 0                        -- own receive lanes that locked
  rxInverted : Nat := 0                      -- own receive lanes whose sync pattern arrived inverted (R109)
  laneNo : List Nat := List.replicate 8 8    -- lane number read on each own receive lane, 8 for none
  words : Nat := 0                           -- intact words that showed the partner in the same or a later state (R104)
  partnerLive : Nat := 0                     -- fields of the last intact word: receive-live mask,
  partnerMinW : Nat := 0                     -- requested minimum width,
  partnerAccepted : Bool := false            -- "identity accepted" (R118),
  ident : Option (Nat × Nat × Nat) := none   -- physical identity, port and site tag
  eqDone : Bool := false                     -- own equalisation done
  accepted : Bool := false                   -- own outcome in Identify is Accept (R118)
  excludedRx : Nat := 0                      -- receive lanes excluded in this training or kept from the last (R112, R136),
  excludedOwn : Nat := 0                     -- and own receive lanes excluded because they did not lock (R103, R115)
  eqOut : List Nat := []                     -- equalisation codes of the own lanes' words (R101),
  eqIn : List Nat := List.replicate 8 0      -- those last read on each own receive lane,
  rounds : Nat := 0                          -- and the rounds of Tune so far (R103)
  verified : Bool := false                   -- the Verify test is done and CREDINIT was sent
  credGot : Bool := false                    -- the partner's CREDINIT was taken (R91)
  exchanges : Nat := 0                       -- TSREQ and TSRSP exchanges completed (R828)
  rtt : Nat := 0                             -- of the exchange with the smallest round trip: the round trip less the partner's delay,
  theta : Int := 0                           -- and θ
  deriving DecidableEq, Repr

/-- One end of a link: its flit, replay, credit and training state (chapter 02). -/
structure Link where
  txFsn : Nat := 0                            -- FSN of the next kept flit
  rxLast : Option Nat := none                 -- last FSN accepted in order
  nakOut : Bool := false                      -- a NAK is outstanding (R95)
  nakGot : Bool := false                      -- a flit with NAK set has come and no replay has answered it (R96)
  replay : List Flit := []                    -- the replay buffer, oldest first (R93)
  episode : Option Episode := none
  credits : List Nat := List.replicate 8 0    -- transmit credit of each virtual channel, 8 B units (R92)
  freed : List Nat := List.replicate 8 0      -- receive buffer freed and not yet returned (R92)
  streams : List Bytes := List.replicate 8 [] -- partly received packet of each channel (R86)
  streamAt : List Nat := List.replicate 8 0   -- plumb time at which the flit with its first byte was accepted (R893)
  inbox : List (Nat × Bytes) := []            -- control messages accepted and not yet acted on, with the plumb time of arrival (R88, R89)
  queue : List Queued := []                   -- packets waiting to be sent
  inflight : List (Nat × Packet) := []        -- packets with the FSN of their last flit, until acknowledged (R132)
  ackTmr : Nat := 0x064                       -- settings in effect (R139)
  tlimit : Nat := 0x0C8
  maxReplay : Nat := 8
  vccr : List Nat := List.replicate 8 0x2000  -- credit division in effect
  training : Training := {}
  enAt : Nat := 0                             -- model time EN was set (R107)
  absentRaised : Bool := false                -- event 0x1010 raised since EN was set (R107)
  backoffMs : Nat := 10                       -- wait after the next failed training, ms (R106)
  downs : List Nat := []                      -- model times of the downs counted toward FLAPMAX (R138)
  modulePresent : Bool := false               -- MOD_PRS_N (R284)
  moduleReadable : Bool := false              -- Hod could read it (R122)
  moduleClass : Nat := 0                      -- its media class (R786)
  moduleLower : Bytes := []                   -- its CMIS lower memory bytes 0 to 17: type, state, temperature, supply voltage (R120)
  laneFault : Nat := 0                        -- own transmit lanes that CMIS reports faulty (R123)
  moduleId : Bytes := []                      -- the module's identity as last read (R120, R788)
  bridgeUp : Bool := false                    -- a bridge end: UCIe up and geometry right (R129)
  nextModule : Nat := 0                       -- the next module that a flit is dealt to (R126)
  ahead : List Flit := []                     -- flits that came over other modules before the expected one (R126)
  txScr : List Nat := List.replicate 8 0      -- scrambler of each own transmit lane: its last 58 bits sent, the latest lowest (R74)
  rxScr : List Nat := List.replicate 8 0      -- descrambler of each own receive lane: the last 58 bits received
  txMark : List Nat := List.replicate 8 0     -- bytes striped onto each own transmit lane since its last alignment marker (R79),
  rxMark : List Nat := List.replicate 8 0     -- and taken from each own receive lane
  deriving DecidableEq, Repr

/-! ### Arbitration points (chapter 08) -/

/-- What an arbitration point keeps beside its registers (R428, R430, R437). Bucket contents are in 10^-12 B. -/
structure LabelPoint where
  last : Nat := 15                       -- the label last granted
  bucket13 : Nat := 16384 * 10 ^ 12      -- contents of the label-13 bucket,
  bucket14 : Nat := 16384 * 10 ^ 12      -- of the label-14 bucket,
  bucket15 : Nat := 16384 * 10 ^ 12      -- and of the label-15 bucket
  filledAt : Nat := 0                    -- model time up to which the buckets were refilled
  reported : Nat := 0                    -- labels whose miss was reported in this window
  window : Nat := 0                      -- the number of the window (R436)
  tie : List Nat := []                   -- pseudo-channels whose last tie this point won (R432)
  deriving DecidableEq, Repr

/-! ### Transport (chapter 03) -/

/-- A request of a source flow that has no outcome yet (R180). -/
structure SrcOp where
  seq : Nat
  no : Nat                -- place in the issue order of its issuer's tile (R225)
  att : Nat
  op : Op
  issuer : Issuer
  inDoubt : Bool := false          -- its timer has expired (R192)
  everDoubt : Bool := false
  probes : Nat := 0            -- probes that left for it and had no answer (R197)
  refusals : Nat := 0          -- RSP 0x81 received (R195)
  waitCast : Bool := false         -- RSP 0x80 with an unchanged generation: waits TE2E for a cast (R195)
  waitStale : Bool := false        -- RSP 0x81: resent after TE2E (R195)
  refused : Bool := false          -- every delivery so far was answered 0x80 or 0x81 (R198)
  left : Bool := false             -- it has left the source brick since it was last formed
  ever : Bool := false             -- it has left the source brick under its present SEQ
  reported : Bool := false         -- reported as still in doubt (R197)
  sentAt : Nat := 0            -- model time it was last sent
  deriving DecidableEq, Repr

/-- What a source flow is doing beside carrying requests (R190, R195, R201). -/
inductive FlowPhase where
  | active
  | reopening     -- RSP 0x84 or an early 0x83: reopened after TE2E (R195)
  | draining      -- a reset was decided (R200)
  | awaitFra      -- FRST sent (R201)
  | awaitFca      -- FCLS sent (R190)
  deriving DecidableEq, Repr

/-- A flow as its source brick keeps it (R180). -/
structure SrcFlow where
  dseat : Nat
  dgen : Nat
  dbrk : Nat
  lbl : Nat
  sseat : Nat := 0xFFFF        -- the source seat and its generation when it was opened; 0xFFFF and 0 while none was held (R155, R936)
  sgen : Nat := 0
  dpid : Nat := 0              -- the holder that the entry named then: its requests go there (R68)
  fep : Nat := 0
  next : Nat := 0              -- next SEQ to assign
  attMin : Nat := 0
  inc : Nat := 0               -- 0 means not yet learned (R182)
  opens : Bool := true    -- its next SEQ 0 carries OPN (R182)
  answered : Bool := false         -- an answer of the flow has come
  gap : Option Nat := none     -- the lowest SEQ whose operation was given up unperformed since the last go-back (R181, R198)
  acks : Nat := 0              -- every response with SEQ below it has come
  acksSent : Nat := 0          -- the ACKS last sent
  ops : List SrcOp := []        -- oldest first
  probe : Option Nat := none      -- SEQ of the probe formed and not answered (R193),
  probeLeft : Bool := false       -- and whether it has left the source brick
  phase : FlowPhase := .active
  lastSent : Nat := 0          -- model time of the last packet sent
  region : Nat := 0x9          -- region of the flow's most recent operation (R231)
  owesFack : Bool := false     -- a response has come, and no request or FACK was sent since (R189)
  deriving DecidableEq, Repr

/-- Why a new request waits at its source brick. -/
inductive WaitWhy where
  | held        -- the seat entry is Held (R175)
  | entry       -- no source flow entry is free (R191)
  | outmax      -- beyond OUTMAX of the oldest unsettled (R181)
  | reset       -- its flow is being reset (R200)
  deriving DecidableEq, Repr

/-- A request that waits at its source brick. -/
structure WaitOp where
  op : Op
  no : Nat
  issuer : Issuer
  why : WaitWhy
  readyAt : Nat           -- model time it was ready to leave (R198)
  again : Bool := false   -- taken from a flow to be issued again (R195): it goes before the new ones
  deriving DecidableEq, Repr

/-- A response kept by the destination (R187). -/
structure Retained where
  seq : Nat
  status : Nat
  data : Bytes
  deriving DecidableEq, Repr

/-- A flow as its destination brick keeps it (R180). -/
structure DstFlow where
  sseat : Nat
  sgen : Nat
  sbrk : Nat
  lbl : Nat
  fep : Nat
  nxt : Nat := 0
  ackd : Nat := 0
  attMin : Nat
  held : List Packet := []        -- the reorder store's packets of this flow, by SEQ
  retained : List Retained := []  -- oldest first
  performing : Option Packet := none  -- a request begun whose answer is not ready (R937)
  deriving DecidableEq, Repr

/-! ### Ordering and bonds (chapter 04) -/

/-- A registered wait (R253). -/
structure BondWait where
  ge : Bool               -- WAITGE, else WAITEQ
  target : Nat
  seat : Nat              -- the waiter
  brk : Nat
  tile : Nat
  slot : Nat
  timeout : Nat           -- µs, 0 none (R249)
  since : Nat             -- plumb time it runs from (R260)
  deriving DecidableEq, Repr

/-- An armed signaller (R245). -/
structure Armed where
  seat : Nat
  gen : Nat
  tile : Nat
  deriving DecidableEq, Repr

/-- A bond: its counter, flags, armed signallers and waits in order of registration (R245). -/
structure Bond where
  count : Word := 0
  wrapped : Bool := false
  poison : Bool := false
  armed : List Armed := []
  waits : List BondWait := []
  deriving DecidableEq, Repr

/-- A copy of a 128 B line outside its home (R219). -/
structure CopyLine where
  line : Nat              -- global address ÷ 128, with seat 0xFFFF for own seat (R322)
  stamp : Nat             -- fill stamp (R223)
  data : Bytes
  way : Nat := 0          -- way of its set, for a remote-copy line (R321)
  deriving DecidableEq, Repr

/-- A load in flight that would fill a copy (R223). -/
structure Fill where
  tile : Nat
  line : Nat
  stamp : Nat             -- acquire counter when the load was issued
  no : Nat                -- number of that load as a blocking operation of the tile's mason
  stale : Bool            -- a store to the line, or a flush, since then
  ready : Bool := false   -- the load has been answered with status 0x00
  deriving DecidableEq, Repr

/-- State of a wait slot of a tile (R255). -/
inductive SlotState where
  | free | opened | done
  deriving DecidableEq, Repr

/-- A wait slot of a tile (R255, R502). -/
structure Slot where
  st : SlotState := .free
  bond : Word := 0             -- global address of the bond
  lbl : Nat := 0               -- label of the wait
  status : Nat := 0            -- wake status (R258)
  count : Word := 0
  registered : Bool := false       -- the wait was answered 0x20
  openedAt : Nat := 0          -- model time (R262),
  checkedAt : Nat := 0         -- and that of its last WCHK
  deriving DecidableEq, Repr

/-- An operation of a tile that ended Unsettled or Seat unreachable, as later releases see it (R233): its number, seat and brick, and whether it writes
(R217). -/
structure FailedOp where
  no : Nat
  seat : Nat
  brk : Nat
  write : Bool
  deriving DecidableEq, Repr

/-- A release that waits for its drain (R230). -/
structure Release where
  op : Op
  range : Bool                      -- a REL on a range
  homes : List (Nat × Nat)          -- seat and brick of each home, for a REL
  issuer : Issuer
  before : Nat                      -- operations of the tile numbered below it come before it
  left : List Nat                   -- those of its scope that it waits for: without an outcome then, and not shown performed by a RELM since
  deriving DecidableEq, Repr

/-! ### Stacks and the bed cache (chapters 06 and 07) -/

/-- A line of the bed cache that is homed in the brick (R321): its way, its two sectors, and their state. -/
structure BedLine where
  way : Nat
  data : Bytes
  valid0 : Bool
  valid1 : Bool
  dirty0 : Bool := false
  dirty1 : Bool := false
  poison0 : Bool := false
  poison1 : Bool := false
  deriving DecidableEq, Repr

/-- An entry of the fold buffer (R337): sector, operation code, format, and one delta per element; a delta is the code of an FP32 value for a BF16
FOLDADD, and otherwise a code of the element's own format. -/
structure FoldEntry where
  sector : Nat
  op : Nat
  fmt : Nat
  deltas : List Nat
  deriving DecidableEq, Repr

/-- A repointing pass (R399 to R404). Its state and next page stand in PGC_SSTAT. -/
structure Pass where
  first : Nat
  count : Nat
  interval : Nat
  lbl : Nat
  remap : Bool
  spares : Bool
  summary : Bool
  sumAddr : Word
  hostId : Option Nat         -- the host command that started it; none for Hod or software
  byHod : Bool := false       -- a pass of Hod's default policy (R405)
  startedAt : Nat             -- plumb time
  pagesRead : Nat := 0
  corrected : Nat := 0
  checkOnly : Nat := 0
  poisoned : Nat := 0
  remapped : Nat := 0
  refused : Nat := 0
  symbols : Nat := 0
  firstFailing : Nat := 0xFFFFFFFF
  lastFailing : Nat := 0xFFFFFFFF
  worn : Nat := 0
  hostSusp : Bool := false    -- the hold flags of R750: by command or the hold policy,
  devSusp : Bool := false     -- and because its controller leaves ON (R407)
  pageAt : Option Nat := none -- plumb time of the last page
  finished : Bool := false    -- its last page is done
  deriving DecidableEq, Repr

/-- Whom a grout read answers: a request of a flow, or a read that a unit makes by itself, by its tag. -/
inductive GroutUse where
  | request (p : Packet)
  | unit (tag : Nat)
  deriving DecidableEq, Repr

/-- A grout read that waits at its stack (R317): window offset, bytes, pseudo-channel, and whom it answers. -/
structure GroutRead where
  off : Nat
  n : Nat
  pc : Nat
  use : GroutUse
  deriving DecidableEq, Repr

/-- One stack and its controller. -/
structure StackState where
  degraded : List Nat := []             -- the degraded list (R377)
  fold : List FoldEntry := []           -- the fold buffer, oldest first (R337)
  clearing : Option (Nat × Nat × Bool) := none   -- first page, count and ALL of a page clear in progress (R389)
  install : Option (Nat × Nat × Nat) := none     -- page, spare and entry of a remap install in progress (R394)
  change : Option (Nat × Nat × Bool) := none     -- next granule, end and mode of a FOLD_CHG in progress (R345)
  changeFrom : Nat := 0                 -- first granule of that FOLD_CHG
  pass : Option Pass := none
  phyLost : Bool := false               -- PHY training lost in service; operations are held (R351)
  refusedAt : List (Nat × Nat) := []    -- granules and the model time of their last event 0x2006 (R344)
  groutQ : List GroutRead := []         -- the grout queues of the pseudo-channels, 8 entries each (R317),
  groutIn : List GroutRead := []        -- the grout intake, 64 entries,
  groutWait : List GroutRead := []      -- and units' reads held at the home (R346) or before a full intake, in arrival order
  acts : List (Nat × Nat) := []         -- grout row activations of the last microsecond: pseudo-channel and plumb time (R318)
  corrAt : List (Nat × Nat) := []       -- pages and the model time of their last event 0x2101 (R408)
  checkAt : List (Nat × Nat) := []      -- pages and the model time of their last event 0x2102
  repairs : List (Nat × Nat) := []      -- the soft-repair log of the stack: pseudo-channel and row (R398, R783)
  repaired : List (Nat × Nat) := []     -- the repairs that are in effect in the stack since it last left OFF (R398)
  deriving DecidableEq, Repr

/-! ### The slab yard and the prefix tree (chapter 13). The table, the nodes and the buckets lie in stack memory -/

/-- An entry of the copy memo (R648): source handle, owner, copy handle, and the epoch in which it was made. -/
structure MemoEntry where
  idx : Nat
  ver : Nat
  owner : Nat
  copyIdx : Nat
  copyVer : Nat
  made : Nat
  deriving DecidableEq, Repr

/-- A copy of SCOW in progress (R645 to R647), with the request it answers. -/
structure SlabCopy where
  src : Nat
  dst : Nat
  owner : Nat
  pkt : Packet
  deriving DecidableEq, Repr

/-- What a prefix walk waits for (R661). -/
inductive WalkPhase where
  | tokens                       -- the 128 B of its block's token IDs
  | writes (left : Nat) (bad : Bool)   -- the stores of its result entry
  deriving DecidableEq, Repr

/-- A prefix walk in progress (R661): the request it answers, its block, its last matched node (or the start), and the pin it holds. -/
structure Walk where
  id : Nat
  pkt : Packet
  block : Nat
  node : Nat
  ver : Nat
  hash : Nat
  found : Nat := 0               -- the node matched, whose result entry is being written: its index,
  foundVer : Nat := 0            -- VER
  foundHash : Nat := 0           -- and hash
  epoch : Nat
  phase : WalkPhase := .tokens
  taken : List Nat := []         -- slabs it has taken references of
  deriving DecidableEq, Repr

/-- A yard job (R668 to R670). Its state, phase and next item stand in SLB_JSTAT. -/
structure YardJob where
  desc : Bytes
  hostId : Option Nat         -- the host command that started it
  startedAt : Nat             -- plumb time
  epoch : Nat                 -- the epoch it pins (R653)
  visited : Nat := 0
  deleted : Nat := 0
  retired : Nat := 0
  moved : Nat := 0
  fenced : Nat := 0
  skipped : Nat := 0
  hostSusp : Bool := false    -- the hold flags of R750
  devSusp : Bool := false
  finished : Bool := false    -- its last item is done
  deriving DecidableEq, Repr

/-- What a brick's yard keeps beside its registers and its table. -/
structure YardState where
  memo : List MemoEntry := []
  copies : List SlabCopy := []
  walks : List Walk := []
  nextWalk : Nat := 0
  keys : Tab (BitVec 128) := []         -- namespace keys that are valid (R659)
  key0 : Word := 0                      -- PFX_KEY0 as last written
  job : Option YardJob := none
  emptyAt : List (Nat × Nat) := []      -- local stacks and the model time of their last event 0x2309
  noKeyAt : List (Nat × Nat) := []      -- namespaces and the model time of their last event 0x230B
  deriving DecidableEq, Repr
/-! ### The tile's units (chapters 10 to 12) -/

/-- The states of the mason (R523). -/
inductive MasonRun where
  | idle | running | sleeping | suspended | halted | faulted
  deriving DecidableEq, Repr

/-- What a blocked mason waits for, with the number of its blocking operation (R495, R498, R500, R503). -/
inductive Blocked where
  | load (n rd bytes : Nat) (signed : Bool) (addr : Nat)
  | atom (n rd bytes addr : Nat)
  | bond (n rd opc slot mode addr : Nat)
  | rel (n addr : Nat)
  deriving DecidableEq, Repr

/-- The mason of a tile (R481 to R486, R510, R523). Registers k0 to k7 are at 0 to 7, e and p of ring window w at 8 + 16w on, and the trap window's
entry, private and hand-off groups at 120 on; a register that is zero is not listed. -/
structure Mason where
  regs : Tab Word := []
  run : MasonRun := .idle
  pc : Nat := 0
  cwin : Nat := 0
  res : Nat := 0
  nspill : Nat := 0
  ssp : Nat := 0
  trap : Bool := false           -- the trap flag T
  xpc : Nat := 0
  xcause : Nat := 0
  xval : Word := 0
  xstate : Nat := 0
  lbl : Nat := 0
  wto : Nat := 0
  bstat : Nat := 0
  tccnt : Word := 0
  tscr0 : Word := 0
  tscr1 : Word := 0
  sreq : Bool := false           -- a suspend request is pending (R527)
  stopReq : Bool := false        -- STOP waits for a blocking operation (R526)
  blocked : Option Blocked := none
  blockNo : Nat := 0             -- blocking operations begun
  stall : Nat := 0xD             -- the stall reason of R908
  sums : Tab Word := []          -- summary registers; one that is zero is not listed
  pend : Tab Nat := []           -- writers pending of each summary register
  sampled : Nat := 0             -- MINSTR at the last PC sample (R907)
  deriving DecidableEq, Repr

/-- A command in a unit's queue, with what its TCMD captured: label, modes of R468, and the special-function settings of R599. -/
structure TileCmd where
  word : Nat
  lbl : Nat
  after : Nat := 0      -- operations that the tile had issued by then (R509)
  rtz : Bool
  ieee : Bool
  iterDef : Nat := 2
  subf : Bool := true
  thr : List Nat := [0xC2AE0000, 0xFF800000, 0xFF800000]
  deriving DecidableEq, Repr

/-- A command that has started and not completed: the summary it will write. -/
structure UnitRun where
  cmd : TileCmd
  sum : Word := 0
  deriving DecidableEq, Repr

/-- The press (R504, R557). QREQ, QCUR and QFORCE stand in PRS_STAT. -/
structure Press where
  queue : List TileCmd := []
  run : Option UnitRun := none
  inject : Bool := false          -- RINJ is armed (R577)
  refusedAt : Option Nat := none  -- model time of the last event 0x3101 (R570)
  residueAt : Option Nat := none  -- model time of the last residue mismatch (R850)
  quarterTc : Nat := 0            -- cycles in quarter-array mode since QKTC last counted (R577)
  deriving DecidableEq, Repr

/-- A row statistics slot (R605): codes of FP32 values, n as UINT32. -/
inductive RowSlot where
  | empty
  | softmax (m l c : Nat)
  | norm (n k s1 s2 : Nat)
  deriving DecidableEq, Repr

/-- The glaze (R578 to R580, R605). Byte b of register v at 512v + b; a zero byte is not listed. -/
structure Glaze where
  queue : List TileCmd := []
  run : Option UnitRun := none
  regs : Tab Byte := []
  marks : List Nat := []               -- poisoned words, 64 × register + word
  slots : Tab RowSlot := []            -- slots that are not empty
  slotBad : List Nat := []             -- slots whose poison flag is set
  refusedAt : Option Nat := none
  deriving DecidableEq, Repr

/-! ### The sieve (chapter 14) -/

/-- Where a GATHER stands (R688). -/
inductive GatherPhase where
  | header | entry | chain | pin | slab | data | unpin
  deriving DecidableEq, Repr

/-- A GATHER in progress. -/
structure GatherPos where
  phase : GatherPhase := .header
  entry : Nat := 0            -- entries done
  block : Nat := 0
  lg : Nat := 0               -- of the manifest
  nblk : Nat := 0             -- of the entry
  chain : Nat := 0
  link : Nat := 0             -- the chain entry of the block
  yard : Nat := 0             -- its yard's place in the yard table
  failed : Nat := 0           -- entries counted in the summary
  deriving DecidableEq, Repr

/-- Where a DISPATCH stands (R696). -/
inductive DispatchPhase where
  | reserve | row | signal
  deriving DecidableEq, Repr

/-- A DISPATCH in progress: the routing entries as it read them, the base of each expert asked so far, and each slot's landing. -/
structure DispatchPos where
  phase : DispatchPhase := .reserve
  next : Nat := 0                     -- next expert, or next slot
  routing : List (Nat × Nat) := []    -- expert and weight of each slot
  base : Tab Nat := []                -- b[e] of each expert whose reservation succeeded
  refused : List Nat := []            -- experts whose reservation failed
  failed : Nat := 0
  rows : Nat := 0                     -- rows delivered
  deriving DecidableEq, Repr

/-- A COMBINE in progress: routing and landing entries as it read them, and the accumulators of its token. -/
structure CombinePos where
  token : Nat := 0
  slot : Nat := 0
  routing : List (Nat × Nat) := []
  landing : List (Nat × Nat × Nat) := []   -- expert, status and row of each slot
  acc : List Nat := []
  bad : Bool := false                 -- a load of the token was answered 0x41
  failed : Nat := 0                   -- tokens counted in the summary
  miss : Bool := false                -- the token has a slot that counts
  deriving DecidableEq, Repr

/-- Where a POINTS frame stands (R705 to R709). -/
inductive PointsPhase where
  | poses | clear | point | probe | open' | record | write
  deriving DecidableEq, Repr

/-- A frame in progress. -/
structure PointsPos where
  phase : PointsPhase := .poses
  startedAt : Nat := 0        -- plumb time
  level : Nat := 0
  poses : Bytes := []
  next : Nat := 0             -- pose, 512 B block of HTAB, or point
  point : Bytes := []         -- the point's record
  coords : List Nat := []     -- its transformed x, y and z
  key : Nat := 0
  slot : Nat := 0             -- hash-table slot probed
  index : Nat := 0            -- its voxel's record
  voxels : Nat := 0
  used : Nat := 0
  outside : Nat := 0
  nan : Nat := 0
  budget : Nat := 0
  poisoned : Nat := 0
  trunc : Bool := false
  nanOnly : List Nat := []    -- voxels no point of which had an intensity other than NaN
  deriving DecidableEq, Repr

/-- What a sieve command is doing. -/
inductive SievePos where
  | gather (g : GatherPos)
  | yard (next : Nat) (failed : Nat)
  | dispatch (d : DispatchPos)
  | combine (c : CombinePos)
  | points (p : PointsPos)
  deriving DecidableEq, Repr

/-- A sieve command in progress: its descriptor, its place, the requests it has still to issue for its current step, and what the answered ones
brought. -/
structure SieveRun where
  cmd : TileCmd
  desc : Bytes
  pos : SievePos
  asked : Bool := false               -- the requests of its current step are decided
  waiting : Bool := false             -- a request has no outcome yet
  pieces : List Op := []              -- requests of this step that are still to be issued
  got : Bytes := []                   -- data answered in this step
  poison : List (Nat × Nat) := []     -- ranges of `got` answered 0x41
  fail : Option Nat := none           -- the status byte (R692) of a request of this step that did not complete with 0x00 or 0x41
  pins : List (Word × Nat) := []      -- yards pinned, with the epoch of the pin
  pois : Bool := false                -- an item met poisoned data
  done : Option Word := none          -- everything but completion is done: the summary
  deriving DecidableEq, Repr

/-- The sieve (R680, R712). Its STATE, OP and PROG stand in SVE_STAT. -/
structure Sieve where
  queue : List TileCmd := []
  run : Option SieveRun := none
  item : Nat := 0                       -- number of its latest request
  ledger : List (Word × Nat × Nat) := []  -- pins that its YARD commands took: yard, epoch, count (R655)
  refusedAt : Option Nat := none
  deriving DecidableEq, Repr


/-! ### The host link (chapter 15) -/

/-- An entry of a brick's snoop filter (R735): a 64 B sector of a stack, whether it is Exclusive-or-Modified, and the snoop of it that the host has not
answered: 0 none, 1 BISnpData, 2 BISnpInv. -/
structure Snoop where
  stack : Nat
  sector : Nat
  em : Bool
  asked : Nat := 0
  deriving DecidableEq, Repr

/-- A command of the record (R740), with its ring and the state, status and result that a duplicate is answered with. -/
structure HostRec where
  entry : Bytes             -- all 64 B
  ring : Nat
  state : Nat
  status : Nat
  result : Bytes
  deriving DecidableEq, Repr

/-- A completion that is not written yet (R738): its bytes 0 to 31 without PHASE, and whether it may raise an interrupt. -/
structure Completion where
  id : Nat
  state : Nat
  status : Nat
  flags : Nat               -- DUP 2, INTERIM 4, CONFLICT 8
  result : Bytes
  noint : Bool
  deriving DecidableEq, Repr

/-- A ring beside its registers (R736, R739, R742). -/
structure HostRing where
  visible : Nat := 0                                -- tail that the last drained doorbell made visible
  firsts : List (Nat × Option Completion) := []     -- fetched entries whose first completion is not posted, in fetch order
  due : List Completion := []                       -- completions that wait for room, in order
  phase : Bool := true                              -- PHASE of the next completion
  inUse : Nat := 0                                  -- completions that the host has not consumed
  full : Bool := false                              -- event 0x400B was raised in this episode
  deriving DecidableEq, Repr

/-- What a host command is doing. -/
inductive HostStep where
  | idle
  | desc            -- its descriptor, argument block or payload is being loaded
  | args            -- RUN: the argument block is being stored to tile `next`
  | work            -- its masons, its unit or its pages are at work
  | load            -- a chunk or block is being loaded
  | store           -- a chunk is being stored
  | yard            -- YARD: the request is out
  | yres            -- YARD: the payload is being stored to RESADDR
  deriving DecidableEq, Repr

/-- A command that is at work: a long operation (R749 to R751), or a YARD command. -/
structure HostOp where
  id : Nat
  ring : Nat
  entry : Bytes
  started : Bool := false
  cancelling : Bool := false
  discarded : Bool := false           -- cancelled by DISCARD: its status is 0x09 (R762)
  hostSusp : Bool := false
  devSusp : List Nat := []            -- the stacks for which DEVSUSP is held (R927)
  paused : Bool := false              -- it stands at a suspension point
  step : HostStep := .idle
  next : Nat := 0                     -- next chunk, page, block or tile
  pieces : List Op := []              -- requests of this step that are still to be issued
  waiting : Bool := false
  got : Bytes := []                   -- data of this step
  fail : Option (Nat × Nat) := none   -- status of R748 and the unit's reason
  result : Bytes := List.replicate 16 0
  ended : Option (Bool × Nat) := none -- its work has ended: whether Done, and the status
  deriving DecidableEq, Repr

/-- An access of the device to host memory that the host has not answered (R730, R731), and what it is for. -/
inductive HostUse where
  | request (p : Packet)          -- a STORE or LOAD of region 0xB
  | completion (ring : Nat) (noint : Bool)
  | event (noint : Bool)
  deriving DecidableEq, Repr

structure HostAcc where
  tag : Nat
  use : HostUse
  deriving DecidableEq, Repr

/-- A CXL.mem request of the host on its way to its home (R734, R735). -/
structure HdmReq where
  tag : Nat
  decoder : Nat
  write : Bool
  own : Bool                      -- a read for ownership, or a write that keeps the line
  deriving DecidableEq, Repr

/-- A doorbell that waits for the drop-window stores that arrived before it (R728). -/
structure Doorbell where
  ring : Nat
  tail : Nat
  before : Nat                    -- drop stores numbered below it
  deriving DecidableEq, Repr

/-- A preserved range (R745, R761). -/
structure PresRange where
  base : Nat
  length : Nat
  tag : Nat
  intact : Bool
  deriving DecidableEq, Repr

/-- What the package keeps of the host beside the HST_ registers. -/
structure HostState where
  perst : Bool := true                 -- HOST_PERST_N is asserted
  rings : Tab HostRing := []
  lines : List (Nat × Bytes) := []     -- the host-line cache (R732)
  record : List HostRec := []          -- the command record, oldest first
  accepted : List Nat := []            -- accepted commands that have not begun, in order
  ops : List HostOp := []              -- in acceptance order
  accs : List HostAcc := []
  nextTag : Nat := 0
  dropNo : Nat := 0                    -- drop-window stores issued
  dropSplit : List (Nat × Nat × Bool) := []  -- writes that became several stores: their numbers, first and past the last, and whether the write has failed
  dropAt : List (Nat × Nat) := []      -- windows and the model time of their last event 0x4003
  doorbells : List Doorbell := []
  hdm : List HdmReq := []
  ranges : List PresRange := []
  lostSectors : List Nat := []         -- addresses of sectors lost at host loss (R756)
  manifest : Bytes := []
  seq : Nat := 0
  reason : Nat := 0                    -- of the last host loss (R760), with its plumb time and the policy applied
  detectedAt : Nat := 0
  policy : Nat := 0
  nonce : Bytes := List.replicate 32 0
  listed : List Nat := []              -- IDs of the operations in the manifest
  settleDue : Bool := false            -- the snoop filters are to be settled (R756)
  msiDue : List Nat := []              -- vectors with a completion observed and no message since
  msiAt : Tab Nat := []                -- model time of each vector's last message
  evPos : Nat := 0                     -- event-ring records written
  deriving DecidableEq, Repr

/-! ### Safety, Hod, start and observation (chapters 16 to 19) -/

/-- What the safety machinery keeps beside its registers (chapter 18), by brick. -/
structure SafetyState where
  priority : Tab Nat := []          -- the tile its shadow visits next (R850)
  violAt : List (Nat × Nat) := []   -- requesters and the model time of their last event 0x600A (R867)
  visitAt : Tab Nat := []           -- plumb time at which the visit in progress began
  joined : Tab Nat := []            -- units that have joined in it: mason 1, press 2, glaze 4, sieve 8 (R842)
  rotAt : Tab Nat := []             -- plumb time at which the rotation in progress began
  siteHold : List Nat := []         -- bricks whose rotation a residue mismatch in the shadow's press has paused (R850)
  failed : List Nat := []           -- sites, by domain, that failed a site test (R851)
  toTest : List (Nat × Bool) := []  -- sites, by domain, that wait for a test after a mismatch; whether the shadow site follows (R853)
  auto : List Nat := []             -- bricks whose running test is one of those, and the shadow's follows
  safeCause : Tab Nat := []         -- cause of a brick's safe state (R858)
  safeAt : Tab Nat := []            -- model time of its entry
  resets : List Nat := []           -- bricks whose warm reset has been asked for
  deriving DecidableEq, Repr

/-- What an SPDM requester has agreed with Hod (R798), and the messages a signature covers. -/
structure SpdmState where
  version : Bool := false
  caps : Bool := false
  algs : Bool := false
  vca : Bytes := []                 -- version, capabilities and algorithms, both ways
  certs : Bytes := []               -- digests and certificates, both ways
  measured : Bytes := []            -- measurements since the last signature, both ways
  deriving DecidableEq, Repr

/-- Hod and what it keeps (chapter 16). -/
structure HodState where
  sheet : Bytes := []       -- the build sheet in NOR; empty while none is held (R785)
  siteTag : Nat := 0        -- the site tag in effect since the last cold reset (R787)
  fuses : Fuses := {}
  running : Bool := false           -- an image runs
  restart : Option Nat := none      -- a restart runs: cause 0 command, 1 watchdog, 2 activation or fallback
  bankA : Bytes := []
  bankB : Bytes := []
  boot : BootBlock := {}
  trialAt : Nat := 0                -- model time the trial image began
  staged : Bytes := []              -- the image staged so far, in the bank that is not active
  incarnation : Nat := 0            -- the persistent state: incarnation (R183),
  retire : List Nat := List.replicate 4 0x3F
  spare : List Nat := List.replicate 4 0x20   -- and SPARE of each brick, and
  swap : Bool := false              -- the coolant-swap flag
  ram : Tab Bytes := []             -- the RAM log ring, by slot (R780)
  logSeq : Nat := 0
  norLog : Tab Bytes := []          -- the NOR log ring, by slot
  persistQ : List Bytes := []       -- records that Hod is to persist, oldest first
  bucket : Nat := 4096 * 10 ^ 9     -- of R782, in 10^-9 records
  bucketAt : Nat := 0               -- model time it was filled up to
  dropped : List Nat := List.replicate 16 0   -- records not persisted since the last 0x5010, by class
  dropRepAt : Nat := 0              -- model time of the last 0x5010
  warm : List Nat := []             -- sensors whose last sample was 100 °C or more (R775),
  trips : List Nat := []            -- 115 °C or more,
  tripped : List Nat := []          -- those that have tripped,
  alerts : List Nat := []           -- and those in alert
  soundAt : Tab Nat := []           -- excluded sensors that read plausible, since (R809)
  stackHot : Tab Nat := []          -- stacks above 110 °C, since
  hotStacks : List Nat := []        -- stacks that have been above 105 °C and not yet below 95 °C
  heated : List Nat := []           -- bricks a sensor of which has read 100 °C or more and not every one of which has read below 97 °C since (R803)
  coolantBad : Bool := false        -- the inlet is unknown or above 45 °C
  coolantRead : Bool := false       -- the coolant sensors have been read
  swapSince : Option Nat := none    -- the inlet has read above the outlet since
  coldPlateOk : Bool := false
  downAt : Tab Nat := []            -- bricks and the model time FMAX last fell,
  upAt : Tab Nat := []              -- and last rose (R803)
  under90 : Tab Nat := []           -- milliseconds for which every measurement was below 0.9 × grant,
  under70 : Tab Nat := []           -- below 0.7 × grant,
  aboveRun : Tab Nat := []          -- above the grant with FMAX at 0x30,
  hot105 : Tab Nat := []            -- and with a sensor at 105 °C or more (R804)
  ocTrips : List (Nat × Nat) := []  -- overcurrent trips: brick and model time (R809)
  ocAt : Tab Nat := []              -- bricks whose clock an overcurrent stopped, since
  busFailed : List Nat := []        -- failed sideband buses (R808)
  modInt : Nat := 0                 -- MOD_INT_N[3:0] pulled low, by module bus (R284)
  vset : List Nat := List.replicate 4 0   -- VDD_Tb as set, mV
  vren : Nat := 0                   -- VR_EN[7:0]
  groupOff : List Nat := []         -- groups kept off by an identity mismatch (R788, R800)
  meas : List Bytes := List.replicate 6 []   -- the measurement blocks of R796
  stackOff : List Nat := []         -- stacks kept off by an identity mismatch
  modules : Modules := {}           -- identities last read under R788
  norFail : Bool := false
  bsBusy : Bool := false            -- BSLOAD loads a sheet: the loads still to be issued,
  bsPieces : List Op := []
  bsWaiting : Bool := false
  bsGot : Bytes := []               -- what has come,
  bsFail : Bool := false            -- and whether a load was refused or met poison
  spdm : SpdmState := {}
  deriving DecidableEq, Repr

/-- The power-on sequence (chapter 17). -/
structure StartState where
  aon : Bool := true                -- the always-on supply is up
  rstLow : Bool := true             -- PKG_RST_N is low
  mainGood : Bool := false          -- MAIN_PWRGD is high
  phase : Nat := 0                  -- 0 not begun, 1 boot ROM, 2 awaiting MAIN_PWRGD, 3 uncores, 4 stacks, 5 ports, 6 done
  releasedAt : Nat := 0             -- model time of the release of PKG_RST_N
  failed : List Nat := []           -- steps that failed
  cleared : List Nat := []          -- stacks cleared since
  toClear : List Nat := []          -- stacks that Hod is to clear when they come ON (R824)
  recovery : Bool := false
  mainLost : Bool := false          -- main power was lost and the uncores have not returned since
  deriving DecidableEq, Repr

/-- A pull in progress (R904). -/
structure PullState where
  left : List Bytes                 -- records still to write
  addr : Nat                        -- address of the next store
  pieces : List Op := []
  waiting : Bool := false
  tiles : List Nat := []
  deriving DecidableEq, Repr

/-- Observation's package state (chapter 19): the slew in progress, holdover, and the pull. -/
structure ObservationState where
  slew : Int := 0                   -- counts to add over the interval
  slewLen : Nat := 1                -- its length in counts of AON_CLK × 40
  slewPos : Nat := 0
  holdAt : Nat := 0                 -- model time holdover began
  asked : List Nat := []            -- ports whose four exchanges of this interval were started (R884)
  pull : Option PullState := none
  deriving DecidableEq, Repr

/-- A ring store of a brick in progress (R901). -/
structure RingStore where
  trace : Bool
  size : Nat                        -- bytes by which PROD will move
  tile : Nat
  pieces : List Op := []
  waiting : Bool := false
  crossing : Bool := false          -- the watermark signal is out
  deriving DecidableEq, Repr
/-! ### The units of the package -/

/-- An observation record that awaits its ring store (R911). -/
structure ObsRec where
  trace : Bool            -- for the trace ring, else for the sample ring
  typ : Nat               -- TYPE of a trace record (R907)
  tile : Nat              -- the tile it counts against, 0xFF for none
  data : Bytes
  deriving DecidableEq, Repr

/-- Trace records dropped since the last loss marker (R907), and records dropped since the last event 0x7001 (R911). -/
structure ObsLost where
  pc : Nat := 0
  bond : Nat := 0
  stamp : Nat := 0
  sampleRep : Nat := 0
  traceRep : Nat := 0
  deriving DecidableEq, Repr

/-- A wake on its way to a tile of the bond's own brick (R256). -/
structure WakeMsg where
  tile : Nat
  slot : Nat
  status : Nat
  count : Word
  bond : Word
  deriving DecidableEq, Repr

/-- One brick's uncore. -/
structure BrickState where
  srcFlows : List SrcFlow := []
  dstFlows : List DstFlow := []
  waitOps : List WaitOp := []         -- requests waiting at the source, in issue order
  routeQ : List Packet := []          -- packets formed or passed up here that have no route decided yet (R164)
  waitPkts : List Packet := []        -- packets waiting for an Active candidate port (R171)
  decided : List (Packet × Nat) := [] -- packets that cross a bridge to this brick for a package port already chosen (R164)
  arrived : List Packet := []         -- packets passed up for this brick as destination (R87)
  tableFull : Bool := false              -- event 0x110D raised in this episode (R191)
  noRoute : List Nat := []            -- destinations for which event 0x110B was raised (R171)
  quarantine : Bool := false             -- performs nothing until PLIFE has passed since the reset (R183)
  retNeed : Nat := 0                  -- bytes that the answer which found the retention store full needs; 0 while it is not full (R188)
  bonds : Tab Bond := []
  wakes : List WakeMsg := []          -- wakes issued inside the brick, oldest first (R256, R257)
  acquire : Nat := 0                 -- acquire counter (R235)
  copies : List CopyLine := []        -- remote-copy lines (R219)
  bed : Tab BedLine := []             -- home lines of the bed cache, by stack × 2^29 + line (R321)
  plru : Tab Nat := []                -- pseudo-LRU trees of the bed cache's sets, 15 bits each (R321)
  held : List Packet := []            -- requests held at their home, in arrival order (R346, R351, R394, R402)
  fills : List Fill := []
  obsBuf : List ObsRec := []    -- the observation buffer, oldest first (R911)
  obsLost : ObsLost := {}
  yard : YardState := {}
  snoop : List Snoop := []            -- the snoop filter, least recently used first (R735)
  ringStore : Option RingStore := none
  missed : Tab Nat := []              -- sampler instants missed, by tile (R899)
  dropRepAt : Nat × Nat := (0, 0)     -- model times of the last events 0x7001, sample and trace
  clock : Nat := 0                    -- 80ths of a tile-clock cycle since the last one began (R11)
  deriving DecidableEq, Repr

/-- One logical tile. -/
structure TileState where
  slots : List Slot := List.replicate 16 {}             -- the 16 wait slots (R255)
  stamp : Nat := 0                   -- acquire stamp (R235)
  mirror : List CopyLine := []        -- mirror lines (R219, R942)
  armedBonds : List Word := []        -- the local armed list (R261)
  sigLog : List Word := []            -- the signal log (R267)
  sigOver : Bool := false                -- its overflow flag
  releases : List Release := []       -- releases that wait for their drain (R230)
  failed : List FailedOp := []        -- operations that ended Unsettled or Seat unreachable, until a release reports them (R233)
  opNo : Nat := 0                    -- operations issued, for the issue order (R225)
  mason : Mason := {}
  press : Press := {}
  glaze : Glaze := {}
  sieve : Sieve := {}
  marks : List Nat := []             -- poisoned 64-bit words of the tile store, rising (R855)
  deriving DecidableEq, Repr

/-- Domain requests accepted and not yet done (R297). -/
structure PowerState where
  queue : List (Nat × Nat) := []      -- (domain, state asked for), in the order REQ was written
  moving : List (Nat × Nat) := []     -- transitions in progress
  stopped : List Nat := []            -- bricks whose tile clock is stopped (R290, R809)
  deriving DecidableEq, Repr

/-- The package: plain data. -/
structure State where
  pending : List Instr          -- the commands that wait, first in, first out
  now : Nat                     -- ns since the always-on supply came up: the model's own clock, never read by software
  plumb : Word                  -- the plumb counter (R893)
  freeCtr : Nat                 -- the MODEL's own counter of free values drawn, no state of the device
  regs : Tab Word               -- registers of region 0xA that differ from their reset value, by offset (R42)
  mem : List Host.Cell          -- bytes of regions 0x0 to 0x8, by region and offset, that are not zero
  sealed : Bool                 -- the package is sealed (R790)
  sealLogged : List Nat         -- register blocks whose first counted write to a sealed field was logged since reset (R22)
  events : List Event           -- events raised and not yet taken by Hod (R780), oldest first
  results : List Result         -- outcomes that their issuers have not taken yet, oldest first
  out : List Output             -- what has left the package, oldest first
  bricks : Vector BrickState 4
  tiles : Vector TileState 128
  ports : Vector Link 24
  bridges : Vector Link 12      -- local bridge q of brick b at 3b + q
  points : Vector LabelPoint 58  -- point n of brick b at 14b + n, then the package's two (R421)
  hbm : Vector StackState 8
  power : PowerState
  hod : HodState
  safety : SafetyState
  host : HostState
  start : StartState
  observe : ObservationState
  deriving DecidableEq, Repr

/-- A bridge end after the reset of its brick's uncore: the bridge values of R153. -/
def bridgeReset : Link := { ackTmr := 0x00A, tlimit := 0x032 }

/-- The package right after the always-on supply comes up, before its power-on sequence (R305, R811). -/
def State.reset : State :=
  { pending := [], now := 0, plumb := 0, freeCtr := 0, regs := [], mem := [], sealed := false, sealLogged := [], events := [],
    results := [], out := [], bricks := Vector.replicate 4 {}, tiles := Vector.replicate 128 {}, ports := Vector.replicate 24 {},
    bridges := Vector.replicate 12 bridgeReset, points := Vector.replicate 58 {}, hbm := Vector.replicate 8 {}, power := {}, hod := {}, safety := {},
    host := {}, start := {}, observe := {} }

end Sys2Proof.Machine
end

