-- ==== Sys2Proof/Machine/Ops.lean ====
section
/-! DEFINITION. The named operations every meaning is built from: reading and writing registers, memory, bricks, tiles and links,
raising an event, and what is sent out of the package. -/
namespace Sys2Proof.Machine
open Sys2Proof

/-! ### Registers -/

/-- The value of the register at an offset of region 0xA: the one written, or its reset value. -/
def State.reg (s : State) (off : Nat) : Nat := ((tabFind s.regs off).getD (regResetAt off)).toNat

/-- The state with that register at `v`; a register at its reset value is not listed. -/
def State.setReg (s : State) (off v : Nat) : State :=
  { s with regs := tabSet (regResetAt off) s.regs off (BitVec.ofNat 64 v) }

/-- The value of a field. -/
def State.rd (s : State) (f : FieldRef) : Nat := bitsOf (s.reg f.reg) f.hi f.lo

/-- The state with the field at the low bits of `v`. -/
def State.wr (s : State) (f : FieldRef) (v : Nat) : State := s.setReg f.reg (withBits (s.reg f.reg) f.hi f.lo v)

/-- Whether a one-bit field reads 1. -/
def State.isSet (s : State) (f : FieldRef) : Bool := s.rd f != 0

/-- The state with a flag set by hardware (R20: the set wins over a clear of the same cycle). -/
def State.flag (s : State) (f : FieldRef) : State := s.wr f 1

/-- The state with bits of a field set by hardware. -/
def State.flagBits (s : State) (f : FieldRef) (m : Nat) : State := s.wr f (Nat.lor (s.rd f) m)

/-- A counter field raised by `n`, saturating at its maximum. -/
def State.count (s : State) (f : FieldRef) (n : Nat) : State := s.wr f (satNat (f.hi + 1 - f.lo) (s.rd f + n))

/-! ### Memory: the bytes of regions 0x0 to 0x8 of the package, keyed by region × 2^44 + offset -/

/-- The byte an address holds: a byte that nothing has written reads zero (DESIGN CHOICE, log entry 3). -/
def memByte (m : List Host.Cell) (a : Nat) : Byte := tabGet 0 m a

/-- The memory with one byte written. -/
def memPut (m : List Host.Cell) (a : Nat) (v : Byte) : List Host.Cell := tabSet 0 m a v

/-- `n` bytes from address `a`. -/
def memRead (m : List Host.Cell) (a : Nat) : Nat → Bytes
  | 0 => []
  | n + 1 => memByte m a :: memRead m (a + 1) n

/-- The memory with bytes written from address `a` on. -/
def memWrite (m : List Host.Cell) (a : Nat) : Bytes → List Host.Cell
  | [] => m
  | v :: vs => memWrite (memPut m a v) (a + 1) vs

/-- The canonical form of memory: addresses strictly rising, no listed byte zero. -/
def Memory.wf (m : List Host.Cell) : Bool := tabWf 0 m

/-- Bytes of the package's memory. -/
def State.bytes (s : State) (a n : Nat) : Bytes := memRead s.mem a n

/-- A little-endian number of the package's memory (R14). -/
def State.num (s : State) (a n : Nat) : Nat := leNat (s.bytes a n)

/-- The state with bytes written to the package's memory. -/
def State.store (s : State) (a : Nat) (bs : Bytes) : State := { s with mem := memWrite s.mem a bs }

/-- The state with an `n`-byte little-endian number written. -/
def State.storeNum (s : State) (a n v : Nat) : State := s.store a (leBytes n v)

/-- The memory without the bytes of `[lo, hi)`. -/
def memClear (m : List Host.Cell) (lo hi : Nat) : List Host.Cell := m.filter (fun e => e.1 < lo || hi ≤ e.1)

/-- Key of an offset in a region. -/
def memKey (region off : Nat) : Nat := region * 2 ^ 44 + off

/-- Memory key of byte `o` of the tile store of tile `t` (R38). -/
def tileStoreKey (t o : Nat) : Nat := memKey 8 (t * 0x800000 + o)

/-- Memory key of byte `o` of the mason store of tile `t`: its view in region 0x8 (R41). -/
def masonStoreKey (t o : Nat) : Nat := memKey 8 (t * 0x800000 + 0x700000 + o)

/-! ### Parts of the package -/

/-- Brick `b`. -/
def State.brick (s : State) (b : Brick) : BrickState := s.bricks[b]
/-- Tile `t`. -/
def State.tile (s : State) (t : Tile) : TileState := s.tiles[t]
/-- The state with brick `b` changed. -/
def State.onBrick (s : State) (b : Brick) (f : BrickState → BrickState) : State :=
  { s with bricks := s.bricks.set b (f s.bricks[b]) }
/-- The state with tile `t` changed. -/
def State.onTile (s : State) (t : Tile) (f : TileState → TileState) : State :=
  { s with tiles := s.tiles.set t (f s.tiles[t]) }

/-- Index of a bridge end. -/
def bridgeIx (b : Brick) (q : Fin 3) : Fin 12 := ⟨3 * b.val + q.val, by omega⟩

/-- A link end. -/
def State.link (s : State) : LinkId → Link
  | .port p => s.ports[p]
  | .bridge b q => s.bridges[bridgeIx b q]
/-- The state with a link end changed. -/
def State.onLink (s : State) (l : LinkId) (f : Link → Link) : State :=
  match l with
  | .port p => { s with ports := s.ports.set p (f s.ports[p]) }
  | .bridge b q => { s with bridges := s.bridges.set (bridgeIx b q) (f s.bridges[bridgeIx b q]) }

/-- The brick a tile belongs to (R39). -/
def tileBrick (t : Tile) : Brick := ⟨t.val / 32, by omega⟩
/-- The brick a stack belongs to (R39). -/
def stackBrick (st : Stack) : Brick := ⟨st.val / 2, by omega⟩
/-- The brick a package port belongs to (R273). -/
def portBrick (p : Port) : Brick := ⟨p.val / 6, by omega⟩
/-- The brick a link end belongs to. -/
def linkBrick : LinkId → Brick
  | .port p => portBrick p
  | .bridge b _ => b
/-- The brick at the other end of local bridge `q` of brick `b`: the other bricks in ascending order (R282). -/
def bridgePeer (b : Brick) (q : Fin 3) : Brick := if h : q.val < b.val then ⟨q.val, by omega⟩ else ⟨q.val + 1, by omega⟩
/-- The local bridge of brick `b` that leads to brick `d`. -/
def bridgeTo (b d : Brick) : Fin 3 := if h : d.val < b.val then ⟨d.val, by omega⟩ else ⟨(d.val - 1) % 3, Nat.mod_lt _ (by decide)⟩

/-- Whether a brick's uncore is ON. -/
def uncoreOn (s : State) (b : Brick) : Bool := s.rd (Reg.PWR_DOM_CUR (132 + b.val)) == 3

/-- Whether a brick is in its safe state, or the package is (R859, R860). -/
def brickSafe (s : State) (b : Brick) : Bool := s.isSet (Reg.SAF_BSTAT_SAFE b) || s.isSet Reg.SAF_STAT_PSAFE

/-- A brick, tile, port or stack from a number, taken modulo their count. -/
def brickOf (n : Nat) : Brick := ⟨n % 4, Nat.mod_lt _ (by decide)⟩
def tileOf (n : Nat) : Tile := ⟨n % 128, Nat.mod_lt _ (by decide)⟩
def portOf (n : Nat) : Port := ⟨n % 24, Nat.mod_lt _ (by decide)⟩
def stackOf (n : Nat) : Stack := ⟨n % 8, Nat.mod_lt _ (by decide)⟩
def labelOf (n : Nat) : Label := ⟨n % 16, Nat.mod_lt _ (by decide)⟩

/-- Whether a stack of a brick is above 105 °C, or has not been below 95 °C since (R809). -/
def hotBrick (s : State) (b : Brick) : Bool := s.hod.hotStacks.contains (2 * b.val) || s.hod.hotStacks.contains (2 * b.val + 1)

/-- Whether an image runs and no restart is in progress, so that Hod acts (R773). -/
def hodActs (s : State) : Bool := s.hod.running && s.hod.restart.isNone

/-! ### Events and output -/

/-- An event raised, for Hod to log (R24, R780). -/
def State.raise (s : State) (code : Nat) (args : List Nat) : State := 
  { s with events := s.events ++ [{ code := code, args := args, time := s.plumb, aligned := s.isSet Reg.PLB_STAT_ALIGNED }] }

/-- An event raised that interrupts the host only where `loud` (R437). -/
def State.raiseIf (s : State) (loud : Bool) (code : Nat) (args : List Nat) : State :=
  { s with events := s.events ++ [{ code := code, args := args, time := s.plumb, aligned := s.isSet Reg.PLB_STAT_ALIGNED, quiet := !loud }] }

/-- Something leaves the package. -/
def State.emit (s : State) (o : Output) : State := { s with out := s.out ++ [o] }

/-- A change made only when a condition holds. -/
def State.when (s : State) (c : Bool) (f : State → State) : State := if c then f s else s

/-- The state that a command leaves which is carried out as part of another. -/
def after (f : State → Host.Outcome State Fault Refusal) (s : State) : State :=
  match f s with
  | .next s' => s'
  | _ => s

/-- A list of changes, in order. -/
def State.each {α : Type} (s : State) (xs : List α) (f : State → α → State) : State := xs.foldl f s

/-! ### Free values (values the spec leaves open) -/

/-- The next `n` free values drawn: the index of the first, and the state with the counter moved on. -/
def State.draw (s : State) (n : Nat) : Nat × State := (s.freeCtr, { s with freeCtr := s.freeCtr + n })

/-! ### Seats (R173, R174) -/

/-- Fields of a seat-table entry (R173). -/
def entryPid (e : Nat) : Nat := bitsOf e 31 16
def entryGen (e : Nat) : Nat := bitsOf e 15 8
def entryState (e : Nat) : Nat := bitsOf e 7 6

/-- The entry of a seat. -/
def State.seatEntry (s : State) (seat : Nat) : Nat := s.rd (Reg.SEAT_TBL_ENTRY seat)

/-- Own physical identity (R32). -/
def State.ownPid (s : State) : Nat := s.rd Reg.SEAT_PID_PID

/-- Own incarnation (R183). -/
def State.ownInc (s : State) : Nat := s.rd Reg.SEAT_INC_INC

/-- The seats whose Live entries name this package, by rising seat: only listed registers can be Live. -/
def State.seatsNamed (s : State) : List Nat :=
  s.regs.filterMap (fun e =>
    if 0x10000 ≤ e.1 && e.1 < 0x10000 + 4 * 65535 && entryState e.2.toNat == 1 && entryPid e.2.toNat == s.ownPid
    then some ((e.1 - 0x10000) / 4) else none)

/-- The seat the package holds, if it holds one (R174). -/
def State.ownSeat (s : State) : Option Nat :=
  match s.seatsNamed with
  | [x] => some x
  | _ => none

/-- Own seat's generation; 0 while none is held (R936). -/
def State.ownGen (s : State) : Nat := match s.ownSeat with
  | some x => entryGen (s.seatEntry x)
  | none => 0

/-- The number that stands for own seat in a packet: 0xFFFF while none is held (R936). -/
def State.ownSeatNo (s : State) : Nat := s.ownSeat.getD 0xFFFF

/-- Event 0x110E where the seat table names the package for more than one seat (R174). -/
def State.seatConflict (s : State) : State := if 1 < s.seatsNamed.length then s.raise 0x110E s.seatsNamed else s

/-- SEAT_OWN as the seat table and the package's identity give it (R174, R215): VALID, SEAT and GEN. -/
def ownField (s : State) : Nat :=
  match s.ownSeat with
  | some x => 2 ^ 32 + x * 65536 + s.ownGen * 256
  | none => 0xFFFF * 65536

/-- The state with SEAT_OWN brought up to date. -/
def State.settle (s : State) : State := s.setReg Reg.SEAT_OWN (ownField s)

/-- The state `t` that a command leaves which found the package in state `s`: SEAT_OWN is up to date, and the commands that waited still wait. -/
def State.done (s t : State) : State := { t.settle with pending := s.pending }

/-- The end of every command that found the package in state `s`. -/
def ended (s : State) : Host.Outcome State Fault Refusal → Host.Outcome State Fault Refusal
  | .next t => .next (s.done t)
  | .fault f => .fault f
  | .refused r => .refused r

/-- Numbers of the reset kinds in event 0x5102, in the order of R832 (DESIGN CHOICE, log entry 60). -/
def kindPowerOn : Nat := 0
def kindCold : Nat := 1
def kindMainLoss : Nat := 2
def kindWarm : Nat := 3
def kindCycle : Nat := 4
def kindHod : Nat := 5
def kindHost : Nat := 6

/-- A reset of one of the kinds of R813 recorded, event 0x5102: from then on the first write that counts as one to a sealed field of a block is
recorded again (R22, R832; DEDUCED, log entry 208). -/
def noteReset (args : List Nat) (s : State) : State := { s with sealLogged := [] }.raise 0x5102 args

/-! ### Addresses (R34 to R38) -/

def addrSeat (a : Nat) : Nat := bitsOf a 63 48
def addrRegion (a : Nat) : Nat := bitsOf a 47 44
def addrOffset (a : Nat) : Nat := bitsOf a 43 0
/-- The address with its seat field replaced. -/
def withSeat (a seat : Nat) : Nat := withBits a 63 48 seat
/-- An address as the package's own copies and lists name it: own seat reads 0xFFFF (R36, R322). -/
def State.canon (s : State) (a : Nat) : Nat := if addrSeat a = s.ownSeatNo then withSeat a 0xFFFF else a
/-- The memory key of an address of regions 0x0 to 0x8. -/
def addrKey (a : Nat) : Nat := bitsOf a 47 0

/-- The destination brick an address names, or none (R38, R934). -/
def destBrick (a : Nat) : Option Brick :=
  let off := addrOffset a
  match addrRegion a with
  | 0x8 => if off / 0x800000 < 128 then some (brickOf (off / 0x800000 / 32)) else none
  | 0x9 => some (brickOf (bitsOf off 21 20))
  | 0xA =>
    if bitsOf off 43 32 ≠ 0 then none else
    match (regScope (bitsOf off 31 0)).1 with
    | .pkg _ => some 0
    | .brick b _ => some (brickOf b)
    | .tile t _ => some (brickOf (t / 32))
    | .reserved => none
  | 0xB => some 0
  | 0xC => if off / 0x10000000000 < 8 then some (brickOf (off / 0x10000000000 / 2)) else none
  | r => if r ≤ 7 then some (brickOf (r / 2)) else none

end Sys2Proof.Machine
end

