-- ==== Sys2Proof/Machine/PageCode.lean ====
section
/-! DEFINITION. The page code: layout, slots, poison map, decodes and their outcomes, writes, clears and the remap table (R310, R360 to R397,
R408 to R410). All of a stack's bytes, its spares, poison map and slots among them, are held by physical offset. -/
namespace Sys2Proof.Machine
open Sys2Proof

/-- The state with a stack changed. -/
def State.onStack (s : State) (st : Stack) (f : StackState → StackState) : State := { s with hbm := s.hbm.set st (f s.hbm[st]) }
/-- Stack `st`. -/
def State.stack (s : State) (st : Stack) : StackState := s.hbm[st]

/-! ### Layout (R362 to R369) -/

/-- The strength of a STRENGTH code (R362). -/
def strengthT : Nat → Nat
  | 1 => 2
  | 2 => 4
  | 3 => 8
  | 4 => 16
  | 5 => 24
  | 6 => 32
  | _ => 0

/-- Slots per check page (R362). -/
def slotsPer (t : Nat) : Nat := if t = 0 then 0 else 4096 / (4 * t)

/-- Whether a window of `d` pages fits a stack (R365). -/
def windowFits (k d : Nat) : Bool :=
  let a := d + 64
  let n := a + ceilDiv a 32768
  let c := if k = 0 then 0 else ceilDiv n k
  decide (n + c ≤ 0xC00000)

/-- The largest window that fits, by halving the interval [lo, lo + 2^n) (R365). -/
def windowSearch (k : Nat) : Nat → Nat → Nat
  | 0, lo => lo
  | n + 1, lo => if windowFits k (lo + 2 ^ n) then windowSearch k n (lo + 2 ^ n) else windowSearch k n lo

/-- The window size in pages for a strength (R365, R366). -/
def windowPages (t : Nat) : Nat := windowSearch (slotsPer t) 24 0

/-- The strength in effect (R363). -/
def curT (s : State) (st : Stack) : Nat := strengthT (s.rd (Reg.PGC_STAT_STRCUR st))

/-- D of the strength in effect: the window size that STK_STAT reports (R310, R369). -/
def winTop (s : State) (st : Stack) : Nat := s.rd (Reg.STK_STAT_WTOP st)

/-- M: poison-map pages (R364). -/
def mapPages (d : Nat) : Nat := ceilDiv (d + 64) 32768

/-- N: data-bearing pages (R367). -/
def dataPages (d : Nat) : Nat := d + 64 + mapPages d

/-- C: check pages (R364). -/
def checkPages (t d : Nat) : Nat := if t = 0 then 0 else ceilDiv (dataPages d) (slotsPer t)

/-- Physical offset of the slot of data-bearing page `j` (R367). -/
def slotOff (s : State) (st : Stack) (j : Nat) : Nat :=
  let t := curT s st
  let k := slotsPer t
  (dataPages (winTop s st) + j / k) * 4096 + j % k * (4 * t)

/-- Memory key of a physical offset of a stack. -/
def stackKey (st : Stack) (off : Nat) : Nat := memKey st off

/-- The course and pseudo-channel of a physical offset (R311). -/
def pseudoChannel (a : Nat) : Nat :=
  Nat.xor (bitsOf a 14 9) (Nat.xor (bitsOf a 20 15) (Nat.xor (bitsOf a 26 21) (Nat.xor (bitsOf a 32 27) (bitsOf a 35 33))))
/-- The pseudo-channel address of a physical offset (R311). -/
def channelAddr (a : Nat) : Nat := bitsOf a 35 15 * 512 + bitsOf a 8 0
/-- The HBM4 fields that a pseudo-channel address drives on the command bus (R312). -/
structure HbmAddr where
  row : Nat
  stackId : Nat
  bank : Nat
  bankGroup : Nat
  column : Nat
  byte : Nat
  deriving DecidableEq, Repr

/-- The HBM4 fields of a pseudo-channel address (R312). -/
def hbmAddr (i : Nat) : HbmAddr :=
  { row := bitsOf i 29 16, stackId := bitsOf i 15 14, bank := bitsOf i 13 12, bankGroup := bitsOf i 11 10, column := bitsOf i 9 5, byte := bitsOf i 4 0 }

/-! ### Symbols and slots -/

/-- The page code of strength `t` (R360). -/
def pageCode (t : Nat) : Code := { m := 16, poly := 0x1100B, alpha := 2, checks := 2 * t }

/-- 16-bit little-endian symbols of bytes (R361). -/
def symbolsOf : Bytes → List Nat
  | a :: b :: t => (a.toNat + 256 * b.toNat) :: symbolsOf t
  | [a] => [a.toNat]
  | [] => []

/-- Bytes of symbols. -/
def bytesOfSymbols : List Nat → Bytes
  | [] => []
  | v :: t => BitVec.ofNat 8 v :: BitVec.ofNat 8 (v / 256) :: bytesOfSymbols t

/-- The slot of a page as stored: 2t check symbols (R367). -/
def slotOf (s : State) (st : Stack) (j : Nat) : List Nat := symbolsOf (s.bytes (stackKey st (slotOff s st j)) (4 * curT s st))

/-- The state with the slot of a page written. -/
def putSlot (s : State) (st : Stack) (j : Nat) (slot : List Nat) : State :=
  s.store (stackKey st (slotOff s st j)) (bytesOfSymbols slot)

/-- A data-bearing page as stored. -/
def pageBytes (s : State) (st : Stack) (j : Nat) : Bytes := s.bytes (stackKey st (j * 4096)) 4096

/-- Symbol-wise XOR. -/
def xorSymbols (a b : List Nat) : List Nat := List.zipWith Nat.xor a b

/-- Bytes written into data-bearing page `j` at byte `o` of it, the slot updated by delta from `base`, the bytes they replace, and `slot` (R383,
R384): the delta is the check polynomial of the difference. -/
def deltaWrite (s : State) (st : Stack) (j o : Nat) (bs base : Bytes) (slot : List Nat) : State :=
  let t := curT s st
  let key := stackKey st (j * 4096 + o)
  if t = 0 then s.store key bs else
  let pre := if o % 2 = 1 then [(0 : Byte)] else []
  let diff := symbolsOf (pre ++ List.zipWith (fun a b => a ^^^ b) bs base)
  let msg := diff ++ List.replicate (2048 - o / 2 - diff.length) 0
  putSlot (s.store key bs) st j (xorSymbols slot (rsParity (pageCode t) msg))

/-- Bytes written into a data-bearing page with the slot as stored. -/
def rawWrite (s : State) (st : Stack) (j o : Nat) (bs : Bytes) : State :=
  deltaWrite s st j o bs (s.bytes (stackKey st (j * 4096 + o)) bs.length) (if curT s st = 0 then [] else slotOf s st j)

/-! ### Poison bits (R368) -/

/-- Memory key of the byte that holds the poison bit of page `j`. -/
def poisonByte (s : State) (st : Stack) (j : Nat) : Nat := (winTop s st + 64 + j / 32768) * 4096 + j % 32768 / 8

/-- The poison bit of window or spare page `j`. -/
def pagePoisoned (s : State) (st : Stack) (j : Nat) : Bool := bitOf (memByte s.mem (stackKey st (poisonByte s st j))).toNat (j % 8)

/-- The state with the poison bit of a page set or cleared: a write of its poison-map page. -/
def setPoison (s : State) (st : Stack) (j : Nat) (v : Bool) : State :=
  let o := poisonByte s st j
  let b := (memByte s.mem (stackKey st o)).toNat
  rawWrite s st (o / 4096) (o % 4096) [BitVec.ofNat 8 (withBits b (j % 8) (j % 8) (bit v))]

/-- A page becomes poisoned (R378, R408): bit, counter, flag and event 0x2103 with its cause: 0 uncorrectable decode, 1 poisoned write-back,
2 on-die uncorrectable at t = 0, 3 poison map lost. -/
def poisonPage (st : Stack) (j cause : Nat) (s : State) : State :=
  let s := if pagePoisoned s st j then s else (setPoison s st j true).count (Reg.PGC_CNT1_POISPG st) 1
  (s.flag (Reg.PGC_ERR_POISON st)).raise 0x2103 [st.val, j, cause]

/-! ### The remap table (R392, R393) -/

/-- The entry that remaps window page `p`. -/
def remapEntry (s : State) (st : Stack) (p : Nat) : Option Nat :=
  (List.range 16).find? (fun e => s.isSet (Reg.RMP_ENT_VALID st e) && s.rd (Reg.RMP_ENT_FROM st e) == p)

/-- The physical page of window page `p` (R393). -/
def physPage (s : State) (st : Stack) (p : Nat) : Nat :=
  match remapEntry s st p with
  | some e => winTop s st + s.rd (Reg.RMP_ENT_SPARE st e)
  | none => p

/-- Whether a window page lies in an enabled strict range (R370). -/
def pageStrict (s : State) (st : Stack) (p : Nat) : Bool :=
  curT s st ≠ 0 && (List.range 8).any (fun r => s.isSet (Reg.PGC_STRICT_EN st r) &&
    decide (s.rd (Reg.PGC_STRICT_FIRST st r) ≤ p ∧ p ≤ s.rd (Reg.PGC_STRICT_LAST st r)))

/-! ### Decoding (R371 to R378) -/

/-- The outcome classes of a whole-page decode (R376). -/
inductive PageClass where
  | clean | corrected | checkOnly | uncorrectable
  deriving DecidableEq, Repr

/-- A decode: class, page and slot as decoded, and the number of symbols corrected. -/
structure PageDecode where
  cls : PageClass
  data : Bytes
  slot : List Nat
  errors : Nat
  deriving DecidableEq, Repr

/-- The bursts of physical page `j` that on-die ECC reports uncorrectable, by number within the page. -/
def badBursts (e : MemEnv) (st : Stack) (j : Nat) : List Nat :=
  (e.unc.filter (fun u => u.1 = st.val && u.2 / 4096 = j)).map (fun u => u.2 % 4096 / 32)

/-- A decode of a page as stored (R360, R373): erasures first where ERASE is 1 and they fit, else errors alone. -/
def decodePage (s : State) (st : Stack) (j : Nat) (e : MemEnv) : PageDecode :=
  let t := curT s st
  let c := pageCode t
  let bytes := pageBytes s st j
  let slot := slotOf s st j
  let word := symbolsOf bytes ++ slot
  let erase := if s.isSet (Reg.PGC_CTL_ERASE st) then (badBursts e st j).flatMap (fun b => (List.range 16).map (fun i => 16 * b + i)) else []
  let found := match (if erase.isEmpty then none else rsDecode c word erase) with
    | some r => some r
    | none => rsDecode c word []
  match found with
  | none => { cls := .uncorrectable, data := bytes, slot := slot, errors := 0 }
  | some (w, pos) =>
    { cls := if pos.isEmpty then .clean else if pos.any (fun i => decide (i < 2048)) then .corrected else .checkOnly,
      data := bytesOfSymbols (w.take 2048), slot := w.drop 2048, errors := pos.length }

/-- Whether a page may raise an event again: at most once per page per second (R408). -/
def mayRaise (now : Nat) (l : List (Nat × Nat)) (p : Nat) : Bool :=
  l.all (fun e => e.1 ≠ p || decide (e.2 + 10 ^ 9 ≤ now))

/-- The degraded list changed, with its occupancy in PGC_STAT. -/
def setDegraded (st : Stack) (l : List Nat) (s : State) : State :=
  (s.onStack st (fun S => { S with degraded := l })).wr (Reg.PGC_STAT_DEGOCC st) l.length

/-- Counters, flag and event of a corrected or check-only decode (R408). `trigger`: 0 read, 1 write, 2 pass. -/
def noteDecode (st : Stack) (p trigger : Nat) (d : PageDecode) (s : State) : State :=
  match d.cls with
  | .corrected =>
    let s := (s.count (Reg.PGC_CNT0_CORRPG st) 1).flag (Reg.PGC_ERR_CORR st)
    if mayRaise s.now (s.stack st).corrAt p then
      (s.onStack st (fun S => { S with corrAt := (p, s.now) :: S.corrAt.filter (fun e => e.1 ≠ p) })).raise 0x2101 [st.val, p, d.errors, trigger]
    else s
  | .checkOnly =>
    let s := (s.count (Reg.PGC_CNT0_CHKPG st) 1).flag (Reg.PGC_ERR_CHKONLY st)
    if mayRaise s.now (s.stack st).checkAt p then
      (s.onStack st (fun S => { S with checkAt := (p, s.now) :: S.checkAt.filter (fun e => e.1 ≠ p) })).raise 0x2102 [st.val, p, d.errors]
    else s
  | _ => s

/-- The decoded page and slot written back; it leaves the degraded list (R377). -/
def writeBackPage (st : Stack) (p j : Nat) (d : PageDecode) (s : State) : State :=
  let s := putSlot (s.store (stackKey st (j * 4096)) d.data) st j d.slot
  setDegraded st ((s.stack st).degraded.erase p) s

/-- A spare that decodes uncorrectable while in use is worn (R397). -/
def wearSpare (st : Stack) (j : Nat) (s : State) : State :=
  let d := winTop s st
  if j < d then s else (s.flagBits (Reg.RMP_WORN_WORN st) (2 ^ (j - d))).raise 0x2108 [st.val, j - d]

/-- What a whole-page decode of window or spare page `p`, held in physical page `j`, does (R376 to R378, R397). -/
def decodeOutcome (st : Stack) (p j trigger : Nat) (d : PageDecode) (s : State) : State :=
  match d.cls with
  | .clean => s
  | .uncorrectable =>
    let s := poisonPage st p 0 s
    if j ≠ p then wearSpare st j s else s
  | _ =>
    let s := noteDecode st p trigger d s
    let deg := (s.stack st).degraded
    if s.isSet (Reg.PGC_CTL_WBC st) || trigger = 2 then writeBackPage st p j d s
    else if deg.contains p then s
    else if 64 ≤ deg.length then writeBackPage st p j d ((s.flag (Reg.PGC_ERR_DEGFULL st)).raise 0x210A [st.val])
    else setDegraded st (deg ++ [p]) s

/-- A poison-map page that decodes uncorrectable poisons every page it covers, and its stored bits are replaced by ones (R410). -/
def checkMapPage (st : Stack) (p : Nat) (e : MemEnv) (s : State) : State :=
  let j := winTop s st + 64 + p / 32768
  if (badBursts e st j).isEmpty then s else
  let lost := curT s st = 0 || (decodePage s st j e).cls = .uncorrectable
  if lost then
    let ones := List.replicate 4096 (0xFF : Byte)
    let s := s.store (stackKey st (j * 4096)) ones
    let s := if curT s st = 0 then s else putSlot s st j (rsParity (pageCode (curT s st)) (symbolsOf ones))
    (s.flag (Reg.PGC_ERR_POISON st)).raise 0x2103 [st.val, p, 3]
  else decodeOutcome st j j 0 (decodePage s st j e) s

/-! ### What the memories report (R351, R372 to R374, R409) -/

/-- The slots that overlap a lost word of the check cache are recomputed from the data as stored (R409). -/
def loseSlots (st : Stack) (off : Nat) (s : State) : State :=
  let t := curT s st
  let n := dataPages (winTop s st)
  if t = 0 || off < n * 4096 then s else
  let k := slotsPer t
  let rel := off - n * 4096
  let first := rel / 4096 * k + rel % 4096 / (4 * t)
  let last := rel / 4096 * k + (rel % 4096 + 7) / (4 * t)
  let js := ((List.range (last + 1 - first)).map (fun i => first + i)).filter (fun j => decide (j < n))
  let s := s.each js (fun s j => putSlot s st j (rsParity (pageCode t) (symbolsOf (pageBytes s st j))))
  (s.flag (Reg.PGC_ERR_SLOTLOST st)).raise 0x2109 [st.val, first, js.length]

/-- What the stacks' memories report takes effect: decayed contents, on-die reports (counted, event 0x2003, and at t = 0 the page poisoned), lost
check slots. -/
def stackReports (e : MemEnv) (s : State) : State :=
  let s := s.each e.decay (fun s d => s.store (stackKey (stackOf d.1) d.2.1) d.2.2)
  let s := s.each e.corr (fun s st => s.count (Reg.STK_ODCNT_CORR (stackOf st)) 1)
  let s := s.each e.unc (fun s u =>
    let st := stackOf u.1
    let s := ((s.flag (Reg.STK_ERR_ODUNC st)).count (Reg.STK_ODCNT_UNC st) 1).raise 0x2003 [st.val, u.2]
    if curT s st = 0 && decide (u.2 / 4096 < winTop s st + 64) then
      let j := u.2 / 4096
      let p := match (List.range 16).find? (fun e => s.isSet (Reg.RMP_ENT_VALID st e) && winTop s st + s.rd (Reg.RMP_ENT_SPARE st e) == j) with
        | some e => s.rd (Reg.RMP_ENT_FROM st e)
        | none => j
      poisonPage st p 2 s
    else s)
  s.each e.slotLost (fun s u => loseSlots (stackOf u.1) u.2 s)

/-! ### Reads and writes of a stack (R370 to R391) -/

/-- A read of `n` bytes at window offset `o` of a stack, within one page (R371, R375, R378): the bytes, whether the page is poisoned, and the state.
The whole page is decoded where it is strict or degraded, or where an on-die report lies in it. -/
def stackRead (st : Stack) (o n : Nat) (e : MemEnv) (s : State) : Bytes × Bool × State :=
  let p := o / 4096
  let j := physPage s st p
  let s := checkMapPage st p e s
  if pagePoisoned s st p then (s.bytes (stackKey st (j * 4096 + o % 4096)) n, true, s) else
  if curT s st ≠ 0 && (pageStrict s st p || (s.stack st).degraded.contains p || !(badBursts e st j).isEmpty) then
    let d := decodePage s st j e
    let s := decodeOutcome st p j 0 d s
    ((d.data.drop (o % 4096)).take n, d.cls == .uncorrectable, s)
  else (s.bytes (stackKey st (j * 4096 + o % 4096)) n, false, s)

/-- A partial write at window offset `o` of `n` bytes, within one page (R383 to R388): the bytes that `f` makes of those there, by delta, after a
decode in strict mode, in verify mode, for a degraded page and for one with an on-die report. Answers whether it landed in a poisoned page. -/
def partialUpdate (st : Stack) (o n : Nat) (f : Bytes → Bytes) (e : MemEnv) (s : State) : Bool × State :=
  let p := o / 4096
  let j := physPage s st p
  let s := checkMapPage st p e s
  let decodes := curT s st ≠ 0 && !pagePoisoned s st p &&
    (pageStrict s st p || s.isSet (Reg.PGC_CTL_VERIFY st) || (s.stack st).degraded.contains p || !(badBursts e st j).isEmpty)
  let d := decodePage s st j e
  let s := if decodes then decodeOutcome st p j 1 d s else s
  let good := decodes && d.cls ≠ .uncorrectable
  let base := if good then (d.data.drop (o % 4096)).take n else s.bytes (stackKey st (j * 4096 + o % 4096)) n
  let slot := if curT s st = 0 then [] else if good then d.slot else slotOf s st j
  let s := deltaWrite s st j (o % 4096) (f base) base slot
  let s := s.count (Reg.STK_WRCNT_SECT st) 1
  if pagePoisoned s st p then
    (true, ((s.flag (Reg.PGC_ERR_LANDED st)).count (Reg.PGC_CNT1_LANDPG st) 1).raise 0x2104 [st.val, p])
  else (false, s)

/-- A partial write of given bytes. -/
def partialWrite (st : Stack) (o : Nat) (bs : Bytes) (e : MemEnv) (s : State) : Bool × State := partialUpdate st o bs.length (fun _ => bs) e s

/-- A full-page write of window page `p` into physical page `j` (R382): check symbols from the new data, poison and degraded mark gone. -/
def fullWriteAt (st : Stack) (p j : Nat) (bs : Bytes) (s : State) : State :=
  let bs := padTo 4096 bs
  let s := s.store (stackKey st (j * 4096)) bs
  let t := curT s st
  let s := if t = 0 then s else putSlot s st j (rsParity (pageCode t) (symbolsOf bs))
  let s := setDegraded st ((s.stack st).degraded.erase p) s
  let s := s.count (Reg.STK_WRCNT_SECT st) 64
  if pagePoisoned s st p then setPoison s st p false else s

/-- A full-page write of window page `p` (R382, R393). -/
def fullWrite (st : Stack) (p : Nat) (bs : Bytes) (s : State) : State := fullWriteAt st p (physPage s st p) bs s

/-- A page clear of window page `p` (R389, R407): a remapped page's spare is cleared. -/
def clearPage (st : Stack) (p : Nat) (s : State) : State := fullWrite st p [] s

/-- Every byte of a stack cleared with ALL (R389): data, slots and poison bits of window, spares and map. -/
def clearStack (st : Stack) (s : State) : State :=
  setDegraded st [] { s with mem := memClear s.mem (memKey st 0) (memKey (st + 1) 0) }

end Sys2Proof.Machine
end

