-- ==== Sys2Proof/Machine/Packet.lean ====
section
/-! DEFINITION. Packets on the wire and in the hand: header bits, length, end-to-end CRC, age, and the packets a brick forms
(R154 to R163, R182, R184, R935, R938). -/
namespace Sys2Proof.Machine
open Sys2Proof

/-- Packet types (R157). -/
def ptReq : Nat := 0x1
def ptRsp : Nat := 0x2
def ptPrb : Nat := 0x3
def ptPra : Nat := 0x4
def ptFrst : Nat := 0x5
def ptFra : Nat := 0x6
def ptFcls : Nat := 0x7
def ptFca : Nat := 0x8
def ptFack : Nat := 0x9
def ptCast : Nat := 0xA

/-- The class of a packet type (R157). -/
def packetClass (ptype : Nat) : Nat := if ptype = 0x2 || ptype = 0x4 || ptype = 0x6 || ptype = 0x8 || ptype = 0x9 then 1 else 0

/-- Whether a packet type answers another packet (R157, R935): it goes back to the source brick. FACK is of class 1 and goes to the destination. -/
def answerType (ptype : Nat) : Bool := packetClass ptype = 1 && ptype ≠ 0x9

/-- LEN by R154: a LOAD request carries no payload. -/
def lenOf (ptype opc size : Nat) : Nat := if ptype = ptReq && opc = 0x01 then 5 else 5 + ceilDiv size 8

/-- Header bits [319:0] of R155. -/
def packetHeader (p : Packet) : Nat :=
  p.acks.toNat * 2 ^ 288 + p.tis.toNat * 2 ^ 272 + p.dpid.toNat * 2 ^ 256 + p.inc.toNat * 2 ^ 240 + p.att.toNat * 2 ^ 232 +
  p.size.toNat * 2 ^ 222 + p.via.toNat * 2 ^ 216 + p.sgen.toNat * 2 ^ 208 + p.aux.toNat * 2 ^ 200 + p.ph.toNat * 2 ^ 198 +
  p.rsv.toNat * 2 ^ 192 + p.seq.toNat * 2 ^ 160 + p.fep.toNat * 2 ^ 152 + p.gen.toNat * 2 ^ 144 + p.sseat.toNat * 2 ^ 128 + p.addr.toNat * 2 ^ 64 +
  p.ecrc.toNat * 2 ^ 32 + p.opc.toNat * 2 ^ 24 + p.lbl.toNat * 2 ^ 20 + p.ptype.toNat * 2 ^ 16 + p.len.toNat * 2 ^ 9 +
  p.hops.toNat * 2 ^ 6 + bit p.nm * 2 ^ 5 + p.sbrk.toNat * 2 ^ 3 + p.dbrk.toNat * 2 + bit p.opn

/-- The packet's bytes: the 40 B header and the payload padded to 8 B (R154). -/
def packetBytes (p : Packet) : Bytes := leBytes 40 (packetHeader p) ++ padTo (8 * (p.len.toNat - 5)) (p.payload ++ p.pad)

/-- Bytes up to the last that is not zero. -/
def stripZeros (bs : Bytes) : Bytes := (bs.reverse.dropWhile (fun b => b == 0)).reverse

/-- The packet that bytes spell; the payload is SIZE bytes of what follows the header (R154). -/
def packetOf (bs : Bytes) : Packet :=
  let h := leNat (bs.take 40)
  let f := fun hi lo => bitsOf h hi lo
  { acks := BitVec.ofNat 32 (f 319 288), tis := BitVec.ofNat 16 (f 287 272), dpid := BitVec.ofNat 16 (f 271 256),
    inc := BitVec.ofNat 16 (f 255 240), att := BitVec.ofNat 8 (f 239 232), size := BitVec.ofNat 10 (f 231 222),
    via := BitVec.ofNat 6 (f 221 216), sgen := BitVec.ofNat 8 (f 215 208), aux := BitVec.ofNat 8 (f 207 200),
    ph := BitVec.ofNat 2 (f 199 198), seq := BitVec.ofNat 32 (f 191 160), fep := BitVec.ofNat 8 (f 159 152),
    gen := BitVec.ofNat 8 (f 151 144), sseat := BitVec.ofNat 16 (f 143 128), addr := BitVec.ofNat 64 (f 127 64),
    ecrc := BitVec.ofNat 32 (f 63 32), opc := BitVec.ofNat 8 (f 31 24), lbl := BitVec.ofNat 4 (f 23 20),
    ptype := BitVec.ofNat 4 (f 19 16), len := BitVec.ofNat 7 (f 15 9), hops := BitVec.ofNat 3 (f 8 6), nm := bitOf h 5,
    sbrk := BitVec.ofNat 2 (f 4 3), dbrk := BitVec.ofNat 2 (f 2 1), opn := bitOf h 0,
    payload := (bs.drop 40).take (if f 19 16 = ptReq && f 31 24 = 0x01 then 0 else f 231 222), rsv := BitVec.ofNat 6 (f 197 192),
    pad := stripZeros ((bs.drop 40).drop (if f 19 16 = ptReq && f 31 24 = 0x01 then 0 else f 231 222)) }

/-- The end-to-end CRC of R162 over all 8 × LEN bytes, reserved bits and padding included: ECRC, HOPS, NM, VIA and PH taken as zero. -/
def packetCrc (p : Packet) : Nat := crc32 (packetBytes { p with ecrc := 0, hops := 0, nm := false, via := 0, ph := 0 })

/-- The packet with the CRC its fields give. -/
def packetSeal (p : Packet) : Packet := { p with ecrc := BitVec.ofNat 32 (packetCrc p) }

/-- Whether a packet passes the checks of R163: LEN and SIZE agree and LEN is at most 69 (R154, R207), the payload is all there, and the ECRC holds. -/
def packetSound (p : Packet) : Bool :=
  let load := p.ptype.toNat = ptReq && p.opc.toNat = 0x01
  p.len.toNat == lenOf p.ptype.toNat p.opc.toNat p.size.toNat && decide (p.len.toNat ≤ 69) && p.payload.length == (if load then 0 else p.size.toNat) &&
  p.ecrc.toNat == packetCrc p

/-- TIS at this moment (R155): bits [25:10] of the plumb counter. -/
def State.tis (s : State) : Nat := bitsOf s.plumb.toNat 25 10

/-- The age of a packet in units of 1.024 µs, a negative age counting as zero (R184). -/
def State.ageOf (s : State) (p : Packet) : Nat := (sextInt 16 (s.tis + 65536 - p.tis.toNat)).toNat

/-- Whether a packet's age exceeds the PLIFE of brick `b`, in µs (R184). -/
def State.tooOld (s : State) (b : Brick) (p : Packet) : Bool :=
  decide (s.rd (Reg.MRT_TTMO_PLIFE b) * 1000 < s.ageOf p * 1024)

/-- A packet formed for transmission: fresh TIS, LEN and ECRC (R938). -/
def State.form (s : State) (p : Packet) : Packet :=
  packetSeal { p with
    rsv := 0, pad := [], tis := BitVec.ofNat 16 s.tis, len := BitVec.ofNat 7 (lenOf p.ptype.toNat p.opc.toNat p.size.toNat),
    ph := 0, hops := 0, nm := false, via := 0 }

/-- The flow that a packet of a source brick belongs to, or the answer to one (R156). -/
def packetFlow (p : Packet) : FlowId :=
  { seat := p.addr.extractLsb' 48 16, gen := p.gen, brk := brickOf p.dbrk.toNat, lbl := labelOf p.lbl.toNat, sseat := p.sseat, sgen := p.sgen }

/-- The class-1 answer to a packet: the same flow, sequence number and address, with a status and a payload, routed by the identity that the
seat entry for SSEAT names; none where that entry is Vacant (R935). An answer to SSEAT 0xFFFF stays in the package (R936). -/
def State.answer (s : State) (p : Packet) (ptype status : Nat) (data : Bytes) : Option Packet :=
  let e := s.seatEntry p.sseat.toNat
  let local' := p.sseat.toNat == 0xFFFF
  if !local' && entryState e == 0 then none else
  some { p with
    acks := 0, dpid := BitVec.ofNat 16 (if local' then s.ownPid else entryPid e), inc := BitVec.ofNat 16 s.ownInc,
    aux := BitVec.ofNat 8 status, ptype := BitVec.ofNat 4 ptype, size := BitVec.ofNat 10 data.length, payload := data, opn := false }

/-- The state with a packet given to brick `b` for routing (R164), formed anew. -/
def State.sendFrom (s : State) (b : Brick) (p : Packet) : State :=
  s.onBrick b (fun B => { B with routeQ := B.routeQ ++ [s.form p] })

/-- The state with an answer given to brick `b` for routing, where there is one. -/
def State.answerFrom (s : State) (b : Brick) (p : Option Packet) : State :=
  match p with
  | some q => s.sendFrom b q
  | none => s

/-- A received packet leaves the list of packets passed up to its brick. -/
def State.takeArrived (s : State) (b : Brick) (p : Packet) : State :=
  s.onBrick b (fun B => { B with arrived := B.arrived.erase p })

/-- A packet discarded for its age (R184). -/
def State.agedOut (s : State) (b : Brick) : State := (s.flag (Reg.MRT_TERR_AGED b)).raise 0x1108 [b.val]

/-- A packet discarded for its ECRC or length (R163): source seat, source brick, label, HOPS. -/
def State.ecrcFail (s : State) (b : Brick) (p : Packet) : State :=
  (s.flag (Reg.MRT_TERR_ECRC b)).raise 0x1101 [p.sseat.toNat, p.sbrk.toNat, p.lbl.toNat, p.hops.toNat]

end Sys2Proof.Machine
end

