-- ==== Sys2Proof/Machine/Copies.lean ====
section
/-! DEFINITION. Copies of lines, acquires, wait slots and the local ends of waits (chapter 04): what a tile and its brick keep beside the homes. -/
namespace Sys2Proof.Machine
open Sys2Proof

/-- The 128 B line of a global address. -/
def lineOf (a : Nat) : Nat := a / 128

/-- Whether a line overlaps `n` bytes from address `a`. -/
def lineMeets (line a n : Nat) : Bool := decide (n ≠ 0 ∧ lineOf a ≤ line ∧ line ≤ lineOf (a + n - 1))

/-- The tiles of a brick. -/
def brickTiles (b : Brick) : List Tile := (List.range 32).map (fun k => tileOf (32 * b.val + k))

/-- The flush of R236: every remote-copy line of the brick is invalidated, every stamp of its tiles becomes 0, and no load in flight
fills a copy any more. -/
def acquireFlush (b : Brick) (s : State) : State :=
  let s := s.onBrick b (fun B => { B with copies := [], fills := B.fills.map (fun f => { f with stale := true }), acquire := 0 })
  (s.each (brickTiles b) (fun s t => s.onTile t (fun T => { T with stamp := 0 }))).count (Reg.BND_CNT2_FLUSHES b) 1

/-- A full acquire of tile `t` (R235, R236): the brick's acquire counter steps, the tile's stamp takes the new value, and its mirror lines go. -/
def fullAcquire (t : Tile) (s : State) : State :=
  let b := tileBrick t
  let s := if (s.brick b).acquire = 0xFFFF then acquireFlush b s
           else s.onBrick b (fun B => { B with acquire := B.acquire + 1 })
  let s := s.onTile t (fun T => { T with stamp := (s.brick b).acquire, mirror := [] })
  s.count (Reg.BND_CNT2_FULLACQ b) 1

/-- A range acquire (R237): copies that overlap the range go; a range above 1 MiB is a full acquire. -/
def rangeAcquire (t : Tile) (a n : Nat) (s : State) : State :=
  if 0x100000 < n then fullAcquire t s else
  let b := tileBrick t
  let s := s.onTile t (fun T => { T with mirror := T.mirror.filter (fun c => !lineMeets c.line a n) })
  let s := s.onBrick b (fun B => { B with copies := B.copies.filter (fun c => !lineMeets c.line a n),
                                          fills := B.fills.map (fun f => if lineMeets f.line a n then { f with stale := true } else f) })
  s.count (Reg.BND_CNT2_RANGEACQ b) 1

/-- What a store by tile `t` to an address with own seat 0xFFFF does to copies in its brick when it is issued (R222, R223): the remote-copy line and
the other tiles' mirror lines go, the tile's own mirror line takes the bytes, and a load in flight no longer fills that line. -/
def storeCopies (t : Tile) (a : Nat) (data : Bytes) (s : State) : State :=
  let b := tileBrick t
  let hit := fun (c : CopyLine) => lineMeets c.line a data.length
  let s := s.onBrick b (fun B => { B with copies := B.copies.filter (fun c => !hit c),
                                          fills := B.fills.map (fun f => if lineMeets f.line a data.length then { f with stale := true } else f) })
  let s := s.each ((brickTiles b).filter (fun u => u ≠ t)) (fun s u => s.onTile u (fun T => { T with mirror := T.mirror.filter (fun c => !hit c) }))
  s.onTile t (fun T => { T with mirror := T.mirror.map (fun c =>
    if hit c then { c with data := (List.range 128).map (fun i =>
      let x := c.line * 128 + i
      if a ≤ x && x < a + data.length then data.getD (x - a) 0 else c.data.getD i 0) } else c) })

/-- A store that ends otherwise than Completed, or goes in doubt: the storing tile's mirror line goes (R222). -/
def storeFailedCopies (t : Tile) (a n : Nat) (s : State) : State :=
  s.onTile t (fun T => { T with mirror := T.mirror.filter (fun c => !lineMeets c.line a n) })

/-- The bytes a copy serves for a load of tile `t`, where one may serve it: a mirror line of the tile, or a remote-copy line with a fill
stamp of at least the tile's stamp (R235), that holds the whole of `[a, a + n)`. -/
def copyServes (t : Tile) (a n : Nat) (s : State) : Option Bytes :=
  let T := s.tile t
  let B := s.brick (tileBrick t)
  let whole := fun (c : CopyLine) => decide (n ≠ 0 ∧ lineOf a = c.line ∧ lineOf (a + n - 1) = c.line)
  match T.mirror.find? whole with
  | some c => some ((c.data.drop (a % 128)).take n)
  | none =>
    match B.copies.find? (fun c => whole c && decide (T.stamp ≤ c.stamp)) with
    | some c => some ((c.data.drop (a % 128)).take n)
    | none => none

/-! ### Wait slots -/

/-- Slot `k` of tile `t`. -/
def State.slot (s : State) (t : Tile) (k : Nat) : Slot := (s.tile t).slots.getD k {}

/-- The state with slot `k` of tile `t` changed. -/
def State.onSlot (s : State) (t : Tile) (k : Nat) (f : Slot → Slot) : State :=
  s.onTile t (fun T => { T with slots := T.slots.modify k f })

/-- A wait ends at its tile: the open slot becomes Done with the wake's status and COUNT, and a satisfied wait completes a full acquire
(R256, R258). A slot that is not Open takes nothing: each wait receives at most one wake (R257). -/
def wakeSlot (t : Tile) (k : Nat) (status : Nat) (count : Word) (s : State) : State :=
  if (s.slot t k).st = .opened then
    let s := s.onSlot t k (fun w => { w with st := .done, status := status, count := count, registered := false })
    if status = 0 then fullAcquire t s else s
  else s

/-- A wait completed with status 0x3 by the waiter's own brick (R258, R262). -/
def loseWait (t : Tile) (k : Nat) (s : State) : State :=
  if (s.slot t k).st = .opened then
    let b := tileBrick t
    ((wakeSlot t k 3 0 s).flag (Reg.BND_ERR_LOST b)).count (Reg.BND_CNT1_LOSTS b) 1
  else s

/-- The load that would fill a copy has its answer (R223, R943): a status other than 0x00 fills none. -/
def answerFill (t : Tile) (no : Nat) (good : Bool) (s : State) : State :=
  let mine := fun (f : Fill) => f.tile = t.val && f.no = no
  s.onBrick (tileBrick t) (fun B =>
    let fills := if good then B.fills.map (fun f => if mine f then { f with ready := true } else f) else B.fills.filter (fun f => !mine f)
    { B with fills := fills })

/-! ### Commands -/

/-- COPY_EVICT (R221, R942): the device drops a mirror line of a tile, or a remote-copy line of the tile's brick, at any time. -/
def execCopyEvict (t : Tile) (addr : Word) (mirror : Bool) (s : State) : Host.Outcome State Fault Refusal := ended s <|
  let line := lineOf (s.canon addr.toNat)
  .next (if mirror then s.onTile t (fun T => { T with mirror := T.mirror.filter (fun c => c.line ≠ line) })
         else s.onBrick (tileBrick t) (fun B => { B with copies := B.copies.filter (fun c => c.line ≠ line) }))

end Sys2Proof.Machine
end

