-- ==== Sys2Proof/Machine/Trace.lean ====
section
/-! DEFINITION. Tile counters, and the records that units put into a brick's observation buffer (R893 to R895, R906 to R911). -/
namespace Sys2Proof.Machine
open Sys2Proof

/-- Counter `i` of tile `t` raised by `n`, modulo 2^64, while CNTEN is 1 (R894, R895). -/
def tally (t : Tile) (i n : Nat) (s : State) : State :=
  if s.isSet (Reg.OBS_TILE_CNTEN t) then s.wr (Reg.OBS_CNT_COUNT t i) ((s.reg (Reg.OBS_CNT t i) + n) % 2 ^ 64) else s

/-- Bytes in use in the observation buffer of a brick. -/
def obsUsed (B : BrickState) : Nat := (B.obsBuf.map (fun r => r.data.length)).sum

/-- What a loss marker tells at byte `i` (R907): a marker that is dropped itself leaves it to the next one. -/
def ObsRec.told (r : ObsRec) (i : Nat) : Nat := if r.typ = 0xF then leNat ((r.data.drop i).take 4) else 0

/-- A record dropped (R900, R911): counted in OBS_DROPS and in its tile's ODROP, and remembered for the loss marker and the report. -/
def obsDrop (b : Brick) (r : ObsRec) (s : State) : State :=
  let s := if r.tile < 128 then tally (tileOf r.tile) 63 1 s else s
  if r.trace then
    let s := (s.count (Reg.OBS_DROPS_TREC b) 1).flag (Reg.OBS_ERR_TDROP b)
    s.onBrick b (fun B => { B with obsLost := { B.obsLost with
      pc := B.obsLost.pc + bit (r.typ == 1) + r.told 16, bond := B.obsLost.bond + bit (decide (2 ≤ r.typ ∧ r.typ ≤ 5)) + r.told 20,
      stamp := B.obsLost.stamp + bit (r.typ == 8 || r.typ == 9) + r.told 24, traceRep := B.obsLost.traceRep + 1 } })
  else
    let s := (s.count (Reg.OBS_DROPS_SREC b) 1).flag (Reg.OBS_ERR_SDROP b)
    s.onBrick b (fun B => { B with obsLost := { B.obsLost with sampleRep := B.obsLost.sampleRep + 1 } })

/-- A record into the 64 KiB observation buffer; one that finds it full is dropped and counted (R911). -/
def obsPush (b : Brick) (r : ObsRec) (s : State) : State :=
  if obsUsed (s.brick b) + r.data.length ≤ 0x10000 then s.onBrick b (fun B => { B with obsBuf := B.obsBuf ++ [r] }) else obsDrop b r s

/-- ALIGNED clears (R887): event 0x7004 with the reason: 0 offset, 1 holdover limit, 2 unset, 3 reset (numbered in the order of R916; DESIGN CHOICE,
log entry 79). -/
def loseAlignment (reason : Nat) (s : State) : State :=
  if s.isSet Reg.PLB_STAT_ALIGNED then (s.wr Reg.PLB_STAT_ALIGNED 0).raise 0x7004 [reason] else s

/-- The source byte of a tile (R781). -/
def srcTile (t : Nat) : Nat := 0x80 + t
/-- The source byte of a brick (R781). -/
def srcBrick (b : Nat) : Nat := 0x10 + b

/-- The bytes of a trace record (R906): plumb time, TYPE and ALIGNED, source byte, and the body of R907. -/
def traceBytes (s : State) (time typ src : Nat) (body : Bytes) : Bytes :=
  leBytes 8 time ++ [BitVec.ofNat 8 (typ + 16 * s.rd Reg.PLB_STAT_ALIGNED), BitVec.ofNat 8 src] ++ padTo 22 body

/-- The loss marker of a brick, where trace records have been dropped since the last one and there is room for it (R907, R911). -/
def pushMarker (b : Brick) (s : State) : State :=
  let l := (s.brick b).obsLost
  let n := l.pc + l.bond + l.stamp
  if n = 0 || 0x10000 < obsUsed (s.brick b) + 32 then s else
  let body := [0, 0] ++ leBytes 4 n ++ leBytes 4 l.pc ++ leBytes 4 l.bond ++ leBytes 4 l.stamp
  let s := s.onBrick b (fun B => { B with obsLost := { l with pc := 0, bond := 0, stamp := 0 } })
  obsPush b { trace := true, typ := 0xF, tile := 0xFF, data := traceBytes s s.plumb.toNat 0xF (srcBrick b) body } s

/-- A trace record of brick `b`, after the loss marker that is due (R911). It is made while the trace ring is enabled (DEDUCED, log entry 12). -/
def traceRecAt (time : Nat) (b : Brick) (typ src tile : Nat) (body : Bytes) (s : State) : State :=
  if s.isSet (Reg.OBS_TRC_EN b) then
    obsPush b { trace := true, typ := typ, tile := tile, data := traceBytes s time typ src body } (pushMarker b s)
  else s

/-- A trace record made now. -/
def traceRec (b : Brick) (typ src tile : Nat) (body : Bytes) (s : State) : State := traceRecAt s.plumb.toNat b typ src tile body s

/-- Whether brick `b` records an event of its bond `k` (R909): OBS_BTR EN, the kind's bit, and the range of bonds. -/
def bondTraced (s : State) (b : Brick) (kind : FieldRef) (k : Nat) : Bool :=
  s.isSet (Reg.OBS_BTR_EN b) && s.isSet kind && decide (s.rd (Reg.OBS_BTR_BFIRST b) ≤ k ∧ k ≤ s.rd (Reg.OBS_BTR_BLAST b))

/-- The stamp record of a packet at a link, with its plumb time, where it is selected (R893). `link` is the package port, or 24 + local bridge. -/
def stampPacket (time : Nat) (b : Brick) (link : Nat) (send : Bool) (p : Packet) (s : State) : State :=
  let local' := if link < 24 then link % 6 else 6 + (link - 24) % 3
  let kind := match p.ptype.toNat with
    | 1 => 0
    | 2 => 1
    | 3 => 2
    | 4 => 3
    | _ => 9
  if s.isSet (Reg.OBS_STAMP_EN b) && bitOf (s.rd (Reg.OBS_STAMP_LINKS b)) local' &&
     s.isSet (if send then Reg.OBS_STAMP_SEND b else Reg.OBS_STAMP_RECV b) && bitOf (s.rd (Reg.OBS_STAMP_PTM b)) kind &&
     bitOf (s.rd (Reg.OBS_STAMP_LBLMASK b)) p.lbl.toNat && p.seq.toNat % 2 ^ s.rd (Reg.OBS_STAMP_SHIFT b) == 0 then
    traceRecAt time b (if send then 8 else 9) (srcBrick b) 0xFF
      ([BitVec.ofNat 8 link, BitVec.ofNat 8 (p.ptype.toNat + 16 * p.hops.toNat)] ++ leBytes 2 p.sseat.toNat ++
       [BitVec.ofNat 8 p.sgen.toNat, BitVec.ofNat 8 (p.sbrk.toNat + 4 * p.dbrk.toNat + 16 * p.lbl.toNat), p.fep, p.att] ++
       leBytes 2 p.dpid.toNat ++ leBytes 4 p.seq.toNat ++ leBytes 2 (addrSeat p.addr.toNat)) s
  else s

end Sys2Proof.Machine
end

