-- ==== Sys2Proof/Machine/Bed.lean ====
section
/-! DEFINITION. The bed cache: placement, replacement, eviction, fills, and the reads and stores of bed-mode granules (R320 to R327, R380,
R381, R388). -/
namespace Sys2Proof.Machine
open Sys2Proof

/-- `n` bytes whose values the spec leaves undefined (R379). -/
def State.freeBytes (s : State) (n : Nat) : Bytes × State :=
  let (k, s) := s.draw n
  ((List.range n).map (fun i => Config.freeByte (k + i)), s)

/-! ### Granules (R333) -/

/-- Bytes in a granule. -/
def granuleSize : Nat := 0x200000

/-- Whether granule `g` of a stack is in fold mode. -/
def foldMode (s : State) (st : Stack) (g : Nat) : Bool := bitOf (s.rd (Reg.FOLD_MAP_MODE st (g / 64))) (g % 64)

/-- The state with a granule in a mode. -/
def setFoldMode (st : Stack) (g : Nat) (v : Bool) (s : State) : State :=
  let f := Reg.FOLD_MAP_MODE st (g / 64)
  s.wr f (withBits (s.rd f) (g % 64) (g % 64) (bit v))

/-! ### Placement (R322) -/

/-- Address bits [63:7] of a home line, with seat 0xFFFF. -/
def homeL (st : Stack) (off : Nat) : Nat := (0xFFFF * 2 ^ 48 + st.val * 2 ^ 44 + off) / 128

/-- The set of a line, over all slices: slice × 4,096 + set. -/
def bedSet (l : Nat) : Nat :=
  let h := Nat.xor (bitsOf l 15 0) (Nat.xor (bitsOf l 31 16) (Nat.xor (bitsOf l 47 32) (bitsOf l 56 48)))
  h % 12 * 4096 + bitsOf l 11 0

/-- Key of a home line in the brick's table. -/
def bedKey (st : Stack) (off : Nat) : Nat := st.val * 2 ^ 29 + off / 128
/-- The stack of a key. -/
def keyStack (k : Nat) : Stack := stackOf (k / 2 ^ 29)
/-- The window offset of a key. -/
def keyOff (k : Nat) : Nat := k % 2 ^ 29 * 128

/-! ### Replacement: a tree of 15 bits per set (R321; the tree's convention is PRESUMED, log entry 30) -/

/-- The tree after an access to a way: the bits on its path point away from it. -/
def plruTouch (tree way : Nat) : Nat :=
  (List.range 4).foldl (fun (a : Nat × Nat) d =>
    let bit' := bitOf way (3 - d)
    (withBits a.1 a.2 a.2 (bit (!bit')), 2 * a.2 + 1 + bit bit')) (tree, 0) |>.1

/-- The way that the tree names as the victim. -/
def plruVictim (tree : Nat) : Nat :=
  (List.range 4).foldl (fun (a : Nat × Nat) _ =>
    let b := bitOf tree a.2
    (2 * a.1 + bit b, 2 * a.2 + 1 + bit b)) (0, 0) |>.1

/-- A way of a set was used. -/
def touchWay (b : Brick) (set way : Nat) (s : State) : State :=
  s.onBrick b (fun B => { B with plru := tabSet 0 B.plru set (plruTouch (tabGet 0 B.plru set) way) })

/-- The home lines of a set, by key. -/
def homesOf (s : State) (b : Brick) (set : Nat) : Tab BedLine :=
  (s.brick b).bed.filter (fun e => bedSet (homeL (keyStack e.1) (keyOff e.1)) = set)

/-- The remote-copy lines of a set. -/
def remotesOf (s : State) (b : Brick) (set : Nat) : List CopyLine := (s.brick b).copies.filter (fun c => bedSet c.line = set)

/-! ### Eviction (R323, R326, R388) -/

/-- A dirty sector written back; a poisoned one carries its poison to the page. -/
def writeBackSector (st : Stack) (off : Nat) (bs : Bytes) (poisoned : Bool) (e : MemEnv) (s : State) : State :=
  let (_, s) := partialWrite st off bs e s
  if poisoned && !pagePoisoned s st (off / 4096) then poisonPage st (off / 4096) 1 s else s

/-- The dirty sectors of a home line written back; the line stays, clean. -/
def cleanLine (k : Nat) (l : BedLine) (e : MemEnv) (s : State) : State :=
  let st := keyStack k
  let s := if l.valid0 && l.dirty0 then writeBackSector st (keyOff k) (l.data.take 64) l.poison0 e s else s
  let s := if l.valid1 && l.dirty1 then writeBackSector st (keyOff k + 64) (l.data.drop 64) l.poison1 e s else s
  s.onBrick (stackBrick st) (fun B => { B with bed := tabPut B.bed k { l with dirty0 := false, dirty1 := false } })

/-- A home line leaves the bed cache. -/
def evictHome (k : Nat) (e : MemEnv) (s : State) : State :=
  let b := stackBrick (keyStack k)
  match tabFind (s.brick b).bed k with
  | none => s
  | some l => (cleanLine k l e s).onBrick b (fun B => { B with bed := tabErase B.bed k })

/-- A way of a set made free: one that is free already, or for a remote copy at its cap a remote-copy line's, or the tree's victim. -/
def takeWay (b : Brick) (set : Nat) (remote : Bool) (e : MemEnv) (s : State) : Nat × State :=
  let homes := homesOf s b set
  let rem := remotesOf s b set
  if remote && decide (s.rd (Reg.STK_BEDCTL_REMWAYS b) ≤ rem.length) then
    let (k, s) := s.draw 1
    match rem[Config.freeIndex k % max 1 rem.length]? with
    | some c => (c.way, s.onBrick b (fun B => { B with copies := B.copies.erase c }))
    | none => (0, s)
  else
    let used := homes.map (fun e => e.2.way) ++ rem.map (fun c => c.way)
    match (List.range 16).find? (fun w => !used.contains w) with
    | some w => (w, s)
    | none =>
      let w := plruVictim (tabGet 0 (s.brick b).plru set)
      match homes.find? (fun e => e.2.way = w) with
      | some h => (w, evictHome h.1 e s)
      | none => (w, s.onBrick b (fun B => { B with copies := B.copies.filter (fun c => !(c.way = w && bedSet c.line = set)) }))

/-- A home line allocated with both sectors invalid, where there is none yet. -/
def allocHome (st : Stack) (off : Nat) (e : MemEnv) (s : State) : State :=
  let b := stackBrick st
  let k := bedKey st off
  match tabFind (s.brick b).bed k with
  | some _ => s
  | none =>
    let (w, s) := takeWay b (bedSet (homeL st off)) false e s
    s.onBrick b (fun B => { B with bed := tabPut B.bed k { way := w, data := List.replicate 128 0, valid0 := false, valid1 := false } })

/-- What the home line of an offset holds. -/
def bedAt (s : State) (st : Stack) (off : Nat) : Option BedLine := tabFind (s.brick (stackBrick st)).bed (bedKey st off)

/-- Whether the sector of an offset is valid in the bed cache. -/
def sectorHeld (s : State) (st : Stack) (off : Nat) : Bool :=
  match bedAt s st off with
  | some l => if off % 128 < 64 then l.valid0 else l.valid1
  | none => false

/-- Whether the sector of an offset is held poisoned. -/
def sectorPoisoned (s : State) (st : Stack) (off : Nat) : Bool :=
  match bedAt s st off with
  | some l => if off % 128 < 64 then l.poison0 else l.poison1
  | none => false

/-- The state with a line of the bed cache changed, and its way used. -/
def onLine (st : Stack) (off : Nat) (f : BedLine → BedLine) (s : State) : State :=
  let b := stackBrick st
  match bedAt s st off with
  | none => s
  | some l => touchWay b (bedSet (homeL st off)) l.way (s.onBrick b (fun B => { B with bed := tabPut B.bed (bedKey st off) (f l) }))

/-- The sector of an offset read from the stack into an allocated line; a poisoned page poisons the sector (R380). -/
def fillSector (st : Stack) (off : Nat) (e : MemEnv) (s : State) : State :=
  let o := off / 64 * 64
  let (bs, bad, s) := stackRead st o 64 e s
  let s := s.count (Reg.STK_RDCNT_SECT st) 1
  onLine st off (fun l =>
    if off % 128 < 64 then { l with data := bs ++ l.data.drop 64, valid0 := true, dirty0 := false, poison0 := bad }
    else { l with data := l.data.take 64 ++ bs, valid1 := true, dirty1 := false, poison1 := bad }) s

/-- The whole line of an offset filled: each sector that is not valid is read; a poisoned page poisons every sector read (R323, R380). -/
def fillLine (st : Stack) (off : Nat) (e : MemEnv) (s : State) : State :=
  let o := off / 128 * 128
  let s := allocHome st o e s
  let s := if sectorHeld s st o then s else fillSector st o e s
  if sectorHeld s st (o + 64) then s else fillSector st (o + 64) e s

/-- The sector of an offset, as the bed cache holds it, becomes poisoned. -/
def poisonSector (st : Stack) (off : Nat) (s : State) : State :=
  let f := fun (l : BedLine) => if off % 128 < 64 then { l with poison0 := true } else { l with poison1 := true }
  match bedAt s st off with
  | some l => s.onBrick (stackBrick st) (fun B => { B with bed := tabPut B.bed (bedKey st off) (f l) })
  | none => s

/-- SECDED reports of the bed cache and of remote copies take effect (R325). -/
def bedReports (e : MemEnv) (s : State) : State :=
  let s := s.each e.bedCorr (fun s b => (s.count (Reg.STK_BEDECC_CORR (brickOf b)) 1).flag (Reg.STK_BEDERR_CORR (brickOf b)))
  let s := s.each e.bedUnc (fun s u =>
    let st := stackOf u.1
    let b := stackBrick st
    if !sectorHeld s st u.2 then s else
    let s := poisonSector st u.2 s
    ((s.count (Reg.STK_BEDECC_UNC b) 1).flag (Reg.STK_BEDERR_UNCORR b)).raise 0x2004 [b.val, st.val * 2 ^ 44 + u.2 / 128 * 128])
  s.each e.copyUnc (fun s u =>
    let b := brickOf u.1
    if (s.brick b).copies.any (fun c => c.line = u.2) then
      ((s.onBrick b (fun B => { B with copies := B.copies.filter (fun c => c.line ≠ u.2) })).count (Reg.STK_BEDECC_UNC b) 1).flag
        (Reg.STK_BEDERR_UNCORR b)
    else s)

/-- SECDED errors of the key table and the seat table (R838, R878): a key reads invalid, an entry reads Held with its last
GEN. -/
def tableReports (e : MemEnv) (s : State) : State :=
  let s := s.each e.keyUnc (fun s k => if k < 256 then
      ((s.wr (Reg.SAF_KEY_WORD k 0) (withBits (s.rd (Reg.SAF_KEY_WORD k 0)) 63 63 0)).flag Reg.SAF_ERR_KEYLOST).raise 0x600B [k] else s)
  s.each e.seatUnc (fun s x => if x < 65535 then
    ((s.wr (Reg.SEAT_TBL_ENTRY x) (withBits (s.seatEntry x) 7 6 2)).flag Reg.SAF_ERR_SEATLOST).raise 0x600C [x] else s)

/-- Every memory report of a command takes effect. -/
def memReports (e : MemEnv) (s : State) : State := tableReports e (bedReports e (stackReports e s))

/-! ### Reads and stores of a bed-mode granule -/

/-- The pieces of `[off, off + n)` that lie in one block of `m` bytes each: offset and length. -/
def piecesOf (m off n : Nat) : List (Nat × Nat) :=
  if n = 0 then [] else
  (List.range ((off + n - 1) / m - off / m + 1)).map (fun i =>
    let lo := max off ((off / m + i) * m)
    let hi := min (off + n) ((off / m + i + 1) * m)
    (lo, hi - lo))

/-- Whether a read is small enough for the grout path, and the path is enabled (R316). -/
def groutSize (s : State) (st : Stack) (off n : Nat) : Bool :=
  s.isSet (Reg.STK_CTL_GROUTEN st) && decide (1 ≤ n ∧ n ≤ 32 ∧ off / 32 = (off + n - 1) / 32)

/-- Whether the bed cache holds every sector of `[off, off + n)`. -/
def allHeld (s : State) (st : Stack) (off n : Nat) : Bool := (piecesOf 64 off n).all (fun p => sectorHeld s st p.1)

/-- Bytes of held sectors. -/
def heldBytes (s : State) (st : Stack) (off n : Nat) : Bytes :=
  (piecesOf 128 off n).flatMap (fun p => match bedAt s st p.1 with
    | some l => (l.data.drop (p.1 % 128)).take p.2
    | none => List.replicate p.2 0)

/-- A read of a bed-mode granule within one 512 B block (R316, R320, R323): bytes, whether any byte is poisoned, and the state. -/
def bedRead (st : Stack) (off n : Nat) (e : MemEnv) (s : State) : Bytes × Bool × State :=
  let b := stackBrick st
  if !allHeld s st off n && groutSize s st off n then
    let (bs, bad, s) := stackRead st off n e (s.count (Reg.STK_BEDMISS_MISSES b) 1)
    (bs, bad, s.count (Reg.STK_GRCNT_READS st) 1)
  else
    let s := s.count (if allHeld s st off n then Reg.STK_BEDHIT_HITS b else Reg.STK_BEDMISS_MISSES b) 1
    (piecesOf 128 off n).foldl (fun (acc : Bytes × Bool × State) p =>
      let (bs, bad, s) := acc
      let s := if allHeld s st p.1 p.2 then onLine st p.1 id s else fillLine st p.1 e s
      (bs ++ heldBytes s st p.1 p.2, bad || (piecesOf 64 p.1 p.2).any (fun q => sectorPoisoned s st q.1), s)) ([], false, s)

/-- A store into a bed-mode granule (R323, R380): whether it landed in a poisoned sector, and the state. -/
def bedStore (st : Stack) (off : Nat) (bs : Bytes) (e : MemEnv) (s : State) : Bool × State :=
  let b := stackBrick st
  let s := s.count (if allHeld s st off bs.length then Reg.STK_BEDHIT_HITS b else Reg.STK_BEDMISS_MISSES b) 1
  (piecesOf 64 off bs.length).foldl (fun (acc : Bool × State) p =>
    let (landed, s) := acc
    let s := allocHome st p.1 e s
    let s := if sectorHeld s st p.1 || p.2 = 64 then s else fillSector st p.1 e s
    let data := (bs.drop (p.1 - off)).take p.2
    let bad := sectorHeld s st p.1 && sectorPoisoned s st p.1
    let o := p.1 % 128
    let s := onLine st p.1 (fun l =>
      let l := { l with data := l.data.take o ++ data ++ l.data.drop (o + p.2) }
      if o < 64 then { l with valid0 := true, dirty0 := true, poison0 := l.valid0 && l.poison0 }
      else { l with valid1 := true, dirty1 := true, poison1 := l.valid1 && l.poison1 }) s
    (landed || bad, s)) (false, s)

/-- Every home line of an offset range evicted, dirty sectors written back (R295, R345). -/
def flushLines (st : Stack) (lo hi : Nat) (e : MemEnv) (s : State) : State :=
  let keys := ((s.brick (stackBrick st)).bed.filter (fun l => keyStack l.1 = st && decide (lo ≤ keyOff l.1 ∧ keyOff l.1 < hi))).map (fun l => l.1)
  s.each keys (fun s k => evictHome k e s)

/-! ### Commands -/

/-- BED_LINE_EVICT (R323, R326): the device evicts a home line of the bed cache; dirty sectors are written back. -/
def execBedLineEvict (st : Stack) (off : BitVec 44) (e : MemEnv) (s : State) : Host.Outcome State Fault Refusal := ended s <|
  .next (evictHome (bedKey st (off.toNat % 2 ^ 36)) e (memReports e s))

end Sys2Proof.Machine
end

