-- ==== Sys2Proof/Machine/Source.lean ====
section
/-! DEFINITION. The source side of transport: taking an operation, its flow, its sequence number and its outcome (R57, R175 to R182,
R189 to R202, R934, R940). -/
namespace Sys2Proof.Machine
open Sys2Proof

/-- Whether a source flow is the one an identifier names. -/
def SrcFlow.named (f : SrcFlow) (i : FlowId) : Bool :=
  f.dseat == i.seat.toNat && f.dgen == i.gen.toNat && f.dbrk == i.brk.val && f.lbl == i.lbl.val && f.sseat == i.sseat.toNat && f.sgen == i.sgen.toNat

/-- The source flow of brick `b` that an identifier names. -/
def State.flow (s : State) (b : Brick) (i : FlowId) : Option SrcFlow := (s.brick b).srcFlows.find? (fun f => f.named i)

/-- The identifier of a flow. -/
def SrcFlow.ident (f : SrcFlow) : FlowId :=
  { seat := BitVec.ofNat 16 f.dseat, gen := BitVec.ofNat 8 f.dgen, brk := brickOf f.dbrk, lbl := labelOf f.lbl, sseat := BitVec.ofNat 16 f.sseat,
    sgen := BitVec.ofNat 8 f.sgen }

/-- The state with a source flow changed. -/
def State.onFlow (s : State) (b : Brick) (i : FlowId) (g : SrcFlow → SrcFlow) : State :=
  s.onBrick b (fun B => { B with srcFlows := B.srcFlows.map (fun f => if f.named i then g f else f) })

/-- The state with one operation of a source flow changed. -/
def State.onOp (s : State) (b : Brick) (i : FlowId) (seq : Nat) (g : SrcOp → SrcOp) : State :=
  s.onFlow b i (fun f => { f with ops := f.ops.map (fun o => if o.seq = seq then g o else o) })

/-- An operation of a flow by its sequence number. -/
def SrcFlow.opAt (f : SrcFlow) (seq : Nat) : Option SrcOp := f.ops.find? (fun o => o.seq = seq)

/-- ACKS of a flow: every response with SEQ below the oldest operation without an outcome has come. It never passes a number whose operation was given
up unperformed, for which no response comes (R180, R198). -/
def SrcFlow.acksNow (f : SrcFlow) : Nat :=
  let a := match f.ops with
    | [] => f.next
    | o :: _ => o.seq
  match f.gap with
  | some g => min g a
  | none => a

/-- The tile that an issuer belongs to. -/
def issuerTile : Issuer → Option Nat
  | .masonLoad t _ => some t
  | .masonPosted t => some t
  | .masonWait t _ _ => some t
  | .masonRelm t => some t
  | .wchk t _ => some t
  | .sieve t _ => some t
  | _ => none

/-- A generation is newer than another when their difference modulo 256 lies in 1 to 127 (R177). -/
def newerGen (a b : Nat) : Bool := let d := (a + 256 - b % 256) % 256; decide (1 ≤ d ∧ d ≤ 127)

/-- Whether a final status of an operation leaves it Completed (R940). -/
def statusCompletes (opc status : Nat) : Bool :=
  status == 0 || (opc / 16 == 3 && (status == 0x20 || status == 0x21)) || (opc / 16 == 0 && (status == 0x40 || status == 0x41)) ||
  (opc / 16 == 5 && status == 0x5A)

/-! ### Outcomes -/

/-- The seat an address names from inside the package (R35, R36). -/
def State.realSeat (s : State) (a : Nat) : Nat := if addrSeat a = 0xFFFF then s.ownSeatNo else addrSeat a

/-- What an answered bond wait does to its slot (R254): 0x20 leaves it registered, 0x00 completes it and an acquire, and any other
answer makes it Done with the answer's status left to the mason. -/
def waitAnswered (t : Tile) (k : Nat) (status : Nat) (data : Bytes) (s : State) : State :=
  let c := BitVec.ofNat 64 (leNat (data.take 8))
  if status = 0x20 then
    tally t 57 1 (s.onSlot t k (fun w => if w.st = .opened then { w with registered := true, openedAt := s.now } else w))
  else if status = 0x00 then wakeSlot t k 0 c s
  else s.onSlot t k (fun w => if w.st = .opened then {} else w)

/-- Whether an answer to a WCHK ends the wait (R262): RSP 0x14 or 0x82, or a probe's 0x92. -/
def wchkLost (r : Result) : Bool :=
  (r.kind = .rejected && r.status = 0x14) || (r.kind = .unsettled && (r.status = 0x82 || r.status = 0x92))

/-- The outcome of an operation reaches its issuer (R57). Waits and wait checks are taken at once; every other outcome waits in `results` for the
issuer's own command. A store that did not complete drops the tile's mirror line (R222), and the fill of a load goes by its answer (R943). -/
def deliver (r : Result) (s : State) : State :=
  let s := match issuerTile r.issuer with
    | some t =>
      let t := tileOf t
      let s := if r.op.opc = 0x02 && r.kind ≠ .completed then storeFailedCopies t (s.canon r.op.addr.toNat) r.op.size s else s
      let s := match r.issuer with
        | .masonLoad _ n => if r.op.opc = 0x01 then answerFill t n (r.kind = .completed && r.status = 0) s else s
        | _ => s
      if (r.status = 0x40 || r.status = 0x41) && r.op.opc.toNat / 16 = 0 then tally t 62 1 s else s
    | none => s
  match r.issuer with
  | .masonWait t k _ =>
    let s := if r.kind = .completed then waitAnswered (tileOf t) k r.status r.data s
      else s.onSlot (tileOf t) k (fun w => if w.st = .opened ∧ ¬ w.registered then {} else w)
    { s with results := s.results ++ [r] }
  | .masonPosted _ =>
    if r.kind = .completed && r.status = 0 && r.op.opc.toNat / 16 ≠ 3 then s else { s with results := s.results ++ [r] }
  | .wchk t k =>
    let w := s.slot (tileOf t) k
    if wchkLost r && w.registered && s.canon w.bond.toNat = s.canon r.op.addr.toNat then loseWait (tileOf t) k s else s
  | .masonRelm _ => s
  | .wake _ => s
  | .engine _ => s
  | .outside tag => s.emit (.outcome tag (match r.kind with
      | .completed => 0
      | .rejected => 1
      | .unsettled => 2
      | .unreachable => 3
      | .inDoubt => 4) r.status r.data)
  | _ => { s with results := s.results ++ [r] }

/-- An operation that transport never took ends at once (R175, R934). -/
def rejectNow (issuer : Issuer) (op : Op) (status : Nat) (s : State) : State :=
  deliver { issuer := issuer, kind := .rejected, status := status, data := [], op := op } s

/-- The tile that an operation belongs to, where it is one of the tile's own and none that its brick makes for it. -/
def ownTile : Issuer → Option Nat
  | .masonRelm _ => none
  | .wchk _ _ => none
  | i => issuerTile i

/-- Whether an operation writes (R217): a store, an atomic, a fold or a slab operation. -/
def opWrites (op : Op) : Bool := op.opc == 0x02 || op.opc.toNat / 16 == 1 || op.opc.toNat / 16 == 2 || op.opc.toNat / 16 == 5

/-- An operation that ended Unsettled or Seat unreachable is remembered for the later releases of its tile (R233). -/
def noteFailure (issuer : Issuer) (no : Nat) (op : Op) (s : State) : State :=
  match ownTile issuer with
  | none => s
  | some t =>
    let x : FailedOp := { no := no, seat := s.realSeat op.addr.toNat, brk := ((destBrick op.addr.toNat).getD 0).val, write := opWrites op }
    s.onTile (tileOf t) (fun T => { T with failed := T.failed ++ [x] })

/-- A RELM of a tile has been answered: the tile's earlier operations of its flow have been performed (R230, R231). -/
def relmAnswered (b : Brick) (i : FlowId) (o : SrcOp) (s : State) : State :=
  match o.issuer with
  | .masonRelm t =>
    let shown := match s.flow b i with
      | some f => (f.ops.filter (fun (x : SrcOp) => decide (x.seq < o.seq) && issuerTile x.issuer == some t)).map (fun (x : SrcOp) => x.no)
      | none => []
    s.onTile (tileOf t) (fun T => { T with releases := T.releases.map (fun rel => { rel with left := rel.left.filter (fun n => !shown.contains n) }) })
  | _ => s

/-- An operation of a flow takes its outcome: it leaves the unsettled list and ACKS moves on (R180). -/
def endOp (b : Brick) (i : FlowId) (o : SrcOp) (kind : Outcome57) (status : Nat) (data : Bytes) (s : State) : State :=
  let s := if kind = .completed then relmAnswered b i o s else if kind = .unsettled ∨ kind = .unreachable then noteFailure o.issuer o.no o.op s else s
  let s := s.onFlow b i (fun f =>
    let f := { f with ops := f.ops.filter (fun x => x.seq ≠ o.seq), probe := if f.probe = some o.seq then none else f.probe }
    { f with acks := f.acksNow })
  let s := match kind with
    | .unsettled => (s.flag (Reg.MRT_TERR_UNSETTLED b)).raise 0x1103 [i.seat.toNat, i.brk.val, i.lbl.val, o.seq, i.gen.toNat]
    | .unreachable => s.raise 0x1104 [i.seat.toNat]
    | _ => s
  deliver { issuer := o.issuer, kind := kind, status := status, data := data, op := o.op } s

/-! ### Sending -/

/-- A request or control packet of a flow as its header names the flow (R155, R175, R182): under the source seat and generation with which the flow was
opened, so that no packet of a flow without a source seat carries another (R37, R936). INC is 0 on such a flow. -/
def flowHeader (f : SrcFlow) (b : Brick) (dpid : Nat) (addr : Nat) : Packet :=
  { Packet.zero with
    dpid := BitVec.ofNat 16 dpid, inc := if f.sseat = 0xFFFF then 0 else BitVec.ofNat 16 f.inc, sgen := BitVec.ofNat 8 f.sgen,
    fep := BitVec.ofNat 8 f.fep, gen := BitVec.ofNat 8 f.dgen, sseat := BitVec.ofNat 16 f.sseat, addr := BitVec.ofNat 64 (withSeat addr f.dseat),
    lbl := BitVec.ofNat 4 f.lbl, sbrk := BitVec.ofNat 2 b.val, dbrk := BitVec.ofNat 2 f.dbrk }

/-- The request packet of an operation of a flow (R155, R175, R182). It goes to the holder under whose entry the flow was opened (R68). -/
def reqPacket (b : Brick) (f : SrcFlow) (o : SrcOp) : Packet :=
  { flowHeader f b f.dpid o.op.addr.toNat with
    acks := BitVec.ofNat 32 f.acks, att := BitVec.ofNat 8 o.att, size := BitVec.ofNat 10 o.op.size, aux := o.op.aux, seq := BitVec.ofNat 32 o.seq,
    opc := o.op.opc, ptype := 0x1, opn := f.opens && o.seq == 0, payload := o.op.payload }

/-- The holder that the seat entry of a flow names now; own package for a flow inside it (R193). -/
def State.holderNow (s : State) (f : SrcFlow) : Nat :=
  if f.sseat = 0xFFFF || f.dseat = s.ownSeatNo then s.ownPid else entryPid (s.seatEntry f.dseat)

/-- A control packet of a flow: a probe, FRST, FCLS or FACK (R193, R189, R190, R201), routed by the seat entry as it stands. -/
def flowPacket (s : State) (b : Brick) (f : SrcFlow) (ptype : Nat) (acks seq att : Nat) (addr : Nat) : Packet :=
  { flowHeader f b (s.holderNow f) addr with
    acks := BitVec.ofNat 32 acks, att := BitVec.ofNat 8 att, seq := BitVec.ofNat 32 seq, ptype := BitVec.ofNat 4 ptype }

/-- A request of a flow is formed and given to the router, with the flow's attempt number; its timer starts when it leaves (R192, R195). -/
def sendOp (b : Brick) (i : FlowId) (seq : Nat) (s : State) : State :=
  match s.flow b i with
  | none => s
  | some f =>
    match f.opAt seq with
    | none => s
    | some o =>
      let o := { o with att := f.attMin, inDoubt := false, waitStale := false, waitCast := false, left := false, sentAt := s.now }
      let s := s.onOp b i seq (fun _ => o)
      let s := s.onFlow b i (fun f => { f with lastSent := s.now, acksSent := f.acks, owesFack := false })
      s.sendFrom b (reqPacket b f o)

/-- An address that decodes to brick `d` under R38: the bond block of that brick. -/
def brickAddr (d : Nat) : Nat := 0x9 * 2 ^ 44 + d * 0x100000

/-- OUTMAX in effect at a brick (R181). -/
def State.outMax (s : State) (b : Brick) : Nat := s.rd (Reg.MRT_TFLOW_OUTMAX b)

/-- The highest sequence number of an epoch (R200, R207). -/
def seqMax : Nat := 0xFFFF0000

/-- Trace record of a signal issued by a tile with SIGTR set, when its SEQ is assigned (R910). -/
def traceIssued (b : Brick) (f : SrcFlow) (seq : Nat) (issuer : Issuer) (op : Op) (s : State) : State :=
  match issuerTile issuer with
  | none => s
  | some t =>
    if s.isSet (Reg.OBS_TILE_SIGTR t) && (op.opc = 0x31 || op.opc = 0x35 || op.opc = 0x3A) then
      traceRec b 5 (srcTile t) t
        (leBytes 2 (bitsOf op.addr.toNat 19 6) ++ leBytes 2 f.dseat ++ [BitVec.ofNat 8 (f.dbrk + 16 * f.lbl), BitVec.ofNat 8 f.fep] ++
         leBytes 4 seq ++ leBytes 4 (s.tile (tileOf t)).mason.pc ++ leBytes 8 (if op.opc = 0x31 then leNat (op.payload.take 8) else 0)) s
    else s

/-- A new request takes the next sequence number of its flow and is sent; the state of the flow allows it. -/
def assignSeq (b : Brick) (i : FlowId) (issuer : Issuer) (no : Nat) (op : Op) (s : State) : State :=
  match s.flow b i with
  | none => s
  | some f =>
    let o : SrcOp := { seq := f.next, no := no, att := f.attMin, op := op, issuer := issuer }
    let s := s.onFlow b i (fun f => { f with next := f.next + 1, ops := f.ops ++ [o], region := addrRegion op.addr.toNat })
    sendOp b i f.next (traceIssued b f f.next issuer op s)

/-- The flow an operation belongs to, toward a seat number under a generation (R156): from own seat, or from none (R936). -/
def flowOf (s : State) (seat gen : Nat) (d : Brick) (l : Label) : FlowId :=
  { seat := BitVec.ofNat 16 seat, gen := BitVec.ofNat 8 gen, brk := d, lbl := l, sseat := BitVec.ofNat 16 s.ownSeatNo, sgen := BitVec.ofNat 8 s.ownGen }

/-- Whether the flow can take a new sequence number now, or why not (R181, R200). -/
def flowWait (s : State) (b : Brick) (f : SrcFlow) : Option WaitWhy :=
  if f.phase ≠ .active || seqMax < f.next then some .reset
  else match f.ops with
    | [] => none
    | o :: _ => if s.outMax b ≤ f.next - o.seq then some .outmax else none

/-- Whether a request that waits at its source goes to a given seat and brick under a given label: then it is of the same order (R60). -/
def WaitOp.goesTo (s : State) (seat : Nat) (d : Brick) (l : Label) (w : WaitOp) : Bool :=
  s.realSeat w.op.addr.toNat == seat && destBrick w.op.addr.toNat == some d && w.op.lbl == l

/-- An operation whose seat is Live goes to its flow, which is opened where there is none and an entry is free (R191). It waits where the flow cannot take
it yet, and behind any request `ahead` of it that goes to the same seat and brick under its label (R60, R181, R191). -/
def toFlow (b : Brick) (seat gen : Nat) (d : Brick) (issuer : Issuer) (no : Nat) (op : Op) (ahead : List WaitOp) (s : State) : Option WaitWhy × State :=
  let i := flowOf s seat gen d op.lbl
  match (ahead.filter (WaitOp.goesTo s seat d op.lbl)).getLast? with
  | some w => (some w.why, s)
  | none =>
    match s.flow b i with
    | some f =>
      match flowWait s b f with
      | some why => (some why, s)
      | none => (none, assignSeq b i issuer no op s)
    | none =>
      if 65536 ≤ (s.brick b).srcFlows.length || ahead.any (fun w => w.why = .entry) then
        (some .entry, if (s.brick b).tableFull then s else (s.onBrick b (fun B => { B with tableFull := true })).raise 0x110D [b.val])
      else
        let own := seat = s.ownSeatNo
        let f : SrcFlow := { dseat := i.seat.toNat, dgen := i.gen.toNat, dbrk := d.val, lbl := op.lbl.val, sseat := i.sseat.toNat, sgen := i.sgen.toNat,
                             dpid := if own then s.ownPid else entryPid (s.seatEntry seat), lastSent := s.now }
        (none, assignSeq b i issuer no op (s.onBrick b (fun B => { B with srcFlows := B.srcFlows ++ [f] })))

/-- An operation that never leaves the source package ends Seat unreachable (R57, R198). -/
def unreachableNow (issuer : Issuer) (no : Nat) (op : Op) (s : State) : State :=
  deliver { issuer := issuer, kind := .unreachable, status := 0, data := [], op := op } ((noteFailure issuer no op s).raise 0x1104 [addrSeat op.addr.toNat])

/-- An operation taken at source brick `b` (R175), with the waiting requests that go before it: an address that names no brick is rejected (R934), a host
address of another seat too (R45); own seat is decoded in the package (R36, R37); and otherwise the seat's entry decides. While the package holds no
seat, a seat that is not Vacant is unreachable (R67; DEDUCED, log entry 187). Answers why it has to wait, where it has. -/
def tryIssue (b : Brick) (issuer : Issuer) (no : Nat) (op : Op) (ahead : List WaitOp) (s : State) : Option WaitWhy × State :=
  let a := op.addr.toNat
  match destBrick a with
  | none => (none, rejectNow issuer op 0x01 s)
  | some d =>
    let seat := s.realSeat a
    if seat = s.ownSeatNo then toFlow b seat s.ownGen d issuer no op ahead s else
    if addrRegion a = 0xB then (none, rejectNow issuer op 0x01 s) else
    let e := s.seatEntry seat
    if entryState e ≠ 1 && entryState e ≠ 2 then (none, rejectNow issuer op 0x85 s) else
    if s.ownSeat.isNone then (none, unreachableNow issuer no op s) else
    if entryState e = 2 then (some .held, s)
    else toFlow b seat (entryGen e) d issuer no op ahead s

/-- A new operation at source brick `b` (R175): it waits behind every request that waits already. -/
def issueNumbered (b : Brick) (issuer : Issuer) (no : Nat) (op : Op) (s : State) : State :=
  match tryIssue b issuer no op (s.brick b).waitOps s with
  | (none, s) => s
  | (some why, s) =>
    s.onBrick b (fun B => { B with waitOps := B.waitOps ++ [{ op := op, no := no, issuer := issuer, why := why, readyAt := s.now }] })

/-- An operation taken out of a flow is issued again (R195): before the requests that have not been issued yet. -/
def reissue (b : Brick) (o : SrcOp) (s : State) : State :=
  let ws := (s.brick b).waitOps
  let first := ws.filter (fun w => w.again)
  match tryIssue b o.issuer o.no o.op first s with
  | (none, s) => s
  | (some why, s) =>
    let w : WaitOp := { op := o.op, no := o.no, issuer := o.issuer, why := why, readyAt := s.now, again := true }
    s.onBrick b (fun B => { B with waitOps := first ++ [w] ++ ws.filter (fun w => !w.again) })

/-- A request that waits is taken again: it keeps its place where it still has to wait. -/
def retake (b : Brick) (w : WaitOp) (s : State) : State :=
  let ws := (s.brick b).waitOps
  let k := ws.idxOf w
  match tryIssue b w.issuer w.no w.op (ws.take k) (s.onBrick b (fun B => { B with waitOps := ws.eraseIdx k })) with
  | (none, s) => s
  | (some why, s) => s.onBrick b (fun B => { B with waitOps := ws.set k { w with why := why } })

/-- The requests that wait for one reason are taken again, in their order (R181, R191, R200). -/
def releaseWaiting (b : Brick) (why : WaitWhy) (s : State) : State :=
  s.each ((s.brick b).waitOps.filter (fun w => w.why = why)) (fun s w => retake b w s)

/-- A new operation, numbered in the issue order of its tile (R225) and counted there (R894). A store acts on the copies of its brick (R222, R223). -/
def issueOp (b : Brick) (issuer : Issuer) (op : Op) (s : State) : State :=
  match issuerTile issuer with
  | none => issueNumbered b issuer 0 op s
  | some t =>
    let t := tileOf t
    let n := (s.tile t).opNo
    let s := s.onTile t (fun T => { T with opNo := T.opNo + 1 })
    let here := s.realSeat op.addr.toNat = s.ownSeatNo
    let s := if op.opc = 0x02 then storeCopies t (s.canon op.addr.toNat) op.payload s else s
    issueNumbered b issuer n op (tally t (if here then 59 else 60) 1 s)

/-! ### In doubt (R192, R193, R197) -/

/-- The probe of a flow's oldest in-doubt operation is formed, where none is outstanding and the seat's entry lets it leave (R193). It counts once it has
left. -/
def probeNext (b : Brick) (i : FlowId) (s : State) : State :=
  match s.flow b i with
  | none => s
  | some f =>
    if f.probe ≠ none then s else
    match f.ops.find? (fun o => o.inDoubt) with
    | none => s
    | some o =>
      if f.sseat ≠ 0xFFFF && f.dseat ≠ s.ownSeatNo && entryState (s.seatEntry f.dseat) ≠ 1 then s else
      let s := s.onFlow b i (fun f => { f with probe := some o.seq, probeLeft := false, lastSent := s.now })
      s.sendFrom b (flowPacket s b f ptPrb 0 o.seq o.att o.op.addr.toNat)

/-- Every operation of a flow from a sequence number on is sent again, in order, each with a fresh timer (R195). Once the package holds a seat, no request
of a flow without a source seat is formed any more (R936): its operations, known not to be performed, are issued again from own seat. -/
def resendFrom (b : Brick) (i : FlowId) (seq : Nat) (s : State) : State :=
  match s.flow b i with
  | none => s
  | some f =>
    let ops := f.ops.filter (fun o => decide (seq ≤ o.seq))
    if f.sseat = 0xFFFF && s.ownSeat.isSome then
      let s := s.onFlow b i (fun f => { f with ops := f.ops.filter (fun o => decide (o.seq < seq)) })
      s.each ops (fun s o => reissue b o s)
    else s.each (ops.map (fun o => o.seq)) (fun s q => sendOp b i q s)

/-- The operations of a flow from a sequence number on are numbered from it without gaps (R181); the next SEQ follows them. -/
def SrcFlow.close (f : SrcFlow) (n : Nat) : SrcFlow :=
  let old := f.ops.filter (fun o => decide (o.seq < n))
  let new := (f.ops.filter (fun o => decide (n ≤ o.seq))).mapIdx (fun k o => { o with seq := n + k })
  let f := { f with ops := old ++ new, next := n + new.length, gap := none }
  { f with acks := f.acksNow }

/-- A go-back (R195): the destination has performed nothing from `n` on and discards what it held, so the operations from there are numbered anew without
gaps (DEDUCED, log entry 188), are in doubt no more, and are sent again. -/
def goBack (b : Brick) (i : FlowId) (n : Nat) (s : State) : State :=
  let s := s.onFlow b i (fun f =>
    let f := f.close n
    { f with ops := f.ops.map (fun o => if n ≤ o.seq then { o with probes := 0, reported := false, ever := false } else o) })
  resendFrom b i n s

/-- A flow opened anew: its operations renumbered from 0 under a given epoch, INC unknown, and all of them sent (R195, R202). -/
def openAnew (b : Brick) (i : FlowId) (fep : Nat) (s : State) : State :=
  let s := s.onFlow b i (fun f =>
    let ops := f.ops.mapIdx (fun k o => { o with seq := k, inDoubt := false, waitCast := false, waitStale := false, ever := false })
    { f with fep := fep, next := ops.length, inc := 0, answered := false, opens := true, acks := 0, acksSent := 0, gap := none, probe := none,
             phase := .active, ops := ops })
  resendFrom b i 0 s

/-! ### Leaving the source (R192, R193, R198) -/

/-- A packet of this package leaves its source brick: the timer of a request starts now (R192), and a probe counts (R193). -/
def markLeft (b : Brick) (p : Packet) (s : State) : State :=
  if p.hops ≠ 0 || p.sbrk.toNat ≠ b.val then s else
  let i := packetFlow p
  if p.ptype.toNat = ptReq then
    s.onOp b i p.seq.toNat (fun o => { o with left := true, ever := true, sentAt := s.now })
  else if p.ptype.toNat = ptPrb then
    match s.flow b i with
    | none => s
    | some f =>
      if f.probe ≠ some p.seq.toNat || f.probeLeft then s else
      let s := s.onFlow b i (fun f => { f with probeLeft := true, lastSent := s.now })
      (s.onOp b i p.seq.toNat (fun o => { o with probes := o.probes + 1 })).count (Reg.MRT_TCNT0_PROBES b) 1
  else s

/-- Whether a packet is a request of a flow with a sequence number above one given. -/
def laterOf (i : FlowId) (seq : Nat) (q : Packet) : Bool := q.ptype.toNat == ptReq && packetFlow q == i && decide (seq < q.seq.toNat)

/-- A request given up before it left is taken out of its flow (R198). While none of the flow's later requests has left either, they close up, with OPN
on the first of an unopened flow, so that the flow keeps no gap (R181, R182); else the gap closes with the next go-back (DEDUCED, log entry 188). -/
def giveUp (b : Brick) (i : FlowId) (o : SrcOp) (s : State) : State :=
  match s.flow b i with
  | none => s
  | some f =>
    let later := f.ops.filter (fun x => decide (o.seq < x.seq))
    if o.ever || later.any (fun x => x.ever) then
      s.onFlow b i (fun f =>
        let f := { f with gap := some (match f.gap with
          | some g => min g o.seq
          | none => o.seq) }
        { f with acks := f.acksNow })
    else
      let again := fun (q : Packet) =>
        if laterOf i o.seq q then packetSeal { q with seq := q.seq - 1, opn := f.opens && q.seq == 1 } else q
      let s := s.onBrick b (fun B => { B with waitPkts := B.waitPkts.map again, routeQ := B.routeQ.map again })
      s.onFlow b i (fun f =>
        let f := { f with ops := f.ops.map (fun (x : SrcOp) => if o.seq < x.seq then { x with seq := x.seq - 1 } else x), next := f.next - 1 }
        { f with acks := f.acksNow })

/-! ### Commands -/

/-- Whether a tile's requests that wait for a source flow entry fill its tile → uncore queue of 32 × 96 B (R191, R287): each takes its header of 40 B and
its payload (DEDUCED, log entry 223). -/
def queueFull (s : State) (t : Tile) : Bool :=
  let mine := (s.brick (tileBrick t)).waitOps.filter (fun w => w.why == .entry && issuerTile w.issuer == some t.val)
  decide (32 ≤ (mine.map (fun w => (40 + w.op.payload.length + 95) / 96)).sum)

/-- OPERATION_ISSUE (R175): a new operation of a unit of brick `b`. -/
def execOperationIssue (b : Brick) (issuer : Issuer) (op : Op) (s : State) : Host.Outcome State Fault Refusal := ended s <|
  .next (issueOp b issuer op s)

/-- FLOW_ENTRY_FREED_SEND (R191): once a source flow entry is free, the requests that wait for one are taken in issue order, as far as the entries
reach; those whose flow is open by then need none. -/
def execFlowEntryFreedSend (b : Brick) (s : State) : Host.Outcome State Fault Refusal := ended s <|
  if 65536 ≤ (s.brick b).srcFlows.length then .next s else
  let s := releaseWaiting b .entry s
  .next (s.onBrick b (fun B => { B with tableFull := B.waitOps.any (fun w => w.why = .entry) }))

/-- OUTMAX_RELEASE (R181): the first request that waits for a flow leaves once it lies within OUTMAX of the oldest unsettled one. -/
def execOutmaxRelease (b : Brick) (i : FlowId) (s : State) : Host.Outcome State Fault Refusal := ended s <|
  match (s.brick b).waitOps.find? (WaitOp.goesTo s i.seat.toNat i.brk i.lbl) with
  | some w => .next (retake b w s)
  | none => .next s

/-- HELD_OPERATION_SEND (R175): the first operation kept under a Held entry that is Held no more is taken again: sent where the entry is Live,
ended with 0x85 where it is Vacant. -/
def execHeldOperationSend (b : Brick) (s : State) : Host.Outcome State Fault Refusal := ended s <|
  match (s.brick b).waitOps.find? (fun w => w.why = .held && entryState (s.seatEntry (addrSeat w.op.addr.toNat)) ≠ 2) with
  | none => .next s
  | some w => .next (retake b w s)

/-- HELD_OPERATION_UNREACHABLE (R175, R198): a request that has waited at the source for TE2E without leaving ends Seat unreachable and is never
sent: operation `k` of those kept under a Held entry, or packet `k` of those without an Active port (`routed`), where it is a request that has not left
the package and is known not to be performed. An operation whose entry has become Live is sent instead, and one whose entry is Vacant is Rejected. -/
def execHeldOperationUnreachable (b : Brick) (routed : Bool) (k : Nat) (s : State) : Host.Outcome State Fault Refusal := ended s <|
  if routed then
    match (s.brick b).waitPkts[k]? with
    | none => .next s
    | some p =>
      let i := packetFlow p
      match p.ptype.toNat = ptReq && p.hops = 0 && p.sbrk.toNat = b.val, (s.flow b i).bind (fun f => f.opAt p.seq.toNat) with
      | true, some o =>
        if o.left then .next s else
        let s := s.onBrick b (fun B => { B with waitPkts := B.waitPkts.erase p })
        .next (giveUp b i o (endOp b i o .unreachable 0 [] s))
      | _, _ => .next s
  else
    match ((s.brick b).waitOps.filter (fun w => w.why = .held))[k]? with
    | none => .next s
    | some w =>
      let st := entryState (s.seatEntry (addrSeat w.op.addr.toNat))
      let s' := s.onBrick b (fun B => { B with waitOps := B.waitOps.erase w })
      .next (if st = 2 then unreachableNow w.issuer w.no w.op s' else if st = 1 then s else rejectNow w.issuer w.op 0x85 s')

/-- A flow learns from an answer that shows flow state at the destination (R182, R195): INC, and that a reopening is off. -/
def SrcFlow.learn (f : SrcFlow) (inc : Nat) : SrcFlow :=
  { f with answered := true, inc := if f.inc = 0 then inc else f.inc, phase := if f.phase = .reopening then .active else f.phase }

/-- Such an answer taken; the requests that waited for the reopening go on (R195). -/
def flowShown (b : Brick) (i : FlowId) (inc : Nat) (s : State) : State :=
  let was := (s.flow b i).any (fun f => f.phase = .reopening)
  let s := s.onFlow b i (fun f => f.learn inc)
  if was then releaseWaiting b .reset s else s

/-- An operation refused with wrong seat under an entry that has a newer generation (R195): Unsettled where it was ever in doubt, and otherwise issued
again toward the seat's new holder. -/
def movedSeat (b : Brick) (i : FlowId) (o : SrcOp) (s : State) : State :=
  if o.everDoubt then probeNext b i (endOp b i o .unsettled 0x80 [] s)
  else reissue b o (giveUp b i { o with ever := true } (s.onFlow b i (fun f => { f with ops := f.ops.filter (fun x => x.seq ≠ o.seq) })))

/-- RSP_RECEIVE (R195): an answer to a request of brick `b`, or 0x80 to a probe. A packet that fails its ECRC or is too old is discarded;
so is the answer of an operation that has an outcome (R196). While a flow waits to be reopened, further refusals of it change nothing. -/
def execRspReceive (b : Brick) (p : Packet) (s : State) : Host.Outcome State Fault Refusal := ended s <|
  let s := s.takeArrived b p
  if !packetSound p || p.ptype.toNat ≠ ptRsp then .next (s.ecrcFail b p) else
  if s.tooOld b p then .next (s.agedOut b) else
  let i := packetFlow p
  match s.flow b i with
  | none => .next s
  | some f =>
    if f.fep ≠ p.fep.toNat then .next s else
    match f.opAt p.seq.toNat with
    | none => .next s
    | some o =>
      let st := p.aux.toNat
      let s := s.onFlow b i (fun f => { f with owesFack := true })
      let seen := fun (s : State) => s.onFlow b i (fun f => { f with answered := true })
      if st ≤ 0x7F then
        .next (probeNext b i (endOp b i o (if statusCompletes o.op.opc.toNat st then .completed else .rejected) st p.payload (flowShown b i p.inc.toNat s)))
      else if st = 0x80 then
        let e := s.seatEntry f.dseat
        let s := seen s
        let s := if f.probe = some o.seq then (s.onFlow b i (fun f => { f with probe := none })).onOp b i o.seq (fun o => { o with probes := 0 }) else s
        if newerGen (entryGen e) f.dgen then .next (movedSeat b i o s)
        else .next (s.onOp b i o.seq (fun o => { o with waitCast := true, refused := !o.everDoubt }))
      else if st = 0x81 then
        .next ((seen s).onOp b i o.seq (fun o => { o with waitStale := true, refusals := o.refusals + 1, refused := !o.everDoubt }))
      else if st = 0x84 || st = 0x83 then
        if f.phase = .reopening then .next s
        else if st = 0x84 || !f.answered then .next (s.onFlow b i (fun f => { f with phase := .reopening }))
        else .next (probeNext b i (endOp b i o .unsettled st [] s))
      else if st = 0x82 then .next (probeNext b i (endOp b i o .unsettled st [] (seen s)))
      else .next s

/-- TE2E_EXPIRY (R192): the timer of a sent request runs out and the request is in doubt; a probe follows unless one is outstanding (R193). -/
def execTe2eExpiry (b : Brick) (i : FlowId) (seq : Nat) (s : State) : Host.Outcome State Fault Refusal := ended s <|
  match (s.flow b i).bind (fun f => f.opAt seq) with
  | none => .next s
  | some o =>
    if o.inDoubt || o.waitStale || o.waitCast || !o.left then .next s else
    let s := s.onOp b i seq (fun o => { o with inDoubt := true, everDoubt := true, refused := false })
    let s := (s.flag (Reg.MRT_TERR_INDOUBT b)).count (Reg.MRT_TCNT0_DOUBTS b) 1
    let s := match issuerTile o.issuer with
      | some t => tally (tileOf t) 61 1 (if o.op.opc = 0x02 then storeFailedCopies (tileOf t) (s.canon o.op.addr.toNat) o.op.size s else s)
      | none => s
    .next (probeNext b i s)

/-- PROBE_RESEND (R193, R197): the outstanding probe of a flow had no answer for TE2E since it left. After PROBEMAX probes the operation is reported as
still in doubt, once, with event 0x1102; a reported operation whose seat has changed generation ends Unsettled. A probe that still waits to leave is
not formed again. -/
def execProbeResend (b : Brick) (i : FlowId) (s : State) : Host.Outcome State Fault Refusal := ended s <|
  match s.flow b i with
  | none => .next s
  | some f =>
    match f.probe.bind f.opAt with
    | none => .next (probeNext b i (s.onFlow b i (fun f => { f with probe := none })))
    | some o =>
      if !f.probeLeft then .next s else
      if o.reported && entryGen (s.seatEntry f.dseat) ≠ f.dgen && f.dseat ≠ s.ownSeatNo && f.sseat ≠ 0xFFFF then
        .next (probeNext b i (endOp b i o .unsettled 0x92 [] s))
      else
        let s := if s.rd (Reg.MRT_TTMO_PROBEMAX b) ≤ o.probes && !o.reported then
            let s := s.onOp b i o.seq (fun o => { o with reported := true })
            deliver { issuer := o.issuer, kind := .inDoubt, status := 0, data := [], op := o.op } (s.raise 0x1102 [f.dseat, o.seq])
          else s
        .next (probeNext b i (s.onFlow b i (fun f => { f with probe := none })))

/-- PRA_RECEIVE (R195, R206): the answer of the outstanding probe: a retained result, a go-back from NXT, or a lost history. An answer of no probe that is
outstanding is discarded. -/
def execPraReceive (b : Brick) (p : Packet) (s : State) : Host.Outcome State Fault Refusal := ended s <|
  let s := s.takeArrived b p
  if !packetSound p || p.ptype.toNat ≠ ptPra then .next (s.ecrcFail b p) else
  if s.tooOld b p then .next (s.agedOut b) else
  let i := packetFlow p
  match s.flow b i with
  | none => .next s
  | some f =>
    if f.fep ≠ p.fep.toNat || f.probe ≠ some p.seq.toNat then .next s else
    match f.opAt p.seq.toNat with
    | none => .next s
    | some o =>
      let st := p.aux.toNat
      let s := s.onFlow b i (fun f => { f with owesFack := true, answered := true, probe := none })
      if st = 0x90 then
        .next (probeNext b i (endOp b i o (if statusCompletes o.op.opc.toNat p.att.toNat then .completed else .rejected) p.att.toNat p.payload
          (flowShown b i p.inc.toNat s)))
      else if st = 0x91 then
        let s := ((flowShown b i p.inc.toNat s).onFlow b i (fun f => { f with attMin := p.att.toNat })).count (Reg.MRT_TCNT1_GOBACKS b) 1
        .next (probeNext b i (goBack b i p.acks.toNat s))
      else if st = 0x92 then .next (probeNext b i (endOp b i o .unsettled st [] s))
      else .next s

/-- STALE_SOURCE_RESEND (R195, R198): TE2E after RSP 0x81 the operation is sent again; after PROBEMAX refusals it ends: Seat unreachable where every delivery
of it was refused, and otherwise it may have been performed and stays in doubt. -/
def execStaleSourceResend (b : Brick) (i : FlowId) (seq : Nat) (s : State) : Host.Outcome State Fault Refusal := ended s <|
  match (s.flow b i).bind (fun f => f.opAt seq) with
  | none => .next s
  | some o =>
    if !o.waitStale then .next s else
    if s.rd (Reg.MRT_TTMO_PROBEMAX b) ≤ o.refusals then
      if o.refused then .next (giveUp b i o (endOp b i o .unreachable 0x81 [] s))
      else .next (probeNext b i (s.onOp b i seq (fun o => { o with waitStale := false, inDoubt := true })))
    else if (s.flow b i).any (fun f => f.sseat = 0xFFFF) && s.ownSeat.isSome then
      .next (reissue b o (giveUp b i o (s.onFlow b i (fun f => { f with ops := f.ops.filter (fun x => x.seq ≠ seq) }))))
    else .next (sendOp b i seq s)

/-- FLOW_REOPEN (R195): TE2E after RSP 0x84, or 0x83 before any answer, the flow is opened again with all its operations renumbered from 0. -/
def execFlowReopen (b : Brick) (i : FlowId) (s : State) : Host.Outcome State Fault Refusal := ended s <|
  match s.flow b i with
  | none => .next s
  | some f => if f.phase = .reopening then .next (releaseWaiting b .reset (openAnew b i f.fep s)) else .next s

/-- WRONG_SEAT_CAST_WAIT_EXPIRY (R195): TE2E after RSP 0x80 with an unchanged generation. Where a cast has come since, the operation goes on as
if the answer came now; where none has, it ends Seat unreachable if it was never in doubt, and otherwise stays in doubt and is probed. -/
def execWrongSeatCastWaitExpiry (b : Brick) (i : FlowId) (seq : Nat) (s : State) : Host.Outcome State Fault Refusal := ended s <|
  match s.flow b i with
  | none => .next s
  | some f =>
    match f.opAt seq with
    | none => .next s
    | some o =>
      if !o.waitCast then .next s else
      if newerGen (entryGen (s.seatEntry f.dseat)) f.dgen then .next (movedSeat b i o s)
      else if o.everDoubt then .next (probeNext b i (s.onOp b i seq (fun o => { o with waitCast := false, inDoubt := true })))
      else .next (giveUp b i o (endOp b i o .unreachable 0x80 [] s))

/-- FACK_SEND (R189): FACKDLY after a response, with no request sent on the flow since, ACKS is sent alone. -/
def execFackSend (b : Brick) (i : FlowId) (s : State) : Host.Outcome State Fault Refusal := ended s <|
  match s.flow b i with
  | none => .next s
  | some f =>
    if !f.owesFack then .next s else
    .next ((s.sendFrom b (flowPacket s b f ptFack f.acks 0 0 (brickAddr f.dbrk))).onFlow b i (fun f =>
      { f with acksSent := f.acks, owesFack := false, lastSent := s.now }))

/-- FLOW_CLOSE (R190, R191): an idle flow with no unsettled operation whose ACKS has been sent up to the next SEQ is closed with FCLS. FIDLE has to
have passed since a packet of the flow was sent, or PLIFE while a request waits for a flow entry. -/
def execFlowClose (b : Brick) (i : FlowId) (s : State) : Host.Outcome State Fault Refusal := ended s <|
  match s.flow b i with
  | none => .next s
  | some f =>
    let idle := if (s.brick b).waitOps.any (fun w => w.why = .entry) then s.rd (Reg.MRT_TTMO_PLIFE b) else s.rd (Reg.MRT_TFLOW_FIDLE b)
    if f.ops.isEmpty && f.acksSent = f.acksNow && f.phase = .active && decide (f.lastSent + idle * 1000 ≤ s.now) then
      let s := s.onFlow b i (fun f => { f with phase := .awaitFca, lastSent := s.now })
      .next (s.sendFrom b (flowPacket s b f ptFcls f.acksNow 0 0 (brickAddr f.dbrk)))
    else .next s

/-- FCLS_REPEAT (R190): an unanswered FCLS is repeated every TE2E. -/
def execFclsRepeat (b : Brick) (i : FlowId) (s : State) : Host.Outcome State Fault Refusal := ended s <|
  match s.flow b i with
  | none => .next s
  | some f => if f.phase = .awaitFca then .next (s.sendFrom b (flowPacket s b f ptFcls f.acksNow 0 0 (brickAddr f.dbrk))) else .next s

/-- FCA_RECEIVE (R190): the source frees its state on any FCA; requests that waited meanwhile open the flow again. -/
def execFcaReceive (b : Brick) (p : Packet) (s : State) : Host.Outcome State Fault Refusal := ended s <|
  let s := s.takeArrived b p
  if !packetSound p || p.ptype.toNat ≠ ptFca then .next (s.ecrcFail b p) else
  if s.tooOld b p then .next (s.agedOut b) else
  let i := packetFlow p
  match s.flow b i with
  | none => .next s
  | some f =>
    if f.phase = .awaitFca && f.fep = p.fep.toNat then
      .next (releaseWaiting b .reset (s.onBrick b (fun B => { B with srcFlows := B.srcFlows.filter (fun g => !g.named i) })))
    else .next s

/-- FLOW_RESET_START (R200, R201): the source stops assigning sequence numbers on a flow and lets its operations settle. -/
def execFlowResetStart (b : Brick) (i : FlowId) (s : State) : Host.Outcome State Fault Refusal := ended s <|
  .next (s.onFlow b i (fun f => if f.phase = .active then { f with phase := .draining } else f))

/-- The FRST of a flow: FEP, ACKS = next SEQ, and the last SEQ issued (R201). -/
def frstPacket (s : State) (b : Brick) (f : SrcFlow) : Packet := flowPacket s b f ptFrst f.next (f.next - 1) 0 (brickAddr f.dbrk)

/-- FRST_SEND (R201): every operation of the draining flow has an outcome, and FRST is sent. -/
def execFrstSend (b : Brick) (i : FlowId) (s : State) : Host.Outcome State Fault Refusal := ended s <|
  match s.flow b i with
  | none => .next s
  | some f =>
    if f.phase = .draining && f.ops.isEmpty then
      .next ((s.sendFrom b (frstPacket s b f)).onFlow b i (fun f => { f with phase := .awaitFra, lastSent := s.now }))
    else .next s

/-- FRST_REPEAT (R202): an unanswered FRST, or one answered 0x81, is repeated every TE2E. -/
def execFrstRepeat (b : Brick) (i : FlowId) (s : State) : Host.Outcome State Fault Refusal := ended s <|
  match s.flow b i with
  | none => .next s
  | some f => if f.phase = .awaitFra then .next (s.sendFrom b (frstPacket s b f)) else .next s

/-- FRA_RECEIVE (R201, R202): with status 0x00 the flow resumes at the new epoch; 0x92, 0x82 and 0x80 open it anew, 0x92 with event 0x1103;
after 0x81 FRST is repeated later. -/
def execFraReceive (b : Brick) (p : Packet) (s : State) : Host.Outcome State Fault Refusal := ended s <|
  let s := s.takeArrived b p
  if !packetSound p || p.ptype.toNat ≠ ptFra then .next (s.ecrcFail b p) else
  if s.tooOld b p then .next (s.agedOut b) else
  let i := packetFlow p
  match s.flow b i with
  | none => .next s
  | some f =>
    if f.phase ≠ .awaitFra then .next s else
    let fep := (f.fep + 1) % 256
    match p.aux.toNat with
    | 0x00 =>
      .next (releaseWaiting b .reset (s.onFlow b i (fun f =>
        { f with fep := fep, next := 0, acks := 0, acksSent := 0, attMin := 0, opens := false, phase := .active })))
    | 0x92 => .next (releaseWaiting b .reset (openAnew b i fep (s.raise 0x1103 [f.dseat, f.dbrk, f.lbl, f.next, f.dgen])))
    | 0x82 => .next (releaseWaiting b .reset (openAnew b i fep s))
    | 0x80 =>
      let e := s.seatEntry f.dseat
      let gen := if f.dseat = s.ownSeatNo then s.ownGen else entryGen e
      let j := { i with gen := BitVec.ofNat 8 gen }
      if i ≠ j && (s.flow b j).isSome then
        .next (releaseWaiting b .reset (s.onBrick b (fun B => { B with srcFlows := B.srcFlows.filter (fun g => !g.named i) })))
      else
        .next (releaseWaiting b .reset (openAnew b j fep (s.onFlow b i (fun f => { f with dgen := gen, dpid := s.holderNow f }))))
    | _ => .next s

end Sys2Proof.Machine
end

