-- ==== Sys2Proof/Machine/Route.lean ====
section
/-! DEFINITION. Routing: candidate ports, non-minimal choices, detours and waiting packets (R50, R164 to R172, R280, R282, R937). -/
namespace Sys2Proof.Machine
open Sys2Proof

/-- The role of a package port (R280). -/
inductive PortRole where
  | wall | tray | site
  deriving DecidableEq, Repr

/-- The role of package port `p` (R280). -/
def portRole (p : Nat) : PortRole := if p % 6 < 2 then .wall else if p = 17 || p = 23 then .site else .tray

/-- Fields of a physical identity (R32). -/
def pidWall (d : Nat) : Nat := bitsOf d 15 9
def pidTray (d : Nat) : Nat := bitsOf d 8 3
def pidPos (d : Nat) : Nat := bitsOf d 2 0

/-- Whether a package port is Active (R147). -/
def State.portActive (s : State) (p : Nat) : Bool := s.rd (Reg.MRT_PSTAT_STATE p) == 8

/-- The Active ports of a mask of package ports. -/
def activePorts (s : State) (m : Nat) : List Nat := (setBits 24 m).filter s.portActive

/-- The bytes queued at a port for a virtual channel (R167). -/
def queuedBytes (s : State) (p vc : Nat) : Nat :=
  ((s.ports[portOf p].queue.filter (fun q => q.vc = vc)).map (fun q => 8 * q.pkt.len.toNat)).sum

/-- The port with the fewest bytes queued for a channel, the lowest number on a tie (R167). -/
def bestPort (s : State) (vc : Nat) : List Nat → Option Nat
  | [] => none
  | p :: ps => match bestPort s vc ps with
    | none => some p
    | some q => if queuedBytes s q vc < queuedBytes s p vc then some q else some p

/-- The ports toward tray `t` of own wall by brick `b`'s tables (R166). -/
def towardTray (s : State) (b t : Nat) : Nat :=
  if s.isSet (Reg.MRT_WALL_VALID b t) then
    let m := s.rd (Reg.MRT_WALL_PORTS b t)
    if m ≠ 0 then m else s.rd (Reg.MRT_TRAY_PORTS b (s.rd (Reg.MRT_WALL_GWPOS b t)))
  else 0

/-- The minimal candidate ports for identity `d` by brick `b`'s tables (R166); `d` is not this package. -/
def minimalPorts (s : State) (b d : Nat) : Nat :=
  let self := s.ownPid
  if pidWall d ≠ pidWall self then
    if s.isSet (Reg.MRT_SITE_VALID b (pidWall d)) then
      let m := s.rd (Reg.MRT_SITE_PORTS b (pidWall d))
      if m ≠ 0 then m
      else if s.rd (Reg.MRT_SITE_GWTRAY b (pidWall d)) ≠ pidTray self then towardTray s b (s.rd (Reg.MRT_SITE_GWTRAY b (pidWall d)))
      else s.rd (Reg.MRT_TRAY_PORTS b (s.rd (Reg.MRT_SITE_GWPOS b (pidWall d))))
    else 0
  else if pidTray d ≠ pidTray self then towardTray s b (pidTray d)
  else s.rd (Reg.MRT_TRAY_PORTS b (pidPos d))

/-- What the router decides for a packet. -/
inductive Decision where
  | here (d : Nat)                          -- to brick d of this package
  | send (port : Nat) (detour : Bool) (via : Option Nat)
  | wait
  deriving DecidableEq, Repr

/-- The virtual channel of a packet (R169): 4 × class + PH; 0 for a CAST (R177). -/
def vcOf (p : Packet) : Nat := if p.ptype.toNat = ptCast then 0 else 4 * packetClass p.ptype.toNat + p.ph.toNat

/-- The brick of the destination package that takes a packet: the source brick for an answer, else the destination brick. -/
def endBrick (p : Packet) : Nat := if answerType p.ptype.toNat then p.sbrk.toNat else p.dbrk.toNat

/-- The trays a source may detour through: valid trays of its wall other than its own and the destination's (R168). -/
def otherTrays (s : State) (b d : Nat) : List Nat :=
  (List.range 64).filter (fun t => s.isSet (Reg.MRT_WALL_VALID b t) && t ≠ pidTray s.ownPid && t ≠ pidTray d)

/-- The route of a packet at deciding brick `b` (R166 to R171). `draw` is the device's uniform draw for a tray (R168); `first` says that the
decision is the source's first, the only one that may choose a non-minimal route. -/
def decideRoute (s : State) (b : Nat) (p : Packet) (draw : Nat) (first : Bool) : Decision :=
  let self := s.ownPid
  let d := p.dpid.toNat
  if d = self then .here (endBrick p) else
  let vc := vcOf p
  let viaOn := p.nm && pidTray self ≠ p.via.toNat
  let mask := if viaOn then towardTray s b p.via.toNat else minimalPorts s b d
  let best := bestPort s vc (activePorts s mask)
  let mayNm := first && p.ptype.toNat = ptReq && s.isSet (Reg.MRT_TROUTE_NMEN b) &&
    pidWall d = pidWall self && pidTray d ≠ pidTray self && !p.nm
  let trays := otherTrays s b d
  let v := trays.getD (draw % max 1 trays.length) 0
  let nonMin := if mayNm && !trays.isEmpty then
      match bestPort s vc (activePorts s (towardTray s b v)), best with
      | some q, none => some (Decision.send q false (some v))
      | some q, some m =>
        if 2 * queuedBytes s q vc + s.rd (Reg.MRT_TROUTE_NMBIAS b) * 1024 < queuedBytes s m vc then some (Decision.send q false (some v)) else none
      | none, _ => none
    else none
  match nonMin with
  | some x => x
  | none =>
    match best with
    | some q => .send q false none
    | none =>
      if pidWall d = pidWall self && pidTray d = pidTray self && p.ph.toNat ≤ 2 && p.hops.toNat ≤ 5 then
        let others := (List.range 8).filter (fun x => x ≠ pidPos self && x ≠ pidPos d)
        let m := others.foldl (fun m x => Nat.lor m (s.rd (Reg.MRT_TRAY_PORTS b x))) 0
        match bestPort s vc (activePorts s m) with
        | some q => .send q true none
        | none => .wait
      else .wait

/-- A packet put into the transmit queue of a link. -/
def enqueue (l : LinkId) (p : Packet) (s : State) : State :=
  s.onLink l (fun L => { L with queue := L.queue ++ [{ pkt := p, vc := vcOf p, since := s.plumb.toNat }] })

/-- A packet handed up to brick `d` as its destination. -/
def arriveAt (d : Brick) (p : Packet) (s : State) : State := s.onBrick d (fun B => { B with arrived := B.arrived ++ [p] })

/-- Whether the bridge from brick `b` to brick `d` is up (R129). -/
def State.bridgeOpen (s : State) (b d : Brick) : Bool := s.bridges[bridgeIx b (bridgeTo b d)].bridgeUp

/-- A packet of this package toward its brick `d`: at once in the same brick, over the bridge, or over the third brick while the direct bridge is
down (chapter 02, bridges); it waits where no bridge leads there. -/
def toBrick (b d : Brick) (p : Packet) (s : State) : Option State :=
  if b = d then some (arriveAt d p s)
  else if s.bridgeOpen b d then some (enqueue (.bridge b (bridgeTo b d)) p s)
  else
    match ([0, 1, 2, 3] : List Brick).find? (fun c => c ≠ b && c ≠ d && s.bridgeOpen b c && s.bridgeOpen c d) with
    | some c => some (enqueue (.bridge b (bridgeTo b c)) p s)
    | none => none

/-- The brick next on the way from brick `b` to brick `d` of the package. -/
def nextBrick (s : State) (b d : Brick) : Option Brick :=
  if s.bridgeOpen b d then some d
  else ([0, 1, 2, 3] : List Brick).find? (fun c => c ≠ b && c ≠ d && s.bridgeOpen b c && s.bridgeOpen c d)

/-- A packet toward a port that was chosen for it: at once at the brick that owns the port, or over bridges to it without a further decision (R164), the
choice going beside it in `decided` (DESIGN CHOICE, log entry 191); none while no bridge leads there. -/
def toPort (b : Brick) (q : Port) (p : Packet) (s : State) : Option State :=
  if portBrick q = b then some (enqueue (.port q) p s)
  else (nextBrick s b (portBrick q)).map (fun c =>
    (enqueue (.bridge b (bridgeTo b c)) p s).onBrick c (fun B => { B with decided := B.decided ++ [(p, q.val)] }))

/-- Event 0x110B, once per destination, for a brick with a waiting packet (R171). -/
def noRouteEvent (b : Brick) (p : Packet) (s : State) : State :=
  if (s.brick b).noRoute.contains p.dpid.toNat then s else
  ((s.onBrick b (fun B => { B with noRoute := B.noRoute ++ [p.dpid.toNat] })).flag (Reg.MRT_TERR_NOROUTE b)).raise 0x110B [b.val, p.dpid.toNat]

/-- A packet that cannot go waits at the brick (R171). -/
def waitAt (b : Brick) (p : Packet) (s : State) : State :=
  noRouteEvent b p (s.onBrick b (fun B => { B with waitPkts := B.waitPkts ++ [p] }))

/-- A packet as the deciding brick sends it (R168): NM and VIA are set on a route through another tray, and are of no use, and cleared, once the packet is
in that tray, from where it goes on minimally (DEDUCED, log entry 192). -/
def viaOf (s : State) (p : Packet) : Option Nat → Packet
  | some v => { p with nm := true, via := BitVec.ofNat 6 v }
  | none => if p.nm && pidTray s.ownPid = p.via.toNat then { p with nm := false, via := 0 } else p

/-- A routing decision carried out; a packet that cannot go waits at the brick (R169, R171). -/
def carryOut (b : Brick) (p : Packet) (d : Decision) (s : State) : State :=
  match d with
  | .here e => match toBrick b (brickOf e) p s with
    | some s' => markLeft b p s'
    | none => waitAt b p s
  | .send q detour via =>
    if p.ph = 3 && (detour || portRole q ≠ .tray) then s.raise 0x1109 [b.val] else
    let p := viaOf s p via
    match toPort b (portOf q) p (s.onBrick b (fun B => { B with noRoute := B.noRoute.erase p.dpid.toNat })) with
    | some s' => markLeft b p s'
    | none => waitAt b p s
  | .wait => waitAt b p s

/-- A cast forwarded on every Active port but one (R177, R178). -/
def flood (p : Packet) (but : Option Nat) (s : State) : State :=
  s.each ((List.finRange 24).filter (fun (q : Port) => s.portActive q && decide (but ≠ some q.val))) (fun s q => enqueue (.port q) p s)

/-- A cast handed back by a link that went down goes on over every Active port (R132, R199), or waits for one. -/
def routeCast (b : Brick) (p : Packet) (s : State) : State :=
  if (List.range 24).any s.portActive then flood p none s else waitAt b p s

/-- PACKET_ROUTE (R166): the deciding brick routes a packet. A packet of another package is discarded when it is too old (R184), when its type is
unknown (R157), or when HOPS is spent and this package cannot perform it (R172). A cast handed back as link-lost goes over every Active port (R199). -/
def execPacketRoute (b : Brick) (p : Packet) (draw : Nat) (s : State) : Host.Outcome State Fault Refusal := ended s <|
  let s := s.onBrick b (fun B => { B with routeQ := B.routeQ.erase p })
  let own := p.hops = 0
  if !own && s.tooOld b p then .next (s.agedOut b) else
  if p.ptype.toNat = 0 || ptCast < p.ptype.toNat then .next (s.raise 0x1109 [b.val]) else
  if p.ptype.toNat = ptCast then .next (routeCast b p s) else
  if p.hops = 7 && p.dpid.toNat ≠ s.ownPid then .next (s.raise 0x1109 [b.val]) else
  .next (carryOut b p (decideRoute s b p draw own) s)

/-- Whether a packet that waits at a brick can go on now. -/
def canGo (s : State) (b : Brick) (p : Packet) : Bool :=
  if p.ptype.toNat = ptCast then (List.range 24).any s.portActive else
  match decideRoute s b p 0 false with
  | .here e => (toBrick b (brickOf e) p s).isSome
  | .send q _ _ => (toPort b (portOf q) p s).isSome
  | .wait => false

/-- WAITING_PACKET_SEND (R171): the first packet waiting at a brick whose candidates have an Active port goes on, minimally or over a detour. -/
def execWaitingPacketSend (b : Brick) (s : State) : Host.Outcome State Fault Refusal := ended s <|
  match (s.brick b).waitPkts.find? (canGo s b) with
  | none => .next s
  | some p =>
    let t := s.onBrick b (fun B => { B with waitPkts := B.waitPkts.erase p })
    .next (if p.ptype.toNat = ptCast then routeCast b p t else carryOut b p (decideRoute s b p 0 false) t)

/-- Whether a packet is one of a source flow of brick `b` that has not left the brick yet. -/
def ownUnsent (b : Brick) (p : Packet) : Bool := p.hops = 0 && p.sbrk.toNat = b.val && !answerType p.ptype.toNat && p.ptype.toNat ≠ ptCast

/-- WAITING_PACKET_AGE_OUT (R171): a packet waiting at a brick other than its source brick is discarded once its age exceeds PLIFE. -/
def execWaitingPacketAgeOut (b : Brick) (s : State) : Host.Outcome State Fault Refusal := ended s <|
  match (s.brick b).waitPkts.find? (fun p => !ownUnsent b p && s.tooOld b p) with
  | none => .next s
  | some p => .next ((s.onBrick b (fun B => { B with waitPkts := B.waitPkts.erase p })).agedOut b)

end Sys2Proof.Machine
end

