-- ==== Sys2Proof/Machine/Bonds.lean ====
section
/-! DEFINITION. The bond engine and the waits, wakes and releases of tiles (R229 to R234, R245 to R262, R265 to R269, R909). -/
namespace Sys2Proof.Machine
open Sys2Proof

/-- Who sent an operation, as its home sees it: the fields of its packet, and its logical tile where it belongs to this package, else 0xFF. -/
structure Requester where
  seat : Nat
  gen : Nat
  brk : Nat
  lbl : Nat
  fep : Nat
  seq : Nat
  tile : Nat
  admin : Bool            -- the region keys grant it bond or yard administration (R866)
  deriving DecidableEq, Repr

/-- Bond `k` of brick `b`. -/
def State.bond (s : State) (b : Brick) (k : Nat) : Bond := tabGet {} (s.brick b).bonds k

/-- The state with bond `k` of brick `b` changed. -/
def State.onBond (s : State) (b : Brick) (k : Nat) (f : Bond → Bond) : State :=
  s.onBrick b (fun B => { B with bonds := tabSet {} B.bonds k (f (tabGet {} B.bonds k)) })

/-- The number of waits registered at a brick (R259). -/
def waitCount (B : BrickState) : Nat := (B.bonds.map (fun e => e.2.waits.length)).sum

/-- Global address of bond `k` of brick `b` at a seat. -/
def bondAddr (seat b k : Nat) : Nat := withSeat (0x9 * 2 ^ 44 + b * 0x100000 + k * 0x40) seat

/-- STATE of a bond (R245). -/
def Bond.stateWord (B : Bond) : Nat :=
  bit B.poison + 2 * min 3 B.armed.length + 2 ^ 14 * bit (B.armed.length == 4) + 2 ^ 15 * bit B.wrapped + 2 ^ 32 * B.waits.length

/-- An ARMED entry (R245). -/
def Armed.word (a : Armed) : Nat := a.tile + 128 + a.gen * 2 ^ 40 + a.seat * 2 ^ 48

/-- The word a bond block reads at offset `o` (R245). -/
def Bond.read (B : Bond) (o : Nat) : Nat :=
  match o with
  | 0x00 => B.count.toNat
  | 0x08 => B.stateWord
  | _ => if 0x10 ≤ o && o < 0x30 then (match B.armed[(o - 0x10) / 8]? with
      | some a => a.word
      | none => 0) else 0

/-! ### Waits and wakes -/

/-- The condition of a wait (R252). -/
def condHolds (ge : Bool) (c t : Nat) : Bool := if ge then decide ((c + 2 ^ 64 - t) % 2 ^ 64 < 2 ^ 63) else c == t

/-- Trace record of a wake issued (R907, R909): the operation that caused it, or all ones for a timeout. -/
def traceWake (b : Brick) (k : Nat) (w : BondWait) (status : Nat) (count : Word) (cause : Option Requester) (s : State) : State :=
  if !bondTraced s b (Reg.OBS_BTR_WAKE b) k then s else
  let c := match cause with
    | some r => leBytes 2 r.seat ++ [BitVec.ofNat 8 r.tile, BitVec.ofNat 8 (r.brk + 16 * r.lbl)] ++ leBytes 4 r.seq
    | none => List.replicate 8 0xFF
  traceRec b 4 (srcBrick b) 0xFF
    (leBytes 2 k ++ leBytes 2 w.seat ++ [BitVec.ofNat 8 w.tile, BitVec.ofNat 8 (w.slot + 16 * status)] ++ leBytes 8 count.toNat ++ c) s

/-- A wake issued (R256, R257): inside the bond's own brick without a packet, else as a class-0x7 request under label 14. -/
def issueWake (b : Brick) (k : Nat) (w : BondWait) (status : Nat) (cause : Option Requester) (s : State) : State :=
  let count := (s.bond b k).count
  let s := traceWake b k w status count cause (s.count (Reg.BND_CNT0_WAKES b) 1)
  let own := w.seat = s.ownSeatNo || w.seat = 0xFFFF
  let home := BitVec.ofNat 64 (bondAddr s.ownSeatNo b k)
  if own && w.brk = b.val then
    s.onBrick b (fun B => { B with wakes := B.wakes ++ [{ tile := w.tile, slot := w.slot, status := status, count := count, bond := home }] })
  else
    issueOp b (.wake b) {
      addr := BitVec.ofNat 64 (withSeat (0x9 * 2 ^ 44 + w.brk * 0x100000) w.seat), opc := 0x71, aux := 0, lbl := 14, size := 24,
      payload := leBytes 8 count.toNat ++ [BitVec.ofNat 8 w.tile, BitVec.ofNat 8 w.slot, BitVec.ofNat 8 status, 0, 0, 0, 0, 0] ++
        leBytes 8 home.toNat } s

/-- The waits of a bond are evaluated (R253, R257): those satisfied leave and are woken in order of registration. Also answers how many. -/
def evalWaits (b : Brick) (k : Nat) (r : Requester) (s : State) : Nat × State :=
  let B := s.bond b k
  let hit := fun (w : BondWait) => condHolds w.ge B.count.toNat w.target
  let woken := B.waits.filter hit
  let s := s.onBond b k (fun B => { B with waits := B.waits.filter (fun w => !hit w) })
  (woken.length, s.each woken (fun s w => issueWake b k w 0 (some r) s))

/-- A wake reaches a slot (R257): only the open wait of that bond takes it. -/
def takeWake (t : Tile) (k : Nat) (status : Nat) (count bond : Word) (s : State) : State :=
  let w := s.slot t k
  if w.st = .opened && s.realSeat w.bond.toNat = s.realSeat bond.toNat && bitsOf w.bond.toNat 47 0 = bitsOf bond.toNat 47 0 then
    tally t 58 1 (wakeSlot t k status count s)
  else s

/-- A bond is poisoned (R266, R269): its waits are woken with status 0x2 in order of registration, the cause is recorded, and event 0x6006 raised. -/
def poisonBond (b : Brick) (k cause : Nat) (r : Option Requester) (s : State) : State :=
  let ws := (s.bond b k).waits
  let s := s.onBond b k (fun B => { B with poison := true, waits := [] })
  let s := (s.flag (Reg.BND_ERR_POISON b)).wr (Reg.BND_PLOG_CAUSE b) cause
  let s := (s.wr (Reg.BND_PLOG_BOND b) k).raise 0x6006 [b.val, k, cause]
  s.each ws (fun s w => issueWake b k w 2 r s)

/-- Trace record of a signal performed (R907, R909). `kind`: 0 SIGADD, 1 RESET, 2 POISON. -/
def traceSignal (b : Brick) (k : Nat) (r : Requester) (kind wakes : Nat) (s : State) : State :=
  if !bondTraced s b (Reg.OBS_BTR_SIG b) k then s else
  let local' := (r.seat = s.ownSeatNo || r.seat = 0xFFFF) && r.brk = b.val
  traceRec b 3 (srcBrick b) 0xFF
    (leBytes 2 k ++ leBytes 2 r.seat ++ [BitVec.ofNat 8 r.tile, BitVec.ofNat 8 (r.brk + (if kind = 1 then 4 else if kind = 2 then 8 else 0) + 16 * r.lbl)] ++
     leBytes 4 (if local' then 0xFFFFFFFF else r.seq) ++ [BitVec.ofNat 8 r.fep, 0] ++ leBytes 2 wakes ++ leBytes 8 (s.bond b k).count.toNat) s

/-! ### Bond operations (R248 to R254) -/

/-- Whether every byte of a payload from `n` on is zero, bytes that are not there counting as zero. -/
def zeroFrom (n : Nat) (d : Bytes) : Bool := (d.drop n).all (fun x => x == 0)

/-- Byte `i` of a payload, zero where it is not there. -/
def byteAt (d : Bytes) (i : Nat) : Nat := (d.getD i 0).toNat

/-- Whether a payload names a tile and a slot in the form of R249: bytes 8 and 9. -/
def tileSlotOk (d : Bytes) : Bool := decide (byteAt d 8 < 128 ∧ byteAt d 9 < 16)

/-- Whether the payload of a bond operation has zero in every byte and bit that R249 does not name. -/
def bondPayloadOk (opc : Nat) (d : Bytes) : Bool :=
  match opc with
  | 0x31 => zeroFrom 8 d
  | 0x32 | 0x33 => tileSlotOk d && byteAt d 10 == 0 && byteAt d 11 == 0 && zeroFrom 16 d
  | 0x34 => decide (byteAt d 8 ≤ 2) && zeroFrom 9 d
  | 0x35 => decide (byteAt d 8 ≤ 1) && zeroFrom 9 d
  | 0x36 => zeroFrom 0 (d.take 8) && tileSlotOk d && byteAt d 10 == 0 && byteAt d 11 == 0 && zeroFrom 16 d
  | 0x37 | 0x3B => zeroFrom 0 (d.take 8) && tileSlotOk d && zeroFrom 10 d
  | 0x38 | 0x39 => zeroFrom 0 (d.take 8) && decide (byteAt d 8 < 128) && zeroFrom 9 d
  | 0x3A => zeroFrom 1 d
  | _ => false

/-- The answer of an operation: status and payload. -/
abbrev Answer := Nat × Bytes

/-- SIGADD (R252, R268). -/
def bondSigadd (b : Brick) (k : Nat) (r : Requester) (d : Bytes) (s : State) : Answer × State :=
  let B := s.bond b k
  let a := leNat (d.take 8)
  if B.poison then ((0x12, []), s) else
  if 2 ^ 63 ≤ a then ((0x10, []), s.flag (Reg.BND_ERR_ADDEND b)) else
  let c := BitVec.ofNat 64 (B.count.toNat + a)
  let wraps := decide (c < B.count)
  let s := s.onBond b k (fun B => { B with count := c, wrapped := B.wrapped || wraps })
  let s := (if wraps then s.flag (Reg.BND_ERR_WRAP b) else s).count (Reg.BND_CNT0_SIGNALS b) 1
  let n := (B.waits.filter (fun w => condHolds w.ge c.toNat w.target)).length
  let (_, s) := evalWaits b k r (traceSignal b k r 0 n s)
  ((0x00, leBytes 8 B.count.toNat), s)

/-- WAITGE and WAITEQ (R253, R254, R259): a satisfied wait is answered at once; any other is registered unless its slot waits here already or the
wait list is full. -/
def bondWait (b : Brick) (k : Nat) (r : Requester) (ge : Bool) (d : Bytes) (s : State) : Answer × State :=
  let B := s.bond b k
  let target := leNat (d.take 8)
  let tile := byteAt d 8
  let slot := byteAt d 9
  if B.poison then ((0x12, []), s) else
  if (s.brick b).bonds.any (fun e => e.2.waits.any (fun w => w.seat = r.seat && w.tile = tile && w.slot = slot)) then ((0x13, []), s) else
  let c := leBytes 8 B.count.toNat
  if condHolds ge B.count.toNat target then ((0x00, c), s) else
  if 65536 ≤ waitCount (s.brick b) then ((0x11, []), s.flag (Reg.BND_ERR_WLFULL b)) else
  let w : BondWait := { ge := ge, target := target, seat := r.seat, brk := tile / 32, tile := tile, slot := slot,
                        timeout := leNat ((d.drop 12).take 4), since := s.plumb.toNat }
  let s := s.onBond b k (fun B => { B with waits := B.waits ++ [w] })
  let s := s.count (Reg.BND_CNT1_WAITS b) 1
  let s := if bondTraced s b (Reg.OBS_BTR_WAIT b) k then
      traceRec b 2 (srcBrick b) 0xFF
        (leBytes 2 k ++ leBytes 2 w.seat ++ [BitVec.ofNat 8 tile, BitVec.ofNat 8 (slot + (if ge then 0 else 16))] ++ leBytes 8 target ++ c) s
    else s
  ((0x20, c), s)

/-- TEST (R249). -/
def bondTest (b : Brick) (k : Nat) (d : Bytes) (s : State) : Answer × State :=
  let B := s.bond b k
  if B.poison then ((0x12, []), s) else
  let c := B.count.toNat
  let t := leNat (d.take 8)
  let ok := match byteAt d 8 with
    | 0 => true
    | 1 => condHolds true c t
    | _ => condHolds false c t
  ((if ok then 0x00 else 0x21, leBytes 8 c ++ [BitVec.ofNat 8 B.stateWord]), s)

/-- RESET (R265, R268): sets COUNT, clears WRAPPED, and with UNPOISON, which needs bond administration, POISON; the waits are evaluated anew. -/
def bondReset (b : Brick) (k : Nat) (r : Requester) (d : Bytes) (s : State) : Answer × State :=
  let B := s.bond b k
  let unpoison := byteAt d 8 = 1
  if unpoison && !r.admin then ((0x02, []), s) else
  if B.poison && !unpoison then ((0x12, []), s) else
  let s := s.onBond b k (fun B => { B with
    count := BitVec.ofNat 64 (leNat (d.take 8)), wrapped := false, poison := B.poison && !unpoison })
  let n := (B.waits.filter (fun w => condHolds w.ge (leNat (d.take 8)) w.target)).length
  let (_, s) := evalWaits b k r (traceSignal b k r 1 n s)
  ((0x00, leBytes 8 B.count.toNat), s)

/-- Whether a wait of a bond is the one a requester names by tile and slot. -/
def BondWait.is (w : BondWait) (r : Requester) (d : Bytes) : Bool := w.seat = r.seat && w.tile = byteAt d 8 && w.slot = byteAt d 9

/-- ARMTO, WCANCEL and WCHK: 0x14 where no such wait is registered (R249, R260, R262, R265). -/
def bondOnWait (b : Brick) (k : Nat) (r : Requester) (opc : Nat) (d : Bytes) (s : State) : Answer × State :=
  if !(s.bond b k).waits.any (fun w => w.is r d) then ((0x14, []), s) else
  match opc with
  | 0x36 => ((0x00, []), s.onBond b k (fun B => { B with waits := B.waits.map (fun w =>
      if w.is r d then { w with timeout := leNat ((d.drop 12).take 4), since := s.plumb.toNat } else w) }))
  | 0x37 => ((0x00, []), s.onBond b k (fun B => { B with waits := B.waits.filter (fun w => !w.is r d) }))
  | _ => ((0x00, []), s)

/-- ARMSIG (R261): at most four signallers; a tile that is armed already stays so (DEDUCED, log entry 24). -/
def bondArmsig (b : Brick) (k : Nat) (r : Requester) (d : Bytes) (s : State) : Answer × State :=
  let B := s.bond b k
  let a : Armed := { seat := r.seat, gen := r.gen, tile := byteAt d 8 }
  if B.poison then ((0x12, []), s)
  else if B.armed.contains a then ((0x00, []), s)
  else if 4 ≤ B.armed.length then ((0x15, []), s)
  else ((0x00, []), s.onBond b k (fun B => { B with armed := B.armed ++ [a] }))

/-- DISARM: 0x14 where the tile is not armed (R248, R250). -/
def bondDisarm (b : Brick) (k : Nat) (r : Requester) (d : Bytes) (s : State) : Answer × State :=
  let mine := fun (a : Armed) => a.seat = r.seat && a.tile = byteAt d 8
  if !(s.bond b k).armed.any mine then ((0x14, []), s)
  else ((0x00, []), s.onBond b k (fun B => { B with armed := B.armed.filter (fun a => !mine a) }))

/-- POISON (R266): cause 0x01 needs bond administration. -/
def bondPoison (b : Brick) (k : Nat) (r : Requester) (d : Bytes) (s : State) : Answer × State :=
  let cause := byteAt d 0
  if cause = 1 && !r.admin then ((0x02, []), s) else
  let n := (s.bond b k).waits.length
  ((0x00, []), poisonBond b k cause (some r) (traceSignal b k r 2 n s))

/-- A class-0x3 operation on bond `k` of brick `b` (R247 to R254). -/
def bondOp (b : Brick) (k : Nat) (r : Requester) (opc : Nat) (d : Bytes) (s : State) : Answer × State :=
  if !bondPayloadOk opc d then ((0x01, []), s) else
  match opc with
  | 0x31 => bondSigadd b k r d s
  | 0x32 => bondWait b k r true d s
  | 0x33 => bondWait b k r false d s
  | 0x34 => bondTest b k d s
  | 0x35 => bondReset b k r d s
  | 0x36 => bondOnWait b k r 0x36 d s
  | 0x37 => bondOnWait b k r 0x37 d s
  | 0x38 => bondArmsig b k r d s
  | 0x39 => bondDisarm b k r d s
  | 0x3A => bondPoison b k r d s
  | 0x3B => bondOnWait b k r 0x3B d s
  | _ => ((0x01, []), s)

/-- A WAKE that has come as a request (R249, R256): it must name region 0x9 at this brick's own offset. -/
def wakeOp (b : Brick) (off : Nat) (d : Bytes) (s : State) : Answer × State :=
  if off ≠ b.val * 0x100000 || !tileSlotOk d || 2 < byteAt d 10 || !zeroFrom 0 ((d.drop 11).take 5) || !zeroFrom 24 d ||
     byteAt d 8 / 32 ≠ b.val then ((0x01, []), s)
  else
    ((0x00, []), takeWake (tileOf (byteAt d 8)) (byteAt d 9) (byteAt d 10) (BitVec.ofNat 64 (leNat (d.take 8)))
      (BitVec.ofNat 64 (leNat ((d.drop 16).take 8))) s)

/-! ### Commands -/

/-- WAKE (R256): the oldest wake issued inside brick `b` reaches its tile. -/
def execWake (b : Brick) (s : State) : Host.Outcome State Fault Refusal := ended s <|
  match (s.brick b).wakes with
  | [] => .next s
  | w :: ws => .next (takeWake (tileOf w.tile) w.slot w.status w.count w.bond (s.onBrick b (fun B => { B with wakes := ws })))

/-- WAIT_TIMEOUT (R260): the timeout of a registered wait has run on the plumb time base; the wait is woken with status 0x1. -/
def execWaitTimeout (b : Brick) (k : Fin 16384) (seat : BitVec 16) (tile : Tile) (slot : Fin 16) (s : State) :
    Host.Outcome State Fault Refusal := ended s <|
  match (s.bond b k).waits.find? (fun w => w.seat = seat.toNat && w.tile = tile.val && w.slot = slot.val) with
  | none => .next s
  | some w =>
    if w.timeout = 0 || s.plumb.toNat < w.since + w.timeout * 1000 then .next s else
    let s := s.onBond b k (fun B => { B with waits := B.waits.erase w })
    let s := (s.flag (Reg.BND_ERR_TIMEOUT b)).count (Reg.BND_CNT1_TIMEOUTS b) 1
    .next (issueWake b k w 1 none s)

/-- WCHK_SEND (R262): the brick checks each wait of its tiles that is registered at another brick and has been open for WCHKINT, and again every
WCHKINT. The
check travels under the label of the wait it checks (DESIGN CHOICE, log entry 25: its label is not given). -/
def execWchkSend (b : Brick) (s : State) : Host.Outcome State Fault Refusal := ended s <|
  let int := s.rd (Reg.BND_CTL_WCHKINT b) * 1000
  if int = 0 then .next s else
  .next (s.each (brickTiles b) (fun s t =>
    s.each (List.range 16) (fun s k =>
      let w := s.slot t k
      let far := s.realSeat w.bond.toNat ≠ s.ownSeatNo || destBrick w.bond.toNat ≠ some b
      if w.st = .opened && w.registered && far && decide (max w.openedAt w.checkedAt + int ≤ s.now) then
        let s := s.onSlot t k (fun w => { w with checkedAt := s.now })
        issueOp b (.wchk t k) {
          addr := w.bond, opc := 0x3B, aux := 0, lbl := labelOf w.lbl, size := 10,
          payload := List.replicate 8 0 ++ [BitVec.ofNat 8 t.val, BitVec.ofNat 8 k] } s
      else s)))

/-! ### Releases (R229 to R233) -/

/-- The flow that a request takes when it is issued now. -/
def flowNow (s : State) (op : Op) : FlowId :=
  let seat := s.realSeat op.addr.toNat
  flowOf s seat (if seat = s.ownSeatNo then s.ownGen else entryGen (s.seatEntry seat)) ((destBrick op.addr.toNat).getD 0) op.lbl

/-- The operations of tile `t` numbered below `n` that have no outcome, each with its flow (R230). -/
def openOps (s : State) (t : Tile) (n : Nat) : List (Nat × FlowId) :=
  let B := s.brick (tileBrick t)
  let mine := fun (i : Issuer) (no : Nat) => ownTile i == some t.val && decide (no < n)
  B.srcFlows.flatMap (fun f => (f.ops.filter (fun o => mine o.issuer o.no)).map (fun o => (o.no, f.ident))) ++
  (B.waitOps.filter (fun w => mine w.issuer w.no)).map (fun w => (w.no, flowNow s w.op))

/-- Whether a flow lies in the scope of a release (R229, R230): a bond release leaves out its own flow, a REL every flow that is no home of its
range. -/
def inScope (s : State) (rel : Release) (f : FlowId) : Bool :=
  if rel.range then rel.homes.contains (f.seat.toNat, f.brk.val) else decide (f ≠ flowNow s rel.op)

/-- The lowest address of a region that decodes to brick `d` (R231). -/
def brickLow (region d : Nat) : Nat :=
  region * 2 ^ 44 + (match region with
    | 0x8 => 32 * d * 0x800000
    | 0x9 => d * 0x100000
    | 0xA => if d = 0 then 0 else (d + 1) * 0x10000000
    | 0xC => 2 * d * 0x10000000000
    | _ => 0)

/-- Region of the most recent operation of a flow of a brick, one that still waits included (R231). -/
def recentRegion (s : State) (b : Brick) (f : FlowId) : Nat :=
  match ((s.brick b).waitOps.filter (WaitOp.goesTo s f.seat.toNat f.brk f.lbl)).getLast? with
  | some w => addrRegion w.op.addr.toNat
  | none => ((s.flow b f).map (fun g => g.region)).getD 0x9

/-- A RELM on a flow (R231). -/
def sendRelm (t : Tile) (rel : Release) (f : FlowId) (s : State) : State :=
  let addr := if rel.range then
      let first := rel.op.addr.toNat
      if destBrick first = some f.brk then first else brickLow (addrRegion first) f.brk.val
    else brickLow (recentRegion s (tileBrick t) f) f.brk.val
  issueOp (tileBrick t) (.masonRelm t) {
    addr := BitVec.ofNat 64 (withSeat addr f.seat.toNat), opc := 0x41, aux := 0, lbl := f.lbl, size := 0, payload := [] } s

/-- A release begins (R230): it remembers what it waits for, and a RELM goes out on each other flow of its scope with unfinished operations. A flow toward
an older generation of its seat takes no new request; its operations are waited for alone. -/
def beginRelease (t : Tile) (op : Op) (range : Bool) (homes : List (Nat × Nat)) (issuer : Issuer) (s : State) : State :=
  let n := (s.tile t).opNo
  let rel : Release := { op := op, range := range, homes := homes, issuer := issuer, before := n, left := [] }
  let ops := (openOps s t n).filter (fun x => inScope s rel x.2)
  let rel := { rel with left := ops.map (fun x => x.1) }
  let s := s.onTile t (fun T => { T with releases := T.releases ++ [rel] })
  let now' := fun (f : FlowId) => f = flowOf s f.seat.toNat (if f.seat.toNat = s.ownSeatNo then s.ownGen else entryGen (s.seatEntry f.seat.toNat)) f.brk f.lbl
  s.each ((ops.map (fun x => x.2)).eraseDups.filter now') (fun s f => sendRelm t rel f s)

/-- Whether the drain of a release has ended: each operation that it waits for has an outcome, or its flow's RELM was answered (R230). -/
def drained (s : State) (t : Tile) (rel : Release) : Bool :=
  let open' := (openOps s t rel.before).map (fun x => x.1)
  rel.left.all (fun n => !open'.contains n)

/-- Whether a failed operation lies in a release's scope: every earlier operation for a bond release, and the earlier writes to the homes of the range for
a REL (R229, R233). -/
def Release.covers (rel : Release) (f : FailedOp) : Bool := decide (f.no < rel.before) && (!rel.range || (f.write && rel.homes.contains (f.seat, f.brk)))

/-- Whether an earlier operation in a release's scope ended Unsettled or Seat unreachable (R233). -/
def scopeFailed (s : State) (t : Tile) (rel : Release) : Bool := (s.tile t).failed.any rel.covers

/-- RELEASE_SEND (R230, R233): the oldest release of a tile whose drain has ended leaves on its own flow, or completes: a REL with 0x00, and any
release with 0x16 where an earlier operation of its scope failed; such failures are reported once (DEDUCED, log entry 29). -/
def execReleaseSend (t : Tile) (s : State) : Host.Outcome State Fault Refusal := ended s <|
  match (s.tile t).releases.find? (fun rel => drained s t rel) with
  | none => .next s
  | some rel =>
    let b := tileBrick t
    let failed := scopeFailed s t rel
    let s := s.onTile t (fun T => { T with releases := T.releases.erase rel, failed := T.failed.filter (fun f => !rel.covers f) })
    let done := fun (status : Nat) (s : State) =>
      let r : Result := ⟨rel.issuer, if status = 0 then .completed else .rejected, status, [], rel.op⟩
      { s with results := s.results ++ [r] }
    if failed then .next (done 0x16 (s.flag (Reg.BND_ERR_DRAINF b)))
    else if rel.range then .next (done 0x00 s)
    else .next (issueOp b rel.issuer rel.op s)

end Sys2Proof.Machine
end

