-- ==== Sys2Proof/Machine/Keys.lean ====
section
/-! DEFINITION. Region keys: who may do what to which range of the package, and what a refusal records (R863 to R868). -/
namespace Sys2Proof.Machine
open Sys2Proof

/-- A requester (R865): a source seat or the host, and a label. -/
structure Who where
  host : Bool
  seat : Nat
  lbl : Nat
  deriving DecidableEq, Repr

/-- The package itself as requester, under a label (R865): own seat, or 0xFFFF while none is held. -/
def State.own (s : State) (lbl : Nat) : Who := { host := false, seat := s.ownSeatNo, lbl := lbl }

/-- The rights of R864, by bit. -/
def rightLD : Nat := 0
def rightST : Nat := 1
def rightAT : Nat := 2
def rightBOND : Nat := 3
def rightSLAB : Nat := 4
def rightBADM : Nat := 5
def rightYADM : Nat := 6
def rightHADM : Nat := 7

/-- Word `w` of key `k` (R879). -/
def keyWord (s : State) (k w : Nat) : Nat := s.rd (Reg.SAF_KEY_WORD k w)

/-- The numbers of the keys that may be valid: those of which word 0 is listed with VALID set. -/
def validKeys (s : State) : List Nat := (List.range 256).filter (fun k => bitOf (keyWord s k 0) 63)

/-- Whether key `k` covers `[off, off + n)` of a region for a requester (R864, R865). -/
def keyCovers (s : State) (k : Nat) (w : Who) (region off n : Nat) : Bool :=
  let a := keyWord s k 0
  let c := keyWord s k 2
  bitOf a 62 == w.host && bitsOf a 47 44 == region && decide (bitsOf a 43 12 ≤ off / 4096) &&
  decide ((off + max 1 n - 1) / 4096 ≤ bitsOf (keyWord s k 1) 43 12) &&
  (w.host || decide (bitsOf c 47 32 ≤ w.seat ∧ w.seat ≤ bitsOf c 63 48)) && bitOf (bitsOf c 31 16) w.lbl

/-- Whether the keys grant a requester some right on a range (R863). With a namespace, the key has to grant that too (R866). -/
def keyGrants (s : State) (w : Who) (right : Nat) (region off n : Nat) (ns : Option Nat) : Bool :=
  !s.isSet Reg.SAF_CTL_KEYEN ||
  (validKeys s).any (fun k => keyCovers s k w region off n && bitOf (keyWord s k 2) right &&
    (match ns with
      | some x => decide (bitsOf (keyWord s k 3) 43 32 ≤ x ∧ x ≤ bitsOf (keyWord s k 3) 59 48)
      | none => true))

/-- A rejection by the keys recorded (R867). -/
def keyViolation (w : Who) (opc addr : Nat) (s : State) : State :=
  let s := (s.flag Reg.SAF_ERR_KEYVIOL).count Reg.SAF_KVCNT_COUNT 1
  let s := (((s.wr Reg.SAF_KVLOG0_SEAT w.seat).wr Reg.SAF_KVLOG0_HOST (bit w.host)).wr Reg.SAF_KVLOG0_LBL w.lbl).wr Reg.SAF_KVLOG0_OPC opc
  let s := s.wr Reg.SAF_KVLOG1_ADDR addr
  let id := w.lbl + 16 * w.seat + 2 ^ 20 * bit w.host
  if s.safety.violAt.all (fun e => e.1 ≠ id || decide (e.2 + 10 ^ 6 ≤ s.now)) then
    { s with safety := { s.safety with violAt := (id, s.now) :: s.safety.violAt.filter (fun e => e.1 ≠ id) } }.raise 0x600A [w.seat, bit w.host, w.lbl, opc, addr]
  else s

/-- The rights an operation needs by R866, whatever its region; none for those that need none. -/
def rightsFor (opc : Nat) (payload : Bytes) : List Nat :=
  match opc / 16 with
  | 0 => if opc = 0x01 then [rightLD] else [rightST]
  | 1 => [rightAT]
  | 2 => [rightAT]
  | 3 =>
    if opc = 0x3B then []
    else if opc = 0x3A then (if (payload.getD 0 0).toNat = 1 then [rightBOND, rightBADM] else [])
    else if opc = 0x35 then (if (payload.getD 8 0).toNat = 1 then [rightBOND, rightBADM] else [rightBOND])
    else [rightBOND]
  | 5 => [rightSLAB]
  | _ => []

end Sys2Proof.Machine
end

