-- ==== Sys2Proof/Machine/Float.lean ====
section
/-! DEFINITION. Number formats, exact values and rounding (R339, R340, R342, R443 to R450, R465 to R474). A floating value is held exactly, as a
signed multiple of a power of two, until the one rounding its rule names. -/
namespace Sys2Proof.Machine

/-- A floating value, exactly: ± m × 2^e. A zero has m = 0 and keeps its sign. -/
inductive Fv where
  | nan
  | inf (neg : Bool)
  | fin (neg : Bool) (m : Nat) (e : Int)
  deriving DecidableEq, Repr

/-- A binary format: exponent and mantissa width, and whether the top exponent holds finite values up to mantissa 110 (E4M3, R443). -/
structure FloatFmt where
  eb : Nat
  mb : Nat
  e4m3 : Bool := false
  deriving DecidableEq, Repr

def fmtE4M3 : FloatFmt := { eb := 4, mb := 3, e4m3 := true }
def fmtE5M2 : FloatFmt := { eb := 5, mb := 2 }
def fmtBF16 : FloatFmt := { eb := 8, mb := 7 }
def fmtFP16 : FloatFmt := { eb := 5, mb := 10 }
def fmtFP32 : FloatFmt := { eb := 8, mb := 23 }

/-- The bias of a format. -/
def FloatFmt.bias (f : FloatFmt) : Nat := 2 ^ (f.eb - 1) - 1
/-- The magnitude code of the largest finite value (R446 to R448). -/
def FloatFmt.maxCode (f : FloatFmt) : Nat := if f.e4m3 then 2 ^ (f.eb + f.mb) - 2 else (2 ^ f.eb - 1) * 2 ^ f.mb - 1
/-- The magnitude code of infinity; E4M3 has none. -/
def FloatFmt.infCode (f : FloatFmt) : Nat := (2 ^ f.eb - 1) * 2 ^ f.mb
/-- The canonical NaN (R446 to R449). -/
def FloatFmt.nanCode (f : FloatFmt) : Nat := if f.e4m3 then 2 ^ (f.eb + f.mb) - 1 else (2 ^ f.eb - 1) * 2 ^ f.mb + 2 ^ (f.mb - 1)
/-- Width of a format in bits. -/
def FloatFmt.width (f : FloatFmt) : Nat := 1 + f.eb + f.mb

/-- The value of a code (R443, R444, R449). -/
def FloatFmt.dec (f : FloatFmt) (v : Nat) : Fv :=
  let neg := bitOf v (f.eb + f.mb)
  let mag := v % 2 ^ (f.eb + f.mb)
  let e := mag / 2 ^ f.mb
  let m := mag % 2 ^ f.mb
  if f.e4m3 && mag = 2 ^ (f.eb + f.mb) - 1 then .nan
  else if !f.e4m3 && e = 2 ^ f.eb - 1 then (if m = 0 then .inf neg else .nan)
  else if e = 0 then .fin neg m (1 - (f.bias : Int) - f.mb)
  else .fin neg (2 ^ f.mb + m) ((e : Int) - f.bias - f.mb)

/-- m × 2^k as an integer, rounded to nearest with ties to even, or toward zero (R466). -/
def scaleRound (rtz : Bool) (m : Nat) (k : Int) : Nat :=
  if 0 ≤ k then m * 2 ^ k.toNat
  else
    let d := 2 ^ (-k).toNat
    let q := m / d
    let r := m % d
    if rtz then q else if d < 2 * r || (2 * r = d && q % 2 = 1) then q + 1 else q

/-- The magnitude code of m × 2^e after one rounding, running on past the largest finite code where the value lies beyond it (R469). -/
def FloatFmt.magCode (f : FloatFmt) (rtz : Bool) (m : Nat) (e : Int) : Nat :=
  if m = 0 then 0 else
  let emin : Int := 1 - f.bias
  let ee := max ((Nat.log2 m : Int) + e) emin
  let r := scaleRound rtz m (e - ee + f.mb)
  let field := (ee - emin).toNat   -- binade counted from the lowest normal one
  -- r = 2^mb .. 2^(mb+1) in a normal binade: the codes of consecutive binades follow one another
  field * 2 ^ f.mb + r

/-- The sign bit of a format. -/
def FloatFmt.sign (f : FloatFmt) (neg : Bool) : Nat := if neg then 2 ^ (f.eb + f.mb) else 0

/-- An exact value rounded once to a format, to nearest with ties to even, overflow giving ±∞ (R339, R340, R454, R455). -/
def FloatFmt.enc (f : FloatFmt) : Fv → Nat
  | .nan => f.nanCode
  | .inf n => f.sign n + f.infCode
  | .fin n m e => f.sign n + (let c := f.magCode false m e; if f.maxCode < c then f.infCode else c)

/-- Exact product (R453): ∞ × 0 is a NaN. -/
def Fv.mul : Fv → Fv → Fv
  | .nan, _ => .nan
  | _, .nan => .nan
  | .inf a, .inf b => .inf (xor a b)
  | .inf a, .fin b m _ => if m = 0 then .nan else .inf (xor a b)
  | .fin a m _, .inf b => if m = 0 then .nan else .inf (xor a b)
  | .fin a m e, .fin b n f => .fin (xor a b) (m * n) (e + f)

/-- Exact sum: ∞ + (−∞) is a NaN; an exact zero is −0 only when both terms are −0 (R340, R456). -/
def Fv.add : Fv → Fv → Fv
  | .nan, _ => .nan
  | _, .nan => .nan
  | .inf a, .inf b => if a = b then .inf a else .nan
  | .inf a, .fin _ _ _ => .inf a
  | .fin _ _ _, .inf b => .inf b
  | .fin a m e, .fin b n f =>
    let g := min e f
    let x : Int := (if a then -1 else 1) * (m * 2 ^ (e - g).toNat : Nat)
    let y : Int := (if b then -1 else 1) * (n * 2 ^ (f - g).toNat : Nat)
    let z := x + y
    if z = 0 then .fin (a && b) 0 0 else .fin (decide (z < 0)) z.natAbs g

/-- Negation. -/
def Fv.neg : Fv → Fv
  | .nan => .nan
  | .inf n => .inf (!n)
  | .fin n m e => .fin (!n) m e

/-- Whether a value is zero, infinite, a NaN, or negative in sign. -/
def Fv.isZero : Fv → Bool
  | .fin _ 0 _ => true
  | _ => false
def Fv.isInf : Fv → Bool
  | .inf _ => true
  | _ => false
def Fv.isNan : Fv → Bool
  | .nan => true
  | _ => false
def Fv.isFin : Fv → Bool
  | .fin _ _ _ => true
  | _ => false
def Fv.signBit : Fv → Bool
  | .nan => false
  | .inf n => n
  | .fin n _ _ => n

/-- An integer as a floating value. -/
def Fv.ofInt (i : Int) : Fv := .fin (decide (i < 0)) i.natAbs 0

/-- Comparison of two finite or infinite values; NaN compares with nothing. `none` where either is a NaN. -/
def Fv.cmp : Fv → Fv → Option Ordering
  | .nan, _ => none
  | _, .nan => none
  | .inf a, .inf b => some (if a = b then .eq else if a then .lt else .gt)
  | .inf a, .fin _ _ _ => some (if a then .lt else .gt)
  | .fin _ _ _, .inf b => some (if b then .gt else .lt)
  | .fin a m e, .fin b n f =>
    let g := min e f
    let x : Int := (if a then -1 else 1) * (m * 2 ^ (e - g).toNat : Nat)
    let y : Int := (if b then -1 else 1) * (n * 2 ^ (f - g).toNat : Nat)
    some (compare x y)

/-! ### FP32 arithmetic on codes, each operation rounded once to nearest, ties to even -/

def f32 (v : Nat) : Fv := fmtFP32.dec v
def f32add (a b : Nat) : Nat := fmtFP32.enc ((f32 a).add (f32 b))
def f32sub (a b : Nat) : Nat := fmtFP32.enc ((f32 a).add (f32 b).neg)
def f32mul (a b : Nat) : Nat := fmtFP32.enc ((f32 a).mul (f32 b))
/-- a × b + c with one rounding. -/
def f32fma (a b c : Nat) : Nat := fmtFP32.enc (((f32 a).mul (f32 b)).add (f32 c))
/-- An integer rounded to FP32. -/
def f32ofInt (i : Int) : Nat := fmtFP32.enc (.ofInt i)
/-- A BF16 code widened to FP32, a NaN becoming canonical (R465). -/
def bf16to32 (v : Nat) : Nat := fmtFP32.enc (fmtBF16.dec v)

/-- The order key of a code that is no NaN: −0 lies below +0 (R340). -/
def FloatFmt.key (f : FloatFmt) (v : Nat) : Int :=
  let mag := v % 2 ^ (f.eb + f.mb)
  if bitOf v (f.eb + f.mb) then -(mag : Int) - 1 else mag

/-- min and max of codes (R340): a NaN operand gives the canonical NaN. -/
def FloatFmt.minCode (f : FloatFmt) (a b : Nat) : Nat :=
  if (f.dec a).isNan || (f.dec b).isNan then f.nanCode else if f.key b < f.key a then b else a
def FloatFmt.maxOf (f : FloatFmt) (a b : Nat) : Nat :=
  if (f.dec a).isNan || (f.dec b).isNan then f.nanCode else if f.key a < f.key b then b else a

/-! ### Conversions into narrower formats (R466 to R474) -/

/-- A converted code and the flags of R474. -/
structure Conv where
  code : Nat
  sat : Bool := false
  infOut : Bool := false
  nanOut : Bool := false
  under : Bool := false
  deriving DecidableEq, Repr

/-- Conversion into E4M3 or E5M2 (R469). -/
def toFp8 (f : FloatFmt) (rtz ieee : Bool) (x : Fv) : Conv :=
  let beyond := if ieee then (if f.e4m3 then f.nanCode else f.infCode) else f.maxCode
  match x with
  | .nan => { code := f.nanCode }
  | .inf n => { code := f.sign n + beyond, sat := !ieee, nanOut := ieee && f.e4m3 }
  | .fin n m e =>
    let c := f.magCode rtz m e
    if f.maxCode < c then
      { code := f.sign n + (if rtz then f.maxCode else beyond), sat := rtz || !ieee, infOut := !rtz && ieee && !f.e4m3,
        nanOut := !rtz && ieee && f.e4m3 }
    else { code := f.sign n + c, under := decide (m ≠ 0 ∧ c = 0) }

/-- Conversion from FP32 into BF16 (R472): OVF does not apply. -/
def toBf16 (rtz : Bool) (x : Fv) : Conv :=
  let f := fmtBF16
  match x with
  | .nan => { code := f.nanCode }
  | .inf n => { code := f.sign n + f.infCode }
  | .fin n m e =>
    let c := f.magCode rtz m e
    if f.maxCode < c then (if rtz then { code := f.sign n + f.maxCode, sat := true } else { code := f.sign n + f.infCode, infOut := true })
    else { code := f.sign n + c, under := decide (m ≠ 0 ∧ c = 0) }

/-- A floating value rounded to an integer (R473). -/
def Fv.toInt (rtz : Bool) : Fv → Int
  | .fin n m e => (if n then -1 else 1) * (scaleRound rtz m e : Int)
  | _ => 0

/-- Quantisation of an FP32 value into INT8 or UINT8 (R473): multiplier `r` as an FP32 code, zero point `z`. A product that is a NaN where x is a
finite number has no stated result: `free` stands for it (DESIGN CHOICE, log entry 218). -/
def quantise (signed rtz : Bool) (x r : Nat) (z : Int) (free : Nat) : Conv :=
  let lo : Int := if signed then -128 else 0
  let hi : Int := if signed then 127 else 255
  let limit := fun (neg : Bool) => ({ code := wrapNat 8 (if neg then lo else hi), sat := true } : Conv)
  match f32 x with
  | .nan => { code := wrapNat 8 z, nanOut := true }
  | .inf n => limit (xor n (f32 r).signBit)
  | .fin _ m _ =>
    match f32 (f32mul x r) with
    | .nan => { code := free % 256, nanOut := true }
    | .inf n => limit n
    | p =>
      let i := p.toInt rtz + z
      let c := max lo (min hi i)
      { code := wrapNat 8 c, sat := decide (i < lo ∨ hi < i), under := decide (m ≠ 0 ∧ c = 0) }

end Sys2Proof.Machine
end

