-- ==== Sys2Proof/Machine/Fold.lean ====
section
/-! DEFINITION. Atomics in both modes, the fold buffer, merges, and the access of a home to its stacks (R316, R320, R327 to R348). -/
namespace Sys2Proof.Machine
open Sys2Proof

/-- Element width in bytes of a FMT code (R329); none for a reserved one. -/
def fmtWidth : Nat → Option Nat
  | 0 => some 4
  | 1 => some 8
  | 2 => some 4
  | 3 => some 8
  | 4 => some 4
  | 5 => some 2
  | 6 => some 16
  | _ => none

/-- The floating format of a FMT code. -/
def fmtFloat (fmt : Nat) : FloatFmt := if fmt = 4 then fmtFP32 else fmtBF16

/-- Whether a FMT is allowed for a class-0x1 operation (R328). -/
def atomicFmtOk (opc fmt : Nat) : Bool :=
  if opc = 0x11 || opc = 0x12 then decide (fmt ≤ 6)
  else if opc ≤ 0x15 then decide (fmt ≤ 5)
  else decide (fmt ≤ 3)

/-- ADD, MIN or MAX of two element codes, one rounding at most (R339, R340, R342). `kind`: 0 add, 1 min, 2 max. -/
def elemCombine (kind fmt a b : Nat) : Nat :=
  if fmt = 4 || fmt = 5 then
    let f := fmtFloat fmt
    match kind with
    | 0 => f.enc ((f.dec a).add (f.dec b))
    | 1 => f.minCode a b
    | _ => f.maxOf a b
  else
    let w := if fmt = 0 || fmt = 2 then 32 else 64
    let lt := if fmt ≤ 1 then decide (sextInt w a < sextInt w b) else decide (a < b)
    match kind with
    | 0 => (a + b) % 2 ^ w
    | 1 => if lt then a else b
    | _ => if lt then b else a

/-- The new value of an element under a class-0x1 operation other than CAS (R328). -/
def atomicApply (opc fmt m v : Nat) : Nat :=
  match opc with
  | 0x11 => v
  | 0x13 => elemCombine 0 fmt m v
  | 0x14 => elemCombine 1 fmt m v
  | 0x15 => elemCombine 2 fmt m v
  | 0x16 => Nat.land m v
  | 0x17 => Nat.lor m v
  | _ => Nat.xor m v

/-- The elements of `w` bytes that bytes spell. -/
def elemsOf (w : Nat) (bs : Bytes) : List Nat := (List.range (bs.length / w)).map (fun i => leNat ((bs.drop (i * w)).take w))

/-- Bytes of elements. -/
def elemBytes (w : Nat) (xs : List Nat) : Bytes := xs.flatMap (leBytes w)

/-- Answer 0x30 (R344): WRONGMODE, and event 0x2006 for the first in each second of its granule. -/
def wrongMode (st : Stack) (g opc : Nat) (s : State) : State :=
  let s := s.flag (Reg.FOLD_ERR_WRONGMODE (stackBrick st))
  if mayRaise s.now (s.stack st).refusedAt g then
    (s.onStack st (fun S => { S with refusedAt := (g, s.now) :: S.refusedAt.filter (fun e => e.1 ≠ g) })).raise 0x2006 [st.val, g, opc]
  else s

/-- A status and a payload. -/
abbrev Reply := Nat × Bytes

/-- A bed-mode atomic on its sector, once the checks of R332 up to poison have passed. -/
def bedAtomic (st : Stack) (off opc fmt w : Nat) (data : Bytes) (e : MemEnv) (s : State) : Reply × State :=
  let b := stackBrick st
  let held := sectorHeld s st off
  let s := s.count (if held then Reg.STK_BEDHIT_HITS b else Reg.STK_BEDMISS_MISSES b) 1
  let s := allocHome st off e s
  let s := if held then s else fillSector st off e s
  if sectorPoisoned s st off then ((0x33, []), onLine st off id s) else
  let n := if opc = 0x12 then w else data.length
  let old := heldBytes s st off n
  let new := if opc = 0x12 then (if old = data.take w then data.drop w else old)
    else elemBytes w (List.zipWith (atomicApply opc fmt) (elemsOf w old) (elemsOf w data))
  ((0x00, old), (bedStore st off new e s).2)

/-- A class-0x1 request on a stack (R327 to R332). -/
def atomicOp (st : Stack) (off opc aux : Nat) (data : Bytes) (e : MemEnv) (s : State) : Reply × State :=
  if opc = 0x10 || 0x19 ≤ opc then ((0x01, []), s) else
  match fmtWidth (aux % 16) with
  | none => ((0x31, []), s)
  | some w =>
    if 16 ≤ aux || !atomicFmtOk opc aux then ((0x31, []), s) else
    let n := if opc = 0x12 then w else data.length
    if data.length = 0 || data.length % w ≠ 0 || (opc = 0x12 && data.length ≠ 2 * w) || off % w ≠ 0 || off / 64 ≠ (off + n - 1) / 64 then ((0x32, []), s)
    else if foldMode s st (off / granuleSize) then ((0x30, []), wrongMode st (off / granuleSize) opc s)
    else bedAtomic st off opc aux w data e s

/-! ### The fold buffer (R336 to R343) -/

/-- Width of a fold delta's stored element. -/
def foldWidth (fmt : Nat) : Nat := (fmtWidth fmt).getD 4

/-- Kind of a fold operation: 0 add, 1 min, 2 max. -/
def foldKind (op : Nat) : Nat := op - 0x21

/-- The identity of a fold operation, as its delta is held (R337). -/
def foldIdentity (op fmt : Nat) : Nat :=
  let w := 8 * foldWidth fmt
  match foldKind op with
  | 0 => if fmt = 4 || fmt = 5 then 0x80000000 else 0
  | 1 => if fmt = 4 || fmt = 5 then (fmtFloat fmt).infCode else 2 ^ (w - 1) - 1
  | _ => if fmt = 4 || fmt = 5 then (fmtFloat fmt).sign true + (fmtFloat fmt).infCode else 2 ^ (w - 1)

/-- A delta with one contribution combined (R339): contributions of a BF16 FOLDADD accumulate in FP32. -/
def foldInto (op fmt delta v : Nat) : Nat :=
  if foldKind op = 0 && fmt = 5 then f32add delta (bf16to32 v) else elemCombine (foldKind op) fmt delta v

/-- A stored element merged with its delta (R339): one rounding, to BF16 in the BF16 case. -/
def foldMerge (op fmt m delta : Nat) : Nat :=
  if foldKind op = 0 && fmt = 5 then fmtBF16.enc ((fmtBF16.dec m).add (f32 delta)) else elemCombine (foldKind op) fmt m delta

/-- A sector's bytes merged with an entry. -/
def mergedSector (x : FoldEntry) (bs : Bytes) : Bytes :=
  elemBytes (foldWidth x.fmt) (List.zipWith (foldMerge x.op x.fmt) (elemsOf (foldWidth x.fmt) bs) x.deltas)

/-- Whether a code of a format is a NaN; integers are none. -/
def codeNan (fmt v : Nat) : Bool := if fmt = 4 || fmt = 5 then ((fmtFloat fmt).dec v).isNan else false

/-- The entry of a sector. -/
def foldEntryOf (s : State) (st : Stack) (sector : Nat) : Option FoldEntry := (s.stack st).fold.find? (fun x => x.sector = sector)

/-- An entry merged into the stack and freed (R337, R343): by read, combine and write-back. -/
def mergeEntry (st : Stack) (x : FoldEntry) (e : MemEnv) (s : State) : State :=
  let b := stackBrick st
  let s := s.onStack st (fun S => { S with fold := S.fold.erase x })
  let s := s.count (Reg.STK_RDCNT_SECT st) 1
  let (landed, s) := partialUpdate st (x.sector * 64) 64 (mergedSector x) e s
  let s := if landed then (s.flag (Reg.FOLD_ERR_POIS b)).raise 0x2005 [st.val, x.sector] else s
  let now' := s.bytes (stackKey st (physPage s st (x.sector / 64) * 4096 + x.sector % 64 * 64)) 64
  if (elemsOf (foldWidth x.fmt) now').any (codeNan x.fmt) then s.flag (Reg.FOLD_ERR_NANRES b) else s

/-- Every entry of a range of sectors merged, oldest first. -/
def mergeRange (st : Stack) (lo hi : Nat) (e : MemEnv) (s : State) : State :=
  s.each ((s.stack st).fold.filter (fun x => decide (lo ≤ x.sector ∧ x.sector < hi))) (fun s x => mergeEntry st x e s)

/-- Room for one more entry: at 4,096 the device evicts one of its choice. -/
def foldRoom (st : Stack) (e : MemEnv) (s : State) : State :=
  if (s.stack st).fold.length < 4096 then s else
  let (k, s) := s.draw 1
  match (s.stack st).fold[Config.freeIndex k % 4096]? with
  | some x => mergeEntry st x e s
  | none => s

/-- One contribution per element of one sector, from element `first` on, combined into the sector's entry (R337). -/
def foldSector (st : Stack) (sector op fmt first : Nat) (vs : List Nat) (e : MemEnv) (s : State) : State :=
  let s := match foldEntryOf s st sector with
    | some x => if x.op = op && x.fmt = fmt then s else mergeEntry st x e s
    | none => s
  let s := match foldEntryOf s st sector with
    | some _ => s
    | none =>
      let s := foldRoom st e s
      let x : FoldEntry := { sector := sector, op := op, fmt := fmt, deltas := List.replicate (64 / foldWidth fmt) (foldIdentity op fmt) }
      s.onStack st (fun S => { S with fold := S.fold ++ [x] })
  let upd := fun (x : FoldEntry) =>
    { x with deltas := x.deltas.mapIdx (fun i d => if first ≤ i && i < first + vs.length then foldInto op fmt d (vs.getD (i - first) 0) else d) }
  let s := s.onStack st (fun S => { S with fold := S.fold.map (fun x => if x.sector = sector then upd x else x) })
  let nan := match foldEntryOf s st sector with
    | some x => ((x.deltas.drop first).take vs.length).any (codeNan (if op = 0x21 && fmt = 5 then 4 else fmt))
    | none => false
  let s := s.count (Reg.FOLD_CNT_ELEMS st) vs.length
  if nan then s.flag (Reg.FOLD_ERR_NANRES (stackBrick st)) else s

/-- A class-0x2 request on a stack (R332 to R336, R344). -/
def foldOp (st : Stack) (off op aux : Nat) (data : Bytes) (e : MemEnv) (s : State) : Reply × State :=
  if op = 0x20 || 0x24 ≤ op then ((0x01, []), s) else
  if !(aux = 0 || aux = 1 || aux = 4 || aux = 5) then ((0x31, []), s) else
  let w := foldWidth aux
  if data.length = 0 || data.length % w ≠ 0 || off % w ≠ 0 || off / 512 ≠ (off + data.length - 1) / 512 then ((0x32, []), s)
  else if !foldMode s st (off / granuleSize) then ((0x30, []), wrongMode st (off / granuleSize) op s)
  else
    ((0x00, []), s.each (piecesOf 64 off data.length) (fun s p =>
      foldSector st (p.1 / 64) op aux (p.1 % 64 / w) (elemsOf w ((data.drop (p.1 - off)).take p.2)) e s))

/-! ### Fold-mode reads and stores (R334, R337, R338) -/

/-- A read of a fold-mode granule: through the controller, merged with the deltas of its entries. -/
def foldRead (st : Stack) (off n : Nat) (e : MemEnv) (s : State) : Bytes × Bool × State :=
  let grout := groutSize s st off n
  let (bs, bad, s) := (piecesOf 64 off n).foldl (fun (acc : Bytes × Bool × State) p =>
    let (bs, bad, s) := acc
    let o := p.1 / 64 * 64
    let (sec, bad', s) := stackRead st o 64 e s
    let sec := match foldEntryOf s st (p.1 / 64) with
      | some x => mergedSector x sec
      | none => sec
    let s := if grout then s else s.count (Reg.STK_RDCNT_SECT st) 1
    (bs ++ (sec.drop (p.1 - o)).take p.2, bad || bad', s)) ([], false, s)
  (bs, bad, if grout then s.count (Reg.STK_GRCNT_READS st) 1 else s)

/-- A store to a fold-mode granule: entries of its sectors merge first. -/
def foldStore (st : Stack) (off : Nat) (bs : Bytes) (e : MemEnv) (s : State) : Bool × State :=
  (piecesOf 64 off bs.length).foldl (fun (acc : Bool × State) p =>
    let (landed, s) := acc
    let s := mergeRange st (p.1 / 64) (p.1 / 64 + 1) e s
    let (bad, s) := partialWrite st p.1 ((bs.drop (p.1 - off)).take p.2) e s
    (landed || bad, s)) (false, s)

/-! ### A home's access to its stack, in either mode -/

/-- A read of `n` bytes of a stack's window within one 512 B block. -/
def homeRead (st : Stack) (off n : Nat) (e : MemEnv) (s : State) : Bytes × Bool × State :=
  if foldMode s st (off / granuleSize) then foldRead st off n e s else bedRead st off n e s

/-- A store into a stack's window within one 512 B block. -/
def homeWrite (st : Stack) (off : Nat) (bs : Bytes) (e : MemEnv) (s : State) : Bool × State :=
  if foldMode s st (off / granuleSize) then foldStore st off bs e s else bedStore st off bs e s

/-- A LOAD at its home in a stack (R161, R379): 0x41 with undefined bytes where any byte is poisoned. -/
def homeLoad (st : Stack) (off n : Nat) (e : MemEnv) (s : State) : Reply × State :=
  let (bs, bad, s) := homeRead st off n e s
  if bad then
    let (free, s) := s.freeBytes n
    ((0x41, free), s)
  else ((0x00, bs), s)

/-- A STORE at its home in a stack (R161, R379). -/
def homeStore (st : Stack) (off : Nat) (bs : Bytes) (e : MemEnv) (s : State) : Reply × State :=
  let (landed, s) := homeWrite st off bs e s
  ((if landed then 0x40 else 0x00, []), s)

/-- Whether an operation on a stack has to go to its controller (it is then held while the controller holds its page, R394, R402). -/
def needsStack (s : State) (st : Stack) (off opc : Nat) (n : Nat) : Bool :=
  foldMode s st (off / granuleSize) || opc / 16 = 2 ||
  (if opc = 0x02 then (piecesOf 64 off n).any (fun p => p.2 ≠ 64 && !sectorHeld s st p.1) else !allHeld s st off n)

/-- Whether the controller of a stack is ON: domain 136 + n (R291). -/
def stackOn (s : State) (st : Stack) : Bool := s.rd (Reg.PWR_DOM_CUR (136 + st.val)) == 3

/-- Whether the granule of an offset is being changed (R346). -/
def changeHeld (s : State) (st : Stack) (off : Nat) : Bool :=
  match (s.stack st).change with
  | some (g, _, _) => off / granuleSize == g
  | none => false

/-- Whether an operation at a home is held now: its stack has lost PHY training (R351), its granule is being changed (R346), or its page is
being moved (R394). -/
def homeHeld (s : State) (st : Stack) (off opc n : Nat) : Bool :=
  let S := s.stack st
  (S.phyLost && needsStack s st off opc n) ||
  changeHeld s st off ||
  (match S.install with
    | some (p, _, _) => off / 4096 == p && needsStack s st off opc n
    | none => false)

/-! ### Commands -/

/-! ### The grout path (R316 to R318) -/

/-- Whether a read takes the grout path (R316): small enough, and of a fold-mode granule or missing in the bed cache. -/
def takesGrout (s : State) (st : Stack) (off n : Nat) : Bool :=
  groutSize s st off n && (foldMode s st (off / granuleSize) || !allHeld s st off n)

/-- A grout read of a stack by window offset: its pseudo-channel is that of the page it is remapped to (R311, R393). -/
def groutRead (s : State) (st : Stack) (off n : Nat) (use : GroutUse) : GroutRead :=
  { off := off, n := n, pc := pseudoChannel (physPage s st (off / 4096) * 4096 + off % 4096), use := use }

/-- Entries of one pseudo-channel's grout queue, and of the intake (R317). -/
def groutDepth : Nat := 8
def intakeDepth : Nat := 64

/-- Whether the intake has room for one more read (R317). -/
def groutRoom (s : State) (st : Stack) : Bool := decide ((s.stack st).groutIn.length < intakeDepth)

/-- A read enters the intake, and every read there whose pseudo-channel queue has room moves on, past reads to other pseudo-channels (R317). -/
def groutEnter (st : Stack) (x : GroutRead) (s : State) : State :=
  s.onStack st (fun S =>
    let m := (S.groutIn ++ [x]).foldl (fun (acc : List GroutRead × List GroutRead) y =>
      if (acc.1.filter (fun z => z.pc = y.pc)).length < groutDepth then (acc.1 ++ [y], acc.2) else (acc.1, acc.2 ++ [y])) (S.groutQ, [])
    { S with groutQ := m.1, groutIn := m.2 })

/-- Grout row activations of a pseudo-channel that GACT still counts: those of the last microsecond (R318). -/
def activations (s : State) (st : Stack) (pc : Nat) : Nat :=
  ((s.stack st).acts.filter (fun a => a.1 = pc && decide (s.plumb.toNat < a.2 + 1000))).length

/-- Whether GACT lets a grout read activate a row of a pseudo-channel for which a streaming request waits (R318). -/
def activationFree (s : State) (st : Stack) (pc : Nat) : Bool := decide (activations s st pc < s.rd (Reg.STK_CTL_GACT st))

/-- A grout row activation of a pseudo-channel noted. -/
def noteActivation (st : Stack) (pc : Nat) (s : State) : State :=
  s.onStack st (fun S => { S with acts := S.acts.filter (fun a => decide (s.plumb.toNat < a.2 + 1000)) ++ [(pc, s.plumb.toNat)] })

/-- FOLD_ENTRY_EVICT (R337): an entry of the fold buffer is merged into the stack. -/
def execFoldEntryEvict (st : Stack) (sector : BitVec 30) (e : MemEnv) (s : State) : Host.Outcome State Fault Refusal := ended s <|
  let s := memReports e s
  .next (mergeRange st sector.toNat (sector.toNat + 1) e s)

/-- Every entry of a stack's fold buffer merged. -/
def drainFolds (st : Stack) (e : MemEnv) (s : State) : State := mergeRange st 0 (2 ^ 40) e s

/-- DRAIN0 (R359): local stack 0 of a brick. -/
def execDrain0 (b : Brick) (e : MemEnv) (s : State) : Host.Outcome State Fault Refusal := ended s <|
  .next (drainFolds (stackOf (2 * b.val)) e (memReports e s))

/-- DRAIN1 (R359): local stack 1 of a brick. -/
def execDrain1 (b : Brick) (e : MemEnv) (s : State) : Host.Outcome State Fault Refusal := ended s <|
  .next (drainFolds (stackOf (2 * b.val + 1)) e (memReports e s))

/-- A write to FOLD_CHG: local stack, mode, first granule and count (R345, R347). -/
def startFoldChange (st : Stack) (mode : Bool) (first count : Nat) (s : State) : State :=
  let b := stackBrick st
  if s.isSet (Reg.FOLD_CHGST_BUSY b) || !stackOn s st || count = 0 || ceilDiv (winTop s st * 4096) granuleSize < first + count then
    s.flag (Reg.FOLD_ERR_CHGREF b)
  else
    let s := s.onStack st (fun S => { S with change := some (first, first + count, mode), changeFrom := first })
    (s.wr (Reg.FOLD_CHGST_BUSY b) 1).wr (Reg.FOLD_CHGST_NEXT b) first

/-- FOLD_CHG (R345, R347): a write to FOLD_CHG of brick `b`. -/
def execFoldChg (b : Brick) (v : Word) (s : State) : Host.Outcome State Fault Refusal := ended s <|
  let v := v.toNat
  .next (startFoldChange (stackOf (2 * b.val + bitsOf v 49 49)) (bitOf v 48) (bitsOf v 14 0) (bitsOf v 47 32) s)

/-- One granule changed (R345). -/
def changeGranule (st : Stack) (g : Nat) (mode : Bool) (e : MemEnv) (s : State) : State :=
  if foldMode s st g = mode then s else
  let s := if mode then flushLines st (g * granuleSize) ((g + 1) * granuleSize) e s
    else mergeRange st (g * granuleSize / 64) ((g + 1) * granuleSize / 64) e s
  setFoldMode st g mode s

/-- The temperature band of a stack at a temperature in 1/16 °C (R315): below 85 °C, up to 95 °C, and above. -/
def tempBand (t : BitVec 16) : Nat := if t.toInt < 1360 then 0 else if t.toInt ≤ 1520 then 1 else 2

/-- A stack reports its temperature band (R315, R350): HOT is set and event 0x2008 raised as the band rises to one with doubled refresh; a fall raises the
event alone. -/
def reportBand (st : Stack) (t : BitVec 16) (s : State) : State :=
  let old := s.rd (Reg.STK_STAT_TEMPBAND st)
  let band := tempBand t
  if old = band then s else
  let s := s.wr (Reg.STK_STAT_TEMPBAND st) band
  let s := if old < band then s.flag (Reg.STK_ERR_HOT st) else s
  s.raise 0x2008 [st.val, band]

/-- TEMPERATURE_BAND_CHANGE (R315, R350): a stack's temperature, in 1/16 °C, has come to lie in another band. -/
def execTemperatureBandChange (st : Stack) (t : BitVec 16) (s : State) : Host.Outcome State Fault Refusal := ended s <| .next (reportBand st t s)

end Sys2Proof.Machine
end

