-- ==== Sys2Proof/Machine/Steer.lean ====
section
/-! DEFINITION. How a unit that works for a host command tells it that the work has ended (R746, R748, R752). -/
namespace Sys2Proof.Machine
open Sys2Proof

/-- The work of a host command has ended: whether Done, its status of R748, and its RESULT. The final completion is posted by LONG_OP_END. -/
def endHostOp (id : Option Nat) (done : Bool) (status : Nat) (result : Bytes) (s : State) : State :=
  match id with
  | none => s
  | some i => { s with host := { s.host with ops := s.host.ops.map (fun o =>
      if o.id = i && o.ended.isNone then { o with ended := some (done, status), result := padTo 16 result } else o) } }

/-- Whether Done, and the status, of a unit's end state: 0 done, 1 cancelled, 2 failed (R404, R670, R748). -/
def endStatus (endState : Nat) : Bool × Nat :=
  match endState with
  | 0 => (true, 0x00)
  | 1 => (false, 0x08)
  | _ => (false, 0x0A)

end Sys2Proof.Machine
end

