-- ==== Sys2Proof/Machine/Repoint.lean ====
section
/-! DEFINITION. Page clears, the remap table, repointing passes and soft repair (R389, R394 to R405, R407). -/
namespace Sys2Proof.Machine
open Sys2Proof

/-! ### Page clears (R389) -/

/-- PGC_CLR (R389, R413): a write to PGC_CLR starts a clear, or is refused while one runs or where its range leaves the window. -/
def execPgcClr (st : Stack) (v : Word) (s : State) : Host.Outcome State Fault Refusal := ended s <|
  let all := bitOf v.toNat 63
  let count := bitsOf v.toNat 47 24
  let first := bitsOf v.toNat 23 0
  if !stackOn s st then .next s
  else if s.isSet (Reg.PGC_CLRST_BUSY st) || (!all && (count = 0 || winTop s st < first + count)) then .next (s.flag (Reg.PGC_ERR_REFUSED st))
  else
    let s := s.onStack st (fun S => { S with clearing := some (first, count, all) })
    .next ((s.wr (Reg.PGC_CLRST_BUSY st) 1).wr (Reg.PGC_CLRST_NEXT st) (if all then 0 else first))

/-- What a page clear does (R389). With ALL it clears every window, spare and poison-map page. -/
def clearRange (st : Stack) (first count : Nat) (all : Bool) (s : State) : State :=
  if all then clearStack st s else s.each (List.range count) (fun s i => clearPage st (first + i) s)

/-! ### The remap table (R394 to R397) -/

/-- A reason of R414's WHY for which an install of page `p` is refused (R395), or the entry and spare it takes. -/
def installPlan (s : State) (st : Stack) (p : Nat) : Nat × Nat × Nat :=
  match (List.range 16).find? (fun e => !s.isSet (Reg.RMP_ENT_VALID st e)) with
  | none => (1, 0, 0)
  | some e =>
    let used := Nat.lor (s.rd (Reg.RMP_SPUSE_INUSE st)) (s.rd (Reg.RMP_WORN_WORN st))
    match (List.range 64).find? (fun i => !bitOf used i) with
    | none => (2, 0, 0)
    | some i => if winTop s st ≤ p then (3, 0, 0) else if (remapEntry s st p).isSome then (4, 0, 0) else (0, e, i)

/-- Page `p`, held in physical page `src`, written as decoded (or as stored at t = 0, or where it is poisoned) to physical page `dst` as a full-page
write, its poison bit kept (R394, R396). -/
def movePage (st : Stack) (p src dst : Nat) (e : MemEnv) (s : State) : State :=
  let bad := pagePoisoned s st p
  let d := decodePage s st src e
  let decodes := curT s st ≠ 0 && !bad
  let s := if decodes then decodeOutcome st p src 0 d s else s
  let bad := pagePoisoned s st p
  let bs := if decodes then d.data else pageBytes s st src
  let s := fullWriteAt st p dst bs s
  if bad then setPoison s st p true else s

/-- An entry set: page `p` now lives in spare `i` (R392, R414). -/
def setEntry (st : Stack) (entry p i : Nat) (s : State) : State :=
  let s := ((s.wr (Reg.RMP_ENT_FROM st entry) p).wr (Reg.RMP_ENT_SPARE st entry) i).wr (Reg.RMP_ENT_VALID st entry) 1
  (s.flagBits (Reg.RMP_SPUSE_INUSE st) (2 ^ i)).raise 0x2105 [st.val, p, i]

/-- An install that is not refused, carried out (R394). -/
def installNow (st : Stack) (entry p i : Nat) (e : MemEnv) (s : State) : State :=
  setEntry st entry p i (movePage st p (physPage s st p) (winTop s st + i) e s)

/-- A refused install (R395). -/
def refuseInstall (st : Stack) (p why : Nat) (s : State) : State := s.raise 0x2106 [st.val, p, why]

/-- REMAP_INSTALL (R394, R395, R414): a write of OP 0x1 to RMP_CMD. From here until it is done, accesses to the page are held. -/
def execRemapInstall (st : Stack) (page : BitVec 24) (s : State) : Host.Outcome State Fault Refusal := ended s <|
  if !stackOn s st || s.isSet (Reg.RMP_CSTAT_BUSY st) then .next s else
  let p := page.toNat
  match installPlan s st p with
  | (0, entry, i) =>
    let s := s.onStack st (fun S => { S with install := some (p, i, entry) })
    .next ((s.wr (Reg.RMP_CSTAT_BUSY st) 1).wr (Reg.RMP_CSTAT_WHY st) 0)
  | (why, _, _) => .next (((refuseInstall st p why s).flag (Reg.RMP_CSTAT_FAIL st)).wr (Reg.RMP_CSTAT_WHY st) why)

/-- The install of a stack ends (R394): the held accesses are performed next, by the caller. -/
def finishInstall (st : Stack) (e : MemEnv) (s : State) : State :=
  match (s.stack st).install with
  | none => s
  | some (p, i, entry) =>
    let s := installNow st entry p i e s
    let s := s.onStack st (fun S => { S with install := none })
    (s.wr (Reg.RMP_CSTAT_BUSY st) 0).flag (Reg.RMP_CSTAT_DONE st)

/-- An entry released (R396): the spare copied back, the entry and the spare free, event 0x210B. -/
def releaseEntry (st : Stack) (entry : Nat) (e : MemEnv) (s : State) : State :=
  let p := s.rd (Reg.RMP_ENT_FROM st entry)
  let i := s.rd (Reg.RMP_ENT_SPARE st entry)
  let s := movePage st p (winTop s st + i) p e s
  let s := s.wr (Reg.RMP_ENT_VALID st entry) 0
  (s.wr (Reg.RMP_SPUSE_INUSE st) (withBits (s.rd (Reg.RMP_SPUSE_INUSE st)) i i 0)).raise 0x210B [st.val, p, i]

/-- REMAP_RELEASE (R396, R414): a write of OP 0x2 to RMP_CMD; an entry that is not valid is refused with WHY 0x5. -/
def execRemapRelease (st : Stack) (entry : Fin 32) (e : MemEnv) (s : State) : Host.Outcome State Fault Refusal := ended s <|
  if !stackOn s st || s.isSet (Reg.RMP_CSTAT_BUSY st) then .next s else
  let s := memReports e s
  if 16 ≤ entry.val || !s.isSet (Reg.RMP_ENT_VALID st entry.val) then
    .next ((s.flag (Reg.RMP_CSTAT_FAIL st)).wr (Reg.RMP_CSTAT_WHY st) 5)
  else .next (((releaseEntry st entry.val e s).flag (Reg.RMP_CSTAT_DONE st)).wr (Reg.RMP_CSTAT_WHY st) 0)

/-- A write of RMP_CMD (R17, R414): a reserved OP is refused with FAIL; WHY has no value for it and reads none (DESIGN CHOICE, log entry 213). -/
def writeRmpCmd (st : Stack) (v : Nat) (e : MemEnv) (s : State) : State :=
  match bitsOf v 63 61 with
  | 1 => after (execRemapInstall st (BitVec.ofNat 24 v)) s
  | 2 => after (execRemapRelease st ⟨bitsOf v 52 48 % 32, Nat.mod_lt _ (by decide)⟩ e) s
  | _ => if s.isSet (Reg.RMP_CSTAT_BUSY st) then s else (s.flag (Reg.RMP_CSTAT_FAIL st)).wr (Reg.RMP_CSTAT_WHY st) 0

/-! ### Repointing passes (R399 to R405) -/

/-- The states of PGC_SSTAT (R413). -/
def psRunning : Nat := 1
def psSuspending : Nat := 2
def psSuspended : Nat := 3
def psCancelling : Nat := 4
def psDone : Nat := 5
def psFailed : Nat := 6

/-- Whether a descriptor is valid for a stack (R399, R400). -/
def passDescOk (s : State) (st : Stack) (d : Bytes) : Bool :=
  let n := fun i k => leNat ((d.drop i).take k)
  let count := if n 4 4 = 0 then winTop s st - n 0 4 else n 4 4
  decide (n 0 4 + count ≤ winTop s st) && decide (n 0 4 ≤ winTop s st) && decide (n 8 4 ≤ 1000000) && n 12 1 / 16 == 0 && n 13 1 / 8 == 0 && n 14 2 == 0 &&
  n 24 8 == 0 && n 16 8 % 64 == 0

/-- Whether a stack has a pass that is not final (R401). -/
def passBusy (s : State) (st : Stack) : Bool := let x := s.rd (Reg.PGC_SSTAT_STATE st); decide (1 ≤ x ∧ x ≤ 4)

/-- A pass started from a valid descriptor (R399). -/
def startPass (st : Stack) (d : Bytes) (hostId : Option Nat) (s : State) : State :=
  let n := fun i k => leNat ((d.drop i).take k)
  let count := if n 4 4 = 0 then winTop s st - n 0 4 else n 4 4
  let p : Pass := {
    first := n 0 4, count := count, interval := n 8 4, lbl := n 12 1 % 16, remap := bitOf (n 13 1) 0, spares := bitOf (n 13 1) 1,
    summary := bitOf (n 13 1) 2, sumAddr := BitVec.ofNat 64 (n 16 8), hostId := hostId, startedAt := s.plumb.toNat }
  let s := s.onStack st (fun S => { S with pass := some p })
  (s.wr (Reg.PGC_SSTAT_STATE st) psRunning).wr (Reg.PGC_SSTAT_NEXT st) p.first

/-- The descriptor that stands in PGC_SDESC (R399). -/
def sdescBytes (s : State) (st : Stack) : Bytes := (List.range 4).flatMap (fun w => leBytes 8 (s.rd (Reg.PGC_SDESC_DESC st w)))

/-- PASS_START (R399 to R401): OP 0x1 of PGC_SCMD. A refusal sets REFUSED. -/
def execPassStart (st : Stack) (s : State) : Host.Outcome State Fault Refusal := ended s <|
  if !stackOn s st then .next s
  else if passBusy s st || !passDescOk s st (sdescBytes s st) then .next (s.flag (Reg.PGC_ERR_REFUSED st))
  else .next (startPass st (sdescBytes s st) none s)

/-- The descriptor of Hod's default pass: the whole stack once in 24 h, under label 15, with REMAP and SPARES (R405). -/
def defaultPass (s : State) (st : Stack) : Bytes :=
  leBytes 8 0 ++ leBytes 4 (86400000000 / (winTop s st + 64)) ++ [15, 3] ++ List.replicate 18 0

/-- The state with the pass of a stack changed. -/
def onPass (st : Stack) (f : Pass → Pass) (s : State) : State := s.onStack st (fun S => { S with pass := S.pass.map f })

/-- Hod starts its default pass of a stack, where it acts and the stack serves and has none (R405). -/
def startHodPass (st : Stack) (s : State) : State :=
  if !hodActs s || !stackOn s st || passBusy s st || (s.stack st).clearing.isSome then s
  else onPass st (fun p => { p with byHod := true }) (startPass st (defaultPass s st) none s)

/-- A pass asked to suspend: the page in progress is finished first (R403, R749, R750). -/
def suspendPass (st : Stack) (dev : Bool) (s : State) : State :=
  let s := onPass st (fun p => if dev then { p with devSusp := true } else { p with hostSusp := true }) s
  if s.rd (Reg.PGC_SSTAT_STATE st) = psRunning then s.wr (Reg.PGC_SSTAT_STATE st) psSuspending else s

/-- A hold flag of a pass cleared; it runs again once both are clear (R403, R749, R750). -/
def resumePass (st : Stack) (dev : Bool) (s : State) : State :=
  let s := onPass st (fun p => if dev then { p with devSusp := false } else { p with hostSusp := false }) s
  let x := s.rd (Reg.PGC_SSTAT_STATE st)
  match (s.stack st).pass with
  | some p => if (x = psSuspending || x = psSuspended) && !p.hostSusp && !p.devSusp then s.wr (Reg.PGC_SSTAT_STATE st) psRunning else s
  | none => s

/-- A pass asked to end (R403, R749). -/
def cancelPass (st : Stack) (s : State) : State :=
  let x := s.rd (Reg.PGC_SSTAT_STATE st)
  if x = psRunning || x = psSuspending || x = psSuspended then s.wr (Reg.PGC_SSTAT_STATE st) psCancelling else s

/-- PASS_SUSPEND (R403): OP 0x2 of PGC_SCMD. -/
def execPassSuspend (st : Stack) (s : State) : Host.Outcome State Fault Refusal := ended s <| .next (suspendPass st false s)
/-- PASS_RESUME (R403): OP 0x3. -/
def execPassResume (st : Stack) (s : State) : Host.Outcome State Fault Refusal := ended s <| .next (resumePass st false s)
/-- PASS_CANCEL (R403): OP 0x4. -/
def execPassCancel (st : Stack) (s : State) : Host.Outcome State Fault Refusal := ended s <| .next (cancelPass st s)

/-- A write of PGC_SCMD (R413): a reserved OP is a refused command (R17). -/
def writeScmd (st : Stack) (v : Nat) (s : State) : State :=
  match bitsOf v 2 0 with
  | 1 => after (execPassStart st) s
  | 2 => suspendPass st false s
  | 3 => resumePass st false s
  | 4 => cancelPass st s
  | _ => s.flag (Reg.PGC_ERR_REFUSED st)

/-- A failing page noted (R402, R404). -/
def noteFailing (p : Nat) (x : Pass) : Pass :=
  { x with firstFailing := if x.firstFailing = 0xFFFFFFFF then p else x.firstFailing, lastFailing := p }

/-- A page that a pass decodes: its class, its errors, and what the decode does; at t = 0 an on-die report alone (R374, R402). -/
def passDecode (st : Stack) (p : Nat) (e : MemEnv) (s : State) : PageClass × Nat × State :=
  let j := physPage s st p
  if curT s st = 0 then (if pagePoisoned s st p then .uncorrectable else .clean, 0, s)
  else
    let d := decodePage s st j e
    (d.cls, d.errors, decodeOutcome st p j 2 d s)

/-- The threshold of R402. -/
def rmapThr (s : State) (st : Stack) : Nat :=
  let r := s.rd (Reg.PGC_CTL_RMAPTHR st)
  if r = 0 then ceilDiv (curT s st) 2 else r

/-- Whether window page `p` lives in a worn spare (R397). -/
def inWornSpare (s : State) (st : Stack) (p : Nat) : Bool :=
  match remapEntry s st p with
  | some entry => bitOf (s.rd (Reg.RMP_WORN_WORN st)) (s.rd (Reg.RMP_ENT_SPARE st entry))
  | none => false

/-- The remap step of a pass (R394, R395, R397, R402): a page whose spare is worn moves to another spare under the same entry. -/
def passRemap (st : Stack) (p : Nat) (e : MemEnv) (s : State) : State :=
  let worn := s.rd (Reg.RMP_WORN_WORN st)
  match remapEntry s st p with
  | some entry =>
    let old := s.rd (Reg.RMP_ENT_SPARE st entry)
    if !inWornSpare s st p then onPass st (fun x => { x with refused := x.refused + 1 }) (refuseInstall st p 4 s) else
    match (List.range 64).find? (fun i => !bitOf (Nat.lor worn (s.rd (Reg.RMP_SPUSE_INUSE st))) i) with
    | none => onPass st (fun x => { x with refused := x.refused + 1 }) (refuseInstall st p 2 s)
    | some i =>
      let s := movePage st p (winTop s st + old) (winTop s st + i) e s
      let s := s.wr (Reg.RMP_SPUSE_INUSE st) (withBits (s.rd (Reg.RMP_SPUSE_INUSE st)) old old 0)
      onPass st (fun x => { x with remapped := x.remapped + 1 }) (setEntry st entry p i s)
  | none =>
    match installPlan s st p with
    | (0, entry, i) => onPass st (fun x => { x with remapped := x.remapped + 1 }) (installNow st entry p i e s)
    | (why, _, _) => onPass st (fun x => { x with refused := x.refused + 1 }) (refuseInstall st p why s)

/-- One window page of a pass (R402). `was` says whether it was poisoned before this command's memory reports; such a page has no class, and is remapped
only where it lives in a worn spare (R397; DEDUCED, log entry 214). -/
def passWindowPage (st : Stack) (x : Pass) (p : Nat) (was : Bool) (e : MemEnv) (s : State) : State :=
  let s := mergeRange st (p * 64) (p * 64 + 64) e s
  let s := onPass st (fun x => { x with pagesRead := x.pagesRead + 1 }) s
  let wornBefore := popcount 64 (s.rd (Reg.RMP_WORN_WORN st))
  let mayMap := x.remap && s.isSet (Reg.PGC_CTL_RMAPEN st)
  if was then
    let s := onPass st (fun x => noteFailing p { x with poisoned := x.poisoned + 1 }) s
    if mayMap && inWornSpare s st p then passRemap st p e s else s
  else
  let (cls, errors, s) := passDecode st p e s
  let s := onPass st (fun x =>
    let x := if cls = .clean then x else noteFailing p x
    match cls with
    | .clean => x
    | .corrected => { x with corrected := x.corrected + 1, symbols := x.symbols + errors }
    | .checkOnly => { x with checkOnly := x.checkOnly + 1, symbols := x.symbols + errors }
    | .uncorrectable => { x with poisoned := x.poisoned + 1 }) s
  let s := onPass st (fun x => { x with worn := x.worn + (popcount 64 (s.rd (Reg.RMP_WORN_WORN st)) - wornBefore) }) s
  if mayMap && (cls = .uncorrectable || rmapThr s st ≤ errors) then passRemap st p e s else s

/-- A spare not in use tested by a pass with SPARES (R399): decoded and written back; one that decodes uncorrectable is marked worn (DEDUCED, log
entry 31). -/
def passSpare (st : Stack) (i : Nat) (e : MemEnv) (s : State) : State :=
  let j := winTop s st + i
  if bitOf (s.rd (Reg.RMP_SPUSE_INUSE st)) i || bitOf (s.rd (Reg.RMP_WORN_WORN st)) i || curT s st = 0 then s else
  let d := decodePage s st j e
  match d.cls with
  | .clean => s
  | .uncorrectable =>
    onPass st (fun x => { x with worn := x.worn + 1 }) ((s.flagBits (Reg.RMP_WORN_WORN st) (2 ^ i)).raise 0x2108 [st.val, i])
  | _ => decodeOutcome st j j 2 d s

/-- The page after `p` in a pass: window pages, then the 64 spares with SPARES; none after the last. -/
def passNext (s : State) (st : Stack) (x : Pass) (p : Nat) : Option Nat :=
  if p < winTop s st then
    if p + 1 < x.first + x.count then some (p + 1) else if x.spares then some (winTop s st) else none
  else if p + 1 < winTop s st + 64 then some (p + 1) else none

/-- PASS_PAGE (R402, R403): the pass of a stack processes its next page, once INTERVAL has passed since the last. A pass that is suspending
finishes this page and is suspended. -/
def execPassPage (st : Stack) (e : MemEnv) (s : State) : Host.Outcome State Fault Refusal := ended s <|
  match (s.stack st).pass with
  | none => .next s
  | some x =>
    let state := s.rd (Reg.PGC_SSTAT_STATE st)
    let p := s.rd (Reg.PGC_SSTAT_NEXT st)
    let early := match x.pageAt with
      | some t => decide (s.plumb.toNat < t + x.interval * 1000)
      | none => false
    if !(state = psRunning || state = psSuspending || state = psCancelling) || early || x.finished || x.count = 0 then .next s else
    let was := p < winTop s st && pagePoisoned s st p
    let s := memReports e s
    let s := if p < winTop s st then passWindowPage st x p was e s else passSpare st (p - winTop s st) e s
    let after := passNext s st x p
    let s := onPass st (fun x => { x with pageAt := some s.plumb.toNat, finished := after.isNone }) s
    let s := s.wr (Reg.PGC_SSTAT_NEXT st) (after.getD (p + 1))
    .next (if state = psSuspending && after.isSome then s.wr (Reg.PGC_SSTAT_STATE st) psSuspended else s)

/-- The 64 B summary record of a pass (R404). -/
def passRecord (s : State) (st : Stack) (x : Pass) (endState : Nat) : Bytes :=
  leBytes 8 x.startedAt ++ leBytes 8 s.plumb.toNat ++ [BitVec.ofNat 8 st.val, BitVec.ofNat 8 endState, BitVec.ofNat 8 (s.rd (Reg.PGC_STAT_STRCUR st)),
    BitVec.ofNat 8 (bit x.remap + 2 * bit x.spares)] ++ leBytes 4 x.first ++ leBytes 4 x.pagesRead ++ leBytes 4 x.corrected ++ leBytes 4 x.checkOnly ++
  leBytes 4 x.poisoned ++ leBytes 2 x.remapped ++ leBytes 2 x.refused ++ leBytes 4 x.symbols ++ leBytes 4 x.firstFailing ++ leBytes 4 x.lastFailing ++
  leBytes 4 x.worn ++ leBytes 4 0

/-- A pass ends with an end state (R404): 0 done, 1 cancelled, 2 failed. A pass whose stack lost its rails writes no record (R411). -/
def endPass (st : Stack) (x : Pass) (endState : Nat) (record : Bool) (s : State) : State :=
  let b := stackBrick st
  let s := if x.summary && record then
      issueOp b (.engine b.val) { addr := x.sumAddr, opc := 0x02, aux := 0, lbl := labelOf x.lbl, size := 64, payload := passRecord s st x endState } s
    else s
  let s := s.onStack st (fun S => { S with pass := none })
  let s := endHostOp x.hostId (endStatus endState).1 (endStatus endState).2
    (leBytes 4 x.pagesRead ++ leBytes 4 x.corrected ++ leBytes 4 x.poisoned ++ leBytes 2 x.remapped ++ leBytes 1 endState ++
      leBytes 1 (if endState = 2 then 2 else 0)) s
  (s.wr (Reg.PGC_SSTAT_STATE st) (if endState = 0 then psDone else psFailed)).raise 0x2107 [st.val, endState]

/-- SOFT_REPAIR (R398): Hod repairs the row that holds an offset of a pseudo-channel, where both window pages with a course in it are remapped; then
it releases their entries. -/
def execSoftRepair (st : Stack) (off : BitVec 36) (e : MemEnv) (s : State) : Host.Outcome State Fault Refusal := ended s <|
  let a := off.toNat
  let pages := [withBits a 15 15 0 / 4096, withBits a 15 15 1 / 4096].filter (fun p => decide (p < winTop s st))
  let entries := pages.filterMap (fun p => remapEntry s st p)
  if !hodActs s || !stackOn s st || pages.isEmpty || entries.length ≠ pages.length then .next s else
  let pc := pseudoChannel a
  let row := (hbmAddr (channelAddr a)).row
  let fixed := (pc, channelAddr a / 1024)
  let s := s.onStack st (fun S => { S with repairs := S.repairs ++ [fixed], repaired := S.repaired ++ [fixed] })
  let s := s.raise 0x210C [st.val, pc, row]
  .next (s.each entries (fun s x => releaseEntry st x e s))

end Sys2Proof.Machine
end

