-- ==== Sys2Proof/Machine/SipHash.lean ====
section
/-! DEFINITION. SipHash-2-4 with a 128-bit key and a 64-bit result: the hash of a block of tokens (R658). -/
namespace Sys2Proof.Machine
open Sys2Proof

/-- The four words of a SipHash state. -/
structure SipState where
  v0 : Word
  v1 : Word
  v2 : Word
  v3 : Word
  deriving DecidableEq, Repr

/-- One SipHash round. -/
def sipRound (x : SipState) : SipState :=
  let a0 := x.v0 + x.v1
  let a1 := (x.v1.rotateLeft 13) ^^^ a0
  let a0 := a0.rotateLeft 32
  let a2 := x.v2 + x.v3
  let a3 := (x.v3.rotateLeft 16) ^^^ a2
  let b0 := a0 + a3
  let b3 := (a3.rotateLeft 21) ^^^ b0
  let b2 := a2 + a1
  let b1 := (a1.rotateLeft 17) ^^^ b2
  { v0 := b0, v1 := b1, v2 := b2.rotateLeft 32, v3 := b3 }

/-- One message word taken in, with two rounds. -/
def sipWord (x : SipState) (m : Word) : SipState :=
  let x := sipRound (sipRound { x with v3 := x.v3 ^^^ m })
  { x with v0 := x.v0 ^^^ m }

/-- The little-endian words of the first `n` whole words of a message. -/
def sipWords (bs : Bytes) : Nat → List Word
  | 0 => []
  | n + 1 => BitVec.ofNat 64 (leNat (bs.take 8)) :: sipWords (bs.drop 8) n

/-- SipHash-2-4 of a message under the key whose first 8 bytes are `k0` and last 8 bytes `k1`, each little-endian. -/
def sipHash (k0 k1 : Word) (bs : Bytes) : Word :=
  let x : SipState := { v0 := k0 ^^^ 0x736f6d6570736575, v1 := k1 ^^^ 0x646f72616e646f6d, v2 := k0 ^^^ 0x6c7967656e657261, v3 := k1 ^^^ 0x7465646279746573 }
  let x := (sipWords bs (bs.length / 8)).foldl sipWord x
  let last := BitVec.ofNat 64 (leNat (bs.drop (bs.length / 8 * 8)) + bs.length % 256 * 2 ^ 56)
  let x := sipWord x last
  let x := sipRound (sipRound (sipRound (sipRound { x with v2 := x.v2 ^^^ 0xFF })))
  x.v0 ^^^ x.v1 ^^^ x.v2 ^^^ x.v3

end Sys2Proof.Machine
end

