-- ==== Sys2Proof/Machine/Yard.lean ====
section
/-! DEFINITION. The slab yard: its table, its lists, and the class-0x5 operations on slabs and epochs (R625 to R655, R671 to R673). -/
namespace Sys2Proof.Machine
open Sys2Proof

/-! ### A yard operation: reads of its structures, and writes that land only when it is answered without a refusal (R638, R639) -/

/-- A yard operation under way: the state with what its reads did, the structure writes it has decided on, and the register changes that go with
them. -/
structure YardRun where
  s : State
  b : Brick
  e : MemEnv
  puts : List (Nat × Nat × Bytes) := []    -- stack, window offset, bytes; in order
  after : List (State → State) := []
  retired : Nat := 0                       -- slabs it retires (R670)

/-- A computation of the yard: it ends in a value, or in a refusal with its status and the address it concerns. -/
abbrev YM := EStateM (Nat × Nat) YardRun

/-- A yard operation refused with a status. -/
def refuse {α : Type} (status : Nat) : YM α := throw (status, 0)

/-- Bytes read, with the writes decided on laid over them. -/
def overlay (st off : Nat) (bs : Bytes) : List (Nat × Nat × Bytes) → Bytes
  | [] => bs
  | (st', o, ws) :: rest =>
    overlay st off (if st' = st then bs.mapIdx (fun i x => if o ≤ off + i && off + i < o + ws.length then ws.getD (off + i - o) 0 else x) else bs) rest

/-- The stack of a region, where it is one of the brick's own (R625). -/
def ownStack (b : Brick) (region : Nat) : Option Stack := if region < 8 && region / 2 = b.val then some (stackOf region) else none

/-- `n` bytes of a yard structure, within one 512 B block (R629, R673, R296). -/
def yGet (region off n : Nat) : YM Bytes := do
  let y ← get
  match ownStack y.b region with
  | none => refuse 0x01
  | some st =>
    if !stackOn y.s st || winTop y.s st * 4096 < off + n then refuse 0x01
    else if foldMode y.s st (off / granuleSize) then throw (0x51, region * 2 ^ 44 + off)
    else
      let (bs, bad, s) := homeRead st off n y.e y.s
      set { y with s := s }
      if bad then throw (0x63, region * 2 ^ 44 + off) else return overlay st.val off bs y.puts

/-- Bytes of a yard structure to be written. -/
def yPut (region off : Nat) (bs : Bytes) : YM Unit := modify (fun y => { y with puts := y.puts ++ [(region, off, bs)] })

/-- A change of registers or of the yard's own state that goes with the operation. -/
def yDo (f : State → State) : YM Unit := modify (fun y => { y with after := y.after ++ [f] })

/-- The state an operation reads its registers from. -/
def yState : YM State := return (← get).s

/-- The brick of the yard. -/
def yBrick : YM Brick := return (← get).b

/-! ### The header (R630) -/

/-- The yard header. -/
structure YardHeader where
  free0 : Nat
  n0 : Nat
  free1 : Nat
  n1 : Nat
  ret : List Nat
  retN : List Nat
  epoch : Nat
  ridx : Nat
  live : Nat
  area0 : Nat
  area1 : Nat
  base0 : Nat
  base1 : Nat
  deriving DecidableEq, Repr

/-- The null index (R628). -/
def nullIx : Nat := 0xFFFFFF

/-- A little-endian number of `n` bytes at offset `i`. -/
def numAt (bs : Bytes) (i n : Nat) : Nat := leNat ((bs.drop i).take n)

/-- A header from its bytes. -/
def headerOf (bs : Bytes) : YardHeader :=
  { free0 := numAt bs 0 3, n0 := numAt bs 4 4, free1 := numAt bs 8 3, n1 := numAt bs 12 4,
    ret := (List.range 3).map (fun k => numAt bs (16 + 4 * k) 3), retN := (List.range 3).map (fun k => numAt bs (28 + 4 * k) 4),
    epoch := numAt bs 40 2, ridx := numAt bs 42 1 % 4 % 3, live := numAt bs 44 4, area0 := numAt bs 48 4, area1 := numAt bs 52 4,
    base0 := numAt bs 56 4, base1 := numAt bs 60 4 }

/-- The 256 B of a header. -/
def headerBytes (h : YardHeader) : Bytes :=
  padTo 256 (leBytes 4 h.free0 ++ leBytes 4 h.n0 ++ leBytes 4 h.free1 ++ leBytes 4 h.n1 ++ h.ret.flatMap (leBytes 4) ++ h.retN.flatMap (leBytes 4) ++
    leBytes 2 h.epoch ++ leBytes 2 h.ridx ++ leBytes 4 h.live ++ leBytes 4 h.area0 ++ leBytes 4 h.area1 ++ leBytes 4 h.base0 ++ leBytes 4 h.base1)

/-- Region and offset of the slab table of a brick. -/
def tableAt (s : State) (b : Brick) : Nat × Nat := (s.rd (Reg.SLB_TBASE_REGION b), s.rd (Reg.SLB_TBASE_OFFSET b) * 4096)

/-- The header read. -/
def getHeader : YM YardHeader := do
  let (r, o) := tableAt (← yState) (← yBrick)
  return headerOf (← yGet r o 256)

/-- The header written. Its counts and its epoch show in SLB_STAT and SLB_STATE (R678). -/
def putHeader (h : YardHeader) : YM Unit := do
  let b ← yBrick
  let (r, o) := tableAt (← yState) b
  yPut r o (headerBytes h)
  yDo (fun s => (((s.wr (Reg.SLB_STAT_EPOCH b) h.epoch).wr (Reg.SLB_STAT_FREE0 b) h.n0).wr (Reg.SLB_STAT_FREE1 b) h.n1).wr (Reg.SLB_STATE_RIDX b) h.ridx)

/-! ### Descriptors (R631, R632) -/

/-- A slab descriptor; `flags` is bits [3:0] of R631: PRESERVED, POISONED, PINNED, SHARED. -/
structure Desc where
  sloc : Nat := 0
  ref : Nat := 0
  ns : Nat := 0
  flags : Nat := 0
  hash : Nat := 0
  ver : Nat := 0
  repoch : Nat := 0
  st : Nat := 0              -- 0 free, 1 live, 2 retiring, 3 fenced
  busy : Bool := false
  dst : Bool := false
  link : Nat := 0
  pos : Nat := 0
  user : Nat := 0
  deriving DecidableEq, Repr

/-- A descriptor from its bytes. -/
def descOf (bs : Bytes) : Desc :=
  let f := numAt bs 6 2
  let st := numAt bs 19 1
  { sloc := numAt bs 0 4, ref := numAt bs 4 2, ns := f / 16, flags := f % 16, hash := numAt bs 8 8, ver := numAt bs 16 2, repoch := numAt bs 18 1,
    st := st % 4, busy := bitOf st 2, dst := bitOf st 3, link := numAt bs 20 3, pos := numAt bs 24 6, user := numAt bs 30 2 }

/-- The 32 B of a descriptor. -/
def descBytes (d : Desc) : Bytes :=
  leBytes 4 d.sloc ++ leBytes 2 d.ref ++ leBytes 2 (d.ns * 16 + d.flags) ++ leBytes 8 d.hash ++ leBytes 2 d.ver ++ leBytes 1 d.repoch ++
  leBytes 1 (d.st + 4 * bit d.busy + 8 * bit d.dst) ++ leBytes 4 d.link ++ leBytes 6 d.pos ++ leBytes 2 d.user

def Desc.shared (d : Desc) : Bool := bitOf d.flags 0
def Desc.pinned (d : Desc) : Bool := bitOf d.flags 1
def Desc.poisoned (d : Desc) : Bool := bitOf d.flags 2
def Desc.preserved (d : Desc) : Bool := bitOf d.flags 3
def Desc.live (d : Desc) : Bool := d.st == 1

/-- Whether an index lies in the table (R628). -/
def indexOk (s : State) (b : Brick) (i : Nat) : Bool := decide (8 ≤ i ∧ i < 8 + s.rd (Reg.SLB_DCNT_N0 b) + s.rd (Reg.SLB_DCNT_N1 b))

/-- A descriptor read; an index outside the table is answered 0x52. -/
def getDesc (i : Nat) : YM Desc := do
  let s ← yState
  let b ← yBrick
  if indexOk s b i then
    let (r, o) := tableAt s b
    return descOf (← yGet r (o + 32 * i) 32)
  else refuse 0x52

/-- A descriptor written. -/
def putDesc (i : Nat) (d : Desc) : YM Unit := do
  let (r, o) := tableAt (← yState) (← yBrick)
  yPut r (o + 32 * i) (descBytes d)

/-- The live slab that a handle names (R632): 0x52 where it is stale, 0x53 where the slab is not live. -/
def getLive (i ver : Nat) : YM Desc := do
  let d ← getDesc i
  if d.ver ≠ ver then refuse 0x52
  if !d.live then refuse 0x53
  return d

/-- Region and offset of a slab's data (R631, R637). -/
def slocAt (sloc : Nat) : Nat × Nat := (bitsOf sloc 31 28, bitsOf sloc 27 0 * 0x10000)

/-- Global address of a slab's data (R637). -/
def slabAddr (s : State) (sloc : Nat) : Nat := s.ownSeatNo * 2 ^ 48 + bitsOf sloc 31 28 * 2 ^ 44 + bitsOf sloc 27 0 * 0x10000

/-- The stack, 0 or 1 of its brick, that holds a slab's data. -/
def slocStack (sloc : Nat) : Nat := bitsOf sloc 28 28

/-! ### Lists (R640, R643, R644, R651) -/

/-- A slab joins the head of the free list of the stack that holds its data (the place in the list is a DESIGN CHOICE, log entry 48). -/
def joinFree (i : Nat) (d : Desc) (h : YardHeader) : YM YardHeader := do
  if slocStack d.sloc = 0 then
    putDesc i { d with link := h.free0 }
    return { h with free0 := i, n0 := h.n0 + 1 }
  else
    putDesc i { d with link := h.free1 }
    return { h with free1 := i, n1 := h.n1 + 1 }

/-- A slab retires (R643): onto the retire list of the current epoch, its flags unchanged. -/
def retireSlab (i : Nat) (d : Desc) (h : YardHeader) : YM YardHeader := do
  modify (fun y => { y with retired := y.retired + 1 })
  putDesc i { d with ref := 0, st := 2, repoch := h.epoch % 256, link := h.ret.getD h.ridx nullIx }
  return { h with ret := h.ret.set h.ridx i, retN := h.retN.set h.ridx (h.retN.getD h.ridx 0 + 1), live := h.live - 1 }

/-- References released (R642, R643). A release beyond REF is refused with 0x55. -/
def releaseRefs (i n : Nat) (d : Desc) : YM Desc := do
  if d.pinned then return d
  if d.ref < n then refuse 0x55
  let d := { d with ref := d.ref - n }
  if d.ref = 0 then
    let h ← getHeader
    putHeader (← retireSlab i d h)
  else putDesc i d
  return d

/-- References added (R641, R642): a sum above 65,535 pins the slab and raises event 0x2302. -/
def addRefs (i n : Nat) (d : Desc) : YM Desc := do
  if d.pinned then return d
  if 65535 < d.ref + n then
    let b ← yBrick
    yDo (fun s => (s.flag (Reg.SLB_ERR_SAT b)).raise 0x2302 [b.val, i])
    return { d with ref := 65535, flags := Nat.lor d.flags 2 }
  return { d with ref := d.ref + n }

/-- A slab allocated (R640), or 0x54 where the list is empty. -/
def allocSlab (stk ns : Nat) (preserved : Bool) : YM (Nat × Desc) := do
  let h ← getHeader
  let second := stk = 1 || (stk = 2 && decide (h.n0 < h.n1))
  let i := if second then h.free1 else h.free0
  if (if second then h.n1 else h.n0) = 0 || i = nullIx then throw (0x54, bit second)
  let d ← getDesc i
  let d := { d with st := 1, ver := (d.ver + 1) % 65536, ref := 1, ns := ns, flags := if preserved then 8 else 0, hash := 0, pos := 0, user := 0, busy := false, dst := false }
  let h := if second then { h with free1 := d.link, n1 := h.n1 - 1 } else { h with free0 := d.link, n0 := h.n0 - 1 }
  let d := { d with link := 0 }
  putDesc i d
  putHeader { h with live := h.live + 1 }
  let b ← yBrick
  yDo (fun s => s.count (Reg.SLB_CNT0_ALLOCS b) 1)
  return (i, d)

/-- A list of descriptors freed, from its head on (R644, R651); `n` bounds the walk. -/
def freeList : Nat → Nat → YardHeader → YM YardHeader
  | 0, _, h => return h
  | n + 1, i, h => do
    if i = nullIx then return h
    let d ← getDesc i
    let next := d.link
    let h ← joinFree i { d with st := 0, flags := 0, hash := 0, pos := 0, user := 0 } h
    freeList n next h

/-! ### Answers -/

/-- A handle in an answer: the index in bytes 0–3 and VER in bytes 4–5 (R637). -/
def handleBytes (i ver : Nat) : Bytes := leBytes 4 i ++ leBytes 2 ver

/-- Pins of an epoch: own, then the host's (R650). -/
def pinField (b : Brick) (host : Bool) (epoch : Nat) : FieldRef :=
  if host then (if epoch % 2 = 0 then Reg.SLB_HPINS_HPINS0 b else Reg.SLB_HPINS_HPINS1 b)
  else (if epoch % 2 = 0 then Reg.SLB_PINS_PINS0 b else Reg.SLB_PINS_PINS1 b)

/-- A pin of an epoch returned. -/
def unpin (b : Brick) (host : Bool) (epoch n : Nat) (s : State) : State := s.wr (pinField b host epoch) (s.rd (pinField b host epoch) - n)

/-- SALLOC (R640). -/
def ySalloc (d : Bytes) : YM Bytes := do
  let (i, x) ← allocSlab (numAt d 0 1 % 4) (numAt d 2 2) (bitOf (numAt d 0 1) 3)
  return handleBytes i x.ver ++ [0, 0] ++ leBytes 8 (slabAddr (← yState) x.sloc)

/-- SREF (R641, R642). -/
def ySref (d : Bytes) : YM Bytes := do
  let i := numAt d 0 3
  let x ← addRefs i (numAt d 6 2) (← getLive i (numAt d 4 2))
  putDesc i x
  return leBytes 2 x.ref ++ leBytes 1 x.flags

/-- SREL (R642, R643). -/
def ySrel (d : Bytes) : YM Bytes := do
  let i := numAt d 0 3
  let x ← releaseRefs i (numAt d 6 2) (← getLive i (numAt d 4 2))
  return leBytes 2 x.ref ++ leBytes 1 x.flags

/-- SSET (R649): SET, then CLR, then the writes. -/
def ySset (admin : Bool) (d : Bytes) : YM Bytes := do
  let i := numAt d 0 3
  let set' := numAt d 6 1
  let clr := numAt d 7 1
  let w := numAt d 8 1
  let x ← getLive i (numAt d 4 2)
  if (clr % 8 ≠ 0 || bitOf w 2) && !admin then refuse 0x02
  let flags := Nat.lor x.flags set' - Nat.land (Nat.lor x.flags set') clr
  if bitOf w 2 && bitOf flags 1 then refuse 0x01
  let x := { x with flags := flags, pos := if bitOf w 0 then numAt d 16 6 else x.pos, user := if bitOf w 1 then numAt d 10 2 else x.user,
                    ref := if bitOf w 2 then numAt d 12 2 else x.ref }
  if bitOf w 2 && x.ref = 0 then
    putHeader (← retireSlab i x (← getHeader))
  else putDesc i x
  return leBytes 2 x.ref ++ leBytes 1 x.flags

/-- Retire lists of the tree spliced to its free list (R651, R665). -/
def freeNodes (region off : Nat) : Nat → Nat → Bytes → YM Bytes
  | 0, _, h => return h
  | n + 1, i, h => do
    if i = nullIx then return h
    let x ← yGet region (off + 512 * i) 512
    yPut region (off + 512 * i + 18) [0]
    yPut region (off + 512 * i + 20) (leBytes 4 (numAt h 0 4))
    freeNodes region off n (numAt x 20 3) (leBytes 4 i ++ leBytes 4 (numAt h 4 4 + 1) ++ h.drop 8)

/-- An epoch advance (R651): 0x5E while a reader of the previous epoch still works. -/
def advanceEpoch : YM YardHeader := do
  let s ← yState
  let b ← yBrick
  let h ← getHeader
  if s.rd (pinField b false (h.epoch + 65535)) ≠ 0 || s.rd (pinField b true (h.epoch + 65535)) ≠ 0 then throw (0x5E, h.epoch)
  let epoch := (h.epoch + 1) % 65536
  let ridx := (h.ridx + 1) % 3
  let k := (ridx + 1) % 3
  let freed := h.retN.getD k 0
  let h ← freeList freed (h.ret.getD k nullIx) { h with epoch := epoch, ridx := ridx }
  putHeader { h with ret := h.ret.set k nullIx, retN := h.retN.set k 0 }
  if s.isSet (Reg.PFX_STAT_READY b) then
    let r := s.rd (Reg.PFX_NBASE_REGION b)
    let o := s.rd (Reg.PFX_NBASE_OFFSET b) * 4096
    let t ← yGet r o 512
    let t' ← freeNodes r o (s.rd (Reg.PFX_NCNT_NCOUNT b)) (numAt t (12 + 4 * k) 3) (t.take 24)
    yPut r o ((t'.take (12 + 4 * k)) ++ leBytes 4 nullIx ++ (t'.drop (16 + 4 * k)))
    yDo (fun s => s.wr (Reg.PFX_STAT_NFREE b) (numAt t' 4 4))
  yDo (fun s =>
    let s := s.onBrick b (fun B => { B with yard := { B.yard with memo := B.yard.memo.filter (fun m => decide ((epoch + 65536 - m.made) % 65536 < 2)) } })
    (s.count (Reg.SLB_CNT0_FREES b) freed).wr (Reg.SLB_STATE_MEMO b) (s.brick b).yard.memo.length)
  return { h with ret := h.ret.set k nullIx, retN := h.retN.set k 0 }

/-- SEPOCH (R650): read, advance, pin, unpin, release. An answer 0x5E carries EPOCH too (DEDUCED, log entry 49). -/
def ySepoch (host admin : Bool) (d : Bytes) : YM Bytes := do
  let s ← yState
  let b ← yBrick
  let sub := numAt d 0 1
  if sub = 4 && !admin then refuse 0x02
  if sub = 1 then
    let h ← advanceEpoch
    return leBytes 2 h.epoch ++ [1]
  let h ← getHeader
  if sub = 0 then return leBytes 2 h.epoch ++ [0]
  if sub = 2 then
    let f := pinField b host h.epoch
    if s.rd f = 0xFFFFFFFF then refuse 0x56
    yDo (fun s => s.wr f (s.rd f + 1))
    return leBytes 2 h.epoch ++ [0]
  let ep := numAt d 2 2
  let f := pinField b (sub = 3 && host) ep
  let n := if sub = 3 then 1 else numAt d 4 4
  if (ep ≠ h.epoch && (ep + 1) % 65536 ≠ h.epoch) || s.rd f < n then throw (0x5E, h.epoch)
  yDo (fun s => s.wr f (s.rd f - n))
  return leBytes 2 h.epoch ++ [0]

/-! ### SCOW (R645 to R648) -/

/-- Whether a brick's stack that holds a slab's data answers. -/
def slabOn (s : State) (b : Brick) (sloc : Nat) : Bool := match ownStack b (slocAt sloc).1 with
  | some st => stackOn s st
  | none => false

/-- What a SCOW decides: an answer at once, or a copy to make. -/
inductive Scow where
  | done (payload : Bytes)
  | copy (src dst : Nat)
  deriving DecidableEq, Repr

/-- SCOW up to the copy (R645). -/
def yScow (d : Bytes) : YM Scow := do
  let s ← yState
  let b ← yBrick
  let Y := (s.brick b).yard
  let i := numAt d 0 3
  let ver := numAt d 4 2
  let owner := numAt d 8 4
  let x ← getLive i ver
  if owner = 0 then refuse 0x58
  let answer := fun (j : Nat) (y : Desc) (outcome : Nat) => Scow.done (handleBytes j y.ver ++ leBytes 2 outcome ++ leBytes 8 (slabAddr s y.sloc))
  match Y.memo.find? (fun m => m.idx = i && m.ver = ver && m.owner = owner) with
  | some m =>
    let y ← getDesc m.copyIdx
    if y.live && y.ver = m.copyVer then return answer m.copyIdx y 2
  | none => pure ()
  if !x.pinned && x.ref = 1 then
    let x := { x with flags := x.flags - x.flags % 2, hash := 0 }
    putDesc i x
    return answer i x 0
  if 4096 ≤ Y.memo.length + Y.copies.length then refuse 0x57
  let (j, y) ← allocSlab (numAt d 6 1 % 4) x.ns x.preserved
  if !slabOn s b x.sloc || !slabOn s b y.sloc then refuse 0x01
  putDesc i { x with busy := true }
  putDesc j { y with dst := true }
  return .copy i j

/-- One page of a slab read at its home and written elsewhere as a full-page write (R647); answers whether it read poisoned. -/
def copySlabPage (b : Brick) (src dst k : Nat) (e : MemEnv) (s : State) : Bool × State :=
  match ownStack b (slocAt src).1, ownStack b (slocAt dst).1 with
  | some st, some st' =>
    let (bs, bad, s) := (List.range 8).foldl (fun (acc : Bytes × Bool × State) i =>
      let (bs, bad, s) := acc
      let (x, bad', s) := homeRead st ((slocAt src).2 + k * 4096 + i * 512) 512 e s
      (bs ++ x, bad || bad', s)) ([], false, s)
    let (bs, s) := if bad then s.freeBytes 4096 else (bs, s)
    let o := (slocAt dst).2 + k * 4096
    let s := if foldMode s st' (o / granuleSize) then mergeRange st' (o / 64) (o / 64 + 64) e s
      else s.onBrick b (fun B => { B with bed := B.bed.filter (fun l => !(keyStack l.1 = st' && decide (o ≤ keyOff l.1 ∧ keyOff l.1 < o + 4096))) })
    (bad, fullWrite st' (o / 4096) bs s)
  | _, _ => (true, s)

/-- A slab's data copied; answers whether any page read poisoned. -/
def copySlabData (b : Brick) (src dst : Nat) (e : MemEnv) (s : State) : Bool × State :=
  (List.range 16).foldl (fun (acc : Bool × State) k =>
    let (bad, s) := copySlabPage b src dst k e acc.2
    (acc.1 || bad, s)) (false, s)

/-- The end of a SCOW's copy (R645, R647, R648): its answer. -/
def yFinishCopy (c : SlabCopy) (bad : Bool) : YM Bytes := do
  let s ← yState
  let b ← yBrick
  let x ← getDesc c.src
  let y ← getDesc c.dst
  let h ← getHeader
  putDesc c.src { x with busy := false, ref := if x.pinned then x.ref else x.ref - 1 }
  let y := { y with dst := false, flags := if bad then Nat.lor y.flags 4 else y.flags }
  putDesc c.dst y
  let m : MemoEntry := { idx := c.src, ver := x.ver, owner := c.owner, copyIdx := c.dst, copyVer := y.ver, made := h.epoch }
  yDo (fun s =>
    let s := s.onBrick b (fun B => { B with yard := { B.yard with memo := B.yard.memo ++ [m] } })
    let s := (s.wr (Reg.SLB_STATE_MEMO b) (s.brick b).yard.memo.length).count (Reg.SLB_CNT1_COPIES b) 1
    if bad then s.raise 0x2305 [b.val, c.src, c.dst] else s)
  return handleBytes c.dst y.ver ++ [1, 0] ++ leBytes 8 (slabAddr s y.sloc)

/-! ### Running a yard operation -/

/-- What a refusal records (R629, R640, R663, R673, R674, R678, R679). -/
def noteRefusal (b : Brick) (status arg : Nat) (s : State) : State :=
  match status with
  | 0x51 => (s.flag (Reg.SLB_ERR_FOLDM b)).raise 0x2304 [b.val, arg]
  | 0x63 => (s.flag (Reg.SLB_ERR_STRPOIS b)).raise 0x2308 [b.val, arg]
  | 0x54 =>
    let s := s.flag (Reg.SLB_ERR_EMPTY b)
    if mayRaise s.now (s.brick b).yard.emptyAt arg then
      (s.onBrick b (fun B => { B with yard := { B.yard with emptyAt := (arg, s.now) :: B.yard.emptyAt.filter (fun x => x.1 ≠ arg) } })).raise 0x2309 [b.val, arg]
    else s
  | 0x5B => s.flag (Reg.PFX_ERR_FULL b)
  | 0x5C => (s.flag (Reg.PFX_ERR_CHAIN b)).raise 0x2306 [b.val, arg]
  | _ => s

/-- The structure writes of an operation made, and its register changes (R639). -/
def landRun (y : YardRun) : State :=
  let s := y.s.each y.puts (fun s p => (piecesOf 512 p.2.1 p.2.2.length).foldl (fun s q =>
    (homeWrite (stackOf p.1) q.1 ((p.2.2.drop (q.1 - p.2.1)).take q.2) y.e s).2) s)
  s.each y.after (fun s f => f s)

/-- A yard operation run: its value and the state, or the status it is refused with and the argument, its writes not made. -/
def runYard {α : Type} (b : Brick) (e : MemEnv) (m : YM α) (s : State) : Except (Nat × Nat) α × State :=
  match m { s := s, b := b, e := e } with
  | .ok x y => (.ok x, landRun y)
  | .error r y => (.error r, noteRefusal b r.1 r.2 y.s)

/-- The reply of a yard operation. -/
def yardReply (b : Brick) (e : MemEnv) (m : YM Bytes) (s : State) : Reply × State :=
  match runYard b e m s with
  | (.ok x, s) => ((0x00, x), s)
  | (.error (st, arg), s) =>
    ((st, if st = 0x5E then leBytes 2 arg ++ [0] else []), s)

end Sys2Proof.Machine
end

