-- ==== Sys2Proof/Machine/Tree.lean ====
section
/-! DEFINITION. The prefix tree of a yard: nodes, buckets, insertion, walks and deletion (R656 to R665), and the class-0x5 operations taken
together (R626, R636 to R639). -/
namespace Sys2Proof.Machine
open Sys2Proof

/-- A prefix-tree node (R657). -/
structure Node where
  hash : Nat
  pnode : Nat
  pver : Nat
  ns : Nat
  ver : Nat
  st : Nat               -- 0 free, 1 live, 2 retiring
  repoch : Nat
  next : Nat
  lastUse : Nat
  tokens : Bytes         -- 128 B
  slabs : List Nat
  deriving DecidableEq, Repr

/-- LG of a brick's tree (R656). -/
def layerGroups (s : State) (b : Brick) : Nat := s.rd (Reg.PFX_CTL_LGM1 b) + 1

/-- A node from its bytes. -/
def nodeOf (lg : Nat) (bs : Bytes) : Node :=
  { hash := numAt bs 0 8, pnode := numAt bs 8 3, pver := numAt bs 12 2, ns := numAt bs 14 2 % 4096, ver := numAt bs 16 2, st := numAt bs 18 1,
    repoch := numAt bs 19 1, next := numAt bs 20 3, lastUse := numAt bs 24 8, tokens := (bs.drop 32).take 128,
    slabs := (List.range lg).map (fun g => numAt bs (160 + 4 * g) 3) }

/-- The 512 B of a node. -/
def nodeBytes (n : Node) : Bytes :=
  padTo 512 (leBytes 8 n.hash ++ leBytes 4 n.pnode ++ leBytes 2 n.pver ++ leBytes 2 n.ns ++ leBytes 2 n.ver ++ leBytes 1 n.st ++ leBytes 1 n.repoch ++
    leBytes 4 n.next ++ leBytes 8 n.lastUse ++ n.tokens ++ n.slabs.flatMap (leBytes 4))

/-- Region and offset of the node array. -/
def nodesAt (s : State) (b : Brick) : Nat × Nat := (s.rd (Reg.PFX_NBASE_REGION b), s.rd (Reg.PFX_NBASE_OFFSET b) * 4096)
/-- Region and offset of the bucket array. -/
def bucketsAt (s : State) (b : Brick) : Nat × Nat := (s.rd (Reg.PFX_BBASE_REGION b), s.rd (Reg.PFX_BBASE_OFFSET b) * 4096)

/-- Whether a node index names a node of the array other than the header. -/
def nodeOk (s : State) (b : Brick) (i : Nat) : Bool := decide (1 ≤ i ∧ i < s.rd (Reg.PFX_NCNT_NCOUNT b))

/-- A node read; an index outside the array is answered 0x61. -/
def getNode (i : Nat) : YM Node := do
  let s ← yState
  let b ← yBrick
  if nodeOk s b i then
    let (r, o) := nodesAt s b
    return nodeOf (layerGroups s b) (← yGet r (o + 512 * i) 512)
  else refuse 0x61

/-- A node written. -/
def putNode (i : Nat) (n : Node) : YM Unit := do
  let (r, o) := nodesAt (← yState) (← yBrick)
  yPut r (o + 512 * i) (nodeBytes n)

/-- A live node under a handle and a namespace, or 0x61. -/
def getLiveNode (i ver ns : Nat) : YM Node := do
  let n ← getNode i
  if n.st ≠ 1 || n.ver ≠ ver || n.ns ≠ ns then refuse 0x61
  return n

/-- The head of a bucket. -/
def getBucket (k : Nat) : YM Nat := do
  let (r, o) := bucketsAt (← yState) (← yBrick)
  return numAt (← yGet r (o + 4 * k) 4) 0 3

/-- The head of a bucket written. -/
def putBucket (k i : Nat) : YM Unit := do
  let (r, o) := bucketsAt (← yState) (← yBrick)
  yPut r (o + 4 * k) (leBytes 4 i)

/-- The tree header (R656): free head, free count, live count and three retire lists. -/
structure TreeHeader where
  free : Nat
  nfree : Nat
  nlive : Nat
  ret : List Nat
  deriving DecidableEq, Repr

/-- The tree header read. -/
def getTree : YM TreeHeader := do
  let (r, o) := nodesAt (← yState) (← yBrick)
  let x ← yGet r o 512
  return { free := numAt x 0 3, nfree := numAt x 4 4, nlive := numAt x 8 4, ret := (List.range 3).map (fun k => numAt x (12 + 4 * k) 3) }

/-- The tree header written; its counts show in PFX_STAT. -/
def putTree (h : TreeHeader) : YM Unit := do
  let b ← yBrick
  let (r, o) := nodesAt (← yState) b
  yPut r o (leBytes 4 h.free ++ leBytes 4 h.nfree ++ leBytes 4 h.nlive ++ h.ret.flatMap (leBytes 4))
  yDo (fun s => (s.wr (Reg.PFX_STAT_NFREE b) h.nfree).wr (Reg.PFX_STAT_NLIVE b) h.nlive)

/-! ### Hash and search (R658, R661) -/

/-- The keyed hash of a block (R658). -/
def blockHash (key : BitVec 128) (parent ns : Nat) (tokens : Bytes) : Nat :=
  (sipHash (key.extractLsb' 0 64) (key.extractLsb' 64 64) (leBytes 8 parent ++ leBytes 8 ns ++ padTo 128 tokens)).toNat

/-- The bucket of a hash. -/
def bucketOf (s : State) (b : Brick) (h : Nat) : Nat := h % 2 ^ s.rd (Reg.PFX_CTL_BBITS b)

/-- What a search of a bucket finds. -/
structure Found where
  hit : Option (Nat × Node) := none
  seen : Nat := 0          -- nodes seen
  deep : Bool := false     -- a 65th node was met
  coll : Nat := 0          -- nodes that match the hash and not the rest
  deriving DecidableEq, Repr

/-- The search of a chain for a block, at most 64 nodes deep (R661, R664). -/
def searchChain (h ns pnode pver : Nat) (tokens : Bytes) : Nat → Nat → Found → YM Found
  | 0, i, f => return { f with deep := i ≠ nullIx }
  | fuel + 1, i, f => do
    if i = nullIx then return f
    let n ← getNode i
    let f := { f with seen := f.seen + 1 }
    if n.hash = h then
      if n.ns = ns && n.pnode = pnode && n.pver = pver && n.tokens = tokens then return { f with hit := some (i, n) }
      else searchChain h ns pnode pver tokens fuel n.next { f with coll := f.coll + 1 }
    else searchChain h ns pnode pver tokens fuel n.next f

/-- The search of the bucket of a hash; hash-only matches count in COLL. -/
def searchBlock (h ns pnode pver : Nat) (tokens : Bytes) : YM Found := do
  let b ← yBrick
  let k := bucketOf (← yState) b h
  let f ← searchChain h ns pnode pver tokens 64 (← getBucket k) {}
  if f.coll ≠ 0 then yDo (fun s => s.count (Reg.PFX_CNT1_COLL b) f.coll)
  return f

/-- The slab of an index, where the table has it. -/
def slabOf? (i : Nat) : YM (Option Desc) := do
  if indexOk (← yState) (← yBrick) i then return some (← getDesc i) else return none

/-- Whether every slab of a set is live and not poisoned, and of a namespace where one is asked for. -/
def slabsGood (ns : Option Nat) : List Nat → YM Bool
  | [] => return true
  | i :: is => do
    match ← slabOf? i with
    | none => return false
    | some d => if d.live && !d.poisoned && (match ns with
        | some x => d.ns == x
        | none => true) then slabsGood ns is else return false

/-- One reference released on each slab of a set that is live (R643, R665). -/
def dropEach : List Nat → YM Unit
  | [] => return ()
  | i :: is => do
    match ← slabOf? i with
    | none => pure ()
    | some d => if d.live && (d.pinned || 1 ≤ d.ref) then discard (releaseRefs i 1 d) else pure ()
    dropEach is

/-- One reference added to each slab of a set (R641, R642). -/
def takeEach : List Nat → YM Unit
  | [] => return ()
  | i :: is => do
    putDesc i (← addRefs i 1 (← getDesc i))
    takeEach is

/-- Each slab of a new node takes a reference and becomes SHARED, with the node's hash (R660). -/
def shareEach (hash : Nat) : List Nat → YM Unit
  | [] => return ()
  | i :: is => do
    let d ← addRefs i 1 (← getDesc i)
    putDesc i { d with flags := Nat.lor d.flags 1, hash := hash }
    shareEach hash is

/-- The valid key of a namespace. -/
def nsKey (s : State) (b : Brick) (ns : Nat) : Option (BitVec 128) := tabFind (s.brick b).yard.keys ns

/-- The key of a namespace, or 0x59 (R659). -/
def getKey (ns : Nat) : YM (BitVec 128) := do
  match nsKey (← yState) (← yBrick) ns with
  | some k => return k
  | none => refuse 0x59

/-- The slab indices that a PINS names. -/
def pinsSlabs (lg : Nat) (d : Bytes) : List Nat := (List.range lg).map (fun g => numAt d (144 + 4 * g) 4)

/-- PINS (R660): the status, 0x00 or 0x5A, and the answer. -/
def yPins (d : Bytes) : YM (Nat × Bytes) := do
  let s ← yState
  let b ← yBrick
  let parent := numAt d 0 3
  let pver := if parent = nullIx then 0 else numAt d 4 2
  let ns := numAt d 6 2
  let key ← getKey ns
  let phash ← (if parent = nullIx then pure 0 else do
    let p ← getLiveNode parent pver ns
    return p.hash)
  let tokens := (d.drop 16).take 128
  let h := blockHash key phash ns tokens
  if h = 0 then refuse 0x5D
  let f ← searchBlock h ns parent pver tokens
  match f.hit with
  | some (i, n) => return (0x5A, handleBytes i n.ver ++ [0, 0] ++ leBytes 8 n.hash)
  | none =>
    let slabs := pinsSlabs (layerGroups s b) d
    if !(← slabsGood (some ns) slabs) then refuse 0x62
    let t ← getTree
    if t.nfree = 0 || t.free = nullIx then refuse 0x5B
    if 64 ≤ f.seen then throw (0x5C, bucketOf s b h)
    let i := t.free
    let old ← getNode i
    let k := bucketOf s b h
    let n : Node := { hash := h, pnode := parent, pver := pver, ns := ns, ver := (old.ver + 1) % 65536, st := 1, repoch := 0, next := ← getBucket k,
                      lastUse := s.plumb.toNat, tokens := tokens, slabs := slabs }
    putNode i n
    putBucket k i
    putTree { t with free := old.next, nfree := t.nfree - 1, nlive := t.nlive + 1 }
    shareEach h slabs
    yDo (fun s => s.count (Reg.PFX_CNT1_INSERTS b) 1)
    return (0x00, handleBytes i n.ver ++ [0, 0] ++ leBytes 8 h)

/-- A node taken out of its bucket's chain. -/
def unlinkNode (k i next : Nat) : Nat → Nat → YM Unit
  | 0, _ => return ()
  | fuel + 1, j => do
    if j = nullIx then return ()
    let n ← getNode j
    if n.next = i then putNode j { n with next := next } else unlinkNode k i next fuel n.next

/-- A live node deleted (R665): unlinked, one reference released on each of its slabs, and put on the retire list of the current epoch. -/
def deleteNode (i : Nat) (n : Node) : YM Unit := do
  let s ← yState
  let b ← yBrick
  let k := bucketOf s b n.hash
  let head ← getBucket k
  if head = i then putBucket k n.next else unlinkNode k i n.next (s.rd (Reg.PFX_NCNT_NCOUNT b)) head
  dropEach n.slabs
  let h ← getHeader
  let t ← getTree
  putNode i { n with st := 2, repoch := h.epoch % 256, next := t.ret.getD h.ridx nullIx }
  putTree { t with ret := t.ret.set h.ridx i, nlive := t.nlive - 1 }

/-- PDEL (R659, R665). -/
def yPdel (d : Bytes) : YM Bytes := do
  let ns := numAt d 6 2
  let _ ← getKey ns
  let i := numAt d 0 3
  let n ← getLiveNode i (numAt d 4 2) ns
  deleteNode i n
  return []

/-- Whether a PDEL would release a reference of a slab that is being copied, so that it is held (R646). -/
def yPdelHeld (d : Bytes) : YM Bool := do
  let s ← yState
  let b ← yBrick
  let n ← getNode (numAt d 0 3)
  return n.slabs.any (fun i => (s.brick b).yard.copies.any (fun c => c.src = i))

/-! ### Walks (R661 to R664) -/

/-- Bytes of a result entry (R661). -/
def entrySize (lg : Nat) : Nat := ceilDiv (16 + 4 * lg) 16 * 16

/-- A result entry (R662). -/
def resultEntry (i : Nat) (n : Node) (taken : Bool) : Bytes :=
  padTo (entrySize n.slabs.length) (leBytes 4 i ++ leBytes 2 n.ver ++ leBytes 1 n.slabs.length ++ leBytes 1 (bit taken) ++ leBytes 8 n.hash ++ n.slabs.flatMap (leBytes 4))

/-- The start of a walk (R653, R659, R661): the hash of its start node and the epoch it pins. -/
def yWalkStart (d : Bytes) : YM (Nat × Nat) := do
  let s ← yState
  let b ← yBrick
  let ns := numAt d 6 2
  let _ ← getKey ns
  let start := numAt d 0 3
  let hash ← (if start = nullIx then pure 0 else do
    let n ← getLiveNode start (numAt d 4 2) ns
    return n.hash)
  let h ← getHeader
  let f := pinField b false h.epoch
  if s.rd f = 0xFFFFFFFF then refuse 0x56
  yDo (fun s => s.wr f (s.rd f + 1))
  return (hash, h.epoch)

/-- What one block of a walk comes to. -/
inductive WalkStep where
  | stop (code : Nat) (bucket : Nat)
  | hit (i : Nat) (n : Node)
  | wait                         -- a slab to be taken is being copied (R646)
  deriving DecidableEq, Repr

/-- One block of a walk, its tokens read (R661). -/
def yWalkBlock (ns node ver hash : Nat) (take : Bool) (tokens : Bytes) : YM WalkStep := do
  let s ← yState
  let b ← yBrick
  let key ← getKey ns
  let h := blockHash key hash ns tokens
  let f ← searchBlock h ns node ver tokens
  match f.hit with
  | none => return .stop (if f.deep then 0x3 else 0x1) (bucketOf s b h)
  | some (i, n) =>
    if !(← slabsGood none n.slabs) then return .stop 0x2 0
    if take && (s.brick b).yard.copies.any (fun c => n.slabs.contains c.src) then return .wait
    if take then takeEach n.slabs
    putNode i { n with lastUse := s.plumb.toNat }
    yDo (fun s => s.count (Reg.PFX_CNT0_HITS b) 1)
    return .hit i n

/-! ### All of class 0x5 (R626, R636 to R639, R646, R659) -/

/-- SIZE of a class-0x5 request (R636); none for a code that is rejected. -/
def yardSize (lg opc : Nat) : Option Nat :=
  match opc with
  | 0x51 => some 4
  | 0x52 | 0x53 => some 8
  | 0x54 => some 12
  | 0x55 => some 24
  | 0x56 => some 8
  | 0x58 => some (144 + 4 * lg)
  | 0x59 => some 32
  | 0x5A => some 8
  | _ => none

/-- Whether a payload keeps its reserved and zero fields zero, and its fields in range (R636, R637). -/
def yardPayloadOk (lg opc : Nat) (d : Bytes) : Bool :=
  let n := numAt d
  let zero := fun (i k : Nat) => n i k == 0
  match opc with
  | 0x51 => decide (n 0 1 % 4 ≠ 3) && n 0 1 / 4 % 2 == 0 && n 0 1 / 16 == 0 && zero 1 1 && decide (n 2 2 < 4096)
  | 0x52 | 0x53 => zero 3 1 && decide (1 ≤ n 6 2)
  | 0x54 => zero 3 1 && decide (n 6 1 ≤ 2) && zero 7 1
  | 0x55 => zero 3 1 && decide (n 6 1 < 16 ∧ n 7 1 < 16 ∧ n 8 1 < 8) && Nat.land (n 6 1) (n 7 1) == 0 && zero 9 1 && zero 14 2 && zero 22 2
  | 0x56 =>
    zero 1 1 && (match n 0 1 with
      | 0 | 1 | 2 => zero 2 6
      | 3 => zero 4 4
      | 4 => decide (1 ≤ n 4 4)
      | _ => false)
  | 0x58 => zero 3 1 && decide (n 6 2 < 4096) && zero 8 8 && (List.range lg).all (fun g => zero (147 + 4 * g) 1)
  | 0x59 => zero 3 1 && decide (n 6 2 < 4096) && decide (1 ≤ n 8 1 ∧ n 8 1 ≤ 64) && decide (n 9 1 < 2) && zero 10 6 && n 16 8 % 128 == 0 && n 24 8 % 16 == 0 &&
    decide (addrRegion (n 16 8) ≤ 8) && decide (addrRegion (n 24 8) ≤ 8)
  | 0x5A => zero 3 1 && decide (n 6 2 < 4096)
  | _ => true

/-- Whether a request names a slab that is being copied, so that it is held (R646). -/
def yardHeld (s : State) (b : Brick) (opc : Nat) (d : Bytes) : Bool :=
  let busy := fun (i : Nat) => (s.brick b).yard.copies.any (fun c => c.src = i)
  match opc with
  | 0x52 | 0x53 | 0x54 | 0x55 => busy (numAt d 0 3)
  | 0x58 => (pinsSlabs (layerGroups s b) d).any busy
  | _ => false

/-- A namespace key that is not valid recorded (R659). -/
def noteNoKey (b : Brick) (ns seat opc : Nat) (s : State) : State :=
  let s := s.flag (Reg.PFX_ERR_NOKEY b)
  if mayRaise s.now (s.brick b).yard.noKeyAt ns then
    (s.onBrick b (fun B => { B with yard := { B.yard with noKeyAt := (ns, s.now) :: B.yard.noKeyAt.filter (fun x => x.1 ≠ ns) } })).raise 0x230B [b.val, ns, seat, opc]
  else s

/-- What the yard does with a request. -/
inductive YardAnswer where
  | reply (r : Reply)
  | held                     -- kept in arrival order (R646)
  | started                  -- a copy or a walk has begun, and will answer
  deriving DecidableEq, Repr

/-- The address at which a yard performs requests: region and offset of the table (R626). -/
def yardAddr (s : State) (b : Brick) : Nat := (tableAt s b).1 * 2 ^ 44 + (tableAt s b).2

/-- The load of the token IDs of a walk's block (R661). -/
def walkLoad (b : Brick) (w : Walk) (s : State) : State :=
  let d := w.pkt.payload
  issueOp b (.walk b.val w.id) {
    addr := BitVec.ofNat 64 (numAt d 16 8 + 128 * w.block), opc := 0x01, aux := 0, lbl := labelOf w.pkt.lbl.toNat, size := 128, payload := [] } s

/-- A class-0x5 request that the region keys have let through (R626 to R667). -/
def yardOp (b : Brick) (w : Who) (admin : Bool) (p : Packet) (e : MemEnv) (s : State) : YardAnswer × State :=
  let opc := p.opc.toNat
  let d := p.payload
  let lg := layerGroups s b
  let reply := fun (x : Reply × State) => (YardAnswer.reply x.1, x.2)
  if bitsOf p.addr.toNat 47 0 ≠ yardAddr s b || yardSize lg opc ≠ some d.length || !yardPayloadOk lg opc d then (.reply (0x01, []), s)
  else if !s.isSet (Reg.SLB_STATE_READY b) || (0x58 ≤ opc && !s.isSet (Reg.PFX_STAT_READY b)) then (.reply (0x50, []), s)
  else if 0x58 ≤ opc && (nsKey s b (numAt d 6 2)).isNone then (.reply (0x59, []), noteNoKey b (numAt d 6 2) w.seat opc s)
  else if yardHeld s b opc d then (.held, s)
  else match opc with
    | 0x51 => reply (yardReply b e (ySalloc d) s)
    | 0x52 => reply (yardReply b e (ySref d) s)
    | 0x53 => reply (yardReply b e (ySrel d) s)
    | 0x54 =>
      match runYard b e (yScow d) s with
      | (.ok (.done x), s) => (.reply (0x00, x), s)
      | (.ok (.copy i j), s) =>
        (.started, s.onBrick b (fun B => { B with yard := { B.yard with copies := B.yard.copies ++ [{ src := i, dst := j, owner := numAt d 8 4, pkt := p }] } }))
      | (.error r, s) => (.reply (r.1, []), s)
    | 0x55 => reply (yardReply b e (ySset admin d) s)
    | 0x56 =>
      let (r, s) := yardReply b e (ySepoch w.host admin d) s
      (.reply r, if r.1 = 0x5E && numAt d 0 1 = 1 then s.count (Reg.SLB_CNT1_EBUSY b) 1 else s)
    | 0x58 =>
      match runYard b e (yPins d) s with
      | (.ok x, s) => (.reply x, s)
      | (.error r, s) => (.reply (r.1, []), s)
    | 0x59 =>
      match runYard b e (yWalkStart d) s with
      | (.ok (hash, epoch), s) =>
        let root := numAt d 0 3 = nullIx
        let x : Walk := { id := (s.brick b).yard.nextWalk, pkt := p, block := 0, node := numAt d 0 3, ver := if root then 0 else numAt d 4 2, hash := hash, epoch := epoch }
        let s := s.onBrick b (fun B => { B with yard := { B.yard with walks := B.yard.walks ++ [x], nextWalk := B.yard.nextWalk + 1 } })
        (.started, walkLoad b x s)
      | (.error r, s) => (.reply (r.1, []), s)
    | _ => match runYard b e (yPdelHeld d) s with
      | (.ok true, _) => (.held, s)
      | _ => reply (yardReply b e (yPdel d) s)

end Sys2Proof.Machine
end

