-- ==== Sys2Proof/Machine/Extent.lean ====
section
/-! DEFINITION. Which offsets of each region are populated (R38, R41, R47, R310), and how a long access is cut into requests (R161). -/
namespace Sys2Proof.Machine
open Sys2Proof

/-- Whether `n` bytes from an offset lie in one populated range of a region of memory, bonds or check views (R38, R41, R47, R310, R369). Registers of
region 0xA and host space have rules of their own. -/
def populated (s : State) (region off n : Nat) : Bool :=
  if region ≤ 7 then decide (off + n ≤ winTop s (stackOf region) * 4096)
  else if region = 8 then
    let o := off % 0x800000
    decide (off / 0x800000 < 128) && (decide (o + n ≤ 0x600000) || (decide (0x700000 ≤ o) && decide (o + n ≤ 0x720000)))
  else if region = 9 then decide (off + n ≤ 0x400000)
  else if region = 0xC then
    let st := stackOf (off / 2 ^ 40)
    let d := winTop s st
    let k := slotsPer (curT s st)
    decide (off / 2 ^ 40 < 8) && decide (off % 2 ^ 40 + n ≤ (mapPages d + (if k = 0 then 0 else ceilDiv (dataPages d) k)) * 4096)
  else false

/-- LOADs of `n` bytes from an address, split at 512 B boundaries (R161). -/
def loadsOf (lbl addr n : Nat) : List Op :=
  (piecesOf 512 (addrOffset addr) n).map (fun x => { addr := BitVec.ofNat 64 (addr - addrOffset addr + x.1), opc := 0x01, aux := 0, lbl := labelOf lbl, size := x.2, payload := [] })

/-- STOREs of bytes from an address on, split at 512 B boundaries (R161). -/
def storesOf (lbl addr : Nat) (bs : Bytes) : List Op :=
  (piecesOf 512 (addrOffset addr) bs.length).map (fun x =>
    { addr := BitVec.ofNat 64 (addr - addrOffset addr + x.1), opc := 0x02, aux := 0, lbl := labelOf lbl, size := x.2,
      payload := (bs.drop (x.1 - addrOffset addr)).take x.2 })

end Sys2Proof.Machine
end

