-- ==== Sys2Proof/Machine/Jobs.lean ====
section
/-! DEFINITION. Formatting and enabling the yard and the tree, namespace keys, epoch advances by the clock, and yard jobs
(R635, R652, R659, R668 to R670, R677 to R679). -/
namespace Sys2Proof.Machine
open Sys2Proof

/-! ### Format and enable -/

/-- `n` bytes of a yard structure that are about to be written whole: they must lie in a bed-mode granule of one of the brick's stacks that answers
(R625, R629, R296). -/
def yMay (region off n : Nat) : YM Unit := do
  let y ← get
  match ownStack y.b region with
  | none => refuse 0x01
  | some st =>
    if !stackOn y.s st || winTop y.s st * 4096 < off + n then refuse 0x01
    else if foldMode y.s st (off / granuleSize) then throw (0x51, region * 2 ^ 44 + off)
    else return ()

/-- DBASE0 or DBASE1 in the encoding of SLOC (R630, R631). -/
def dataBase (s : State) (b : Brick) (second : Bool) : Nat :=
  if second then s.rd (Reg.SLB_DBASE1_REGION b) * 2 ^ 28 + s.rd (Reg.SLB_DBASE1_OFFSET b)
  else s.rd (Reg.SLB_DBASE0_REGION b) * 2 ^ 28 + s.rd (Reg.SLB_DBASE0_OFFSET b)

/-- Whether the slab areas that the configuration names lie in the brick's stacks (R625, R671). -/
def areasOk (s : State) (b : Brick) : Bool :=
  let n0 := s.rd (Reg.SLB_DCNT_N0 b)
  let n1 := s.rd (Reg.SLB_DCNT_N1 b)
  let ok := fun (base n : Nat) => n == 0 || match ownStack b (slocAt base).1 with
    | some st => stackOn s st && decide ((slocAt base).2 + n * 0x10000 ≤ winTop s st * 4096)
    | none => false
  decide (1 ≤ n0 + n1 ∧ n0 + n1 ≤ 16777207) && ok (dataBase s b false) n0 && ok (dataBase s b true) n1

/-- The state with every descriptor as a format leaves it (R635), from index `8 + k` on; `n` of them. -/
def formatDescs (s : State) (b : Brick) : Nat → Nat → YM Unit
  | 0, _ => return ()
  | n + 1, k => do
    let n0 := s.rd (Reg.SLB_DCNT_N0 b)
    let n1 := s.rd (Reg.SLB_DCNT_N1 b)
    let sloc := if k < n0 then dataBase s b false + k else dataBase s b true + (k - n0)
    let same := slocStack (dataBase s b false) = slocStack (dataBase s b true)
    let link := if k + 1 = n0 then (if same && n1 ≠ 0 then 8 + n0 else nullIx) else if k + 1 = n0 + n1 then nullIx else 9 + k
    let (r, o) := tableAt s b
    yMay r (o + 32 * (8 + k)) 32
    putDesc (8 + k) { sloc := sloc, link := link }
    formatDescs s b n (k + 1)

/-- A format (R635): every descriptor free, the lists in ascending index order, the epoch and the retire lists empty. A slab joins the list of the
stack that holds it (DEDUCED from R644, log entry 55). -/
def yFormat : YM Unit := do
  let s ← yState
  let b ← yBrick
  if !areasOk s b then refuse 0x01
  let n0 := s.rd (Reg.SLB_DCNT_N0 b)
  let n1 := s.rd (Reg.SLB_DCNT_N1 b)
  let d0 := slocStack (dataBase s b false)
  let d1 := slocStack (dataBase s b true)
  let head := fun (k : Nat) => if n0 ≠ 0 && d0 = k then 8 else if n1 ≠ 0 && d1 = k then 8 + n0 else nullIx
  let count := fun (k : Nat) => (if d0 = k then n0 else 0) + (if d1 = k then n1 else 0)
  let (r, o) := tableAt s b
  yMay r o 256
  formatDescs s b (n0 + n1) 0
  putHeader { free0 := head 0, n0 := count 0, free1 := head 1, n1 := count 1, ret := [nullIx, nullIx, nullIx], retN := [0, 0, 0], epoch := 0, ridx := 0,
              live := 0, area0 := n0, area1 := n1, base0 := dataBase s b false, base1 := dataBase s b true }

/-- YARD_FORMAT (R635): a write of 1 to FMT of SLB_CTL while EN is 0. -/
def execYardFormat (b : Brick) (s : State) : Host.Outcome State Fault Refusal := ended s <|
  .next (if s.isSet (Reg.SLB_CTL_EN b) || s.isSet (Reg.SLB_STATE_BUSY b) then s else s.wr (Reg.SLB_STATE_BUSY b) 1)

/-- YARD_FORMAT_DONE (R635): the format is written and event 0x2301 raised. A format whose structures may not stand where the configuration puts them
writes nothing (R629, R671). -/
def execYardFormatDone (b : Brick) (e : MemEnv) (s : State) : Host.Outcome State Fault Refusal := ended s <|
  if !s.isSet (Reg.SLB_STATE_BUSY b) || s.isSet (Reg.SLB_CTL_EN b) then .next s else
  match runYard b e yFormat (memReports e s) with
  | (.ok _, s) => .next ((s.wr (Reg.SLB_STATE_BUSY b) 0).raise 0x2301 [b.val, 0])
  | (.error _, s) => .next (s.wr (Reg.SLB_STATE_BUSY b) 0)

/-- Whether the header agrees with the configuration registers (R677). -/
def yCheck : YM Unit := do
  let s ← yState
  let b ← yBrick
  let h ← getHeader
  if !areasOk s b || h.area0 ≠ s.rd (Reg.SLB_DCNT_N0 b) || h.area1 ≠ s.rd (Reg.SLB_DCNT_N1 b) || h.base0 ≠ dataBase s b false ||
     h.base1 ≠ dataBase s b true then refuse 0x01
  yDo (fun s => (((s.wr (Reg.SLB_STAT_EPOCH b) h.epoch).wr (Reg.SLB_STAT_FREE0 b) h.n0).wr (Reg.SLB_STAT_FREE1 b) h.n1).wr (Reg.SLB_STATE_RIDX b) h.ridx)

/-- EN of SLB_CTL set (R677): the configuration is checked, and the scan begins. -/
def enableYard (b : Brick) (e : MemEnv) (s : State) : State :=
  if s.isSet (Reg.SLB_CTL_EN b) || s.isSet (Reg.SLB_STATE_BUSY b) then s else
  match runYard b e yCheck s with
  | (.ok _, s) => (s.wr (Reg.SLB_CTL_EN b) 1).wr (Reg.SLB_STATE_BUSY b) 1
  | (.error _, s) => s.flag (Reg.SLB_ERR_BADCFG b)

/-- YARD_ENABLE (R677): a write of 1 to EN of SLB_CTL. -/
def execYardEnable (b : Brick) (e : MemEnv) (s : State) : Host.Outcome State Fault Refusal := ended s <| .next (enableYard b e (memReports e s))

/-- One descriptor of the enable scan (R677): BUSY cleared; a copy destination retired with REF 0. -/
def yScan (i : Nat) : YM Unit := do
  let b ← yBrick
  let d ← getDesc i
  if d.dst && d.live then
    putHeader (← retireSlab i { d with busy := false, dst := false } (← getHeader))
    yDo (fun s => s.raise 0x230A [b.val, i])
  else if d.busy || d.dst then putDesc i { d with busy := false, dst := false }
  else return ()

/-- ENABLE_SCAN_DONE (R677): every descriptor scanned, then READY. A copy destination takes REF 0 as it retires (DEDUCED, log entry 56). -/
def execEnableScanDone (b : Brick) (e : MemEnv) (s : State) : Host.Outcome State Fault Refusal := ended s <|
  if !s.isSet (Reg.SLB_STATE_BUSY b) || !s.isSet (Reg.SLB_CTL_EN b) then .next s else
  let s := memReports e s
  let s := s.each (List.range (s.rd (Reg.SLB_DCNT_N0 b) + s.rd (Reg.SLB_DCNT_N1 b))) (fun s k => (runYard b e (yScan (8 + k)) s).2)
  .next ((s.wr (Reg.SLB_STATE_BUSY b) 0).wr (Reg.SLB_STATE_READY b) 1)

/-- EN of SLB_CTL cleared: the yard no longer serves. -/
def disableYard (b : Brick) (s : State) : State :=
  (((s.wr (Reg.SLB_CTL_EN b) 0).wr (Reg.SLB_STATE_READY b) 0).wr (Reg.SLB_STATE_BUSY b) 0)

/-- Every bucket null, from bucket `k` on (R679). -/
def formatBuckets : Nat → Nat → YM Unit
  | 0, _ => return ()
  | n + 1, k => do
    let (r, o) := bucketsAt (← yState) (← yBrick)
    yMay r (o + 4 * k) 4
    putBucket k nullIx
    formatBuckets n (k + 1)

/-- Every node free, from node `i` on (R679); VER 0. -/
def formatNodes (count : Nat) : Nat → Nat → YM Unit
  | 0, _ => return ()
  | n + 1, i => do
    let s ← yState
    let (r, o) := nodesAt s (← yBrick)
    yMay r (o + 512 * i) 512
    putNode i { hash := 0, pnode := 0, pver := 0, ns := 0, ver := 0, st := 0, repoch := 0, next := if i + 1 = count then nullIx else i + 1, lastUse := 0,
                tokens := List.replicate 128 0, slabs := [] }
    formatNodes count n (i + 1)

/-- The format of a tree (R656, R679). -/
def yTreeFormat : YM Unit := do
  let s ← yState
  let b ← yBrick
  let n := s.rd (Reg.PFX_NCNT_NCOUNT b)
  if n < 2 then refuse 0x01
  let (r, o) := nodesAt s b
  yMay r o 512
  formatBuckets (2 ^ s.rd (Reg.PFX_CTL_BBITS b)) 0
  formatNodes n (n - 1) 1
  yPut r o (List.replicate 512 0)
  putTree { free := 1, nfree := n - 1, nlive := 0, ret := [nullIx, nullIx, nullIx] }

/-- TREE_FORMAT (R679): a write of 1 to FMT of PFX_CTL while the tree's EN is 0. -/
def execTreeFormat (b : Brick) (s : State) : Host.Outcome State Fault Refusal := ended s <|
  .next (if s.isSet (Reg.PFX_CTL_EN b) then s else s.wr (Reg.PFX_STAT_BUSY b) 1)

/-- TREE_FORMAT_DONE (R679): buckets null, nodes free, event 0x2301. -/
def execTreeFormatDone (b : Brick) (e : MemEnv) (s : State) : Host.Outcome State Fault Refusal := ended s <|
  if !s.isSet (Reg.PFX_STAT_BUSY b) then .next s else
  match runYard b e yTreeFormat (memReports e s) with
  | (.ok _, s) => .next ((s.wr (Reg.PFX_STAT_BUSY b) 0).raise 0x2301 [b.val, 1])
  | (.error _, s) => .next (s.wr (Reg.PFX_STAT_BUSY b) 0)

/-- The tree's header read for its EN (R677): its counts show in PFX_STAT. -/
def yTreeCheck : YM Unit := do
  let b ← yBrick
  let t ← getTree
  let n := (← yState).rd (Reg.PFX_NCNT_NCOUNT b)
  if n < 2 || n ≤ t.nfree + t.nlive then refuse 0x01
  yDo (fun s => (s.wr (Reg.PFX_STAT_NFREE b) t.nfree).wr (Reg.PFX_STAT_NLIVE b) t.nlive)

/-- EN of PFX_CTL set (R677): it needs the yard READY and a header that holds. -/
def enableTree (b : Brick) (e : MemEnv) (s : State) : State :=
  if s.isSet (Reg.PFX_CTL_EN b) then s
  else if !s.isSet (Reg.SLB_STATE_READY b) || s.isSet (Reg.PFX_STAT_BUSY b) then s.flag (Reg.PFX_ERR_BADCFG b)
  else match runYard b e yTreeCheck s with
    | (.ok _, s) => (s.wr (Reg.PFX_CTL_EN b) 1).wr (Reg.PFX_STAT_READY b) 1
    | (.error _, s) => s.flag (Reg.PFX_ERR_BADCFG b)

/-- TREE_ENABLE (R677): a write of 1 to EN of PFX_CTL. -/
def execTreeEnable (b : Brick) (e : MemEnv) (s : State) : Host.Outcome State Fault Refusal := ended s <| .next (enableTree b e (memReports e s))

/-- EN of PFX_CTL cleared: the tree no longer serves. -/
def disableTree (b : Brick) (s : State) : State := (s.wr (Reg.PFX_CTL_EN b) 0).wr (Reg.PFX_STAT_READY b) 0

/-! ### Namespace keys (R659, R679) -/

/-- The state with the yard of a brick changed. -/
def State.onYard (s : State) (b : Brick) (f : YardState → YardState) : State := s.onBrick b (fun B => { B with yard := f B.yard })

/-- KEY_INSTALL (R679): a write of PFX_KEY1 installs both halves for the namespace selected. -/
def execKeyInstall (b : Brick) (v : Word) (s : State) : Host.Outcome State Fault Refusal := ended s <|
  .next (s.onYard b (fun Y => { Y with keys := tabPut Y.keys (s.rd (Reg.PFX_KSEL_NS b)) (v ++ Y.key0) }))

/-- PFX_KCLR (R659, R679): a write of 1 to CLR makes the key of the selected namespace invalid. -/
def execPfxKclr (b : Brick) (clr : Bool) (s : State) : Host.Outcome State Fault Refusal := ended s <|
  .next (if clr then s.onYard b (fun Y => { Y with keys := tabErase Y.keys (s.rd (Reg.PFX_KSEL_NS b)) }) else s)

/-- EPOCH_AUTO_ADVANCE (R652): with EPINT not zero the yard attempts an advance; a refused one is counted. -/
def execEpochAutoAdvance (b : Brick) (e : MemEnv) (s : State) : Host.Outcome State Fault Refusal := ended s <|
  if !s.isSet (Reg.SLB_STATE_READY b) || s.rd (Reg.SLB_CTL_EPINT b) = 0 then .next s else
  match runYard b e advanceEpoch (memReports e s) with
  | (.error (0x5E, _), s) => .next (s.count (Reg.SLB_CNT1_EBUSY b) 1)
  | (_, s) => .next s

/-! ### Yard jobs (R668 to R670) -/

/-- Whether a job descriptor keeps its fields' rules (R668). -/
def jobDescOk (d : Bytes) : Bool :=
  decide (1 ≤ numAt d 0 1 ∧ numAt d 0 1 ≤ 5) && decide (numAt d 1 1 < 16) && decide (numAt d 2 2 < 4096) && numAt d 4 4 == 0 && numAt d 24 8 == 0 &&
  numAt d 16 8 % 64 == 0

/-- Whether a brick's yard has a job that is not final. -/
def jobBusy (s : State) (b : Brick) : Bool := (s.brick b).yard.job.isSome

/-- A job started from a valid descriptor (R653, R668): it pins the current epoch. -/
def startJob (b : Brick) (d : Bytes) (hostId : Option Nat) (s : State) : State :=
  let epoch := s.rd (Reg.SLB_STAT_EPOCH b)
  let slabs := 4 ≤ numAt d 0 1
  let s := s.count (pinField b false epoch) 1
  let s := s.onYard b (fun Y => { Y with job := some { desc := d, hostId := hostId, startedAt := s.plumb.toNat, epoch := epoch } })
  ((s.wr (Reg.SLB_JSTAT_STATE b) psRunning).wr (Reg.SLB_JSTAT_PHASE b) (bit slabs)).wr (Reg.SLB_JSTAT_NEXT b) (if slabs then 8 else 0)

/-- The descriptor that stands in SLB_JDESC. -/
def jdescBytes (s : State) (b : Brick) : Bytes := (List.range 4).flatMap (fun w => leBytes 8 (s.rd (Reg.SLB_JDESC_DESC b w)))

/-- JOB_START (R668): OP 0x1 of SLB_JCMD. A refusal sets JREF. -/
def execJobStart (b : Brick) (s : State) : Host.Outcome State Fault Refusal := ended s <|
  .next (if jobBusy s b || !jobDescOk (jdescBytes s b) then s.flag (Reg.SLB_ERR_JREF b) else startJob b (jdescBytes s b) none s)

/-- The state with the job of a yard changed. -/
def onJob (b : Brick) (f : YardJob → YardJob) (s : State) : State := s.onYard b (fun Y => { Y with job := Y.job.map f })

/-- A job asked to suspend: the item in progress is finished first (R669, R750). -/
def suspendJob (b : Brick) (dev : Bool) (s : State) : State :=
  let s := onJob b (fun j => if dev then { j with devSusp := true } else { j with hostSusp := true }) s
  if s.rd (Reg.SLB_JSTAT_STATE b) = psRunning && jobBusy s b then s.wr (Reg.SLB_JSTAT_STATE b) psSuspending else s

/-- A hold flag of a job cleared; it runs again once both are clear (R750). -/
def resumeJob (b : Brick) (dev : Bool) (s : State) : State :=
  let s := onJob b (fun j => if dev then { j with devSusp := false } else { j with hostSusp := false }) s
  let x := s.rd (Reg.SLB_JSTAT_STATE b)
  match (s.brick b).yard.job with
  | some j => if (x = psSuspending || x = psSuspended) && !j.hostSusp && !j.devSusp then s.wr (Reg.SLB_JSTAT_STATE b) psRunning else s
  | none => s

/-- A job asked to end after the item in progress (R669). -/
def cancelJob (b : Brick) (s : State) : State :=
  let x := s.rd (Reg.SLB_JSTAT_STATE b)
  if x = psRunning || x = psSuspending || x = psSuspended then s.wr (Reg.SLB_JSTAT_STATE b) psCancelling else s

/-- JOB_SUSPEND (R669): OP 0x2 of SLB_JCMD. -/
def execJobSuspend (b : Brick) (s : State) : Host.Outcome State Fault Refusal := ended s <| .next (suspendJob b false s)
/-- JOB_RESUME (R669): OP 0x3. -/
def execJobResume (b : Brick) (s : State) : Host.Outcome State Fault Refusal := ended s <| .next (resumeJob b false s)
/-- JOB_CANCEL (R669): OP 0x4. -/
def execJobCancel (b : Brick) (s : State) : Host.Outcome State Fault Refusal := ended s <| .next (cancelJob b s)

/-- The record of a job (R670). -/
def jobRecord (s : State) (j : YardJob) (endState : Nat) : Bytes :=
  padTo 64 (leBytes 8 j.startedAt ++ leBytes 8 s.plumb.toNat ++ leBytes 1 (numAt j.desc 0 1) ++ leBytes 1 endState ++ leBytes 2 0 ++ leBytes 4 j.visited ++
    leBytes 4 j.deleted ++ leBytes 4 j.retired ++ leBytes 4 j.moved ++ leBytes 4 j.fenced ++ leBytes 4 j.skipped)

/-- A job ends with an end state (R655, R670): 0 done, 1 cancelled, 2 failed. -/
def endJob (b : Brick) (j : YardJob) (endState : Nat) (record : Bool) (s : State) : State :=
  let kind := numAt j.desc 0 1
  let s := unpin b false j.epoch 1 s
  let s := if record && numAt j.desc 16 8 ≠ 0 then
      issueOp b (.engine b.val) { addr := BitVec.ofNat 64 (numAt j.desc 16 8), opc := 0x02, aux := 0, lbl := labelOf (numAt j.desc 1 1), size := 64,
                                  payload := jobRecord s j endState } s
    else s
  let s := s.onYard b (fun Y => { Y with job := none })
  let s := endHostOp j.hostId (endStatus endState).1 (endStatus endState).2
    (leBytes 4 j.visited ++ leBytes 4 (if kind ≤ 2 then j.deleted else j.retired) ++ leBytes 4 (if kind ≤ 2 then 0 else j.moved) ++ leBytes 2 0 ++
      leBytes 1 endState ++ leBytes 1 (if endState = 2 then 2 else 0)) s
  (s.wr (Reg.SLB_JSTAT_STATE b) (if endState = 0 then psDone else psFailed)).raise 0x2307 [b.val, kind, endState]

/-- A slab taken off the free list it is on. -/
def unlinkFree (i next : Nat) : Nat → Nat → YM Unit
  | 0, _ => return ()
  | fuel + 1, j => do
    if j = nullIx then return ()
    let d ← getDesc j
    if d.link = i then putDesc j { d with link := next } else unlinkFree i next fuel d.link

/-- The header with free slab `i` no longer on its list. -/
def takeFree (i : Nat) (d : Desc) (h : YardHeader) : YM YardHeader := do
  if slocStack d.sloc = 0 then
    if h.free0 = i then return { h with free0 := d.link, n0 := h.n0 - 1 }
    unlinkFree i d.link h.n0 h.free0
    return { h with n0 := h.n0 - 1 }
  else
    if h.free1 = i then return { h with free1 := d.link, n1 := h.n1 - 1 }
    unlinkFree i d.link h.n1 h.free1
    return { h with n1 := h.n1 - 1 }

/-- Whether a data location lies in a job's range (R668). -/
def inRange (j : YardJob) (sloc : Nat) : Bool := decide (numAt j.desc 8 4 ≤ sloc ∧ sloc ≤ numAt j.desc 12 4)

/-- The first slab of a free list whose data lies outside a job's range. -/
def findFree (j : YardJob) : Nat → Nat → YM (Option (Nat × Desc))
  | 0, _ => return none
  | fuel + 1, i => do
    if i = nullIx then return none
    let d ← getDesc i
    if inRange j d.sloc then findFree j fuel d.link else return some (i, d)

/-- What one item of a job did; the slabs it retires are counted by the run itself (R670). -/
inductive ItemDone where
  | wait                                              -- it waits for a copy, or for a stack (R646, R672)
  | did (deleted moved fenced skipped : Nat)
  deriving DecidableEq, Repr

/-- Whether a slab of the yard is being copied. -/
def copying (s : State) (b : Brick) (i : Nat) : Bool := (s.brick b).yard.copies.any (fun c => c.src = i || c.dst = i)

/-- One slab of EVACUATE (R669). With no free slab outside the range it is skipped (DESIGN CHOICE, log entry 57). -/
def yEvacuate (j : YardJob) (i : Nat) : YM ItemDone := do
  let s ← yState
  let b ← yBrick
  let d ← getDesc i
  if !inRange j d.sloc then return .did 0 0 0 0
  if d.st = 0 then
    let h ← takeFree i d (← getHeader)
    putDesc i { d with st := 3, link := 0 }
    putHeader h
    return .did 0 0 1 0
  if !(d.live && d.shared) then return .did 0 0 0 1
  if copying s b i || !slabOn s b d.sloc then return .wait
  let h ← getHeader
  let second := h.n0 < h.n1
  let f ← findFree j (if second then h.n1 else h.n0) (if second then h.free1 else h.free0)
  let f ← (match f with
    | some x => pure (some x)
    | none => findFree j (if second then h.n0 else h.n1) (if second then h.free0 else h.free1))
  match f with
  | none => return .did 0 0 0 1
  | some (k, x) =>
    if !slabOn s b x.sloc then return .wait
    let y ← get
    let (bad, s) := copySlabData b d.sloc x.sloc y.e y.s
    set { y with s := s }
    let h ← takeFree k x h
    putDesc i { d with sloc := x.sloc, flags := if bad then Nat.lor d.flags 4 else d.flags }
    putHeader (← retireSlab k { x with sloc := d.sloc } { h with live := h.live + 1 })
    yDo (fun s => (s.count (Reg.SLB_CNT1_COPIES b) 1).when bad (fun s => s.raise 0x2305 [b.val, i, k]))
    return .did 0 1 0 0

/-- One slab of UNFENCE (R669). -/
def yUnfence (j : YardJob) (i : Nat) : YM ItemDone := do
  let d ← getDesc i
  if !inRange j d.sloc then return .did 0 0 0 0
  if d.st ≠ 3 then return .did 0 0 0 1
  putHeader (← joinFree i { d with st := 0 } (← getHeader))
  return .did 0 0 1 0

/-- One slab of RECLAIM (R669): a live slab without PRESERVED is retired, pinned or not. -/
def yReclaimSlab (i : Nat) : YM ItemDone := do
  let d ← getDesc i
  if copying (← yState) (← yBrick) i then return .wait
  if d.live && !d.preserved then
    putHeader (← retireSlab i d (← getHeader))
    return .did 0 0 0 0
  return .did 0 0 0 1

/-- The nodes of a chain, from its head on. -/
def chainNodes : Nat → Nat → YM (List Nat)
  | 0, _ => return []
  | fuel + 1, i => do
    if i = nullIx then return []
    let n ← getNode i
    return i :: (← chainNodes fuel n.next)

/-- Whether every slab of a list is PRESERVED. -/
def allPreserved : List Nat → YM Bool
  | [] => return true
  | i :: is => do
    match ← slabOf? i with
    | none => return false
    | some d => if d.preserved then allPreserved is else return false

/-- Whether a job deletes a live node (R669). -/
def jobDeletes (j : YardJob) (n : Node) : YM Bool := do
  match numAt j.desc 0 1 with
  | 1 =>
    if n.lastUse < numAt j.desc 8 8 then return true
    if n.pnode = nullIx then return false
    if !nodeOk (← yState) (← yBrick) n.pnode then return true
    let p ← getNode n.pnode
    return p.st ≠ 1 || p.ver ≠ n.pver
  | 2 => return n.ns = numAt j.desc 2 2
  | _ => return !(← allPreserved n.slabs)

/-- The nodes of a bucket that a job deletes (R665, R669); how many. -/
def yBucket (j : YardJob) : List Nat → Nat → YM ItemDone
  | [], k => return .did k 0 0 0
  | i :: is, k => do
    let n ← getNode i
    if n.st = 1 && (← jobDeletes j n) then
      deleteNode i n
      yBucket j is (k + 1)
    else yBucket j is k

/-- One item of a job (R669): a bucket in phase 0, a slab in phase 1. -/
def yItem (j : YardJob) (phase i : Nat) : YM ItemDone := do
  let s ← yState
  let b ← yBrick
  let kind := numAt j.desc 0 1
  if !s.isSet (Reg.SLB_STATE_READY b) || (kind ≤ 3 && !s.isSet (Reg.PFX_STAT_READY b)) then refuse 0x50
  if phase = 0 then
    let nodes ← chainNodes (s.rd (Reg.PFX_NCNT_NCOUNT b)) (← getBucket i)
    if !(s.brick b).yard.copies.isEmpty && !nodes.isEmpty then return .wait
    yBucket j nodes 0
  else match kind with
    | 3 => yReclaimSlab i
    | 4 => yEvacuate j i
    | _ => yUnfence j i

/-- Phase and index of the item after one; none after the last (R669). -/
def jobNext (s : State) (b : Brick) (kind phase i : Nat) : Option (Nat × Nat) :=
  let slabs := 8 + s.rd (Reg.SLB_DCNT_N0 b) + s.rd (Reg.SLB_DCNT_N1 b)
  if phase = 0 then
    if i + 1 < 2 ^ s.rd (Reg.PFX_CTL_BBITS b) then some (0, i + 1) else if kind = 3 then some (1, 8) else none
  else if i + 1 < slabs then some (1, i + 1) else none

/-- Whether the stacks that hold a yard's structures answer. -/
def yardStacksOn (s : State) (b : Brick) (kind : Nat) : Bool :=
  let on := fun (region : Nat) => match ownStack b region with
    | some st => stackOn s st
    | none => true
  on (tableAt s b).1 && (3 < kind || (on (nodesAt s b).1 && on (bucketsAt s b).1))

/-- JOB_ITEM (R669, R672): the job of a yard processes one item; with a stack it needs not ON it waits. A structure read that is refused, and a yard or
a tree that is not READY, end the job failed (DEDUCED, log entry 58). -/
def execJobItem (b : Brick) (e : MemEnv) (s : State) : Host.Outcome State Fault Refusal := ended s <|
  match (s.brick b).yard.job with
  | none => .next s
  | some j =>
    let state := s.rd (Reg.SLB_JSTAT_STATE b)
    let kind := numAt j.desc 0 1
    let phase := s.rd (Reg.SLB_JSTAT_PHASE b)
    let i := s.rd (Reg.SLB_JSTAT_NEXT b)
    if !(state = psRunning || state = psSuspending || state = psCancelling) || j.finished || !yardStacksOn s b kind then .next s else
    match runYard b e (do let x ← yItem j phase i
                          return (x, (← get).retired)) (memReports e s) with
    | (.error _, s) => .next (endJob b j 2 true s)
    | (.ok (.wait, _), s) => .next s
    | (.ok (.did del mov fen ski, ret), s) =>
      let after := jobNext s b kind phase i
      let s := onJob b (fun j => { j with visited := j.visited + 1, deleted := j.deleted + del, retired := j.retired + ret, moved := j.moved + mov,
                                          fenced := j.fenced + fen, skipped := j.skipped + ski, finished := after.isNone }) s
      let s := match after with
        | some (p, k) => (s.wr (Reg.SLB_JSTAT_PHASE b) p).wr (Reg.SLB_JSTAT_NEXT b) k
        | none => s.wr (Reg.SLB_JSTAT_NEXT b) (i + 1)
      .next (if state = psSuspending && after.isSome then s.wr (Reg.SLB_JSTAT_STATE b) psSuspended else s)

/-- JOB_END (R670): a job whose last item is done, or that is cancelling, ends and writes its record. -/
def execJobEnd (b : Brick) (s : State) : Host.Outcome State Fault Refusal := ended s <|
  match (s.brick b).yard.job with
  | none => .next s
  | some j =>
    if j.finished then .next (endJob b j 0 true s)
    else if s.rd (Reg.SLB_JSTAT_STATE b) = psCancelling then .next (endJob b j 1 true s)
    else .next s

end Sys2Proof.Machine
end

