-- ==== Sys2Proof/Machine/Lanes.lean ====
section
/-! DEFINITION. The lanes of a port: striping, the scrambler, PAM4 levels and the alignment marker (R74, R75, R79, R80). -/
namespace Sys2Proof.Machine
open Sys2Proof

/-! ### PAM4 (R74 step 4) -/

/-- The level of two bits, Gray coded. -/
def grayLevel : Nat → Level
  | 0 => 0
  | 1 => 1
  | 3 => 2
  | _ => 3

/-- The two bits of a level. -/
def levelBits (x : Level) : Nat := match x with
  | 0 => 0
  | 1 => 1
  | 2 => 3
  | 3 => 2

/-- The levels of bytes: four of each, bits [1:0] first. -/
def levelsOf (bs : Bytes) : List Level :=
  bs.flatMap (fun b => [grayLevel (bitsOf b.toNat 1 0), grayLevel (bitsOf b.toNat 3 2), grayLevel (bitsOf b.toNat 5 4), grayLevel (bitsOf b.toNat 7 6)])

/-- The bytes that levels spell. -/
def bytesOfLevels : List Level → Bytes
  | a :: b :: c :: d :: t => BitVec.ofNat 8 (levelBits a + 4 * levelBits b + 16 * levelBits c + 64 * levelBits d) :: bytesOfLevels t
  | _ => []

/-! ### The scrambler (R74 step 3): self-synchronous, 1 + x^39 + x^58, bits least significant first. A register holds the last 58 bits on the
line, the latest lowest -/

/-- What the register adds to the next bit. -/
def scrTap (r : Nat) : Bool := bitOf r 38 != bitOf r 57

/-- The register after one more bit on the line. -/
def scrShift (r : Nat) (x : Bool) : Nat := (2 * r + bit x) % 2 ^ 58

/-- A byte scrambled: the register after it, and the byte on the line. -/
def scrambleByte (r : Nat) (b : Byte) : Nat × Byte :=
  let (r, v) := (List.range 8).foldl (fun (a : Nat × Nat) i =>
    let y := bitOf b.toNat i != scrTap a.1
    (scrShift a.1 y, a.2 + bit y * 2 ^ i)) (r, 0)
  (r, BitVec.ofNat 8 v)

/-- A byte of the line descrambled: the register after it, and the byte sent. -/
def descrambleByte (r : Nat) (y : Byte) : Nat × Byte :=
  let (r, v) := (List.range 8).foldl (fun (a : Nat × Nat) i =>
    let x := bitOf y.toNat i
    (scrShift a.1 x, a.2 + bit (x != scrTap a.1) * 2 ^ i)) (r, 0)
  (r, BitVec.ofNat 8 v)

/-- Bytes put through a byte coder, first to last. -/
def codeBytes (f : Nat → Byte → Nat × Byte) : Nat → Bytes → Nat × Bytes
  | r, [] => (r, [])
  | r, b :: bs =>
    let (r, x) := f r b
    let (r, xs) := codeBytes f r bs
    (r, x :: xs)

/-! ### Alignment markers (R79, R80) -/

/-- The sync pattern, and the pattern that an inverted lane delivers (R103). -/
def syncPattern : Nat := 0x96C35A4C
def syncInverted : Nat := 0x3C69F0E6

/-- The alignment marker of a lane. -/
def alignMarker (lane : Nat) : Bytes :=
  let w := leBytes 4 syncPattern ++ [BitVec.ofNat 8 (lane % 8)] ++ List.replicate 7 (0 : Byte)
  w ++ leBytes 4 (crc32c w)

/-- Bytes between the markers of a lane. -/
def markEvery : Nat := 65536

/-- What a lane does with its stripe: the scrambler after it, the bytes since its last marker, and the bytes on the line. The marker goes before the byte
that follows 65,536, and past the scrambler. -/
def laneOut (lane : Nat) : Nat → Nat → Bytes → Nat × Nat × Bytes
  | r, n, [] => (r, n, [])
  | r, n, b :: bs =>
    let due := decide (markEvery ≤ n)
    let (r, y) := scrambleByte r b
    let (r, n, ys) := laneOut lane r (if due then 1 else n + 1) bs
    (r, n, (if due then alignMarker lane else []) ++ y :: ys)

/-- `k` bytes of a stripe taken from a line: the reverse. -/
def laneIn : Nat → Nat → Nat → Bytes → Nat × Nat × Bytes
  | 0, r, n, _ => (r, n, [])
  | k + 1, r, n, ys =>
    let due := decide (markEvery ≤ n)
    match (if due then ys.drop 16 else ys) with
    | [] => (r, n, [])
    | y :: ys =>
      let (r, b) := descrambleByte r y
      let (r, n, bs) := laneIn k r (if due then 1 else n + 1) ys
      (r, n, b :: bs)

/-! ### Striping (R74 step 2, R75) -/

/-- The stripe of logical lane `l` of `w`: byte k goes to lane k mod w. -/
def stripeOf (w l : Nat) (block : Bytes) : Bytes := (block.zipIdx.filter (fun e => e.2 % w == l)).map (fun e => e.1)

/-- The first `n` bytes that stripes spell. -/
def unstripe (n : Nat) (stripes : List Bytes) : Bytes :=
  (List.range n).map (fun k => (stripes.getD (k % max 1 stripes.length) []).getD (k / max 1 stripes.length) 0)

/-- Bytes of a lane whose pair is swapped, turned back: a swap complements bits 1, 3, 5 and 7 of every byte. -/
def invertBytes (bs : Bytes) : Bytes := bs.map (fun b => b ^^^ 0xAA)

end Sys2Proof.Machine
end

