-- ==== Sys2Proof/Machine/Points.lean ====
section
/-! DEFINITION. The arbitration points (R421): which link or stack each orders, its capacity and its buckets (R130, R430, R431). -/
namespace Sys2Proof.Machine
open Sys2Proof

/-- Number of a link end within its brick: local port 0 to 5, or 6 + q (R421). -/
def linkPoint : LinkId → Nat
  | .port p => p % 6
  | .bridge _ q => 6 + q

/-- Whether a link end carries packets: an Active port or a bridge that is up. -/
def State.linkOpen (s : State) (l : LinkId) : Bool := match l with
  | .port p => s.portActive p
  | .bridge _ _ => (s.link l).bridgeUp

/-- The link end a point orders, if it is a link's (R421). -/
def pointLink (pt : Fin 58) : Option LinkId :=
  if pt.val < 56 then
    let b := brickOf (pt.val / 14)
    let n := pt.val % 14
    if n < 6 then some (.port (portOf (6 * b.val + n)))
    else if n < 9 then some (.bridge b ⟨(n - 6) % 3, Nat.mod_lt _ (by decide)⟩)
    else none
  else none

/-- The stack a point orders, if it is a stack's: streaming or grout (R421). -/
def pointStack (pt : Fin 58) : Option (Stack × Bool) :=
  if pt.val < 56 then
    let n := pt.val % 14
    if n = 10 || n = 11 then some (stackOf (2 * (pt.val / 14) + (n - 10)), false)
    else if n = 12 || n = 13 then some (stackOf (2 * (pt.val / 14) + (n - 12)), true)
    else none
  else none

/-- Capacity of a point in B/s (R130, R431); a link that carries nothing has none. -/
def pointCapacity (s : State) (pt : Fin 58) : Nat :=
  match pointLink pt with
  | some (.port p) =>
    if !s.portActive p then 0 else
    match s.rd (Reg.MRT_PSTAT_TXW p) with
    | 3 => 181250000000
    | 2 => 90625000000
    | 1 => 45312500000
    | _ => 0
  | some (.bridge b q) =>
    4 * 10 ^ 12 * popcount 18 (s.rd (Reg.MRT_BSTAT_MODGOOD b q)) / 18 / (if s.rd (Reg.MRT_BSTAT_SPEED b q) = 1 then 2 else 1)
  | none =>
    match pointStack pt with
    | some (st, false) => if s.rd (Reg.STK_STAT_RATECUR st) = 1 then 1638400000000 else 2048000000000
    | some (_, true) => 51200000000
    | none =>
      if 56 ≤ pt.val then (if s.rd Reg.HST_STAT_WIDTH = 0 then 0 else 2 ^ (1 + s.rd Reg.HST_STAT_WIDTH + s.rd Reg.HST_STAT_RATE) * 10 ^ 9)
      else 4900000000000

/-- The state with a point changed. -/
def State.onPoint (s : State) (pt : Fin 58) (f : LabelPoint → LabelPoint) : State := { s with points := s.points.set pt (f s.points[pt]) }

/-- A bucket refilled: `share` in 0.1 %, `cap` in B/s, over `dt` ns, at most 16 KiB (R430). -/
def refill (bucket share cap dt : Nat) : Nat := min (16384 * 10 ^ 12) (bucket + cap * share * dt)

/-- The buckets of a point brought up to this moment. -/
def fillBuckets (pt : Fin 58) (s : State) : State :=
  let cap := pointCapacity s pt
  s.onPoint pt (fun P =>
    let dt := s.now - P.filledAt
    { P with
      bucket13 := refill P.bucket13 (s.rd (Reg.LBL_PCTL_SHARE13 pt)) cap dt, bucket14 := refill P.bucket14 (s.rd (Reg.LBL_PCTL_CEIL14 pt)) cap dt,
      bucket15 := refill P.bucket15 (s.rd (Reg.LBL_PCTL_CEIL15 pt)) cap dt, filledAt := s.now })

/-- The arbitration point of a link end (R421). -/
def pointOf (l : LinkId) : Fin 58 := ⟨(14 * (linkBrick l).val + linkPoint l) % 58, Nat.mod_lt _ (by decide)⟩

/-- The point whose LBL_PCTL stands at an offset (R441). -/
def pctlPoint (off : Nat) : Option (Fin 58) := (List.finRange 58).find? (fun pt => Reg.LBL_PCTL pt == off)

end Sys2Proof.Machine
end

