-- ==== Sys2Proof/Machine/Flits.lean ====
section
/-! DEFINITION. Flits: their bytes, what a transmitter sends and keeps, link down and the start of a training (R82 to R93, R96 to R98, R101,
R132 to R139). -/
namespace Sys2Proof.Machine
open Sys2Proof

/-! ### Registers of a link end (R145, R153) -/

/-- Offset of a register of a link end. -/
def linkReg (l : LinkId) (off : Nat) : Nat := match l with
  | .port p => portReg p off
  | .bridge b q => bridgeReg b q off
def perrDown (l : LinkId) : FieldRef := ⟨linkReg l 0x18, 3, 3⟩
def perrProto (l : LinkId) : FieldRef := ⟨linkReg l 0x18, 4, 4⟩
def perrReplay (l : LinkId) : FieldRef := ⟨linkReg l 0x18, 2, 2⟩
def perrFec (l : LinkId) : FieldRef := ⟨linkReg l 0x18, 1, 1⟩
def perrCrc (l : LinkId) : FieldRef := ⟨linkReg l 0x18, 0, 0⟩
def pcntFailed (l : LinkId) : FieldRef := ⟨linkReg l 0x20, 63, 32⟩
def pcntCorr (l : LinkId) : FieldRef := ⟨linkReg l 0x20, 31, 0⟩
def pcntNaks (l : LinkId) : FieldRef := ⟨linkReg l 0x28, 47, 32⟩
def pcntDowns (l : LinkId) : FieldRef := ⟨linkReg l 0x28, 31, 16⟩
def pcntReplays (l : LinkId) : FieldRef := ⟨linkReg l 0x28, 15, 0⟩

/-- The number of a link end in events and stamp records: the package port, or 24 + 3b + q for local bridge q of brick b. -/
def linkNo : LinkId → Nat
  | .port p => p
  | .bridge b q => 24 + 3 * b + q

/-! ### Bytes of a flit (R82 to R84) -/

/-- Header bits [159:0] of R84. -/
def flitHeader (f : Flit) : Nat :=
  f.rsv3.toNat * 2 ^ 128 + f.crb.toNat * 2 ^ 96 + f.cra.toNat * 2 ^ 64 + f.rsv2.toNat * 2 ^ 49 + f.first.toNat * 2 ^ 44 + f.fill.toNat * 2 ^ 39 +
  f.vc.toNat * 2 ^ 36 + f.rsv1.toNat * 2 ^ 34 + bit f.nak * 2 ^ 33 + bit f.av * 2 ^ 32 + f.ack.toNat * 2 ^ 20 + f.fsn.toNat * 2 ^ 8 +
  f.rsv0.toNat * 2 ^ 4 + f.typ.toNat

/-- Bytes 0 to 251 of a flit. -/
def flitBody (f : Flit) : Bytes := leBytes 20 (flitHeader f) ++ padTo 232 f.area

/-- The 256 bytes of a flit as it stands, its CRC included. -/
def flitBytes (f : Flit) : Bytes := flitBody f ++ leBytes 4 f.crc.toNat

/-- The flit with the CRC its bytes give (R83). -/
def flitSeal (f : Flit) : Flit := { f with crc := BitVec.ofNat 32 (crc32c (flitBody f)) }

/-- The flit that 256 bytes spell. -/
def flitOf (bs : Bytes) : Flit :=
  let h := leNat (bs.take 20)
  { typ := BitVec.ofNat 4 (bitsOf h 3 0), fsn := BitVec.ofNat 12 (bitsOf h 19 8), ack := BitVec.ofNat 12 (bitsOf h 31 20), av := bitOf h 32,
    nak := bitOf h 33, vc := BitVec.ofNat 3 (bitsOf h 38 36), fill := BitVec.ofNat 5 (bitsOf h 43 39), first := BitVec.ofNat 5 (bitsOf h 48 44),
    cra := BitVec.ofNat 32 (bitsOf h 95 64), crb := BitVec.ofNat 32 (bitsOf h 127 96), area := padTo 232 (bs.drop 20),
    crc := BitVec.ofNat 32 (leNat ((bs.drop 252).take 4)), rsv0 := BitVec.ofNat 4 (bitsOf h 7 4), rsv1 := BitVec.ofNat 2 (bitsOf h 35 34),
    rsv2 := BitVec.ofNat 15 (bitsOf h 63 49), rsv3 := BitVec.ofNat 32 (bitsOf h 159 128) }

/-! ### Sending -/

/-- Limit of the replay buffer (R93, R127). -/
def replayMax : LinkId → Nat
  | .port _ => 1024
  | .bridge _ _ => 2048

/-- The lanes of a width code (R147). -/
def widthOf (code : Nat) : Nat := if code = 0 then 0 else 2 ^ code

/-- The transmit lanes that carry a port's flits, logical lane 0 first (R110): none before Verify. -/
def txLanes (s : State) (p : Port) : List Nat :=
  let st := s.rd (Reg.MRT_PSTAT_STATE p)
  if st < 7 || 8 < st then [] else (setBits 8 (s.rd (Reg.MRT_PSTAT_TXLIVE p))).take (widthOf (s.rd (Reg.MRT_PSTAT_TXW p)))

/-- The registers of one own transmit lane after it has sent, and one receive lane after it has taken, bytes of a block. -/
def Link.laneSent (L : Link) (lane scr mark : Nat) : Link := { L with txScr := L.txScr.set lane scr, txMark := L.txMark.set lane mark }
def Link.laneTook (L : Link) (lane scr mark : Nat) : Link := { L with rxScr := L.rxScr.set lane scr, rxMark := L.rxMark.set lane mark }

/-- A wire block over the lanes of a port (R74, R79): striped, scrambled, with the alignment markers that fall due, as PAM4 levels. -/
def sendBlock (p : Port) (block : Bytes) (s : State) : State :=
  let lanes := txLanes s p
  if lanes.isEmpty then s else
  let L := s.link (.port p)
  let sent := lanes.mapIdx (fun l lane => (lane, laneOut lane (L.txScr.getD lane 0) (L.txMark.getD lane 0) (stripeOf lanes.length l block)))
  let s := s.onLink (.port p) (fun L => sent.foldl (fun L x => L.laneSent x.1 x.2.1 x.2.2.1) L)
  s.emit (.lanes p (sent.map (fun x => (x.1, levelsOf x.2.2.2))))

/-- The working modules of a bridge (R128, R153). -/
def goodModules (s : State) (b : Brick) (q : Fin 3) : List Nat := setBits 18 (s.rd (Reg.MRT_BSTAT_MODGOOD b q))

/-- The module that a bridge deals its next flit to (R126): round-robin over the active ones. -/
def nextModuleOf (s : State) (b : Brick) (q : Fin 3) : Option Nat :=
  let n := (s.link (.bridge b q)).nextModule
  let good := goodModules s b q
  match good.find? (fun m => decide (n ≤ m)) with
  | some m => some m
  | none => good.head?

/-- A flit on the wire: with Reed–Solomon parity over the lanes of a port, without on the next module of a bridge (R77, R126). -/
def putWire (l : LinkId) (f : Flit) (s : State) : State :=
  match l with
  | .port p => sendBlock p (wireBlock (flitBytes f)) s
  | .bridge b q =>
    match nextModuleOf s b q with
    | some m => (s.onLink l (fun L => { L with nextModule := (m + 1) % 18 })).emit (.module b q m (flitBytes f))
    | none => s

/-- A credit slot that returns what a channel has freed (R84, R92). -/
def creditSlot (vc n : Nat) : Nat := min n 4095 * 16 + 8 + vc

/-- The flit of a type that a link end would send now: it carries the last FSN accepted and up to two credit slots. Where more than two channels are owed
credit, the two lowest go first; a flit that takes no FSN holds the next number, an unsequenced control flit too, as R85 says of a null flit
(DESIGN CHOICE, log entries 193 and 194). -/
def nextFlit (L : Link) (typ vc fill first : Nat) (nak : Bool) (area : Bytes) : Flit :=
  let owed := (List.range 8).filter (fun v => L.freed.getD v 0 ≠ 0)
  let slot := fun k => match owed[k]? with
    | some v => creditSlot v (L.freed.getD v 0)
    | none => 0
  flitSeal {
    typ := BitVec.ofNat 4 typ, fsn := BitVec.ofNat 12 L.txFsn, ack := BitVec.ofNat 12 (L.rxLast.getD 0), av := L.rxLast.isSome, nak := nak,
    vc := BitVec.ofNat 3 vc, fill := BitVec.ofNat 5 fill, first := BitVec.ofNat 5 first, cra := BitVec.ofNat 32 (slot 0),
    crb := BitVec.ofNat 32 (slot 1), area := padTo 232 area, crc := 0 }

/-- The credit that the slots of a flit returned is owed no more. -/
def Link.returned (L : Link) : Link :=
  let owed := ((List.range 8).filter (fun v => L.freed.getD v 0 ≠ 0)).take 2
  { L with freed := L.freed.mapIdx (fun v n => if owed.contains v then n - min n 4095 else n) }

/-- A flit sent; data and sequenced control take an FSN and are kept for replay (R85, R93). -/
def sendFlit (l : LinkId) (typ vc fill first : Nat) (nak : Bool) (area : Bytes) (s : State) : State :=
  let L := s.link l
  let f := nextFlit L typ vc fill first nak area
  let kept := typ = 1 || typ = 2
  let s := putWire l f s
  s.onLink l (fun L => let L := L.returned
    if kept then { L with txFsn := (L.txFsn + 1) % 4096, replay := L.replay ++ [f] } else L)

/-- A null flit that carries the last FSN accepted, and a request for a replay (R85, R95). -/
def sendNull (l : LinkId) (nak : Bool) (s : State) : State := sendFlit l 0 0 0 0x1F nak [] s

/-- A control message (R88): type 2 or 3, its area from the subtype byte on. FILL is 29 and VC 0, which R84 leaves open for it (DESIGN CHOICE, log
entry 195). -/
def sendControl (l : LinkId) (typ : Nat) (area : Bytes) (s : State) : State := sendFlit l typ 0 29 0x1F false area s

/-- Whether a replay buffer is full: only null flits are sent (R93). -/
def replayFull (s : State) (l : LinkId) : Bool := decide (replayMax l ≤ (s.link l).replay.length)

/-- TSREQ: subtype 0x01, t1 at bytes 8 to 15; none while the replay buffer is full. -/
def sendTsreq (l : LinkId) (s : State) : State := if replayFull s l then s else sendControl l 3 ([0x01] ++ List.replicate 7 0 ++ leBytes 8 s.plumb.toNat) s

/-- CREDINIT: subtype 0x03, the division in effect at bytes 8 to 23 (R91). -/
def sendCredinit (l : LinkId) (s : State) : State :=
  sendControl l 2 ([0x03] ++ List.replicate 7 0 ++ ((s.link l).vccr.map (leBytes 2)).flatten) s

/-! ### Replay (R96 to R98) -/

/-- The packets of a link end that were not acknowledged go back to transport, whatever their class (R132, R199): its brick routes them again. The port
chosen for one that was to cross a bridge is forgotten with it. -/
def handBack (l : LinkId) (s : State) : State :=
  let L := s.link l
  let ps := (L.inflight.map (fun e => e.2)) ++ (L.queue.map (fun q => q.pkt))
  let s := s.onLink l (fun L => { L with inflight := [], queue := [] })
  let s := s.onBrick (linkBrick l) (fun B => { B with routeQ := B.routeQ ++ ps })
  match l with
  | .port _ => s
  | .bridge b q => s.onBrick (bridgePeer b q) (fun B => { B with decided := B.decided.filter (fun e => !ps.contains e.1) })

/-- The settle time of a link, in ns: the larger of ACKTMR + TLIMIT in effect and pending (R100, R203). -/
def settleNs (s : State) (l : LinkId) : Nat :=
  let r := s.reg (linkReg l 0x10)
  let L := s.link l
  10 * max (L.ackTmr + L.tlimit) (bitsOf r 27 16 + bitsOf r 15 4)

/-- The link ends of a brick. -/
def brickLinks (b : Brick) : List LinkId :=
  ((List.range 6).map (fun k => LinkId.port (portOf (6 * b.val + k)))) ++ [.bridge b 0, .bridge b 1, .bridge b 2]

/-- Whether TE2E, in units of 100 ns, is at least four times the largest link settle time of the brick (R203). -/
def te2eCovers (s : State) (b : Brick) (te2e : Nat) : Bool :=
  (brickLinks b).all (fun l => decide (4 * settleNs s l ≤ te2e * 100))

/-- The division of receive credit that a link end would use (R91, R152). A bridge window has no register for it (R153): a bridge end announces 0x2000 units
on each channel, the reset value of a port (DESIGN CHOICE, log entry 196). -/
def vccrPending (s : State) : LinkId → List Nat
  | .port p => (List.range 8).map (fun c => bitsOf (s.reg (portReg p (if c < 4 then 0x38 else 0x40))) (16 * (c % 4) + 15) (16 * (c % 4)))
  | .bridge _ _ => List.replicate 8 0x2000

/-- Settings written since the last training take effect (R139); event 0x110C where this link's break R203. -/
def loadSettings (l : LinkId) (s : State) : State :=
  let r := s.reg (linkReg l 0x10)
  let v := vccrPending s l
  let s := s.onLink l (fun L => { L with ackTmr := bitsOf r 27 16, tlimit := bitsOf r 15 4, maxReplay := bitsOf r 3 0, vccr := v })
  let b := linkBrick l
  if 4 * (10 * (bitsOf r 27 16 + bitsOf r 15 4)) ≤ s.rd (Reg.MRT_TTMO_TE2E b) * 100 then s else s.raise 0x110C [b.val]

/-- Flit state of a link end as it begins: sequence numbers, credits, replay buffer and streams empty (R132; DEDUCED, log entry 21: FSNs begin
at 0). The scramblers and the marker counts begin at zero (DESIGN CHOICE, log entry 197). -/
def Link.fresh (L : Link) : Link :=
  { L with
    txFsn := 0, rxLast := none, nakOut := false, nakGot := false, replay := [], episode := none, credits := List.replicate 8 0,
    freed := List.replicate 8 0, streams := List.replicate 8 [], inbox := [], ahead := [], nextModule := 0, txScr := List.replicate 8 0,
    rxScr := List.replicate 8 0, txMark := List.replicate 8 0, rxMark := List.replicate 8 0 }

/-- The state of a port (R147). -/
def State.portState (s : State) (p : Port) : Nat := s.rd (Reg.MRT_PSTAT_STATE p)

/-- Whether a port is Disabled (R103): STATE 0x0, or 0xC, which names as the cause the module that R122 rejects (DEDUCED, log entry 225). -/
def State.portOff (s : State) (p : Port) : Bool := s.portState p == 0 || s.portState p == 0xC

/-- The state of a port changed; leaving Active clears VALID of its plumb measurement (R892). -/
def State.toPortState (s : State) (p : Port) (st : Nat) : State :=
  let s := if st ≠ 8 then s.wr (Reg.PLB_PDELTA_VALID p) 0 else s
  s.wr (Reg.MRT_PSTAT_STATE p) st

/-- The port's record in the build sheet held (R785, R786), or none. -/
def State.sheetRec (s : State) (p : Nat) : Option Nat :=
  if s.hod.sheet.isEmpty then none else some (leNat ((s.hod.sheet.drop (64 + 8 * p)).take 8))

/-- Roles of a port record. -/
def recRole (r : Nat) : Nat := bitsOf r 1 0
def recSwapOk (r : Nat) : Bool := bitOf r 2
def recAny (r : Nat) : Bool := bitOf r 3
def recClasses (r : Nat) : Nat := bitsOf r 15 8
def recNbr (r : Nat) : Nat := bitsOf r 31 16
def recNbrPort (r : Nat) : Nat := bitsOf r 39 32

/-! ### Training words (R101, R104, R147) -/

/-- The receive lanes this end hears well, numbered as the partner's transmit lanes (R147). -/
def Training.rxLive (T : Training) : Nat :=
  let nos := ((setBits 8 T.rxLocked).filter (fun i => !bitOf T.excludedOwn i)).map (fun i => T.laneNo.getD i 8)
  ((List.range 8).filter (fun n => nos.contains n && !bitOf T.excludedRx n)).foldl (fun m n => m + 2 ^ n) 0

/-- The training word of a lane (R101), with the equalisation codes that its end sends. -/
def trainingWord (s : State) (p : Port) (lane : Nat) : Bytes :=
  let T := (s.link (.port p)).training
  let w := leBytes 4 syncPattern ++
    [BitVec.ofNat 8 lane, BitVec.ofNat 8 (s.portState p - 1), BitVec.ofNat 8 T.rxLive,
     BitVec.ofNat 8 (s.rd (Reg.MRT_PCTL_MINW p) + 4 * bit T.eqDone + 8 * bit T.accepted)] ++
    leBytes 2 s.ownPid ++ [BitVec.ofNat 8 p.val, 0] ++ leBytes 4 s.hod.siteTag ++ leBytes 4 (T.eqOut.getD lane 0 % 4096) ++ List.replicate 8 0
  w ++ leBytes 4 (crc32c w)

/-- Each present lane sends its training word as it now reads, scrambled once Align is over (R101). The driver of an absent lane is off (R103). -/
def sendWords (p : Port) (s : State) : State :=
  let L := s.link (.port p)
  let sent := (setBits 8 L.training.txPresent).map (fun i =>
    let r := L.txScr.getD i 0
    (i, if 4 ≤ s.portState p then codeBytes scrambleByte r (trainingWord s p i) else (r, trainingWord s p i)))
  let s := s.onLink (.port p) (fun L => sent.foldl (fun L x => { L with txScr := L.txScr.set x.1 x.2.1 }) L)
  s.emit (.lanes p (sent.map (fun x => (x.1, levelsOf x.2.2))))

/-- A training state is entered: words of the partner are counted anew (R104). Verify begins a new count of striped bytes. -/
def enterState (p : Port) (st : Nat) (s : State) : State :=
  let s := (s.toPortState p st).onLink (.port p) (fun L => { L with training := { L.training with words := 0 } })
  if 2 ≤ st && st ≤ 6 then sendWords p s
  else s.onLink (.port p) (fun L => { L with txMark := List.replicate 8 0, rxMark := List.replicate 8 0 })

/-- A training begins at Detect, or a fast one at Lock with the lane exclusions and the equaliser settings kept (R103, R136). The ports of a brick in its
safe state, or of a package in its, do not train (R859, R860). -/
def startTraining (p : Port) (fast : Bool) (s : State) : State :=
  if brickSafe s (portBrick p) then s else
  let l := LinkId.port p
  let T := (s.link l).training
  let s := s.onLink l (fun L => { L.fresh with
    training := { fast := fast, portRec := s.sheetRec p, txPresent := if fast then T.txPresent else 0xFF,
                  excludedRx := if fast then T.excludedRx else 0, excludedOwn := if fast then T.excludedOwn else 0,
                  eqOut := if fast then T.eqOut else [], eqDone := fast } })
  let s := ((s.wr (Reg.MRT_PSTAT_RXW p) 0).wr (Reg.MRT_PSTAT_TXW p) 0)
  let s := ((s.wr (Reg.MRT_PSTAT_RXLIVE p) 0).wr (Reg.MRT_PSTAT_TXLIVE p) 0)
  let s := ((s.wr (Reg.MRT_PSTAT_RXPOL p) 0).wr (Reg.MRT_PSTAT_RXREV p) 0)
  let s := loadSettings l s
  if fast then enterState p 2 s else s.toPortState p 1

/-- The common part of a link down (R132, R134): its buckets filled up to now (R435), reason and counters, event 0x1002, DOWN on the lanes that work, and its packets handed back. -/
def settleDown (l : LinkId) (reason : Nat) (s : State) : State :=
  let s := fillBuckets (pointOf l) s
  let s := match l with
    | .port p => s.wr (Reg.MRT_PSTAT_WHY p) reason
    | .bridge _ _ => s
  let s := ((s.flag (perrDown l)).count (pcntDowns l) 1).raise 0x1002 [linkNo l, reason]
  let s := sendControl l 3 [0x04, BitVec.ofNat 8 reason] s
  handBack l (s.onLink l (fun L => { L.fresh with bridgeUp := false, downs := L.downs ++ [s.now] }))

/-- Whether the downs of the last 60 s reach FLAPMAX (R138). -/
def flapping (s : State) (p : Port) : Bool :=
  let n := ((s.link (.port p)).downs.filter (fun t => decide (s.now ≤ t + 60 * 10 ^ 9))).length
  let m := s.rd (Reg.MRT_PCTL_FLAPMAX p)
  m ≠ 0 && decide (m ≤ n)

/-- A port that has gone down goes to Held where it flaps (R138), and goes on otherwise. -/
def holdOr (p : Port) (next : State → State) (s : State) : State :=
  if flapping s p then ((s.flag (Reg.MRT_PERR_HELD p)).toPortState p 0xA).raise 0x100A [p.val] else next s

/-- A link is declared down (R98, R134 to R138): a port goes to Held when it flaps, and otherwise retrains, fast where FASTOK lets it. A bridge
stays down until its next link-up. -/
def linkDown (l : LinkId) (reason : Nat) (s : State) : State :=
  let s := settleDown l reason s
  match l with
  | .bridge _ _ => s
  | .port p => holdOr p (startTraining p (s.isSet (Reg.MRT_PCTL_FASTOK p))) (s.toPortState p 9)

/-- A protocol error declares the link down at once (R142). -/
def protocolError (l : LinkId) (s : State) : State := linkDown l 4 ((s.flag (perrProto l)).raise 0x100B [linkNo l])

/-- A replay (R96 to R98): every kept flit again, in order; the first opens an episode, and one more than MAXREPLAY takes the link down. -/
def replayAll (l : LinkId) (s : State) : State :=
  let L := s.link l
  match L.replay with
  | [] => s
  | f :: _ =>
    let e := L.episode.getD { oldest := f.fsn.toNat, replays := 0 }
    if L.maxReplay ≤ e.replays then linkDown l 1 s else
    let s := s.onLink l (fun L => { L with episode := some { e with replays := e.replays + 1 }, nakGot := false })
    let s := (s.flag (perrReplay l)).count (pcntReplays l) 1
    s.each L.replay (fun s f => putWire l f s)

/-- An ACK (R93, R97): the flits it covers leave the replay buffer, their packets are settled on this link, and an episode whose oldest flit it
covers ends. -/
def takeAck (l : LinkId) (ack : Nat) (s : State) : State :=
  let L := s.link l
  match L.replay.findIdx? (fun f => f.fsn.toNat == ack) with
  | none => s
  | some k =>
    let gone := (L.replay.take (k + 1)).map (fun f => f.fsn.toNat)
    s.onLink l (fun L => { L with
      replay := L.replay.drop (k + 1),
      inflight := L.inflight.filter (fun e => !gone.contains e.1),
      episode := match L.episode with
        | some e => if gone.contains e.oldest then none else some e
        | none => none })

/-- A credit slot taken (R92). -/
def takeCredit (l : LinkId) (slot : Nat) (s : State) : State :=
  if bitOf slot 3 then
    s.onLink l (fun L => { L with credits := L.credits.modify (bitsOf slot 2 0) (fun n => n + bitsOf slot 15 4) })
  else s

end Sys2Proof.Machine
end

