-- ==== Sys2Proof/Machine/Link.lean ====
section
/-! DEFINITION. The link end as a receiver, its training, its cable module, and the bridges (R94 to R129, R135 to R143, R788, R828, R941). -/
namespace Sys2Proof.Machine
open Sys2Proof

/-! ### Receiving (R81 to R95) -/

/-- A packet as the end of a link passes it up: it has crossed one more link (R172), and PH grows over a wall, site or detour link (R169). A tray
link into the destination's tray that does not lead to the destination is a detour link (DEDUCED, log entry 7). -/
def crossed (s : State) (l : LinkId) (p : Packet) : Packet :=
  match l with
  | .bridge _ _ => p
  | .port q =>
    let d := p.dpid.toNat
    let self := s.ownPid
    let detour := pidWall d = pidWall self && pidTray d = pidTray self && d ≠ self
    let p := { p with hops := if p.hops = 7 then 7 else p.hops + 1 }
    if p.ptype.toNat ≠ ptCast && (portRole q ≠ .tray || detour) && p.ph ≠ 3 then { p with ph := p.ph + 1 } else p

/-- A whole packet is passed up (R87): its credit is freed, a selected packet is stamped (R893), and it goes to the router, or on over a bridge
without a further decision (R164): to the port chosen for it where it crossed for one, and else to the brick that it ends at. A cast goes to the brick it entered, its VIA, which a cast does not use, naming the port it came by. -/
def passUp (l : LinkId) (vc : Nat) (time : Nat) (bs : Bytes) (s : State) : State :=
  let b := linkBrick l
  let p := crossed s l (packetOf bs)
  let s := s.onLink l (fun L => { L with freed := L.freed.modify vc (fun n => n + bs.length / 8) })
  let s := stampPacket time b (linkNo l) false p s
  if p.ptype.toNat = ptCast then arriveAt b { p with via := BitVec.ofNat 6 (linkNo l) } s else
  match l with
  | .port _ => s.onBrick b (fun B => { B with routeQ := B.routeQ ++ [p] })
  | .bridge _ _ =>
    match (s.brick b).decided.find? (fun e => e.1 = p) with
    | some e =>
      let s := s.onBrick b (fun B => { B with decided := B.decided.erase e })
      let q := portOf e.2
      match (if portBrick q = b && !s.portActive q then none else toPort b q p s) with
      | some s => s
      | none => s.onBrick b (fun B => { B with routeQ := B.routeQ ++ [p] })
    | none =>
      match toBrick b (brickOf (endBrick p)) p s with
      | some s => s
      | none => s.onBrick b (fun B => { B with waitPkts := B.waitPkts ++ [p] })

/-- Packets that are complete in a channel's stream are passed up, at most `fuel` of them (R86, R87). -/
def passWhole (l : LinkId) (vc : Nat) : Nat → Nat → State → State
  | 0, _, s => s
  | fuel + 1, time, s =>
    let st := (s.link l).streams.getD vc []
    let n := 8 * max 5 (bitsOf (leNat (st.take 2)) 15 9)
    if st.length < n then s else
    let s := s.onLink l (fun L => { L with streams := L.streams.modify vc (fun x => x.drop n), streamAt := L.streamAt.set vc s.plumb.toNat })
    passWhole l vc fuel s.plumb.toNat (passUp l vc time (st.take n) s)

/-- The packet bytes of an accepted data flit (R86): while no packet is partly received, those before FIRST belong to none. -/
def takeData (l : LinkId) (f : Flit) (s : State) : State :=
  let vc := f.vc.toNat
  let st := (s.link l).streams.getD vc []
  let bs := f.area.take (8 * min 29 f.fill.toNat)
  let bs := if st.isEmpty then (if f.first = 0x1F then [] else bs.drop (8 * f.first.toNat)) else bs
  let time := if st.isEmpty then s.plumb.toNat else (s.link l).streamAt.getD vc 0
  passWhole l vc 8 time (s.onLink l (fun L => { L with streams := L.streams.modify vc (fun x => x ++ bs), streamAt := L.streamAt.set vc time }))

/-- A flit that must be asked for again: one NAK until the receiver accepts a flit (R94, R95), and another when the expected flit itself fails. -/
def askReplay (l : LinkId) (again : Bool) (s : State) : State :=
  if (s.link l).nakOut && !again then s else
  sendNull l true ((s.onLink l (fun L => { L with nakOut := true })).count (pcntNaks l) 1)

/-- The receive lanes that carry a port's flits, logical lane 0 first (R110): the l-th lowest live transmit lane number of the partner, on the own receive
lane that read it. -/
def rxLanes (s : State) (p : Port) : List Nat :=
  let nos := (s.link (.port p)).training.laneNo
  ((setBits 8 (s.rd (Reg.MRT_PSTAT_RXLIVE p))).take (widthOf (s.rd (Reg.MRT_PSTAT_RXW p)))).map (fun n => (nos.findIdx? (fun x => x == n)).getD n % 8)

/-- The corrected bytes of a wire block, counted by receive lane (R74, R151): byte k came on logical lane k mod W. -/
def countLanes (p : Port) (fixed : List Nat) (s : State) : State :=
  let lanes := rxLanes s p
  s.each fixed (fun s k =>
    let rx := lanes.getD (k % max 1 lanes.length) 0
    s.count ⟨Reg.MRT_LANEERR p, 8 * rx + 7, 8 * rx⟩ 1)

/-- A wire block as the receive lanes of a port deliver it (R74, R79, R109): levels to bytes, a swapped pair turned back, markers taken out, descrambled,
and the stripes put together. -/
def takeBlock (p : Port) (levels : List (List Level)) (s : State) : Bytes × State :=
  let lanes := rxLanes s p
  let pol := s.rd (Reg.MRT_PSTAT_RXPOL p)
  let L := s.link (.port p)
  let got := lanes.map (fun i =>
    let bs := bytesOfLevels (levels.getD i [])
    (i, laneIn (272 / max 1 lanes.length) (L.rxScr.getD i 0) (L.rxMark.getD i 0) (if bitOf pol i then invertBytes bs else bs)))
  (unstripe 272 (got.map (fun x => x.2.2.2)), s.onLink (.port p) (fun L => got.foldl (fun L x => L.laneTook x.1 x.2.1 x.2.2.1) L))

/-- The FSN expected next (R94). -/
def Link.expected (L : Link) : Nat := match L.rxLast with
  | some n => (n + 1) % 4096
  | none => 0

/-- A data or sequenced control flit with the expected FSN is accepted (R94): its credit, its packet bytes or its message, and an ACK. -/
def acceptFlit (l : LinkId) (f : Flit) (s : State) : State :=
  let s := s.onLink l (fun L => { L with rxLast := some f.fsn.toNat, nakOut := false })
  let s := takeCredit l f.crb.toNat (takeCredit l f.cra.toNat s)
  sendNull l false (if f.typ = 1 then takeData l f s else s.onLink l (fun L => { L with inbox := L.inbox ++ [(s.plumb.toNat, f.area)] }))

/-- The flits of a bridge that came before the expected one, accepted in their order as it comes to them (R126). -/
def acceptAhead (l : LinkId) : Nat → State → State
  | 0, s => s
  | n + 1, s =>
    let L := s.link l
    match L.ahead.find? (fun f => f.fsn.toNat = L.expected) with
    | none => s
    | some f => acceptAhead l n (acceptFlit l f (s.onLink l (fun L => { L with ahead := L.ahead.erase f })))

/-- How far ahead of the expected FSN a flit may come because modules deliver at their own pace: none on a port, and on a bridge each other active module
may be one flit ahead (R126; DEDUCED, log entry 198). -/
def spread (s : State) : LinkId → Nat
  | .port _ => 0
  | .bridge b q => (goodModules s b q).length - 1

/-- A flit that passed FEC and CRC (R85, R94): ACK of any, credit of one that is accepted; in order it is accepted, seen before it is acknowledged
again, and ahead it is asked for, unless a bridge waits for the flits of its other modules. -/
def takeFlit (l : LinkId) (f : Flit) (s : State) : State :=
  if 3 < f.typ.toNat then protocolError l s else
  let s := if f.av then takeAck l f.ack.toNat s else s
  let s := if f.nak then s.onLink l (fun L => { L with nakGot := true }) else s
  let credit := fun (s : State) => takeCredit l f.crb.toNat (takeCredit l f.cra.toNat s)
  let subtype := (f.area.headD 0).toNat
  match f.typ.toNat with
  | 0 => credit s
  | 3 =>
    if subtype = 1 || subtype = 2 || subtype = 4 then (credit s).onLink l (fun L => { L with inbox := L.inbox ++ [(s.plumb.toNat, f.area)] })
    else protocolError l s
  | t =>
    let expected := (s.link l).expected
    let fsn := f.fsn.toNat
    let early := (fsn + 4096 - expected) % 4096
    if fsn = expected then
      if t = 2 && subtype ≠ 3 then protocolError l s else acceptAhead l (spread s l) (acceptFlit l f s)
    else if (expected + 4096 - fsn) % 4096 ≤ 2048 then sendNull l false s
    else if early ≤ spread s l then
      (if t = 2 && subtype ≠ 3 then protocolError l s
       else s.onLink l (fun L => { L with ahead := L.ahead.filter (fun g => g.fsn ≠ f.fsn) ++ [f] }))
    else askReplay l false s

/-- A flit that has arrived, its bytes as FEC leaves them, or as they came where FEC fails (R81, R94). A flit that fails is classed by the TYPE and FSN of
those bytes (DESIGN CHOICE, log entry 199). -/
def flitArrives (l : LinkId) (fec : Bool) (bs : Bytes) (s : State) : State :=
  let f := flitOf bs
  if fec && f = flitSeal f then takeFlit l f s else
  let s := (s.flag (if fec then perrCrc l else perrFec l)).count (pcntFailed l) 1
  if f.typ.toNat = 0 || f.typ.toNat = 3 then s else askReplay l (f.fsn.toNat = (s.link l).expected) s

/-- A wire block of a port (R81, R151): the bytes that FEC corrects are counted, none of a flit that it cannot correct (DESIGN CHOICE, log entry 200). -/
def blockArrives (p : Port) (levels : List (List Level)) (s : State) : State :=
  let (block, s) := takeBlock p levels s
  match fecDecode block with
  | some (bs, fixed) => flitArrives (.port p) true bs (countLanes p fixed (s.count (pcntCorr (.port p)) fixed.length))
  | none => flitArrives (.port p) false block s

/-- FLIT_RECEIVE (R74, R94, R126): a wire block of a port in Verify or Active, or a flit of a bridge that is up, arrives. -/
def execFlitReceive (l : LinkId) (a : Arrival) (s : State) : Host.Outcome State Fault Refusal := ended s <|
  match l, a with
  | .port p, .lanes levels => .next (if 7 ≤ s.portState p && s.portState p ≤ 8 then blockArrives p levels s else s)
  | .bridge b q, .module m flit =>
    .next (if (s.link l).bridgeUp && (goodModules s b q).contains m.val then flitArrives l true (padTo 256 flit) s else s)
  | _, _ => .next s

/-! ### Replay and link down -/

/-- NAK_RECEIVE (R96): a NAK that has come starts a replay from ACK + 1. -/
def execNakReceive (l : LinkId) (s : State) : Host.Outcome State Fault Refusal := ended s <|
  if (s.link l).nakGot then .next (replayAll l (s.onLink l (fun L => { L with nakGot := false }))) else .next s

/-- ACKTMR_EXPIRY (R96): the oldest unacknowledged flit has waited longer than ACKTMR; a NAK this end sent is outstanding no more (R95). -/
def execAcktmrExpiry (l : LinkId) (s : State) : Host.Outcome State Fault Refusal := ended s <|
  .next (replayAll l (s.onLink l (fun L => { L with nakOut := false })))

/-- TLIMIT_EXPIRY (R98): a replay episode that is open TLIMIT after it began declares the link down. -/
def execTlimitExpiry (l : LinkId) (s : State) : Host.Outcome State Fault Refusal := ended s <|
  if (s.link l).episode.isSome then .next (linkDown l 1 s) else .next s

/-- The first message of a subtype in a link end's inbox, with its arrival, taken out. -/
def takeMessage (l : LinkId) (subtype : Nat) (s : State) : Option ((Nat × Bytes) × State) :=
  match (s.link l).inbox.find? (fun m => (m.2.headD 0).toNat == subtype) with
  | none => none
  | some m => some (m, s.onLink l (fun L => { L with inbox := L.inbox.erase m }))

/-- DOWN_RECEIVE (R135): the partner declared the link down. -/
def execDownReceive (l : LinkId) (s : State) : Host.Outcome State Fault Refusal := ended s <|
  match takeMessage l 4 s with
  | none => .next s
  | some (_, s) => .next (linkDown l 3 s)

/-- Lanes of the receive direction are excluded: event 0x1003 for each, and they stay out of the next training (R115, R136). The event carries port, lane,
direction 0 for transmit and 1 for receive, and cause 0 open, 1 shorted or faulty, 2 not locked, 3 marginal, 4 loss of lock; a receive lane has the partner's
transmit lane number once that is read, and its own before (DESIGN CHOICE, log entry 201). -/
def excludeRx (p : Port) (lanes cause : Nat) (s : State) : State :=
  if lanes = 0 then s else
  let s := s.each (setBits 8 lanes) (fun s i => s.raise 0x1003 [p.val, i, 1, cause])
  (s.flag (Reg.MRT_PERR_LANEX p)).onLink (.port p) (fun L =>
    { L with training := { L.training with excludedRx := Nat.lor L.training.excludedRx lanes } })

/-- LOSS_OF_LOCK (R115, R135): a port loses lock on all of its lanes for 100 ns, or on one lane while Active; it retrains without that lane.
`lanes` are numbered as the partner's transmit lanes. -/
def execLossOfLock (p : Port) (lanes : BitVec 8) (s : State) : Host.Outcome State Fault Refusal := ended s <|
  let live := s.rd (Reg.MRT_PSTAT_RXLIVE p)
  let lost := Nat.land live lanes.toNat
  let st := s.portState p
  if lost = 0 || st < 2 || 8 < st then .next s else
  if lost = live then .next (linkDown (.port p) 2 s)
  else if st = 8 then .next (linkDown (.port p) 2 (excludeRx p lost 4 s))
  else .next s

/-! ### The cable module of a port (R120 to R123, R284, R285) -/

/-- The module bus of a port, as the sideband buses are numbered (R284). -/
def moduleBus (p : Port) : Nat := 3 + p.val / 6

/-- Whether a port may be enabled (R122, R809): its module is there, can be read, its bus works, and the build sheet held allows its media class. -/
def State.moduleOk (s : State) (p : Port) : Bool :=
  let L := s.link (.port p)
  L.modulePresent && L.moduleReadable && !s.hod.busFailed.contains (moduleBus p) &&
  (match s.sheetRec p with
   | some r => bitOf (recClasses r) L.moduleClass
   | none => true)

/-- Transactions of Hod with the module of a port, which its MOD_SEL_N alone selects on the module bus meanwhile (R285). -/
def withModule (p : Port) (f : State → State) (s : State) : State :=
  let pin := "MOD_SEL_N" ++ toString p.val
  (f (s.emit (.pin pin 0))).emit (.pin pin 1)

/-- A write of Hod to a CMIS location: page, byte and value. -/
def cmisWrite (p : Port) (page at' v : Nat) (s : State) : State :=
  s.emit (.sideband ("MOD" ++ toString (p.val / 6)) [BitVec.ofNat 8 page, BitVec.ofNat 8 at', BitVec.ofNat 8 v])

/-- Hod brings an active module, one whose memory is not flat, out of low power with every data path on (R121). That it does so when it enables the port,
and the two locations, byte 26 and byte 128 of page 10h, are PRESUMED (log entry 202). -/
def powerModule (p : Port) (s : State) : State :=
  if bitOf ((s.link (.port p)).moduleLower.getD 2 0).toNat 7 then s else cmisWrite p 0x10 128 0 (cmisWrite p 0x00 26 0 s)

/-- The module of a port is rejected (R122): MODREJ and event 0x1009. A Disabled port stays so and shows STATE 0xC (R147; DEDUCED, log entry 225). -/
def rejectModule (p : Port) (s : State) : State :=
  let s := s.flag (Reg.MRT_PERR_MODREJ p)
  (if s.portOff p then s.toPortState p 0xC else s).raise 0x1009 [p.val]

/-- EN is set (R103, R122, R153). Hod reads the module before (R788). A port whose module is absent, unreadable or not allowed stays Disabled with event
0x1009; any other Disabled port starts a full training. A bridge waits for its link-up. -/
def enableLink (l : LinkId) (s : State) : State :=
  match l with
  | .bridge b q => loadSettings l (s.wr (Reg.MRT_BCTL_EN b q) 1)
  | .port p =>
    if !s.portOff p then s.wr (Reg.MRT_PCTL_EN p) 1 else
    if !s.moduleOk p then rejectModule p (withModule p id s) else
    let s := (withModule p (powerModule p) s).onLink l (fun L => { L with enAt := s.now, absentRaised := false, backoffMs := 10 })
    startTraining p false (s.wr (Reg.MRT_PCTL_EN p) 1)

/-- PORT_ENABLE (R103, R122, R153): EN is set. -/
def execPortEnable (l : LinkId) (s : State) : Host.Outcome State Fault Refusal := ended s <| .next (enableLink l s)

/-- PORT_DISABLE (R138, R941): EN is cleared: the link goes down with reason 0x6 and the port to Disabled, without a retrain. A Held port leaves Held, its
downs forgotten. -/
def execPortDisable (l : LinkId) (s : State) : Host.Outcome State Fault Refusal := ended s <|
  match l with
  | .bridge b q =>
    let s := s.wr (Reg.MRT_BCTL_EN b q) 0
    .next (if (s.link l).bridgeUp then settleDown l 6 s else s)
  | .port p =>
    let s := s.wr (Reg.MRT_PCTL_EN p) 0
    if s.portOff p then .next s else
    let held := s.portState p = 0xA
    .next (((settleDown l 6 s).onLink l (fun L => { L with training := {}, downs := if held then [] else L.downs })).toPortState p 0)

/-- A port that is in training or Active is taken down by software; one that is Held, Miswired or already down only records the reason. -/
def softwareDown (p : Port) (s : State) : State :=
  let st := s.portState p
  if 1 ≤ st && st ≤ 8 then settleDown (.port p) 6 s else s.wr (Reg.MRT_PSTAT_WHY p) 6

/-- RETRAIN (R105, R138, R146, R153): the link is declared down with reason 0x6 and a full training starts; a port leaves Held with its downs
forgotten. A Disabled port stays so. The down that RETRAIN declares counts toward FLAPMAX, and does not itself hold the port, which R146 has train
(DESIGN CHOICE, log entry 203). -/
def execRetrain (l : LinkId) (s : State) : Host.Outcome State Fault Refusal := ended s <|
  match l with
  | .bridge _ _ => .next (if (s.link l).bridgeUp then settleDown l 6 s else s)
  | .port p =>
    if s.portOff p then .next s else
    let held := s.portState p = 0xA
    let s := softwareDown p s
    .next (startTraining p false (if held then s.onLink l (fun L => { L with downs := [] }) else s))

/-- HOLDCLR (R138, R146): a Held port forgets its downs and starts a full training. -/
def execHoldclr (p : Port) (s : State) : Host.Outcome State Fault Refusal := ended s <|
  if s.portState p = 0xA then .next (startTraining p false (s.onLink (.port p) (fun L => { L with downs := [] }))) else .next s

/-! ### Training (R101 to R119) -/

/-- The training resumes at Width, and its Verify starts over (R112). -/
def backToWidth (p : Port) (s : State) : State :=
  enterState p 5 (s.onLink (.port p) (fun L => { L with training := { L.training with verified := false, exchanges := 0 } }))

/-- A training fails (R105, R106): the reason stands in WHY, and the port waits its back-off in Down. -/
def failTraining (p : Port) (reason : Nat) (s : State) : State :=
  let s := s.wr (Reg.MRT_PSTAT_WHY p) reason
  let fast := (s.link (.port p)).training.fast
  if fast then startTraining p false s else
  (s.onLink (.port p) (fun L => { L with training := { L.training with failed := true }, backoffMs := min 1000 (2 * L.backoffMs) })).toPortState p 9

/-- Whether 32 bytes are an intact training word (R101, R102). -/
def wordIntact (w : Bytes) : Bool := leNat (w.take 4) == syncPattern && leNat (w.drop 28) == crc32c (w.take 28)

/-- The training word that 32 bytes on an own receive lane are, whether the lane inverts it, and the descrambler after it (R74, R101, R103, R109): as they
stand, or, from Align on, descrambled (DEDUCED, log entry 204). -/
def wordOf (st : Nat) (inverted : Bool) (scr : Nat) (bs : Bytes) : Option (Bytes × Bool) × Nat :=
  let swapped := leNat (bs.take 4) == syncInverted
  let plain := if swapped then invertBytes bs else bs
  if wordIntact plain then (some (plain, swapped), scr)
  else if st < 3 then (none, scr)
  else
    let (scr, d) := codeBytes descrambleByte scr (if inverted then invertBytes bs else bs)
    (if wordIntact d then some (d, inverted) else none, scr)

/-- What an intact training word tells this end (R104, R116). -/
def Training.heard (T : Training) (st lane : Nat) (inverted : Bool) (word : Bytes) : Training :=
  let at' := fun i => (word.getD i 0).toNat
  { T with
    rxLocked := Nat.lor T.rxLocked (2 ^ lane),
    rxInverted := if inverted then Nat.lor T.rxInverted (2 ^ lane) else T.rxInverted,
    laneNo := T.laneNo.set lane (at' 4 % 8),
    words := T.words + bit (decide (st ≤ at' 5 + 1)), partnerLive := at' 6, partnerMinW := at' 7 % 4,
    partnerAccepted := bitOf (at' 7) 3, ident := some (leNat ((word.drop 8).take 2), at' 10 % 32, leNat ((word.drop 12).take 4)),
    eqIn := T.eqIn.set lane (leNat ((word.drop 16).take 4) % 4096) }

/-- TRAINING_WORD_RECEIVE (R102, R109, R112, R114): the 128 symbols of a word on own receive lane `lane`. A word that is not intact is discarded, and so is
one on an excluded lane. A port in Verify whose partner is back in Width, having excluded a lane, goes back to Width too. -/
def execTrainingWordReceive (p : Port) (lane : Fin 8) (word : List Level) (s : State) : Host.Outcome State Fault Refusal := ended s <|
  let st := s.portState p
  let L := s.link (.port p)
  let T := L.training
  if st < 2 || 7 < st || bitOf T.excludedOwn lane.val then .next s else
  let (got, scr) := wordOf st (bitOf T.rxInverted lane.val) (L.rxScr.getD lane.val 0) (padTo 32 (bytesOfLevels word))
  let s := s.onLink (.port p) (fun L => { L with rxScr := L.rxScr.set lane.val scr })
  let hear := fun (st : Nat) (inverted : Bool) (w : Bytes) (s : State) =>
    s.onLink (.port p) (fun L => { L with training := L.training.heard st lane.val inverted w })
  match got with
  | none => .next s
  | some (w, inverted) =>
    if st ≤ 6 then .next (hear st inverted w s)
    else if w.getD 5 0 = 4 then .next (hear 5 inverted w (backToWidth p s))
    else .next s

/-- Whether numbers rise strictly. -/
def rising : List Nat → Bool
  | [] => true
  | [_] => true
  | a :: b :: t => decide (a < b) && rising (b :: t)

/-- The widest width code for a number of live lanes: 1 for 2 lanes, 2 for 4, 3 for 8, 0 for none (R110, R147). -/
def widthCode (lanes : Nat) : Nat := if 8 ≤ lanes then 3 else if 4 ≤ lanes then 2 else if 2 ≤ lanes then 1 else 0

/-- Outcomes of Identify (R116). -/
inductive Identity where
  | accept | acceptSwap | acceptAny | foreign | miswired | wait
  deriving DecidableEq, Repr

/-- The check of a partner against the port's build-sheet record (R116, R118). -/
def checkIdentity (s : State) (p : Port) (portRec : Option Nat) (pid port tag : Nat) : Identity :=
  match portRec with
  | none => .wait
  | some r =>
    if tag ≠ s.hod.siteTag then .foreign
    else if pid = s.ownPid then .miswired
    else if recRole r = 0 then .miswired
    else if recAny r then (if s.sealed then .miswired else .acceptAny)
    else if pid = recNbr r && port = recNbrPort r then .accept
    else if pid = recNbr r && s.isSet (Reg.MRT_PCTL_SWAPOK p) && (List.range 24).any (fun q => q ≠ p.val &&
        (match s.sheetRec q with
          | some r' => recRole r' = recRole r && !recAny r' && recNbr r' = pid && recNbrPort r' = port
          | none => false)) then .acceptSwap
    else .miswired

/-- Detect (R103, R115, R123): lanes with no termination or an abnormal load, and those CMIS reports faulty, are absent. With no lane present the port stays
in Detect, which it repeats (R107); where every lane is open, the partner is absent and no lane is faulty (DEDUCED, log entry 205). -/
def stepDetect (p : Port) (t : LaneTest) (s : State) : State :=
  let fault := (s.link (.port p)).laneFault
  let absent := Nat.lor (Nat.lor t.openTx.toNat t.shortTx.toNat) fault
  let present := Nat.xor 0xFF absent
  if t.openTx = 0xFF && t.shortTx = 0 then s else
  let s := s.each (setBits 8 absent) (fun s i => s.raise 0x1003 [p.val, i, 0, if bitOf t.openTx.toNat i && !bitOf t.shortTx.toNat i then 0 else 1])
  let s := if absent = 0 then s else s.flag (Reg.MRT_PERR_LANEX p)
  if present = 0 then s else
  enterState p 2 (s.onLink (.port p) (fun L => { L with training := { L.training with txPresent := present } }))

/-- Lock (R103, R114, R115): receive lanes that have not locked are excluded until the next full training. -/
def stepLock (p : Port) (s : State) : State :=
  let T := (s.link (.port p)).training
  let missing := (List.range 8).filter (fun i => !bitOf T.rxLocked i && !bitOf T.excludedOwn i)
  let s := s.each missing (fun s i => s.raise 0x1003 [p.val, i, 1, 2])
  let s := if missing.isEmpty then s else s.flag (Reg.MRT_PERR_LANEX p)
  enterState p 3 (s.onLink (.port p) (fun L => { L with training := { L.training with
    excludedOwn := missing.foldl (fun m i => m + 2 ^ i) L.training.excludedOwn } }))

/-- Tune (R101, R103): the equaliser codes of a round go out in the training words; the exchange is done when both ends are content, and after 64 rounds. -/
def stepTune (p : Port) (t : LaneTest) (s : State) : State :=
  let T := (s.link (.port p)).training
  if T.eqDone then s else
  let rounds := T.rounds + bit (!t.eq.isEmpty)
  sendWords p (s.onLink (.port p) (fun L => { L with training := { L.training with
    eqOut := if t.eq.isEmpty then L.training.eqOut else t.eq, rounds := rounds, eqDone := t.eqDone || decide (64 ≤ rounds) } }))

/-- Align (R73, R108, R109): polarity, and identity or reversed order; any other order fails. A fast retrain goes on to Width (R136). -/
def stepAlign (p : Port) (s : State) : State :=
  let T := (s.link (.port p)).training
  let nos := (setBits 8 T.rxLocked).map (fun i => T.laneNo.getD i 8)
  if !rising nos && !rising nos.reverse then failTraining p 9 (s.raise 0x100C [p.val]) else
  let s := s.wr (Reg.MRT_PSTAT_RXPOL p) (Nat.land T.rxInverted T.rxLocked)
  let s := s.wr (Reg.MRT_PSTAT_RXREV p) (bit (!rising nos))
  enterState p (if T.fast then 5 else 4) s

/-- Width (R110, R111): each direction takes the widest width its live lanes carry; too few lanes, or a width below the MINW of either end, fail. -/
def stepWidth (p : Port) (s : State) : State :=
  let T := (s.link (.port p)).training
  let rx := T.rxLive
  let tx := Nat.land T.partnerLive T.txPresent
  let wr := widthCode (popcount 8 rx)
  let wt := widthCode (popcount 8 tx)
  let s := ((s.wr (Reg.MRT_PSTAT_RXLIVE p) rx).wr (Reg.MRT_PSTAT_TXLIVE p) tx)
  if wr = 0 || wt = 0 then failTraining p 5 (s.raise 0x1002 [p.val, 5]) else
  let need := max (s.rd (Reg.MRT_PCTL_MINW p)) T.partnerMinW + 1
  if wr < need || wt < need then failTraining p 5 s else
  enterState p 6 ((s.wr (Reg.MRT_PSTAT_RXW p) wr).wr (Reg.MRT_PSTAT_TXW p) wt)

/-- Identify (R105, R116 to R118): a foreign or miswired partner puts the port into Miswired; without a build sheet it waits; once both ends have
accepted, Verify begins and the port sends its first TSREQ. -/
def stepIdentify (p : Port) (s : State) : State :=
  let T := (s.link (.port p)).training
  match T.ident with
  | none => s
  | some (pid, port, tag) =>
    let portRec := match T.portRec with
      | some r => some r
      | none => s.sheetRec p
    let expected := portRec.getD 0
    let s := ((s.wr (Reg.MRT_PSTAT_NBRID p) pid).wr (Reg.MRT_PSTAT_NBRPORT p) port)
    let wrong := fun (s : State) => (s.flag (Reg.MRT_PERR_MISWIRE p)).toPortState p 0xB
    let took := fun (s : State) =>
      if T.accepted then s else
      sendWords p (s.onLink (.port p) (fun L => { L with training := { L.training with accepted := true } }))
    let go := fun (s : State) => if T.partnerAccepted then sendTsreq (.port p) (enterState p 7 s) else s
    match checkIdentity s p portRec pid port tag with
    | .wait => s
    | .foreign => wrong (s.raise 0x1007 [p.val, tag])
    | .miswired => wrong (s.raise 0x1006 [p.val, recNbr expected, recNbrPort expected, pid, port])
    | .accept => go (took s)
    | .acceptSwap => go (took (if T.accepted then s else s.raise 0x1008 [p.val, port]))
    | .acceptAny => go (took (if T.accepted then s else s.raise 0x1011 [p.val, pid, port]))

/-- A port becomes Active (R103, R106): event 0x1001 with the widths in lanes; its buckets are refilled at the new capacity from now on (R435). -/
def becomeActive (p : Port) (s : State) : State :=
  let lanes := fun c => if c = 0 then 0 else 2 ^ c
  let s := (s.onLink (.port p) (fun L => { L with backoffMs := 10 })).onPoint (pointOf (.port p)) (fun P => { P with filledAt := s.now })
  (s.toPortState p 8).raise 0x1001 [p.val, lanes (s.rd (Reg.MRT_PSTAT_TXW p)), lanes (s.rd (Reg.MRT_PSTAT_RXW p))]

/-- The plumb measurement of a port (R892): θ, δ and the time it was taken. -/
def recordTheta (p : Port) (theta : Int) (rtt : Nat) (s : State) : State :=
  let s := s.setReg (Reg.PLB_PTHETA p) (wrapNat 64 theta)
  let s := (s.wr (Reg.PLB_PDELTA_DELTA p) (rtt / 2)).wr (Reg.PLB_PDELTA_VALID p) 1
  s.setReg (Reg.PLB_PTMEAS p) s.plumb.toNat

/-- Verify (R91, R112, R113, R140, R828): bad lanes send the training back to Width; a round trip above 800 ns fails it; a credit division that is
too large keeps the port here; else CREDINIT is sent, and the port is Active once the partner's has come. -/
def stepVerify (p : Port) (t : LaneTest) (s : State) : State :=
  let l := LinkId.port p
  let T := (s.link l).training
  if T.verified then (if T.credGot then becomeActive p s else s) else
  let live := s.rd (Reg.MRT_PSTAT_RXLIVE p)
  let bad := (setBits 8 live).filter (fun i => decide (2000 < t.corrected.getD i 0) || bitOf t.alone.toNat i)
  if !bad.isEmpty then backToWidth p (excludeRx p (bad.foldl (fun m i => m + 2 ^ i) 0) 3 s) else
  if T.exchanges < 64 then s else
  let s := s.wr (Reg.MRT_RTT_RTT p) (satNat 16 T.rtt)
  let s := (recordTheta p T.theta T.rtt s).raise 0x1302 [p.val, wrapNat 64 T.theta, T.rtt / 2]
  if 800 < T.rtt then failTraining p 8 s else
  if 65536 < (s.link l).vccr.sum then s.wr (Reg.MRT_PSTAT_WHY p) 0xA else
  let s := sendCredinit l (s.onLink l (fun L => { L with training := { L.training with verified := true } }))
  if T.credGot then becomeActive p s else s

/-- TRAINING_STATE_ADVANCE (R104): the port leaves its training state once its own step is complete and, from Lock to Identify, 16 intact words have
shown the partner in the same or a later state. -/
def execTrainingStateAdvance (p : Port) (t : LaneTest) (s : State) : Host.Outcome State Fault Refusal := ended s <|
  let T := (s.link (.port p)).training
  let seen := decide (16 ≤ T.words)
  .next (match s.portState p with
    | 1 => stepDetect p t s
    | 2 => if seen then stepLock p s else s
    | 3 => if seen then stepAlign p s else s
    | 4 =>
      let s := stepTune p t s
      if (s.link (.port p)).training.eqDone && seen then enterState p 5 s else s
    | 5 => if seen then stepWidth p s else s
    | 6 => if seen then stepIdentify p s else s
    | 7 => stepVerify p t s
    | _ => s)

/-- TRAINING_TIMEOUT (R105): a training not Active within 50 ms fails, unless the port waits in Identify for a build sheet or is Miswired. -/
def execTrainingTimeout (p : Port) (s : State) : Host.Outcome State Fault Refusal := ended s <|
  let st := s.portState p
  let waits := st = 6 && (s.link (.port p)).training.portRec.isNone && (s.sheetRec p).isNone
  if 2 ≤ st && st ≤ 7 && !waits then .next (failTraining p 7 s) else .next s

/-- TRAINING_RETRY (R106): the back-off of a failed training is over and the port trains again. -/
def execTrainingRetry (p : Port) (s : State) : Host.Outcome State Fault Refusal := ended s <|
  if (s.link (.port p)).training.failed then .next (startTraining p false s) else .next s

/-- FAST_RETRAIN_TIMEOUT (R137): a fast retrain not Active within 1 ms falls back to a full training. -/
def execFastRetrainTimeout (p : Port) (s : State) : Host.Outcome State Fault Refusal := ended s <|
  let st := s.portState p
  if (s.link (.port p)).training.fast && 2 ≤ st && st ≤ 7 then .next (startTraining p false s) else .next s

/-- DETECT_REPEAT (R107): a port whose partner is absent repeats Detect. -/
def execDetectRepeat (p : Port) (s : State) : Host.Outcome State Fault Refusal := ended s <|
  if s.portState p = 1 then .next (startTraining p false s) else .next s

/-- NEIGHBOUR_ABSENT (R107): a neighbour the build sheet expects has not appeared within 1 s of EN: event 0x1010, once. -/
def execNeighbourAbsent (p : Port) (s : State) : Host.Outcome State Fault Refusal := ended s <|
  let L := s.link (.port p)
  let expected := match s.sheetRec p with
    | some r => recRole r ≠ 0
    | none => false
  if s.isSet (Reg.MRT_PCTL_EN p) && s.portState p = 1 && expected && !L.absentRaised then
    .next ((s.onLink (.port p) (fun L => { L with absentRaised := true })).raise 0x1010 [p.val])
  else .next s

/-- CREDINIT_RECEIVE (R91): the partner's division sets the transmit credit of each channel. -/
def execCredinitReceive (l : LinkId) (s : State) : Host.Outcome State Fault Refusal := ended s <|
  match takeMessage l 3 s with
  | none => .next s
  | some (m, s) =>
    let cr := (List.range 8).map (fun v => leNat ((m.2.drop (8 + 2 * v)).take 2))
    .next (s.onLink l (fun L => { L with credits := cr, training := { L.training with credGot := true } }))

/-- TSREQ_RECEIVE (R88, R89, R93): a TSREQ is answered with a TSRSP that carries t1, its arrival t2 and the time t3 of the answer; it waits while the
replay buffer is full. -/
def execTsreqReceive (l : LinkId) (s : State) : Host.Outcome State Fault Refusal := ended s <|
  if replayFull s l then .next s else
  match takeMessage l 1 s with
  | none => .next s
  | some (m, s) =>
    .next (sendControl l 3 ([0x02] ++ List.replicate 7 0 ++ (m.2.drop 8).take 8 ++ leBytes 8 m.1 ++ leBytes 8 s.plumb.toNat) s)

/-- Half of an integer, rounded down. -/
def half (i : Int) : Int := i / 2

/-- TSRSP_RECEIVE (R828, R884): t4 is the arrival of the TSRSP; of the exchanges of a measurement the one with the smallest round trip is kept, and
in Verify the next exchange starts until 64 are done. -/
def execTsrspReceive (p : Port) (s : State) : Host.Outcome State Fault Refusal := ended s <|
  match takeMessage (.port p) 2 s with
  | none => .next s
  | some (m, s) =>
    let word := fun i => (leNat ((m.2.drop i).take 8) : Int)
    let t1 := word 8
    let t2 := word 16
    let t3 := word 24
    let t4 : Int := (m.1 : Int)
    let rtt := ((t4 - t1) - (t3 - t2)).toNat
    let theta := half ((t2 - t1) - (t4 - t3))
    let T := (s.link (.port p)).training
    let better := T.exchanges = 0 || decide (rtt < T.rtt)
    let s := s.onLink (.port p) (fun L => { L with training := { L.training with
      exchanges := T.exchanges + 1, rtt := if better then rtt else T.rtt, theta := if better then theta else T.theta } })
    .next (if s.portState p = 7 && T.exchanges + 1 < 64 then sendTsreq (.port p) s else s)

/-! ### Cable modules, lanes in service, bridges -/

/-- A mismatch of an identity recorded (R788): kind 0 stack, 1 regulator, 2 cable module, 3 cold plate, 4 a position of own tray without a package (R66). -/
def mismatch (kind place want got : Nat) (s : State) : State := (s.flag Reg.HOD_ERR_IDMISM).raise 0x5020 [kind, place, want, got]

/-- The identities that Hod has read, in the order of R788: stacks, regulators, cable modules, cold plate. -/
def identBytes (s : State) : Bytes :=
  s.hod.modules.hbm.flatten ++ s.hod.modules.regulators.flatten ++ s.ports.toList.flatMap (fun L => L.moduleId) ++ s.hod.modules.coldPlate

/-- Measurement block 6, updated whenever a module is read (R796). -/
def measureIdents (s : State) : State := { s with hod := { s.hod with meas := s.hod.meas.set 5 (sha384 (identBytes s)) } }

/-- MODULE_PRESENCE_CHANGE (R105, R120 to R123, R284, R788): MOD_PRS_N changes and Hod reads the module over its bus, where that works. A class the build
sheet does not allow is a mismatch; an absent, unreadable or disallowed module is rejected, and a Disabled port with one that is not shows STATE 0x0. A Miswired port trains again. -/
def execModulePresenceChange (p : Port) (present readable : Bool) (faulty : BitVec 8) (m : CableModule) (int : Bool) (s : State) :
    Host.Outcome State Fault Refusal := ended s <|
  let read := present && readable && !s.hod.busFailed.contains (moduleBus p)
  let s := { s with hod := { s.hod with modInt := withBits s.hod.modInt (p.val / 6) (p.val / 6) (bit int) } }
  let s := if present then withModule p id s else s
  let s := measureIdents (s.onLink (.port p) (fun L => { L with
    modulePresent := present, moduleReadable := read, moduleClass := if read then m.cls.val else 0,
    moduleLower := if read then padTo 18 m.lower else [], laneFault := if read then faulty.toNat else 0, moduleId := if read then m.ident else [] }))
  let classes := recClasses ((s.sheetRec p).getD 0)
  let s := if read && !s.moduleOk p then mismatch 2 p.val classes m.cls.val s else s
  let s := if !s.moduleOk p then rejectModule p s else if s.portOff p then s.toPortState p 0 else s
  .next (if s.portState p = 0xB then startTraining p false s else s)

/-- CORRECTED_RATE_HIGH (R141, R143): more than 20,000 corrected bytes on a lane within 10 ms while Active: event 0x100E and no action. -/
def execCorrectedRateHigh (p : Port) (lane : Fin 8) (s : State) : Host.Outcome State Fault Refusal := ended s <|
  if s.portActive p then .next (s.raise 0x100E [p.val, lane.val]) else .next s

/-- LANE_DRIVER_FAULT (R141): an abnormal load on a lane while Active: event 0x100F. -/
def execLaneDriverFault (p : Port) (lane : Fin 8) (s : State) : Host.Outcome State Fault Refusal := ended s <|
  if s.portActive p then .next (s.raise 0x100F [p.val, lane.val]) else .next s

/-- BRIDGE_LINK_UP (R129, R153, R282): both uncores that the bridge belongs to are ON, UCIe is up and the far end's brick number has come. A number that does not fit the bridge's position keeps it down,
with event 0x100D and the reason geometry (1). -/
def execBridgeLinkUp (b : Brick) (q : Fin 3) (brick : Nat) (modules : BitVec 18) (fast : Bool) (s : State) : Host.Outcome State Fault Refusal := ended s <|
  let l := LinkId.bridge b q
  if !s.isSet (Reg.MRT_BCTL_EN b q) || (s.link l).bridgeUp || modules = 0 || !uncoreOn s b || !uncoreOn s (bridgePeer b q) || brickSafe s b ||
    brickSafe s (bridgePeer b q) then .next s else
  if brick ≠ (bridgePeer b q).val then .next (s.raise 0x100D [b.val, q.val, 1]) else
  let s := loadSettings l (s.onLink l (fun L => { L.fresh with bridgeUp := true, training := {} }))
  let s := fillBuckets (pointOf l) s
  let s := (s.wr (Reg.MRT_BSTAT_MODGOOD b q) modules.toNat).wr (Reg.MRT_BSTAT_SPEED b q) (if fast then 2 else 1)
  .next (sendCredinit l s)

/-- BRIDGE_MODULE_REMOVE (R128): a module that lane repair cannot recover leaves the bridge, with event 0x100D; without a module the bridge goes
down, with reason 0x2, the loss of its last lanes; event 0x100D carries 0 for a removal (DESIGN CHOICE, log entry 206). -/
def execBridgeModuleRemove (b : Brick) (q : Fin 3) (m : Fin 18) (s : State) : Host.Outcome State Fault Refusal := ended s <|
  let good := s.rd (Reg.MRT_BSTAT_MODGOOD b q)
  if !bitOf good m.val then .next s else
  let left := good - 2 ^ m.val
  let s := fillBuckets (pointOf (.bridge b q)) s
  let s := (s.wr (Reg.MRT_BSTAT_MODGOOD b q) left).raise 0x100D [b.val, q.val, 0, m.val]
  .next (if left = 0 && (s.link (.bridge b q)).bridgeUp then linkDown (.bridge b q) 2 s else s)

end Sys2Proof.Machine
end

