-- ==== Sys2Proof/Machine/Tile.lean ====
section
/-! DEFINITION. Tiles: where a logical tile sits, its tile store and the view of its mason store, poison marks, tile faults and the fence
(R275, R276, R296, R488, R489, R847 to R849, R855). -/
namespace Sys2Proof.Machine
open Sys2Proof

/-! ### Sites -/

/-- The site, within its brick, that carries a logical tile (R276). -/
def siteOf (s : State) (t : Tile) : Nat :=
  let k := t.val % 32
  if k < s.rd (Reg.PWR_SITEMAP_XCUR (tileBrick t)) then k else k + 1

/-- The power domain of the site that carries a logical tile (R291). -/
def siteDomain (s : State) (t : Tile) : Nat := 33 * (tileBrick t).val + siteOf s t

/-- The power state of the site that carries a logical tile: 0 OFF, 1 IDLE, 3 ON. -/
def siteState (s : State) (t : Tile) : Nat := s.rd (Reg.PWR_DOM_CUR (siteDomain s t))

/-- Whether a tile's store and register blocks answer (R296). -/
def tileServes (s : State) (t : Tile) : Bool := siteState s t == 1 || siteState s t == 3

/-- Whether a tile is fenced (R848). -/
def tileFenced (s : State) (t : Tile) : Bool := bitOf (s.rd (Reg.SAF_FENCED_FENCED (tileBrick t))) (t.val % 32)

/-- Whether a tile's units run: its site is ON, it is not fenced, and its brick's tile clock is not stopped (R292, R848, R809). -/
def tileRuns (s : State) (t : Tile) : Bool :=
  siteState s t == 3 && !tileFenced s t && !s.power.stopped.contains (tileBrick t).val

/-- Whether a command that a tile's unit has begun goes on: a site in IDLE still finishes it, and a stopped tile clock holds it (R11, R292). -/
def tileGoes (s : State) (t : Tile) : Bool :=
  tileServes s t && !tileFenced s t && !s.power.stopped.contains (tileBrick t).val

/-! ### The tile store -/

/-- Bytes in a tile store (R38). -/
def tileStoreSize : Nat := 0x600000

/-- The numbers of the 64-bit words that `n` bytes from offset `off` touch. -/
def wordsOf (off n : Nat) : List Nat := if n = 0 then [] else (List.range ((off + n - 1) / 8 + 1 - off / 8)).map (fun i => off / 8 + i)

/-- The numbers of the 64-bit words that `n` bytes from offset `off` cover whole. -/
def wholeWords (off n : Nat) : List Nat := (wordsOf off n).filter (fun w => off ≤ 8 * w && 8 * w + 8 ≤ off + n)

/-- A rising list of numbers with one put in. -/
def insertNum : List Nat → Nat → List Nat
  | [], w => [w]
  | x :: xs, w => if w < x then w :: x :: xs else if w = x then x :: xs else x :: insertNum xs w

/-- The state with word `w` of a tile store marked poisoned, or not. -/
def markWord (t : Tile) (v : Bool) (s : State) (w : Nat) : State :=
  s.onTile t (fun T => { T with marks := if v then insertNum T.marks w else T.marks.filter (fun x => x ≠ w) })

/-- Whether a marked word lies in `n` bytes from an offset of a tile store. -/
def storeMarked (s : State) (t : Tile) (off n : Nat) : Bool := (wordsOf off n).any (fun w => (s.tile t).marks.contains w)

/-- What SECDED reports of the tile stores and mason stores (R489, R838): an uncorrectable tile-store word is marked poisoned. -/
def tileReports (e : MemEnv) (s : State) : State :=
  let s := s.each e.storeUnc (fun s u => (markWord (tileOf u.1) true s (u.2 / 8)).raise 0x6004 [u.1, u.2 / 8 * 8])
  let s := s.each e.masonUnc (fun s u => (s.flag (Reg.MSN_ERR_FETCHUNC (tileOf u.1))).raise 0x3002 [u.1, u.2 / 8 * 8])
  s.each e.masonCorr (fun s t => s.count (Reg.MSN_CNT1_MSCORR (tileOf t)) 1)

/-- Bytes of a tile store. -/
def storeBytes (s : State) (t : Tile) (off n : Nat) : Bytes := s.bytes (tileStoreKey t off) n

/-- The state with bytes written to a tile store. A word the write covers whole takes the mark `bad`; any other word keeps its mark, or takes it
where `bad` (R855). -/
def storePut (t : Tile) (off : Nat) (bs : Bytes) (bad : Bool) (s : State) : State :=
  let s := s.store (tileStoreKey t off) bs
  s.each (wordsOf off bs.length) (fun s w =>
    if bad then markWord t true s w
    else if off ≤ 8 * w && 8 * w + 8 ≤ off + bs.length then markWord t false s w else s)

/-- Whether `n` bytes at offset `off` of the mason store report an uncorrectable error now. -/
def masonBad (e : MemEnv) (t : Tile) (off n : Nat) : Bool := e.masonUnc.any (fun u => u.1 = t.val && (wordsOf off n).contains (u.2 / 8))

/-- Whether the mason store view takes a store now (R488). -/
def viewOpen (s : State) (t : Tile) : Bool :=
  match (s.tile t).mason.run with
  | .running | .sleeping => false
  | _ => true

/-- A LOAD in the region 0x8 slot of a tile (R41, R296, R379, R488, R489, R848). -/
def slotLoad (t : Tile) (off n : Nat) (e : MemEnv) (s : State) : Reply × State :=
  if tileFenced s t then ((0x43, []), s) else
  if !tileServes s t then ((0x01, []), s) else
  if off + n ≤ tileStoreSize then
    let s := tileReports { e with masonUnc := [], masonCorr := [] } s
    if storeMarked s t off n then
      let (free, s) := s.freeBytes n
      ((0x41, free), s)
    else ((0x00, storeBytes s t off n), s)
  else if 0x700000 ≤ off && off + n ≤ 0x720000 && off % 4 == 0 && n % 4 == 0 then
    let o := off - 0x700000
    let s := tileReports { e with storeUnc := [] } s
    if masonBad e t o n then
      let (free, s) := s.freeBytes n
      ((0x41, free), s)
    else ((0x00, s.bytes (masonStoreKey t o) n), s)
  else ((0x01, []), s)

/-- A STORE in the region 0x8 slot of a tile; `own`: it comes from the tile's own mason (R488). -/
def slotStore (t : Tile) (off : Nat) (bs : Bytes) (own : Bool) (s : State) : Reply × State :=
  if tileFenced s t then ((0x43, []), s) else
  if !tileServes s t then ((0x01, []), s) else
  if off + bs.length ≤ tileStoreSize then
    let s := storePut t off bs false s
    ((if storeMarked s t off bs.length then 0x40 else 0x00, []), s)
  else if 0x700000 ≤ off && off + bs.length ≤ 0x720000 && off % 4 == 0 && bs.length % 4 == 0 && viewOpen s t && !own then
    ((0x00, []), s.store (masonStoreKey t (off - 0x700000)) bs)
  else ((0x01, []), s)

/-! ### Poisoning and the fence -/

/-- The bonds in a list are poisoned with a cause, on the device's own authority, under label 14 (R266, R417). -/
def poisonBonds (t : Tile) (cause : Nat) (bonds : List Word) (s : State) : State :=
  s.each bonds (fun s a => issueOp (tileBrick t) (.engine (tileBrick t).val) {
    addr := a, opc := 0x3A, aux := 0, lbl := 14, size := 1, payload := [BitVec.ofNat 8 cause] } s)

/-- The WCANCEL of slot `k` of a tile (R249). -/
def wcancelOp (t : Tile) (k : Nat) (bond : Word) (lbl : Label) : Op :=
  { addr := bond, opc := 0x37, aux := 0, lbl := lbl, size := 10, payload := List.replicate 8 0 ++ [BitVec.ofNat 8 t.val, BitVec.ofNat 8 k] }

/-- The slots of a tile in a given state. -/
def slotsIn (s : State) (t : Tile) (st : SlotState) : List Nat := (List.range 16).filter (fun k => decide ((s.slot t k).st = st))

/-- Every epoch pin that a tile's sieve holds, for a gather or in its ledger, is sent back on the device's authority (R655). -/
def returnPins (t : Tile) (s : State) : State :=
  let S := (s.tile t).sieve
  let held := (match S.run with
    | some r => r.pins
    | none => []) ++ S.ledger.flatMap (fun x => List.replicate x.2.2 (x.1, x.2.1))
  let s := s.each held (fun s x => issueOp (tileBrick t) (.engine (tileBrick t).val) {
    addr := x.1, opc := 0x56, aux := 0, lbl := 14, size := 8, payload := [3, 0] ++ leBytes 2 x.2 ++ leBytes 4 0 } s)
  s.onTile t (fun T => { T with sieve := { T.sieve with ledger := [], run := T.sieve.run.map (fun r => { r with pins := [] }) } })

/-- A tile is fenced (R848): its units stop, what they held is dropped, its open slots are cancelled under label 14 and freed, and the fence is
recorded with its cause (DEDUCED, log entry 32: the slots are free from then on, so that later wakes find none). -/
def fenceTile (t : Tile) (fcause : Nat) (s : State) : State :=
  let b := tileBrick t
  let s := returnPins t s
  let s := s.each (slotsIn s t .opened) (fun s k => issueOp b (.engine b.val) (wcancelOp t k (s.slot t k).bond 14) s)
  let s := s.onTile t (fun T => { T with
    slots := List.replicate 16 {}, releases := [],
    mason := { T.mason with run := .faulted, blocked := none, stopReq := false, sreq := false, pend := [] },
    press := { T.press with queue := [], run := none },
    glaze := { T.glaze with queue := [], run := none },
    sieve := { T.sieve with queue := [], run := none } })
  let s := { s with results := s.results.filter (fun r => issuerTile r.issuer ≠ some t.val) }
  let s := s.wr (Reg.SVE_STAT_STATE t) 0
  let s := (s.flagBits (Reg.SAF_FENCED_FENCED b) (2 ^ (t.val % 32))).wr (Reg.SAF_TREC_FCAUSE b (t.val % 32)) fcause
  (s.flag Reg.SAF_ERR_TFENCE).raise 0x6002 [t.val, fcause, 1]

/-- The bonds that a shadow mismatch or a residue fence poisons (R266, R847): the signal log, and the armed list too where the log overflowed. -/
def suspectBonds (s : State) (t : Tile) : List Word :=
  let T := s.tile t
  (T.sigLog ++ if T.sigOver then T.armedBonds else []).eraseDups

/-- Event 0x6002 and the cause of a tile fault that does not fence (R521, R847). -/
def tileFault (t : Tile) (fcause : Nat) (s : State) : State :=
  (s.wr (Reg.SAF_TREC_FCAUSE (tileBrick t) (t.val % 32)) fcause).raise 0x6002 [t.val, fcause, 0]

end Sys2Proof.Machine
end

