-- ==== Sys2Proof/Machine/Shadow.lean ====
section
/-! DEFINITION. The rotating shadow tile (R839 to R846, R850). -/
namespace Sys2Proof.Machine
open Sys2Proof

/-- The domain of site `k` of brick `b` (R291). -/
def siteDom (b : Brick) (k : Nat) : Nat := 33 * b.val + k

/-- The excluded site in effect: the shadow site while the role is available (R277). -/
def shadowSite (s : State) (b : Brick) : Nat := s.rd (Reg.PWR_SITEMAP_XCUR b)

/-- Why the rotation of a brick may not run, by the place of the condition in R841: 1 PAUSE, 2 no shadow role, 3 the site not ON, 4 a site test on
it, 5 the brick's safe state; 6 a residue mismatch in the shadow's own press (R850); 0 none. The numbers are the model's (DESIGN CHOICE, log entry 54). -/
def pauseWhy (s : State) (b : Brick) : Nat :=
  if s.isSet (Reg.SAF_BCTL_PAUSE b) then 1
  else if !s.isSet (Reg.PWR_SITEMAP_SHADOW b) then 2
  else if s.rd (Reg.PWR_DOM_CUR (siteDom b (shadowSite s b))) ≠ 3 then 3
  else if s.power.queue.any (fun x => x.1 = siteDom b (shadowSite s b) && x.2 ≠ 3) then 3
  else if s.isSet (Reg.SAF_STRES_BUSY b) && s.rd (Reg.SAF_STRES_SITE b) == shadowSite s b then 4
  else if s.isSet (Reg.SAF_BSTAT_SAFE b) then 5
  else if s.safety.siteHold.contains b.val then 6
  else 0

/-- Whether a visit is in progress in a brick. -/
def visiting (s : State) (b : Brick) : Bool := (tabFind s.safety.visitAt b.val).isSome

/-- The tile that a brick's shadow visits. -/
def visited (s : State) (b : Brick) : Tile := tileOf (32 * b.val + s.rd (Reg.SAF_BSTAT_CUR b))

/-- Whether a tile may have a verified point (R839): its site is ON and it is not fenced. -/
def visitable (s : State) (b : Brick) (k : Nat) : Bool :=
  let t := tileOf (32 * b.val + k)
  siteState s t == 3 && !tileFenced s t

/-- Whether a visit of a tile may begin (R302, R839): it is one that can be verified, and its site has not been asked to leave ON: that request is judged
once the shadow has left. -/
def mayVisit (s : State) (b : Brick) (k : Nat) : Bool :=
  visitable s b k && !(s.power.queue ++ s.power.moving).any (fun x => x.1 = siteDomain s (tileOf (32 * b.val + k)) && x.2 ≠ 3)

/-- The tile after `k` in the rotation (R839), or the one that a residue mismatch put first (R850). -/
def nextVisit (s : State) (b : Brick) (k : Nat) : Option Nat :=
  match tabFind s.safety.priority b.val with
  | some p => if mayVisit s b p then some p else ((List.range 32).map (fun i => (k + 1 + i) % 32)).find? (mayVisit s b)
  | none => ((List.range 32).map (fun i => (k + 1 + i) % 32)).find? (mayVisit s b)

/-- A visit begins at the tile after `k` (R839, R840); a rotation ends where the order wraps. With no tile to visit none begins. -/
def beginVisit (b : Brick) (k : Nat) (s : State) : State :=
  match nextVisit s b k with
  | none => s
  | some t =>
    let wrapped := decide (t ≤ k) && (tabFind s.safety.priority b.val).isNone
    let s := if wrapped then
        let s := match tabFind s.safety.rotAt b.val with
          | some t0 => (s.wr (Reg.SAF_BSTAT_ROTS b) (s.rd (Reg.SAF_BSTAT_ROTS b) + 1)).wr (Reg.SAF_BSTAT_LASTROT b)
              (satNat 16 ((s.plumb.toNat - t0) / 1000))
          | none => s
        { s with safety := { s.safety with rotAt := tabPut s.safety.rotAt b.val s.plumb.toNat } }
      else s
    let s := { s with safety := { s.safety with
      priority := tabErase s.safety.priority b.val, visitAt := tabPut s.safety.visitAt b.val s.plumb.toNat,
      joined := tabErase s.safety.joined b.val } }
    s.wr (Reg.SAF_BSTAT_CUR b) t

/-- The rotation of a brick starts or pauses as the conditions of R841 say; each change raises event 0x6005. A visit in progress runs to its end
(R924). -/
def rotation (b : Brick) (s : State) : State :=
  if visiting s b then s else
  let why := pauseWhy s b
  let run := s.isSet (Reg.SAF_BSTAT_ROTRUN b)
  if why = 0 then
    let s := if run then s else (s.wr (Reg.SAF_BSTAT_ROTRUN b) 1).raise 0x6005 [b.val, 0]
    beginVisit b (if (tabFind s.safety.rotAt b.val).isSome then s.rd (Reg.SAF_BSTAT_CUR b) else 31) s
  else if run then (s.wr (Reg.SAF_BSTAT_ROTRUN b) 0).raise 0x6005 [b.val, why]
  else s

/-- The units that have joined in the visit of a brick. -/
def joinedUnits (s : State) (b : Brick) : Nat := tabGet 0 s.safety.joined b.val

/-- A visit ends, early or not: the shadow leaves the tile, and UNJOINED counts the units that have not joined (R842). -/
def leaveVisit (b : Brick) (s : State) : State :=
  let s := s.count (Reg.SAF_CNT0_UNJOINED b) (4 - popcount 4 (joinedUnits s b))
  { s with safety := { s.safety with visitAt := tabErase s.safety.visitAt b.val, joined := tabErase s.safety.joined b.val } }.wr
    (Reg.SAF_BSTAT_SHON b) 0

/-- A visit ends with no mismatch (R844): the verified point of its tile, and an empty signal log (R267). A tile that has been fenced meanwhile, or
whose site is no longer ON, has none. -/
def endVisit (b : Brick) (s : State) : State :=
  let t := visited s b
  let s := if visitable s b (t.val % 32) then
      (s.wr (Reg.SAF_VP_VP b (t.val % 32)) s.plumb.toNat).onTile t (fun T => { T with sigLog := [], sigOver := false })
    else s
  leaveVisit b (s.count (Reg.SAF_CNT0_VISITS b) 1)

/-- Whether the visit in progress has not lasted 257.8125 µs of plumb time (R840). -/
def visitRuns (s : State) (b : Brick) : Bool := (tabFind s.safety.visitAt b.val).any (fun t => decide (s.plumb.toNat < t + 257812))

/-- SHADOW_VISIT_END (R840, R844): the visit of a brick's shadow ends after 257.8125 µs and the next one begins; where there was no tile to visit,
the shadow looks again. -/
def execShadowVisitEnd (b : Brick) (s : State) : Host.Outcome State Fault Refusal := ended s <|
  if visitRuns s b then .next s else
  .next (rotation b (if visiting s b then endVisit b s else s))

/-- SHADOW_JOIN (R842): unit 0 mason, 1 press, 2 glaze or 3 sieve of the visited tile reaches a boundary and is compared from then on. -/
def execShadowJoin (b : Brick) (unit : Fin 4) (s : State) : Host.Outcome State Fault Refusal := ended s <|
  if !visiting s b then .next s else
  let s := { s with safety := { s.safety with joined := tabPut s.safety.joined b.val (Nat.lor (joinedUnits s b) (2 ^ unit.val)) } }
  .next (s.wr (Reg.SAF_BSTAT_SHON b) 1)

/-- A site that is to be tested after a mismatch, where AUTOTEST is set (R853). -/
def askTest (dom : Nat) (shadowToo : Bool) (s : State) : State :=
  if s.isSet Reg.SAF_CTL_AUTOTEST then { s with safety := { s.safety with toTest := s.safety.toTest ++ [(dom, shadowToo)] } } else s

/-- SHADOW_MISMATCH (R843, R847, R850): an output of a joined unit differs: event 0x6001, the bonds that the tile may have released wrong results
through are poisoned, the tile is fenced and the visit ends. Unit 4 is a residue mismatch in the shadow's own press: the visit ends without a
fence and rotation pauses. -/
def execShadowMismatch (b : Brick) (unit : Fin 5) (s : State) : Host.Outcome State Fault Refusal := ended s <|
  if !visiting s b then .next s else
  let t := visited s b
  let x := shadowSite s b
  if unit.val = 4 then
    if !bitOf (joinedUnits s b) 1 then .next s else
    let s := leaveVisit b s
    let s := { s with safety := { s.safety with siteHold := if s.safety.siteHold.contains b.val then s.safety.siteHold else s.safety.siteHold ++ [b.val] } }
    .next (rotation b (askTest (siteDom b x) false (s.raise 0x600F [b.val, x])))
  else if !bitOf (joinedUnits s b) unit.val then .next s else
    let k := t.val % 32
    let s := (s.count (Reg.SAF_CNT0_MISMATCH b) 1).raise 0x6001 [b.val, t.val, siteOf s t, x, unit.val, s.rd (Reg.SAF_VP_VP b k)]
    let site := siteDom b (siteOf s t)
    let s := fenceTile t 0x1 (poisonBonds t 0x03 (suspectBonds s t) s)
    .next (rotation b (leaveVisit b (askTest site true s)))

end Sys2Proof.Machine
end

