-- ==== Sys2Proof/Machine/Reset.lean ====
section
/-! DEFINITION. What is lost and what is reset when a tile site, a stack or a brick uncore loses its power or is reset (R144, R210, R270, R292, R354,
R411, R440, R534, R676, R769, R816, R878, R917). -/
namespace Sys2Proof.Machine
open Sys2Proof

/-- The registers of `[lo, hi)` at their reset values. -/
def resetRegs (lo hi : Nat) (s : State) : State := { s with regs := s.regs.filter (fun e => e.1 < lo || hi ≤ e.1) }

/-- A package-scope block at its reset values. -/
def resetPkgBlock (blk : Nat) (s : State) : State := resetRegs (pkgReg blk 0) (pkgReg (blk + 1) 0) s

/-- A brick-scope block at its reset values. -/
def resetBrickBlock (b : Brick) (blk : Nat) (s : State) : State := resetRegs (brickReg b blk 0) (brickReg b (blk + 1) 0) s

/-- A tile site that leaves OFF, or loses its power (R292, R479, R534, R622, R917): everything of the tile is as after reset. What its store held is
lost: it holds what the command that turns it on says, and zero elsewhere, as memory that nothing has written (log entry 3). -/
def tileLost (t : Tile) (s : State) : State :=
  let s := resetRegs (tileReg t 0 0) (tileReg (t + 1) 0 0) s
  let s := { s with
    mem := memClear s.mem (tileStoreKey t 0) (tileStoreKey (t + 1) 0),
    results := s.results.filter (fun r => issuerTile r.issuer ≠ some t.val) }
  s.onTile t (fun _ => {})

/-- The logical tile that site `k` of a brick carries, if it carries one (R275, R276). -/
def siteTile (s : State) (b : Brick) (k : Nat) : Option Tile :=
  let x := shadowSite s b
  if k = x || 33 ≤ k then none else some (tileOf (32 * b.val + if k < x then k else k - 1))

/-- A domain in a state: CUR, and REQ with it, for a domain that Hod sets by itself; a REQ written since stays (R302). -/
def setDomain (d v : Nat) (s : State) : State :=
  let s := s.wr (Reg.PWR_DOM_CUR d) v
  (if s.power.queue.any (fun x => x.1 = d) then s else s.wr (Reg.PWR_DOM_REQ d) v).wr (Reg.PWR_DOM_BUSY d) 0

/-- Domain requests and transitions of a domain dropped. -/
def dropRequests (d : Nat) (s : State) : State :=
  { s with power := { s.power with queue := s.power.queue.filter (fun x => x.1 ≠ d), moving := s.power.moving.filter (fun x => x.1 ≠ d) } }

/-- The job of a yard ends failed (R676). -/
def failJob (b : Brick) (record : Bool) (s : State) : State :=
  match (s.brick b).yard.job with
  | some j => endJob b j 2 record s
  | none => s

/-- The pass of a stack ends failed and writes no record (R411). -/
def failPass (st : Stack) (s : State) : State :=
  match (s.stack st).pass with
  | some x => endPass st x 2 false s
  | none => s

/-- Whether a yard's table, tree or data lie in a stack. -/
def yardUses (s : State) (b : Brick) (st : Stack) : Bool :=
  [(tableAt s b).1, (nodesAt s b).1, (bucketsAt s b).1, (slocAt (dataBase s b false)).1, (slocAt (dataBase s b true)).1].contains st.val

/-- A stack's contents lost (R292, R353, R411, R676, R761): what lies in it, its dirty lines, its buffers and its pass; preserved ranges in it are no longer
intact. The soft-repair log stays. -/
def stackLost (st : Stack) (s : State) : State :=
  let b := stackBrick st
  let s := failPass st s
  let s := if yardUses s b st then failJob b true s else s
  let s := { s with mem := memClear s.mem (memKey st 0) (memKey (st + 1) 0) }
  let s := s.onBrick b (fun B => { B with
    bed := B.bed.filter (fun l => keyStack l.1 ≠ st), snoop := B.snoop.filter (fun x => x.stack ≠ st.val) })
  let s := s.onStack st (fun S => { repairs := S.repairs, groutQ := S.groutQ, groutIn := S.groutIn, groutWait := S.groutWait })
  { s with host := { s.host with ranges := s.host.ranges.map (fun r =>
      if addrRegion r.base = st.val then { r with intact := false } else r) } }

/-- The registers of a stack after OFF → ON (R354, R363, R411): reset values, but for STRENGTH, which now takes effect. -/
def resetStackRegs (st : Stack) (s : State) : State :=
  let strength := s.rd (Reg.PGC_CTL_STRENGTH st)
  let s := resetRegs (Reg.STK_CTL st) (Reg.STK_CTL st + 0x10000) s
  let s := resetRegs (Reg.FOLD_CNT st) (Reg.FOLD_CNT st + 8) s
  let s := resetRegs (Reg.FOLD_MAP st 0) (Reg.FOLD_MAP st 0 + 0x1000) s
  let s := resetRegs (Reg.PGC_CTL st) (Reg.PGC_CTL st + 0x1000) s
  let s := resetRegs (Reg.RMP_ENT st 0) (Reg.RMP_ENT st 0 + 0x1000) s
  (s.wr (Reg.PGC_CTL_STRENGTH st) strength).wr (Reg.PGC_STAT_STRCUR st) strength

/-- A controller trained and serving (R313, R354): its rate, its window, and event 0x2001. `slow`: it trained at 6.4 Gb/s after 8.0 Gb/s failed. -/
def stackUp (st : Stack) (slow : Bool) (s : State) : State :=
  let rate := if slow then 1 else s.rd (Reg.STK_CTL_RATE st)
  let s := if slow && s.rd (Reg.STK_CTL_RATE st) = 2 then s.flag (Reg.STK_ERR_FALLBACK st) else s
  let s := (s.wr (Reg.STK_STAT_RATECUR st) rate).wr (Reg.STK_STAT_UP st) 1
  (s.wr (Reg.STK_STAT_WTOP st) (windowPages (curT s st))).raise 0x2001 [st.val, rate]

/-- A controller that no longer serves. -/
def stackDown (st : Stack) (s : State) : State := (s.wr (Reg.STK_STAT_RATECUR st) 0).wr (Reg.STK_STAT_UP st) 0

/-- What a controller does before it leaves ON, and before its brick's uncore is reset (R295, R390): folds merged, dirty lines and degraded pages
written back, the check cache empty. -/
def settleStack (st : Stack) (e : MemEnv) (s : State) : State :=
  let s := flushLines st 0 (2 ^ 36) e (drainFolds st e s)
  let s := s.each (s.stack st).degraded (fun s p =>
    let j := physPage s st p
    let d := decodePage s st j e
    if d.cls = .uncorrectable then decodeOutcome st p j 0 d s else writeBackPage st p j d s)
  setDegraded st [] s

/-- The host link after a reset of brick 0's uncore (R769): registers, rings, record, operations and manifest. The pin and the link's own state
stay. -/
def hostReset (s : State) : State :=
  let s := resetPkgBlock 1 s
  let s := { s with results := s.results.filter (fun r => match r.issuer with
    | .host _ | .drop _ | .hdm _ => false
    | _ => true) }
  { s with host := { perst := s.host.perst } }

/-- The incarnation advanced, skipping 0x0000, and kept in the persistent state (R183). -/
def advanceIncarnation (s : State) : State :=
  let n := (s.hod.incarnation + 1) % 65536
  let n := if n = 0 then 1 else n
  ({ s with hod := { s.hod with incarnation := n } }).wr Reg.SEAT_INC_INC n

/-- The incarnation raised (R183, R816): every brick drops its destination flow state and performs nothing until PLIFE has elapsed. -/
def raiseIncarnation (s : State) : State :=
  (advanceIncarnation s).each [0, 1, 2, 3] (fun s b => s.onBrick b (fun B => { B with dstFlows := [], held := [], quarantine := true }))

/-- A link end of a bridge goes down with reason 0x6, where it is up. -/
def bridgeEndDown (b : Brick) (q : Fin 3) (s : State) : State :=
  if (s.link (.bridge b q)).bridgeUp then settleDown (.bridge b q) 6 s else s

/-- The link ends of a brick declare their links down with reason 0x6 and do not retrain (R817, R859): ports go to the given state, a Disabled one to
Held alone (R860). A bridge belongs to both bricks that it joins (R282): its far end goes down with it. -/
def linksDown (b : Brick) (st : Nat) (s : State) : State :=
  s.each (brickLinks b) (fun s l => match l with
    | .bridge b q => bridgeEndDown (bridgePeer b q) (bridgeTo (bridgePeer b q) b) (bridgeEndDown b q s)
    | .port p =>
      if s.portOff p && st ≠ 0xA then s else
      ((softwareDown p s).onLink l (fun L => { L with training := {} })).toPortState p st)

/-- The excluded site of a brick takes effect (R275, R277, R278). -/
def latchSites (b : Brick) (s : State) : State :=
  let r := s.rd (Reg.PWR_SITEMAP_RETIRE b)
  let role := r = 0x3F
  let s := s.wr (Reg.PWR_SITEMAP_XCUR b) (if role then s.rd (Reg.PWR_SITEMAP_SPARE b) else r)
  let s := s.wr (Reg.PWR_SITEMAP_SHADOW b) (bit role)
  s.wr Reg.PWR_STAT_SHADOW (withBits (s.rd Reg.PWR_STAT_SHADOW) b.val b.val (bit role))

/-- An OBS_ pull that covers tiles of a brick is aborted with ERR (R917). -/
def abortPull (b : Brick) (s : State) : State :=
  match s.observe.pull with
  | some p =>
    if p.tiles.any (fun t => t / 32 = b.val) then
      ({ s with observe := { s.observe with pull := none } }.wr Reg.OBS_PST_BUSY 0).flag Reg.OBS_PST_ERR
    else s
  | none => s

/-- The fence bits of a brick after its reset (R854): a tile stays fenced where its site, as it now stands, has failed a test. -/
def keepFences (b : Brick) (old : Nat) (s : State) : State :=
  s.wr (Reg.SAF_FENCED_FENCED b) ((List.range 32).foldl (fun m k =>
    if bitOf old k && s.safety.failed.contains (siteDom b (siteOf s (tileOf (32 * b.val + k)))) then m + 2 ^ k else m) 0)

/-- The uncore logic of a brick reset, its controllers staying ON or RETAIN (R144, R210, R270, R354, R440, R676, R769, R878, R917, R944). -/
def resetUncore (b : Brick) (s : State) : State :=
  let fenced := s.rd (Reg.SAF_FENCED_FENCED b)
  let s := failJob b false s
  let s := s.each [0, 1, 3, 6, 7, 8, 9] (fun s blk =>
    if blk = 3 then resetRegs (brickReg b 3 0) (brickReg b 3 0x28) s else resetBrickBlock b blk s)
  let s := resetRegs (Reg.STK_BEDCTL b) (Reg.STK_BEDCTL b + 0x1000) s
  let s := s.onBrick b (fun B => { quarantine := B.quarantine })
  let s := s.each [stackOf (2 * b.val), stackOf (2 * b.val + 1)] (fun s st =>
    s.onStack st (fun S => { S with fold := [], change := none, refusedAt := [], groutQ := [], groutIn := [], groutWait := [], acts := [] }))
  let s := s.each (brickTiles b) (fun s t => s.onTile t (fun T => { T with slots := List.replicate 16 {}, stamp := 0, mirror := [], releases := [] }))
  let s := s.each (brickLinks b) (fun s l => s.onLink l (fun L => match l with
    | .port _ =>
      { modulePresent := L.modulePresent, moduleReadable := L.moduleReadable, moduleClass := L.moduleClass, moduleLower := L.moduleLower,
        laneFault := L.laneFault, moduleId := L.moduleId }
    | .bridge _ _ => bridgeReset))
  let s := s.each (List.range 6) (fun s k => s.wr (Reg.PLB_PDELTA_VALID (6 * b.val + k)) 0)
  let s := { s with points := Vector.ofFn (fun pt => if pt.val / 14 = b.val || (b.val = 0 && 56 ≤ pt.val) then {} else s.points[pt]) }
  let s := abortPull b (resetRegs (Reg.OBS_SMP b) (Reg.OBS_SMP b + 0x1000) s)
  let s := { s with results := s.results.filter (fun r => match r.issuer with
    | .ring x | .engine x | .walk x _ | .wake x => x ≠ b.val
    | _ => true) }
  let s := if b.val = 0 then hostReset (resetPkgBlock 7 s) else s
  let s := { s with safety := { s.safety with
    priority := tabErase s.safety.priority b.val, visitAt := tabErase s.safety.visitAt b.val, joined := tabErase s.safety.joined b.val,
    rotAt := tabErase s.safety.rotAt b.val, siteHold := s.safety.siteHold.filter (fun x => x ≠ b.val),
    toTest := s.safety.toTest.filter (fun x => x.1 / 33 ≠ b.val), auto := s.safety.auto.filter (fun x => x ≠ b.val),
    safeCause := tabErase s.safety.safeCause b.val, safeAt := tabErase s.safety.safeAt b.val } }
  let s := s.wr Reg.SAF_STAT_BSAFE (withBits (s.rd Reg.SAF_STAT_BSAFE) b.val b.val 0)
  keepFences b fenced (latchSites b s)

/-- What Hod copies from a brick whose uncore stayed ON: the routing entries, MRT_TTMO, MRT_TFLOW and MRT_TROUTE (R817). -/
def copyRouting (b src : Brick) (s : State) : State :=
  let entries := (s.regs.filter (fun e =>
    brickReg src 0 0x10000 ≤ e.1 && e.1 < brickReg src 1 0 && !(brickReg src 0 0x10018 ≤ e.1 && e.1 < brickReg src 0 0x10038))).map
    (fun e => (e.1 - brickReg src 0 0 + brickReg b 0 0, e.2))
  { s with regs := entries.foldl (fun r e => tabPut r e.1 e.2) s.regs }

/-- The last step of R817: routing copied from another brick whose uncore is ON, and EN set on the brick's ports and bridges. -/
def restoreLinks (b : Brick) (s : State) : State :=
  let s := match ([0, 1, 2, 3] : List Brick).find? (fun x => x ≠ b && uncoreOn s x) with
    | some src => copyRouting b src s
    | none => s
  s.each (brickLinks b) (fun s l => enableLink l s)

/-- Every tile site of a brick turned OFF at once, overriding R294 (R817): operations that its tiles issued and that have no outcome are abandoned. -/
def sitesOff (b : Brick) (s : State) : State :=
  let s := s.each (List.range 33) (fun s k => setDomain (siteDom b k) 0 (dropRequests (siteDom b k) s))
  s.each (brickTiles b) (fun s t => tileLost t s)

end Sys2Proof.Machine
end

