-- ==== Sys2Proof/Machine/Power.lean ====
section
/-! DEFINITION. Power domains and clocks (R286 to R309): requests, transitions, domain faults, tile clocks and the loss of a reference clock
(R809). -/
namespace Sys2Proof.Machine
open Sys2Proof

/-! ### Domains (R291) -/

/-- What a domain number names. -/
inductive DomKind where
  | site (b : Brick) (k : Nat)
  | uncore (b : Brick)
  | stack (st : Stack)
  | none
  deriving DecidableEq, Repr

/-- The domain of a number (R291). -/
def domKind (d : Nat) : DomKind :=
  if d < 132 then .site (brickOf (d / 33)) (d % 33)
  else if d < 136 then .uncore (brickOf (d - 132))
  else if d < 144 then .stack (stackOf (d - 136))
  else .none

/-- Whether a domain supports a state (R309). -/
def domSupports : DomKind → Nat → Bool
  | .site _ _, v => v = 0 || v = 1 || v = 3
  | .stack _, v => v = 0 || v = 1 || v = 3
  | .uncore _, v => v = 0 || v = 3
  | .none, _ => false

/-- Current state of a domain. -/
def domCur (s : State) (d : Nat) : Nat := s.rd (Reg.PWR_DOM_CUR d)

/-- Whether a domain's transition runs. -/
def domMoving (s : State) (d : Nat) : Bool := s.power.moving.any (fun x => x.1 = d)

/-- The grant of a brick (R805). -/
def grantField (b : Brick) : FieldRef := ⟨Reg.PWR_GRANT, 16 * b.val + 15, 16 * b.val⟩

/-- Whether some operation that a tile issued has no outcome yet. -/
def tileOpsOut (s : State) (t : Tile) : Bool :=
  let B := s.brick (tileBrick t)
  B.srcFlows.any (fun f => f.ops.any (fun o => issuerTile o.issuer = some t.val)) || B.waitOps.any (fun w => issuerTile w.issuer = some t.val) ||
  s.results.any (fun r => issuerTile r.issuer = some t.val)

/-- Whether the carrying site of a tile may enter OFF (R294): its mason not at work, its slots free, every operation settled. -/
def siteMayLeave (s : State) (t : Tile) : Bool :=
  let T := s.tile t
  (match T.mason.run with
    | .idle | .halted | .faulted => true
    | _ => false) &&
  (T.slots.all (fun x => decide (x.st = .free))) && !tileOpsOut s t && T.sieve.run.isNone && T.sieve.queue.isEmpty

/-- Whether a domain is in the state `v` or on its way there. -/
def domNearing (s : State) (d v : Nat) : Bool := domCur s d == v || s.power.moving.any (fun x => x = (d, v))

/-- The carrying sites of a brick that are ON or IDLE, or wake. -/
def sitesUp (s : State) (b : Brick) : Nat :=
  ((List.range 33).filter (fun k => (siteTile s b k).isSome &&
    (domCur s (siteDom b k) ≠ 0 || s.power.moving.any (fun x => x.1 = siteDom b k && x.2 ≠ 0)))).length

/-- Whether an uncore serves and is to go on serving (R293): one on its way to OFF carries no site and no stack any more. -/
def uncoreStays (s : State) (b : Brick) : Bool := uncoreOn s b && !s.power.moving.any (fun x => x.1 = 132 + b.val)

/-- Whether the shadow role is away for good in the site map in effect and `k` is the site retired there (R277, R278, R298). -/
def siteRetired (s : State) (b : Brick) (k : Nat) : Bool := !s.isSet (Reg.PWR_SITEMAP_SHADOW b) && shadowSite s b == k

/-- Whether a request breaks nothing, or the WHY it is refused with (R293, R294, R298, R303, R309, R805). A transition that runs counts with the state it
leads to as well as with the one it leaves. -/
def judge (s : State) (d v : Nat) : Nat :=
  let K := domKind d
  if !domSupports K v then 3
  else if v = domCur s d then 0
  else match K with
  | .site b k =>
    if v = 0 then
      match siteTile s b k with
      | some t => if siteMayLeave s t then 0 else 5
      | none => 0
    else if siteRetired s b k then 4
    else if !uncoreStays s b then 1
    else if domCur s d = 0 && (siteTile s b k).isSome && s.rd (grantField b) < 8 * (sitesUp s b + 1) then 2
    else 0
  | .stack st => if v = 3 && !uncoreStays s (stackBrick st) then 1 else 0
  | .uncore b =>
    if v ≠ 0 then 0
    else if (List.range 33).all (fun k => domCur s (siteDom b k) = 0 && !domMoving s (siteDom b k)) &&
        !domNearing s (136 + 2 * b.val) 3 && !domNearing s (137 + 2 * b.val) 3 &&
        s.seatsNamed.isEmpty && (b.val ≠ 0 || s.host.perst) then 0
    else 1
  | .none => 3

/-- A request refused (R293): WHY, REFUSED, and the domain as it was: REQ reads its current state again (DEDUCED, log entry 235), unless a newer request
waits. -/
def refuseDomain (d why : Nat) (s : State) : State := (setDomain d (domCur s d) (s.wr (Reg.PWR_DOM_WHY d) why)).flag Reg.PWR_ERR_REFUSED

/-- Whether a site is the one that a shadow follows now, or the shadow's own during a visit (R302): its request is judged once the visit has ended. -/
def inLockstep (s : State) (d : Nat) : Bool :=
  match domKind d with
  | .site b k => visiting s b && (k = shadowSite s b || siteTile s b k = some (visited s b))
  | _ => false

/-- A write of REQ (R293, R297, R302). -/
def requestDomain (d v : Nat) (s : State) : State :=
  if 144 ≤ d then s else
  let later := domMoving s d || s.power.queue.any (fun x => x.1 = d) || inLockstep s d
  let why := if later then (if domSupports (domKind d) v then 0 else 3) else judge s d v
  if why ≠ 0 then
    if later then (s.wr (Reg.PWR_DOM_WHY d) why).flag Reg.PWR_ERR_REFUSED else refuseDomain d why s
  else
    let s := s.wr (Reg.PWR_DOM_REQ d) v
    if v = domCur s d && !later then s
    else { s with power := { s.power with queue := s.power.queue ++ [(d, v)] } }

/-- DOMAIN_REQUEST (R293, R297): a write of REQ in PWR_DOM is judged, and queued or refused. -/
def execDomainRequest (d : Fin 144) (v : BitVec 2) (s : State) : Host.Outcome State Fault Refusal := ended s <| .next (requestDomain d.val v.toNat s)

/-! ### Stacks that leave ON (R407, R927) -/

/-- Whether a range of global addresses of this package lies in a stack. -/
def addrInStack (s : State) (a : Nat) (st : Stack) : Bool :=
  addrRegion a == st.val && (addrSeat a == 0xFFFF || some (addrSeat a) == s.ownSeat)

/-- Whether a host command at work reads or writes a stack (R927). A pass or a job that it started is held with the unit itself. -/
def hostOpTouches (s : State) (o : HostOp) (st : Stack) : Bool :=
  let n := fun i k => leNat ((o.entry.drop i).take k)
  match n 8 1 with
  | 0x20 => o.step == .desc && addrInStack s (n 16 8) st
  | 0x21 => addrInStack s (n 24 8) st || addrInStack s (n 32 8) st
  | 0x25 => n 24 1 == st.val
  | 0x26 => addrInStack s (n 16 8) st
  | _ => false

/-- DEVSUSP set for every long operation that uses a stack, as its controller is to leave ON (R407, R750, R927). -/
def holdFor (st : Stack) (s : State) : State :=
  let b := stackBrick st
  let s := if (s.stack st).pass.isSome then suspendPass st true s else s
  let s := if yardUses s b st then suspendJob b true s else s
  { s with host := { s.host with ops := s.host.ops.map (fun o => if hostOpTouches s o st then { o with devSusp := insertNum o.devSusp st.val } else o) } }

/-- DEVSUSP cleared once the controller is ON again (R407, R927). -/
def releaseFor (st : Stack) (s : State) : State :=
  let b := stackBrick st
  let other := stackOf (4 * b.val + 1 - st.val)
  let s := if (s.stack st).pass.isSome then resumePass st true s else s
  let s := if yardUses s b st && !(yardUses s b other && domCur s (136 + other.val) ≠ 3) then resumeJob b true s else s
  { s with host := { s.host with ops := s.host.ops.map (fun o => { o with devSusp := o.devSusp.filter (fun x => x ≠ st.val) }) } }

/-- Whether everything that a controller has to finish before it leaves ON is done, the requests that wait for it with it (R295, R345, R389, R394, R407,
R927). -/
def stackQuiet (s : State) (st : Stack) : Bool :=
  let S := s.stack st
  let b := stackBrick st
  S.clearing.isNone && S.install.isNone && S.change.isNone &&
  (S.pass.isNone || s.rd (Reg.PGC_SSTAT_STATE st) == psSuspended) &&
  (!jobBusy s b || !yardUses s b st || s.rd (Reg.SLB_JSTAT_STATE b) == psSuspended) &&
  !(yardUses s b st && !(s.brick b).yard.copies.isEmpty) &&
  S.groutQ.isEmpty && S.groutIn.isEmpty && S.groutWait.isEmpty && !(s.brick b).held.any (fun p => addrRegion p.addr.toNat = st.val) &&
  s.host.ops.all (fun o => !hostOpTouches s o st || !o.started || o.paused || o.ended.isSome)

/-! ### Transitions (R297) -/

/-- How many transitions of one kind run: of a brick's sites, or of stack controllers. -/
def movingCount (s : State) (d : Nat) : Nat :=
  (s.power.moving.filter (fun x => match domKind d, domKind x.1 with
    | .site b _, .site b' _ => b = b'
    | .stack _, .stack _ => true
    | _, _ => false)).length

/-- Whether Hod may start a queued transition now (R297, R302, R773): a slot is free, the domain is at rest and no visit involves it. -/
def mayMove (s : State) (d : Nat) : Bool :=
  !domMoving s d && !inLockstep s d && hodActs s &&
  (match domKind d with
    | .site _ _ => decide (movingCount s d < 4)
    | .stack _ => decide (movingCount s d < 2)
    | _ => true)

/-- The first queued request that may start, where no earlier request of the same domain waits. -/
def nextMove (s : State) : List Nat → List (Nat × Nat) → Option (Nat × Nat)
  | _, [] => none
  | seen, (d, v) :: rest => if !seen.contains d && mayMove s d then some (d, v) else nextMove s (d :: seen) rest

/-- The first entry of a list of requests that is this one, taken out. -/
def dropFirst (x : Nat × Nat) : List (Nat × Nat) → List (Nat × Nat)
  | [] => []
  | y :: ys => if y = x then ys else y :: dropFirst x ys

/-- DOMAIN_TRANSITION_START (R297, R302): Hod starts the first queued transition that a slot is free for; it is judged again from the state
reached. -/
def execDomainTransitionStart (s : State) : Host.Outcome State Fault Refusal := ended s <|
  match nextMove s [] s.power.queue with
  | none => .next s
  | some (d, v) =>
    let s := { s with power := { s.power with queue := dropFirst (d, v) s.power.queue } }
    let why := judge s d v
    if why ≠ 0 then .next (refuseDomain d why s)
    else if v = domCur s d then .next s
    else
      let s := { s with power := { s.power with moving := s.power.moving ++ [(d, v)] } }
      let s := s.wr (Reg.PWR_DOM_BUSY d) 1
      .next (match domKind d with
        | .stack st => if domCur s d = 3 then holdFor st s else s
        | _ => s)

/-- Bytes that a memory holds when it comes ON, undefined by the spec (R292, R353): placed at offsets of a region below a bound. -/
def seedBytes (key bound : Nat) (held : List (Nat × Bytes)) (s : State) : State :=
  s.each held (fun s x => if x.1 + x.2.length ≤ bound then s.store (key + x.1) x.2 else s)

/-- The carrying sites of a brick that are ON. -/
def sitesOn (s : State) (b : Brick) : Nat :=
  ((List.range 33).filter (fun k => (siteTile s b k).isSome && domCur s (siteDom b k) = 3)).length

/-- Hod turns the shadow site of a brick ON when the first carrying site reaches ON, and OFF when the last leaves ON (R841). `before`: the carrying
sites that were ON. -/
def shadowPower (b : Brick) (before : Nat) (s : State) : State :=
  let d := siteDom b (shadowSite s b)
  if !s.isSet (Reg.PWR_SITEMAP_SHADOW b) || 132 ≤ d then s
  else if before = 0 && sitesOn s b ≠ 0 && !s.isSet (Reg.SAF_BCTL_PAUSE b) then requestDomain d 3 s
  else if before ≠ 0 && sitesOn s b = 0 then requestDomain d 0 s
  else s

/-- Site `k` of a brick reaches a state (R292). -/
def siteArrives (b : Brick) (k v : Nat) (held : List (Nat × Bytes)) (s : State) : State :=
  let d := siteDom b k
  let before := sitesOn s b
  let s := match siteTile s b k with
    | none => s
    | some t =>
      if v = 0 then tileLost t (returnPins t s)
      else if domCur s d = 0 then seedBytes (tileStoreKey t 0) 0x720000 held (tileLost t s)
      else s
  rotation b (shadowPower b before (setDomain d v s))

/-- What a controller serves once it is ON (R354, R407, R824). -/
def stackServes (st : Stack) (slow : Bool) (s : State) : State :=
  let s := releaseFor st (stackUp st slow s)
  if s.start.toClear.contains st.val then
    let s := { s with start := { s.start with toClear := s.start.toClear.filter (fun x => x ≠ st.val) } }
    (s.onStack st (fun S => { S with clearing := some (0, 0, true) })).wr (Reg.PGC_CLRST_BUSY st) 1
  else s

/-- Stack controller `st` reaches a state (R292, R295, R353, R354, R411): one that leaves OFF has lost what it held, whether it goes to ON or to
RETAIN, and Hod has reapplied its soft repairs (R398). -/
def stackArrives (st : Stack) (v : Nat) (slow : Bool) (held : List (Nat × Bytes)) (e : MemEnv) (s : State) : State :=
  let d := 136 + st.val
  let was := domCur s d
  let s := if was = 3 then stackDown st (settleStack st e s) else s
  let s := setDomain d v s
  if v = 0 then stackLost st s
  else
    let s := if was = 0 then
        (seedBytes (stackKey st 0) (2 ^ 44) held (resetStackRegs st (stackLost st s))).onStack st (fun S => { S with repaired := S.repairs })
      else s
    if v = 3 then stackServes st slow s else s

/-- The uncore of a brick reaches ON (R292, R305, R816, R817): cleared, with the incarnation raised where it had served before. -/
def uncoreArrives (b : Brick) (s : State) : State :=
  let s := resetUncore b (setDomain (132 + b.val) 3 s)
  let s := s.wr Reg.PWR_STAT_UNCON (withBits (s.rd Reg.PWR_STAT_UNCON) b.val b.val 1)
  let s := s.when (s.isSet Reg.PWR_STAT_MREFOK) (fun s => s.flagBits Reg.PWR_STAT_TPLL (2 ^ b.val))
  if s.start.phase = 3 then s else restoreLinks b (raiseIncarnation s)

/-- The uncore of a brick reaches OFF (R292). -/
def uncoreLeaves (b : Brick) (s : State) : State :=
  let s := resetUncore b (linksDown b 0 (setDomain (132 + b.val) 0 s))
  let s := s.wr Reg.PWR_STAT_TPLL (withBits (s.rd Reg.PWR_STAT_TPLL) b.val b.val 0)
  s.wr Reg.PWR_STAT_UNCON (withBits (s.rd Reg.PWR_STAT_UNCON) b.val b.val 0)

/-- Whether the regulators of a domain are up: Hod keeps a group, or a stack, down after an identity mismatch (R788, R800, R809). -/
def railsUp (s : State) (d : Nat) : Bool :=
  let groups : List Nat := match domKind d with
    | .site b _ => [b.val]
    | .uncore _ => [4, 5]
    | .stack _ => [6, 7]
    | .none => []
  groups.all (fun g => !s.hod.groupOff.contains g) && !(136 ≤ d && s.hod.stackOff.contains (d - 136))

/-- A stack that a domain fault or the loss of its uncore takes OFF (R292, R295, R303). -/
def stackFalls (st : Stack) (e : MemEnv) (s : State) : State :=
  let d := 136 + st.val
  let s := if domCur s d = 3 then stackDown st (settleStack st e s) else s
  setDomain d 0 (stackLost st (dropRequests d s))

/-- An uncore that a domain fault takes OFF (R293, R303): the sites and stacks that need it ON go OFF with it. -/
def uncoreFalls (b : Brick) (e : MemEnv) (s : State) : State :=
  let s := sitesOff b s
  let s := s.each [stackOf (2 * b.val), stackOf (2 * b.val + 1)] (fun s st =>
    if domNearing s (136 + st.val) 3 then stackFalls st e s else s)
  uncoreLeaves b s

/-- A domain left in OFF by a fault (R303, R351): event 0x5011, and for a stack that was to come ON event 0x2002. -/
def faultDomain (d : Nat) (e : MemEnv) (s : State) : State :=
  let training := s.power.moving.any (fun x => x = (d, 3))
  let s := dropRequests d s
  let s := match domKind d with
    | .site b k => siteArrives b k 0 [] s
    | .stack st => (stackFalls st e s).when training (fun s => (s.flag (Reg.STK_ERR_TRAINF st)).raise 0x2002 [st.val])
    | .uncore b => uncoreFalls b e s
    | .none => s
  ((s.wr (Reg.PWR_DOM_WHY d) 4).flag Reg.PWR_ERR_DOMFLT).raise 0x5011 [d]

/-! ### Tile clocks (R290, R801) -/

/-- The clock that a brick's sites are to run at: the smaller of FREQ and FMAX (R308). While the voltage cannot be raised the clock does not rise (R801,
R809). -/
def clockWanted (s : State) (b : Brick) : Nat :=
  let f := min (s.rd (Reg.PWR_DVFS_FREQ b)) (s.rd (Reg.PWR_DVFS_FMAX b))
  if s.hod.busFailed.contains 0 then min f (s.rd (Reg.PWR_DVFS_FCUR b)) else f

/-- Whether the PMBus has failed: the present voltages are held (R809). -/
def voltsHeld (s : State) : Bool := s.hod.busFailed.contains 0

/-- The rail record of a group in the build sheet (R785). -/
def railRecord (s : State) (g : Nat) : Bytes := (s.hod.sheet.drop (512 + 64 * g)).take 64

/-- One bit step of the packet error code, x^8 + x^2 + x + 1 (PRESUMED: SMBus's, log entry 222). -/
def pecBit (c : Nat) : Nat := if bitOf c 7 then Nat.xor (2 * c % 256) 0x07 else 2 * c % 256

/-- The packet error code of a PMBus transaction. -/
def pec (bs : Bytes) : Nat := bs.foldl (fun c b => pecBit (pecBit (pecBit (pecBit (pecBit (pecBit (pecBit (pecBit (Nat.xor c b.toNat))))))))) 0

/-- A PMBus command of Hod to the regulator of a group, under PEC (R779), with its output selected by PAGE first. -/
def pmbusWrite (g code : Nat) (data : Bytes) (s : State) : State :=
  let r := railRecord s g
  let a := BitVec.ofNat 8 (2 * numAt r 0 1)
  let send := fun (x : Bytes) (s : State) => s.emit (.sideband "PMB" (x ++ leBytes 1 (pec x)))
  send ([a, BitVec.ofNat 8 code] ++ data) (send [a, 0x00, BitVec.ofNat 8 (numAt r 1 1)] s)

/-- VDD_Tb set for a clock, from the fused table, by VOUT_COMMAND in mV (R779, R801; the data's form is a DESIGN CHOICE, log entry 222). -/
def setTileVolt (b : Brick) (f : Nat) (s : State) : State :=
  if voltsHeld s then s else
  let mv := Config.vfVolt b.val f
  pmbusWrite b.val 0x21 (leBytes 2 mv) { s with hod := { s.hod with vset := s.hod.vset.set b.val mv } }

/-- The change to the clock wanted begins, where it differs from the one in effect; the supply is raised before a rise (R290, R801). THROT shows that Hod
holds the clock below FREQ (R803). -/
def seekClock (b : Brick) (s : State) : State :=
  let f := clockWanted s b
  let cur := s.rd (Reg.PWR_DVFS_FCUR b)
  let s := s.when (cur < f) (setTileVolt b f)
  let s := if f ≠ cur then s.wr (Reg.PWR_DVFS_CHG b) 1 else s
  if s.rd (Reg.PWR_DVFS_FMAX b) < s.rd (Reg.PWR_DVFS_FREQ b) then s.flag Reg.PWR_ERR_THROT else s

/-- A write of FREQ: a value outside 0x30 to 0x78 leaves it unchanged (R308). -/
def writeFreq (b : Brick) (f : Nat) (s : State) : State :=
  if 0x30 ≤ f && f ≤ 0x78 then seekClock b (s.wr (Reg.PWR_DVFS_FREQ b) f) else s

/-- FREQ_WRITE (R290, R308). -/
def execFreqWrite (b : Brick) (f : BitVec 7) (s : State) : Host.Outcome State Fault Refusal := ended s <| .next (writeFreq b f.toNat s)

/-- TILE_CLOCK_SWITCH_DONE (R290, R801): the tile clock of a brick has changed; the supply, raised before a rise, is lowered only now after a fall. -/
def execTileClockSwitchDone (b : Brick) (s : State) : Host.Outcome State Fault Refusal := ended s <|
  if !s.isSet (Reg.PWR_DVFS_CHG b) then .next s else
  let f := clockWanted s b
  .next (setTileVolt b f ((s.wr (Reg.PWR_DVFS_FCUR b) f).wr (Reg.PWR_DVFS_CHG b) 0))

end Sys2Proof.Machine
end

