-- ==== Sys2Proof/Machine/SafeState.lean ====
section
/-! DEFINITION. Fences by command, site tests, warm resets of a brick, and the safe states of a brick and of the package (R817, R847 to R862,
R881). -/
namespace Sys2Proof.Machine
open Sys2Proof

/-! ### SAF_TCMD (R851, R852, R881) -/

/-- Whether a site test runs in a brick. -/
def testing (s : State) (b : Brick) : Bool := s.isSet (Reg.SAF_STRES_BUSY b)

/-- The logical tile `k` of a brick. -/
def brickTile (b : Brick) (k : Nat) : Tile := tileOf (32 * b.val + k % 32)

/-- FENCE (R840, R847, R848): OP 0x1 of SAF_TCMD fences a tile with FCAUSE 0x6 and poisons nothing. A visit of the tile runs to its end. -/
def fenceByCommand (b : Brick) (k : Nat) (s : State) : State :=
  if testing s b then s else
  let t := brickTile b k
  fenceTile t 0x6 s

def execFence (b : Brick) (k : Fin 32) (s : State) : Host.Outcome State Fault Refusal := ended s <| .next (fenceByCommand b k.val s)

/-- UNFENCE (R851): OP 0x2 of SAF_TCMD; ignored unless the tile's site is OFF and has not failed a test. -/
def unfenceTile (b : Brick) (k : Nat) (s : State) : State :=
  let t := brickTile b k
  if testing s b || siteState s t ≠ 0 || s.safety.failed.contains (siteDomain s t) then s
  else s.wr (Reg.SAF_FENCED_FENCED b) (withBits (s.rd (Reg.SAF_FENCED_FENCED b)) (k % 32) (k % 32) 0)

def execUnfence (b : Brick) (k : Fin 32) (s : State) : Host.Outcome State Fault Refusal := ended s <| .next (unfenceTile b k.val s)

/-- A site test starts (R852). -/
def beginTest (b : Brick) (site : Nat) (s : State) : State := (s.wr (Reg.SAF_STRES_BUSY b) 1).wr (Reg.SAF_STRES_SITE b) site

/-- STEST (R852, R881): OP 0x3 of SAF_TCMD; ignored for a site that is not OFF or that is retired, and while a test runs. -/
def testByCommand (b : Brick) (site : Nat) (s : State) : State :=
  if testing s b || 32 < site || domCur s (siteDom b site) ≠ 0 || domMoving s (siteDom b site) || s.rd (Reg.PWR_SITEMAP_RETIRE b) = site then s
  else beginTest b site s

def execStest (b : Brick) (site : Fin 64) (s : State) : Host.Outcome State Fault Refusal := ended s <| .next (testByCommand b site.val s)

/-- A site that has failed a test (R279, R853): it is written to RETIRE where that holds none, and kept in the persistent state; with another site
retired, event 0x5055. -/
def retireSite (b : Brick) (site : Nat) (s : State) : State :=
  let r := s.rd (Reg.PWR_SITEMAP_RETIRE b)
  if r = 0x3F then
    let s := { s with hod := { s.hod with retire := s.hod.retire.set b.val site } }
    (((s.wr (Reg.PWR_SITEMAP_RETIRE b) site).flag Reg.PWR_ERR_RETIRE)).raise 0x600D [b.val, site]
  else if r = site then s
  else s.raise 0x5055 [b.val, site]

/-- RETIRE of PWR_SITEMAP after a write (R307, R811): kept in the persistent state; a retirement that is not in effect awaits a reset of the uncore. -/
def writeRetire (b : Brick) (s : State) : State :=
  let r := s.rd (Reg.PWR_SITEMAP_RETIRE b)
  let s := { s with hod := { s.hod with retire := s.hod.retire.set b.val r } }
  if r ≠ 0x3F && !siteRetired s b r then s.flag Reg.PWR_ERR_RETIRE else s

/-- SITE_TEST_DONE (R852, R853, R847): a site test records its result. The bits of `fail` are those of FAIL. After a mismatch the shadow site is tested
next where this one passed. -/
def execSiteTestDone (b : Brick) (fail : BitVec 5) (s : State) : Host.Outcome State Fault Refusal := ended s <|
  if !testing s b then .next s else
  let site := s.rd (Reg.SAF_STRES_SITE b)
  let d := siteDom b site
  let pass := fail = 0
  let s := (((s.wr (Reg.SAF_STRES_BUSY b) 0).flag (Reg.SAF_STRES_DONE b)).wr (Reg.SAF_STRES_PASS b) (bit pass)).wr (Reg.SAF_STRES_FAIL b) fail.toNat
  let s := s.raise 0x6003 [b.val, site, bit pass, fail.toNat]
  let follows := s.safety.auto.contains b.val
  let s := { s with safety := { s.safety with auto := s.safety.auto.filter (fun x => x ≠ b.val) } }
  if pass then
    let x := shadowSite s b
    let s := if follows then
        { s with safety := { s.safety with toTest := s.safety.toTest ++ [(siteDom b x, false)], siteHold := insertNum s.safety.siteHold b.val } }
      else s
    if site = x && s.isSet (Reg.PWR_SITEMAP_SHADOW b) then
      let s := { s with safety := { s.safety with siteHold := s.safety.siteHold.filter (fun y => y ≠ b.val) } }
      .next (rotation b (if sitesOn s b ≠ 0 && !s.isSet (Reg.SAF_BCTL_PAUSE b) then requestDomain d 3 s else s))
    else .next (rotation b s)
  else
    let s := { s with safety := { s.safety with failed := insertNum s.safety.failed d } }
    let s := match siteTile s b site with
      | some t => (s.wr (Reg.SAF_TREC_FCAUSE b (t.val % 32)) 8).raise 0x6002 [t.val, 8, bit (tileFenced s t)]
      | none => s
    .next (rotation b (retireSite b site s))

/-- AUTOTEST_START (R853): the first site of a brick that waits for a test is turned OFF once R294 allows it, and tested once it is OFF. -/
def execAutotestStart (b : Brick) (s : State) : Host.Outcome State Fault Refusal := ended s <|
  match s.safety.toTest.find? (fun x => x.1 / 33 = b.val) with
  | none => .next s
  | some (d, shadowToo) =>
    if testing s b || domMoving s d then .next s
    else if domCur s d ≠ 0 then
      .next (if s.power.queue.any (fun x => x = (d, 0)) || judge s d 0 ≠ 0 then s else requestDomain d 0 s)
    else
      let s := { s with safety := { s.safety with
        toTest := s.safety.toTest.filter (fun x => x.1 ≠ d), auto := if shadowToo then insertNum s.safety.auto b.val else s.safety.auto } }
      .next (beginTest b (d % 33) s)

/-- PAUSE of SAF_BCTL (R841, R924): a visit in progress runs to its end. -/
def writePause (b : Brick) (pause : Bool) (s : State) : State :=
  let s := s.wr (Reg.SAF_BCTL_PAUSE b) (bit pause)
  let s := if pause then s else { s with safety := { s.safety with siteHold := s.safety.siteHold.filter (fun y => y ≠ b.val || testing s b) } }
  rotation b s

/-- ROTATION_PAUSE (R924): a write of PAUSE. -/
def execRotationPause (b : Brick) (pause : Bool) (s : State) : Host.Outcome State Fault Refusal := ended s <| .next (writePause b pause s)

/-! ### Warm reset of a brick (R817) -/

/-- Dirty lines, folds and check caches of a brick's controllers that are ON settled (R817). -/
def settleBrick (b : Brick) (e : MemEnv) (s : State) : State :=
  s.each [stackOf (2 * b.val), stackOf (2 * b.val + 1)] (fun s st => if stackOn s st then settleStack st e s else s)

/-- A brick warm reset (R817), with its cause: 0 software, 1 a safe state. -/
def warmReset (b : Brick) (cause : Nat) (e : MemEnv) (s : State) : State :=
  let s := sitesOff b s
  let s := linksDown b 0 s
  let s := resetUncore b (settleBrick b e s)
  let s := restoreLinks b (raiseIncarnation s)
  noteReset [kindWarm, cause, b.val] (rotation b s)

/-! ### Safe states (R858 to R862) -/

/-- Steps 1 to 3 of R859: every tile of a brick fenced, its signal-log bonds and every bond of the brick poisoned, its links down. -/
def shutBrick (b : Brick) (fcause portState : Nat) (s : State) : State :=
  let s := s.each (brickTiles b) (fun s t => poisonBonds t 0x05 (suspectBonds s t) (fenceTile t fcause s))
  let s := s.each (List.range 16384) (fun s k => poisonBond b k 0x05 none s)
  let s := linksDown b portState s
  let s := s.wr (Reg.SAF_STRES_BUSY b) 0
  if visiting s b then leaveVisit b s else s

/-- The package enters its safe state (R860): 1 AON_CLK, 2 a rail, 3 two bricks, 4 a brick cause that persists. -/
def enterPackageSafe (cause : Nat) (e : MemEnv) (s : State) : State :=
  if s.isSet Reg.SAF_STAT_PSAFE then s else
  let s := s.each ([0, 1, 2, 3] : List Brick) (fun s b => if uncoreOn s b then rotation b (shutBrick b 0x5 0xA s) else s)
  let s := s.each ([0, 1, 2, 3, 4, 5, 6, 7] : List Stack) (fun s st =>
    if stackOn s st then setDomain (136 + st.val) 1 (stackDown st (settleStack st e (holdFor st s))) else s)
  let s := ((s.wr Reg.SAF_STAT_PSAFE 1).wr Reg.SAF_STAT_PCAUSE cause).flag Reg.SAF_ERR_PSAFE
  (s.emit (.pin "TRAY_INT_N" 0)).raise 0x6009 [cause]

/-- PACKAGE_SAFE_STATE (R860). -/
def execPackageSafeState (cause : Fin 4) (e : MemEnv) (s : State) : Host.Outcome State Fault Refusal := ended s <|
  .next (enterPackageSafe (cause.val + 1) e (memReports e s))

/-- A brick enters its safe state (R859). Causes are numbered in the order of R858, from 1 (DESIGN CHOICE, log entry 61). A second brick in its safe
state brings the package's. -/
def enterBrickSafe (b : Brick) (cause : Nat) (e : MemEnv) (s : State) : State :=
  if brickSafe s b || !uncoreOn s b then s else
  let s := shutBrick b 0x4 0 s
  let s := { s with safety := { s.safety with
    safeCause := tabPut s.safety.safeCause b.val cause, safeAt := tabPut s.safety.safeAt b.val s.now } }
  let s := (s.wr (Reg.SAF_BSTAT_SAFE b) 1).flagBits Reg.SAF_STAT_BSAFE (2 ^ b.val)
  let s := rotation b ((s.flag Reg.SAF_ERR_BSAFE).raise 0x6007 [b.val, cause])
  if 2 ≤ popcount 4 (s.rd Reg.SAF_STAT_BSAFE) then enterPackageSafe 3 e s else s

/-- BRICK_SAFE_STATE (R858, R859). -/
def execBrickSafeState (b : Brick) (cause : Fin 5) (e : MemEnv) (s : State) : Host.Outcome State Fault Refusal := ended s <|
  .next (enterBrickSafe b (cause.val + 1) e (memReports e s))

/-- Whether the cause of a brick's safe state has cleared: a stack is cool again (R776), the clock that an overcurrent stopped runs again (R809), a
regulator's output fault stays until a cold reset (R809), and the other causes are over once they have been detected (DEDUCED, log entry 61). -/
def causeCleared (s : State) (b : Brick) : Bool :=
  match tabGet 0 s.safety.safeCause b.val with
  | 2 => !s.power.stopped.contains b.val
  | 3 => false
  | 4 => !hotBrick s b
  | _ => true

/-- AUTO_BRICK_RESET (R859): with AUTOBR, Hod warm-resets a brick in its safe state once the cause has cleared. -/
def execAutoBrickReset (b : Brick) (e : MemEnv) (s : State) : Host.Outcome State Fault Refusal := ended s <|
  if !s.isSet (Reg.SAF_BSTAT_SAFE b) || s.isSet Reg.SAF_STAT_PSAFE || !s.isSet Reg.SAF_CTL_AUTOBR || !causeCleared s b || !hodActs s then .next s
  else .next ((warmReset b 1 e (memReports e s)).raise 0x6008 [b.val])

/-- BRICK_SAFE_ESCALATE (R859, R860): a cause that has not cleared within 1 s of the entry. -/
def execBrickSafeEscalate (b : Brick) (e : MemEnv) (s : State) : Host.Outcome State Fault Refusal := ended s <|
  if !s.isSet (Reg.SAF_BSTAT_SAFE b) || causeCleared s b || s.now < tabGet 0 s.safety.safeAt b.val + 1000000000 then .next s
  else .next (enterPackageSafe 4 e (memReports e s))

end Sys2Proof.Machine
end

