-- ==== Sys2Proof/Machine/Rings.lean ====
section
/-! DEFINITION. The host link: drop windows, doorbells, command and completion rings, the event ring and MSI-X (R720 to R744, R767, R768, R925). -/
namespace Sys2Proof.Machine
open Sys2Proof

/-! ### State of the link and of a ring -/

/-- Whether a driver is attached over a link in service, so that the device may reach host memory (R754, R762). -/
def attached (s : State) : Bool := s.isSet Reg.HST_STAT_LINKUP && s.isSet Reg.HST_STAT_ATTACHED && !s.isSet Reg.HST_STAT_HOSTLOST

def State.ring (s : State) (r : Nat) : HostRing := tabGet {} s.host.rings r

/-- The state with a ring changed. -/
def State.onRing (s : State) (r : Nat) (f : HostRing → HostRing) : State :=
  { s with host := { s.host with rings := tabPut s.host.rings r (f (s.ring r)) } }

/-- Entries of a command ring, and of a completion ring (R736). -/
def cmdSlots (s : State) (r : Nat) : Nat := 2 ^ s.rd (Reg.HST_CBASE_LOG2N r)
def complSlots (s : State) (r : Nat) : Nat := 2 ^ s.rd (Reg.HST_QBASE_LOG2M r)

/-- Whether a ring works now: enabled, with a driver attached, and not in the package safe state (R754, R860). -/
def ringWorks (s : State) (r : Nat) : Bool := attached s && s.isSet (Reg.HST_CBASE_EN r) && !s.isSet Reg.SAF_STAT_PSAFE

/-- The next tag of an access to host memory (R730). -/
def takeTag (use : HostUse) (s : State) : Nat × State :=
  (s.host.nextTag, { s with host := { s.host with nextTag := s.host.nextTag + 1, accs := s.host.accs ++ [{ tag := s.host.nextTag, use := use }] } })

/-! ### Completions (R738, R739, R742) -/

/-- Bytes of a completion entry (R738). -/
def completionBytes (r : Nat) (phase : Bool) (c : Completion) : Bytes :=
  leBytes 8 c.id ++ [BitVec.ofNat 8 c.state, BitVec.ofNat 8 c.status, BitVec.ofNat 8 (c.flags + bit phase), BitVec.ofNat 8 r] ++ leBytes 4 0 ++ padTo 16 c.result

/-- A completion written into the next slot of its ring (R738). -/
def writeCompletion (r : Nat) (c : Completion) (s : State) : State :=
  let R := s.ring r
  let slot := s.rd (Reg.HST_RSTAT_CTAIL r)
  let next := (slot + 1) % complSlots s r
  let (tag, s) := takeTag (.completion r c.noint) s
  let s := s.emit (.hostWrite tag (s.rd (Reg.HST_QBASE_HPA r) * 4096 + 32 * slot) (completionBytes r R.phase c))
  let s := (s.count Reg.HST_CNT0_CMPL 1).wr (Reg.HST_RSTAT_CTAIL r) next
  s.onRing r (fun R => { R with inUse := R.inUse + 1, phase := if next = 0 then !R.phase else R.phase })

/-- Waiting completions written in order while the ring has room (R739); an episode of fullness raises event 0x400B once. -/
def drainRing (r : Nat) (s : State) : State :=
  if !ringWorks s r then s else
  let n := min (s.ring r).due.length (complSlots s r - (s.ring r).inUse)
  let now := (s.ring r).due.take n
  let s := now.foldl (fun s c => writeCompletion r c s) (s.onRing r (fun R => { R with due := R.due.drop n }))
  let R := s.ring r
  if R.inUse < complSlots s r then s.onRing r (fun R => { R with full := false })
  else if R.full then s
  else ((s.onRing r (fun R => { R with full := true })).flag Reg.HST_ERR_CMPLFULL).raise 0x400B [r]

/-- First completions at the head of the fetch order, ready to be posted (R742). -/
def readyFirsts : List (Nat × Option Completion) → List Completion
  | (_, some c) :: rest => c :: readyFirsts rest
  | _ => []

/-- First completions that are ready leave in fetch order. -/
def flushFirsts (r : Nat) (s : State) : State :=
  let cs := readyFirsts (s.ring r).firsts
  drainRing r (s.onRing r (fun R => { R with firsts := R.firsts.drop cs.length, due := R.due ++ cs }))

/-- The first completion of a command put at its place; none where it has been posted. An interim one that still waits gives way to a final one. -/
def putFirst (c : Completion) : List (Nat × Option Completion) → Option (List (Nat × Option Completion))
  | [] => none
  | (id, x) :: rest =>
    let mine := id = c.id && (match x with
      | none => true
      | some old => old.flags = 4 && c.flags = 0)
    if mine then some ((id, some c) :: rest) else (putFirst c rest).map (fun l => (id, x) :: l)

/-- A completion of a command posted (R738, R742): as its first one, or after it. None is posted while the host is lost (R754, R925). -/
def postCompletion (r : Nat) (c : Completion) (s : State) : State :=
  if s.isSet Reg.HST_STAT_HOSTLOST then s else
  match putFirst c (s.ring r).firsts with
  | some l => flushFirsts r (s.onRing r (fun R => { R with firsts := l }))
  | none => drainRing r (s.onRing r (fun R => { R with due := R.due ++ [c] }))

/-! ### Doorbells, drop windows and the rings' indices -/

/-- Whether a drop-window store numbered from `lo` up to `before` has no outcome yet. -/
def dropsWithin (s : State) (lo before : Nat) : Bool :=
  let mine := fun (i : Issuer) => match i with
    | .drop n => decide (lo ≤ n / 16 ∧ n / 16 < before)
    | _ => false
  (s.brick 0).waitOps.any (fun w => mine w.issuer) || (s.brick 0).srcFlows.any (fun f => f.ops.any (fun o => mine o.issuer))

/-- Whether a drop-window store numbered below `before` has no outcome yet (R728). -/
def dropsOut (s : State) (before : Nat) : Bool := dropsWithin s 0 before

/-- The first doorbells whose earlier drop-window stores have outcomes become visible (R728), at most `n` of them. -/
def releaseDoorbells : Nat → State → State
  | 0, s => s
  | n + 1, s =>
    match s.host.doorbells with
    | d :: rest =>
      if dropsOut s d.before then s
      else releaseDoorbells n ({ s with host := { s.host with doorbells := rest } }.onRing d.ring (fun R => { R with visible := d.tail }))
    | [] => s

/-- DOORBELL (R724, R728, R736): a new tail. A tail outside the ring is ignored and sets RINGERR. -/
def execDoorbell (r : Fin 32) (tail : Word) (s : State) : Host.Outcome State Fault Refusal := ended s <|
  if !s.isSet Reg.HST_STAT_LINKUP || !s.isSet (Reg.HST_CBASE_EN r.val) then .next s
  else if cmdSlots s r.val ≤ tail.toNat then .next (s.flag Reg.HST_ERR_RINGERR)
  else
    let s := s.wr (Reg.HST_RSTAT_TAIL r.val) tail.toNat
    let d : Doorbell := { ring := r.val, tail := tail.toNat, before := s.host.dropNo }
    let s := { s with host := { s.host with doorbells := s.host.doorbells ++ [d] } }
    .next (releaseDoorbells s.host.doorbells.length s)

/-- COMPLETION_HEAD (R724, R739): the host's consumer index. One outside the ring is ignored (DEDUCED, log entry 64). -/
def execCompletionHead (r : Fin 32) (head : Word) (s : State) : Host.Outcome State Fault Refusal := ended s <|
  let n := complSlots s r.val
  if !s.isSet Reg.HST_STAT_LINKUP || !s.isSet (Reg.HST_CBASE_EN r.val) || n ≤ head.toNat then .next s else
  let taken := (head.toNat + n - s.rd (Reg.HST_RSTAT_CHEAD r.val) % n) % n
  .next (drainRing r.val ((s.wr (Reg.HST_RSTAT_CHEAD r.val) head.toNat).onRing r.val (fun R => { R with inUse := R.inUse - taken })))

/-- COMPLETION_RING_ROOM (R739): waiting completions are written as far as there is room. -/
def execCompletionRingRoom (r : Fin 32) (s : State) : Host.Outcome State Fault Refusal := ended s <| .next (drainRing r.val s)

/-- What a discarded or failed drop-window write records (R727): event 0x4003 at most once per window per millisecond. -/
def dropFailed (n off status : Nat) (s : State) : State :=
  let s := (s.flag Reg.HST_ERR_DROPERR).count Reg.HST_CNT1_DROPDISC 1
  if s.host.dropAt.all (fun e => e.1 ≠ n || decide (e.2 + 10 ^ 6 ≤ s.now)) then
    { s with host := { s.host with dropAt := (n, s.now) :: s.host.dropAt.filter (fun e => e.1 ≠ n) } }.raise 0x4003 [n, off, status]
  else s

/-- A write that became `k` stores from number `first` on is remembered as one, so that it fails once (R727). -/
def noteSplit (first k : Nat) (s : State) : State :=
  if k ≤ 1 then s else { s with host := { s.host with dropSplit := s.host.dropSplit ++ [(first, first + k, false)] } }

/-- A store of drop window `n`, with its number, did not end with status 0x00: its write has failed, and is counted once (R727). -/
def dropStoreFailed (n no off status : Nat) (s : State) : State :=
  let mine := fun (w : Nat × Nat × Bool) => decide (w.1 ≤ no ∧ no < w.2.1)
  if s.host.dropSplit.any (fun w => mine w && w.2.2) then s else
  dropFailed n off status { s with host := { s.host with dropSplit := s.host.dropSplit.map (fun w => if mine w then (w.1, w.2.1, true) else w) } }

/-- DROP_WRITE (R726, R727): a host write at an offset of BAR4. One that does not lie wholly in an enabled window over a populated target is discarded;
any other becomes STOREs under the window's label. -/
def execDropWrite (off : BitVec 34) (data : Bytes) (s : State) : Host.Outcome State Fault Refusal := ended s <|
  let n := off.toNat / 2 ^ 30
  let w := off.toNat % 2 ^ 30
  if !s.isSet Reg.HST_STAT_LINKUP || data.isEmpty then .next s else
  let region := s.rd (Reg.HST_DROP_REGION n)
  let o := s.rd (Reg.HST_DROP_OFFSET n) * 65536 + w
  if !s.isSet (Reg.HST_DROP_EN n) || decide (2 ^ 30 < w + data.length) || decide (8 < region) || !populated s region o data.length then .next (dropFailed n w 0x01 s) else
  let ops := storesOf (s.rd (Reg.HST_DROP_LABEL n)) (0xFFFF * 2 ^ 48 + region * 2 ^ 44 + o) data
  .next (noteSplit s.host.dropNo ops.length
    (ops.foldl (fun s op => issueOp 0 (.drop (n + 16 * s.host.dropNo)) op { s with host := { s.host with dropNo := s.host.dropNo + 1 } }) s))

/-- The outcomes of drop-window stores taken (R727): a write of which a STORE did not end with status 0x00 counts as failed. -/
def takeDrops (s : State) : State :=
  let mine := s.results.filterMap (fun r => match r.issuer with
    | .drop n => if r.kind = .inDoubt then none else some (n, r)
    | _ => none)
  let s := { s with results := s.results.filter (fun r => match r.issuer with
    | .drop _ => false
    | _ => true) }
  let s := mine.foldl (fun s x =>
    if x.2.kind = .completed && x.2.status = 0 then s
    else dropStoreFailed (x.1 % 16) (x.1 / 16) (addrOffset x.2.op.addr.toNat - s.rd (Reg.HST_DROP_OFFSET (x.1 % 16)) * 65536) x.2.status s) s
  let s := { s with host := { s.host with dropSplit := s.host.dropSplit.filter (fun w => dropsWithin s w.1 w.2.1) } }
  releaseDoorbells s.host.doorbells.length s

/-- H2D_SNOOP (R732): the host snoops a line, and the device drops it. -/
def execH2dSnoop (hpa : BitVec 52) (s : State) : Host.Outcome State Fault Refusal := ended s <|
  .next { s with host := { s.host with lines := s.host.lines.filter (fun l => l.1 ≠ hpa.toNat / 64) } }

/-- A ring enabled (R736): its indices begin at 0 and its phase at 1; completions that wait for the ring are kept (DESIGN CHOICE, log entry 65). -/
def enableRing (r : Nat) (s : State) : State :=
  (s.setReg (Reg.HST_RSTAT r) 0).onRing r (fun R => { due := R.due })

/-! ### The event ring and MSI-X (R725, R767, R768, R925) -/

/-- An event copied to the event ring, where its class is selected (R767, R768): `args` are its arguments as the log lays them out. The ring has no
consumer index, so it is never found full (DEDUCED, log entry 66). `noint`: it raises no vector (R437). -/
def eventToHost (code time : Nat) (args : Bytes) (noint : Bool) (s : State) : State :=
  if !attached s || s.isSet Reg.SAF_STAT_PSAFE || !s.isSet Reg.HST_EVCFG_EN || !bitOf (s.rd Reg.HST_EVCFG_CLASSMASK) (code / 4096) then s else
  let n := s.rd Reg.HST_EVCFG_LOG2N
  let phase := 1 - s.host.evPos / 2 ^ n % 2
  let rec32 := leBytes 2 code ++ leBytes 1 phase ++ leBytes 5 0 ++ leBytes 8 time ++ padTo 16 args
  let (tag, s) := takeTag (.event noint) s
  let s := s.emit (.hostWrite tag (s.rd Reg.HST_EVBASE_HPA * 4096 + 32 * (s.host.evPos % 2 ^ n)) rec32)
  { s with host := { s.host with evPos := s.host.evPos + 1 } }

/-- A vector becomes due for a message: a completion or an event record was observed (R725). -/
def vectorDue (v : Nat) (s : State) : State :=
  if s.host.msiDue.contains v then s else { s with host := { s.host with msiDue := s.host.msiDue ++ [v] } }

/-- MSIX_SIGNAL (R725): a vector that is due is signalled, at most once per µs, and none from host loss to ATTACH (R925). -/
def execMsixSignal (v : Fin 64) (s : State) : Host.Outcome State Fault Refusal := ended s <|
  if !attached s || !s.host.msiDue.contains v.val || s.now < tabGet 0 s.host.msiAt v.val + (if (tabFind s.host.msiAt v.val).isSome then 1000 else 0) then .next s else
  .next ({ s with host := { s.host with msiDue := s.host.msiDue.filter (fun x => x ≠ v.val), msiAt := tabPut s.host.msiAt v.val s.now } }.emit (.msix v.val))

/-! ### Region 0xB (R729 to R733) -/

/-- What the host link does with an access to region 0xB. -/
inductive HostAccess where
  | answer (status : Nat)
  | wait                        -- the link is down and the host not lost (R753)
  | go (hpa : Nat)
  deriving DecidableEq, Repr

/-- An access of `n` bytes at an offset of region 0xB (R729, R731, R733). -/
def hostAccess (s : State) (load : Bool) (off n : Nat) : HostAccess :=
  let k := off / 2 ^ 40
  let o := off % 2 ^ 40
  let hpa := s.rd (Reg.HST_HWIN_BASE k) * 4096 + o
  if n = 0 || (load && (decide (64 < n) || o / 64 ≠ (o + n - 1) / 64)) || decide (2 ^ 52 < hpa + n) then .answer 0x01
  else if s.isSet Reg.HST_STAT_HOSTLOST then .answer 0x42
  else if !s.isSet (Reg.HST_HWIN_EN k) || !s.isSet (if load then Reg.HST_HWIN_RD k else Reg.HST_HWIN_WR k) ||
    decide (s.rd (Reg.HST_HWLIM_LIMIT k) < (o + n - 1) / 4096) then .answer 0x01
  else if !s.isSet Reg.HST_STAT_LINKUP then .wait
  else .go hpa

end Sys2Proof.Machine
end

