-- ==== Sys2Proof/Machine/Operands.lean ====
section
/-! DEFINITION. Operand forms of the mason: instruction fields, the words of each instruction, registers and windows, and special registers
(R481 to R486, R490 to R506). -/
namespace Sys2Proof.Machine
open Sys2Proof

/-! ### Fields of an instruction word (R490) -/

def iMaj (w : Nat) : Nat := bitsOf w 31 26
def iRd (w : Nat) : Nat := bitsOf w 25 21
def iRa (w : Nat) : Nat := bitsOf w 20 16
def iRb (w : Nat) : Nat := bitsOf w 15 11
def iFn (w : Nat) : Nat := bitsOf w 10 0
def iImm (w : Nat) : Nat := bitsOf w 15 0
def iMod (w : Nat) : Nat := bitsOf w 15 12

/-- A 64-bit number plus a signed field of `n` bits, modulo 2^64. -/
def addSigned (x n f : Nat) : Nat := wrapNat 64 ((x : Int) + sextInt n f)

/-! ### The instructions, one for each row -/

/-- The instructions of the mason, by row of the command table. -/
inductive MOp where
  | aluAdd | aluSub | aluAnd | aluOr | aluXor | aluAndn | aluSll | aluSrl | aluSra | aluMul | aluMulh | aluMulhu | aluDiv | aluDivu | aluRem
  | aluRemu | aluCmpeq | aluCmplt | aluCmpltu | aluMin | aluMax | aluMinu | aluMaxu | aluClz | aluCtz | aluPopc | aluAddw | aluSubw
  | addi | andi | ori | xori | shiSll | shiSrl | shiSra | movw | movk | ld | st | atom
  | bopSigadd | bopWaitge | bopWaiteq | bopTest | bopReset | bopArmto | bopWcancel | bopArmsig | bopDisarm | bopPoison
  | cfence | rel | acq | acqf | twait | drain | wsl | tcmd | rds | br | brs | call | jlnk | enter | leave
  | nop | yld | brk | halt | srd | swr | xret | susp | spillw | fillw
  deriving DecidableEq, Repr

/-- ALU operations by FN (R492). -/
def aluOps : List MOp :=
  [.aluAdd, .aluSub, .aluAnd, .aluOr, .aluXor, .aluAndn, .aluSll, .aluSrl, .aluSra, .aluMul, .aluMulh, .aluMulhu, .aluDiv, .aluDivu, .aluRem,
   .aluRemu, .aluCmpeq, .aluCmplt, .aluCmpltu, .aluMin, .aluMax, .aluMinu, .aluMaxu, .aluClz, .aluCtz, .aluPopc, .aluAddw, .aluSubw]

/-- Bond instructions by BOP, from 0x1 (R499). -/
def bondOps : List MOp :=
  [.bopSigadd, .bopWaitge, .bopWaiteq, .bopTest, .bopReset, .bopArmto, .bopWcancel, .bopArmsig, .bopDisarm, .bopPoison]

/-- ORD operations by FN[2:0] (R503). -/
def ordOps : List MOp := [.cfence, .rel, .acq, .acqf, .twait, .drain]

/-- The instruction where a condition on its fields holds. -/
def onlyIf (c : Bool) (x : MOp) : Option MOp := if c then some x else none

/-- Operation code of an ATOM (R498). -/
def atomOpc (w : Nat) : Nat := (if bitOf w 6 then 0x20 else 0x10) + bitsOf w 10 7

/-- Special registers that exist (R486). -/
def specialListed (n : Nat) : Bool := decide (n ≤ 0x12)

/-- Whether an SWR may write a special register, given T (R486). -/
def specialWritable (n : Nat) (trap : Bool) : Bool :=
  n == 0x0A || n == 0x0B || (trap && (decide (4 ≤ n ∧ n ≤ 9) || n == 0x10 || n == 0x11))

/-- SYS operations (R494). -/
def decodeSys (w : Nat) (trap : Bool) : Option MOp :=
  let none' := iRd w == 0 && iRa w == 0 && iRb w == 0
  match iFn w with
  | 0x000 => onlyIf none' .nop
  | 0x001 => onlyIf none' .yld
  | 0x002 => onlyIf (iRa w == 0 && iRb w == 0) .brk
  | 0x003 => onlyIf none' .halt
  | 0x004 => onlyIf (specialListed (iRa w) && iRb w == 0) .srd
  | 0x005 => onlyIf (specialWritable (iRd w) trap && iRb w == 0) .swr
  | 0x010 => onlyIf (none' && trap) .xret
  | 0x011 => onlyIf (none' && trap) .susp
  | 0x012 => onlyIf (none' && trap) .spillw
  | 0x013 => onlyIf (none' && trap) .fillw
  | _ => none

/-- The instruction of a word, or none for an illegal one (R491 to R506); `trap` is T. A reserved operation or format of an ATOM is an unlisted
sub-code (DEDUCED, log entry 34). What a TCMD's command has to hold is checked when it executes. -/
def decodeMason (w : Nat) (trap : Bool) : Option MOp :=
  match iMaj w with
  | 0x00 => if iFn w = 0 then none else aluOps[iFn w - 1]?
  | 0x01 => some .addi
  | 0x02 => some .andi
  | 0x03 => some .ori
  | 0x04 => some .xori
  | 0x05 =>
    if bitsOf w 7 6 ≠ 0 then none else
    match bitsOf w 15 8 with
    | 0 => some .shiSll
    | 1 => some .shiSrl
    | 2 => some .shiSra
    | _ => none
  | 0x06 => onlyIf (bitsOf w 20 18 == 0) .movw
  | 0x07 => onlyIf (bitsOf w 20 18 == 0) .movk
  | 0x10 => onlyIf (bitsOf w 15 13 != 7) .ld
  | 0x11 => onlyIf (bitsOf w 13 12 == 0) .st
  | 0x12 =>
    let opc := atomOpc w
    onlyIf (bitsOf w 2 0 == 0 && decide (bitsOf w 5 3 < 6) && (decide (0x11 ≤ opc ∧ opc ≤ 0x18) || decide (0x21 ≤ opc ∧ opc ≤ 0x23))) .atom
  | 0x13 =>
    let bop := bitsOf w 10 7
    let mode := bitsOf w 2 0
    if bop = 0 then none else
    if bop = 4 then onlyIf (decide (mode ≤ 2)) .bopTest else
    if bop = 5 then onlyIf (decide (mode ≤ 1)) .bopReset else
    if mode ≠ 0 then none else bondOps[bop - 1]?
  | 0x14 =>
    let k := bitsOf w 2 0
    if bitsOf w 10 6 ≠ 0 || (k ≠ 4 && bitsOf w 5 3 ≠ 0) then none else
    if k = 3 && !(iRa w = 0 && iRb w = 0) then none else ordOps[k]?
  | 0x15 => onlyIf (bitsOf w 10 6 == 0 && iRb w == 0) .wsl
  | 0x18 => onlyIf (bitsOf w 1 0 != 3 && iRd w == 0 && bitsOf w 10 2 == 0) .tcmd
  | 0x19 => onlyIf (bitsOf w 10 4 == 0 && iRa w == 0 && iRb w == 0) .rds
  | 0x20 => onlyIf (decide (iRd w < 6) || (iRd w == 6 && iRa w == 0)) .br
  | 0x21 => onlyIf (decide (iRd w ≤ 9) && !bitOf w 20) .brs
  | 0x22 => some .call
  | 0x23 => some .jlnk
  | 0x24 => some .enter
  | 0x25 => some .leave
  | 0x30 => decodeSys w trap
  | _ => none

/-! ### Registers and windows (R481 to R483) -/

/-- Where a register specifier lies in the register table: k at 0 to 7; e and p of ring window w at 8 + 16w on, its h being the e of the next
window; and the trap window at 120 on. -/
def regIndex (m : Mason) (r : Nat) : Nat :=
  if r < 8 then r
  else if m.trap then 120 + (r - 8)
  else if r < 24 then 8 + 16 * m.cwin + (r - 8)
  else 8 + 16 * ((m.cwin + 1) % 7) + (r - 24)

/-- A register read: k0 is zero (R482). -/
def Mason.get (m : Mason) (r : Nat) : Nat := if r = 0 then 0 else (tabGet 0 m.regs (regIndex m r)).toNat

/-- A register written: a write to k0 is discarded (R482). -/
def Mason.put (m : Mason) (r v : Nat) : Mason :=
  if r = 0 then m else { m with regs := tabSet 0 m.regs (regIndex m r) (BitVec.ofNat 64 v) }

/-- Index of entry or private register i of ring window w: entry 0 to 7, private 8 to 15. -/
def frameIndex (w i : Nat) : Nat := 8 + 16 * w + i

/-- The mason of a tile. -/
def State.mason (s : State) (t : Tile) : Mason := (s.tile t).mason

/-- The state with a mason changed. -/
def State.onMason (s : State) (t : Tile) (f : Mason → Mason) : State := s.onTile t (fun T => { T with mason := f T.mason })

/-- A register of a tile's mason. -/
def State.mreg (s : State) (t : Tile) (r : Nat) : Nat := (s.mason t).get r

/-- The state with a register of a tile's mason written. -/
def State.putReg (s : State) (t : Tile) (r v : Nat) : State := s.onMason t (fun m => m.put r v)

/-! ### Summary registers pending (R512) -/

/-- Writers pending of summary register k. -/
def Mason.pending (m : Mason) (k : Nat) : Nat := tabGet 0 m.pend k

/-- The summary registers pending, by bit (R486). -/
def Mason.sumpend (m : Mason) : Nat := (((List.range 16).filter (fun k => decide (0 < m.pending k))).map (fun k => 2 ^ k)).sum

/-! ### Special registers (R486) -/

/-- The vector base of a tile, in bytes. -/
def vbase (s : State) (t : Tile) : Nat := s.rd (Reg.MSN_VBASE_VBASE t) * 0x800

/-- The value of a special register. -/
def specialGet (s : State) (t : Tile) (n : Nat) : Nat :=
  let m := s.mason t
  match n with
  | 0x00 => m.pc
  | 0x01 => if m.trap then 7 else m.cwin
  | 0x02 => m.res
  | 0x03 => m.nspill
  | 0x04 => m.ssp
  | 0x05 => vbase s t
  | 0x06 => m.xpc
  | 0x07 => m.xcause
  | 0x08 => m.xval.toNat
  | 0x09 => m.xstate
  | 0x0A => m.lbl
  | 0x0B => m.wto
  | 0x0C => m.bstat
  | 0x0D => m.sumpend
  | 0x0E => m.tccnt.toNat
  | 0x0F => s.plumb.toNat
  | 0x10 => m.tscr0.toNat
  | 0x11 => m.tscr1.toNat
  | 0x12 => s.reg (Reg.MSN_OPERR t)
  | _ => 0

/-- A special register written: bits that R486 does not give it are dropped. -/
def specialPut (t : Tile) (n v : Nat) (s : State) : State :=
  match n with
  | 0x04 => s.onMason t (fun m => { m with ssp := bitsOf v 22 7 * 128 })
  | 0x05 => s.wr (Reg.MSN_VBASE_VBASE t) (bitsOf v 16 11)
  | 0x06 => s.onMason t (fun m => { m with xpc := bitsOf v 16 2 * 4 })
  | 0x07 => s.onMason t (fun m => { m with xcause := bitsOf v 23 0 })
  | 0x08 => s.onMason t (fun m => { m with xval := BitVec.ofNat 64 v })
  | 0x09 => s.onMason t (fun m => { m with xstate := bitsOf v 2 0 + bitsOf v 7 4 * 16 })
  | 0x0A => s.onMason t (fun m => { m with lbl := bitsOf v 3 0 })
  | 0x0B => s.onMason t (fun m => { m with wto := bitsOf v 31 0 })
  | 0x10 => s.onMason t (fun m => { m with tscr0 := BitVec.ofNat 64 v })
  | 0x11 => s.onMason t (fun m => { m with tscr1 := BitVec.ofNat 64 v })
  | _ => s

/-! ### Tile commands (R505, R506) -/

/-- Fields of a tile command's header. -/
def cOp (c : Nat) : Nat := bitsOf c 7 0
def cUnit (c : Nat) : Nat := bitsOf c 9 8
def cSumen (c : Nat) : Bool := bitOf c 10
def cSreg (c : Nat) : Nat := bitsOf c 14 11
def cMov (c : Nat) : Bool := bitOf c 16
def cRound (c : Nat) : Bool := bitOf c 17
def cOvf (c : Nat) : Bool := bitOf c 18
def cFmtA (c : Nat) : Nat := bitsOf c 23 20
def cFmtB (c : Nat) : Nat := bitsOf c 27 24
def cFmtD (c : Nat) : Nat := bitsOf c 31 28

/-- What the mason checks of a command at its TCMD (R506). -/
def commandOk (c unit : Nat) : Bool := cUnit c == unit && !bitOf c 19 && !bitOf c 15

end Sys2Proof.Machine
end

