-- ==== Sys2Proof/Machine/Flags.lean ====
section
/-! DEFINITION. Flags: the layout of summary registers and what BRS reads of them, branch conditions, and the flags and counts of FMT_STAT
(R471, R473, R491, R510, R511). -/
namespace Sys2Proof.Machine
open Sys2Proof

/-- A summary register's word (R510). -/
def sumWord (kind val : Nat) (any all nan pois : Bool) : Nat :=
  val % 2 ^ 32 + kind * 2 ^ 32 + bit any * 2 ^ 36 + bit all * 2 ^ 37 + bit nan * 2 ^ 38 + bit pois * 2 ^ 39

def sumVal (v : Nat) : Nat := bitsOf v 31 0
def sumKind (v : Nat) : Nat := bitsOf v 35 32

/-- Whether VAL counts as zero, negative or positive, read as KIND gives it (R511): for FP32 kinds ±0 is zero and a NaN has no sign, kinds 0x6 and
0x7 are signed, and the others unsigned. -/
def sumZero (v : Nat) : Bool := if sumKind v = 1 || sumKind v = 2 then (f32 (sumVal v)).isZero else sumVal v == 0
def sumNeg (v : Nat) : Bool :=
  if sumKind v = 1 || sumKind v = 2 then !(f32 (sumVal v)).isNan && !(f32 (sumVal v)).isZero && (f32 (sumVal v)).signBit
  else (sumKind v = 6 || sumKind v = 7) && bitOf (sumVal v) 31
def sumPos (v : Nat) : Bool :=
  if sumKind v = 1 || sumKind v = 2 then !(f32 (sumVal v)).isNan && !(f32 (sumVal v)).isZero && !(f32 (sumVal v)).signBit
  else !sumZero v && !sumNeg v

/-- The condition of a BRS on a summary register's word (R511). -/
def sumCond (cond v : Nat) : Bool :=
  match cond with
  | 0 => bitOf v 36
  | 1 => !bitOf v 36
  | 2 => bitOf v 37
  | 3 => !bitOf v 37
  | 4 => sumZero v
  | 5 => !sumZero v
  | 6 => sumNeg v
  | 7 => sumPos v
  | 8 => bitOf v 38
  | 9 => bitOf v 39
  | _ => false

/-- The condition of a BR on a register (R491). -/
def branchCond (cond v : Nat) : Bool :=
  let i := sextInt 64 v
  match cond with
  | 0 => v == 0
  | 1 => v != 0
  | 2 => decide (i < 0)
  | 3 => decide (0 ≤ i)
  | 4 => decide (i ≤ 0)
  | 5 => decide (0 < i)
  | 6 => true
  | _ => false

/-! ### FMT_STAT and FMT_CNT (R474, R480) -/

/-- The flags and counts of a list of conversions of a tile. -/
def noteConvs (t : Tile) (cs : List Conv) (s : State) : State :=
  let some' := fun (p : Conv → Bool) => cs.any p
  let s := s.when (some' (fun c => c.sat)) (fun s => s.flag (Reg.FMT_STAT_SAT t))
  let s := s.when (some' (fun c => c.infOut)) (fun s => s.flag (Reg.FMT_STAT_INFOUT t))
  let s := s.when (some' (fun c => c.nanOut)) (fun s => s.flag (Reg.FMT_STAT_NANOUT t))
  let s := s.when (some' (fun c => c.under)) (fun s => s.flag (Reg.FMT_STAT_UNDER t))
  (s.count (Reg.FMT_CNT_SATS t) (cs.filter (fun c => c.sat)).length).count (Reg.FMT_CNT_NANS t) (cs.filter (fun c => c.nanOut)).length

/-- The value of an element of a format code of R450, exactly; INT32 and FP16 included. -/
def elemFv (fmt v : Nat) : Fv :=
  match fmt with
  | 0 => fmtE4M3.dec v
  | 1 => fmtE5M2.dec v
  | 2 => fmtBF16.dec v
  | 3 => fmtFP32.dec v
  | 4 => .ofInt (sextInt 8 v)
  | 5 => .ofInt (v % 256)
  | 6 => .ofInt (sextInt 32 v)
  | _ => fmtFP16.dec v

/-- Width in bytes of an element of a format code (R443, R450). -/
def elemWidth (fmt : Nat) : Nat :=
  match fmt with
  | 0 | 1 | 4 | 5 => 1
  | 2 | 7 => 2
  | _ => 4

end Sys2Proof.Machine
end

