-- ==== Sys2Proof/Machine/Mason.lean ====
section
/-! DEFINITION. The mason's shared operations: instruction boundaries, traps, faults, completion, stopping and suspension (R484, R487, R513 to
R529), and the plain arithmetic, branch, window and system instructions. A command of this file is "tile t's mason executes the instruction
at its PC": it has an effect only where that instruction is the one the command names, or where a trap is taken instead (log entry 35). -/
namespace Sys2Proof.Machine
open Sys2Proof

/-! ### Stall reasons (R908) -/

def stallNone : Nat := 0x0
def stallLoad : Nat := 0x1
def stallAnswer : Nat := 0x2
def stallSleep : Nat := 0x3
def stallSummary : Nat := 0x7
def stallOrd : Nat := 0x8
def stallTrap : Nat := 0xA
def stallOther : Nat := 0xE

/-- The mason stalls at its instruction: nothing changes but the reason that a PC sample reads. -/
def stallMason (t : Tile) (why : Nat) (s : State) : State := s.onMason t (fun m => { m with stall := why })

/-! ### Traps (R514 to R521) -/

/-- Entry of the trap of a cause (R515). -/
def trapEntry (t : Tile) (cause sub status xpc xval : Nat) (s : State) : State :=
  let pc := vbase s t + 0x80 * cause
  let s := s.onMason t (fun m => { m with
    xstate := m.cwin + 16 * m.lbl, xpc := xpc, xcause := cause + 256 * sub + 65536 * status, xval := BitVec.ofNat 64 xval,
    trap := true, pc := pc, run := .running, blocked := none, stall := stallTrap })
  tally t 52 1 (s.count (Reg.MSN_CNT1_TRAPS t) 1)

/-- A window double fault (R521): the mason halts Faulted, both causes are recorded, and the bonds of the armed list are poisoned. TPC and TVAL of
event 0x3001 are those of the trap that was being handled (DEDUCED, log entry 36). -/
def doubleFault (t : Tile) (cause sub xpc : Nat) (s : State) : State :=
  let m := s.mason t
  let first := bitsOf m.xcause 7 0
  let s := ((s.wr (Reg.MSN_DFLT_VALID t) 1).wr (Reg.MSN_DFLT_CAUSE2 t) cause).wr (Reg.MSN_DFLT_SUB2 t) sub
  let s := ((s.wr (Reg.MSN_DFLT_CAUSE1 t) first).wr (Reg.MSN_DFLT_PC t) (bitsOf xpc 16 2)).flag (Reg.MSN_ERR_DFAULT t)
  let s := s.onMason t (fun m => { m with run := .faulted, blocked := none, stall := 0xD })
  let s := s.raise 0x3001 [t.val, first, bitsOf m.xcause 15 8, cause, sub, m.xpc, m.xval.toNat]
  tileFault t 0x7 (poisonBonds t 0x02 (s.tile t).armedBonds s)

/-- A trap of ranks 3 to 10: a double fault while T = 1 (R516). -/
def takeTrap (t : Tile) (cause sub status xpc xval : Nat) (s : State) : State :=
  if (s.mason t).trap then doubleFault t cause sub xpc s else trapEntry t cause sub status xpc xval s

/-- The causes of R514. -/
def causeOverflow : Nat := 0x01
def causeUnderflow : Nat := 0x02
def causeMemory : Nat := 0x03
def causeIllegal : Nat := 0x04
def causeLabel : Nat := 0x05
def causeTimeout : Nat := 0x06
def causeSuspend : Nat := 0x07
def causeBreak : Nat := 0x08

/-- A data memory fault of the instruction at the PC (rank 9). -/
def dataFault (t : Tile) (sub status addr : Nat) (s : State) : State := takeTrap t causeMemory sub status (s.mason t).pc addr s

/-- A deferred outcome (R520): recorded and pending, or lost where one is pending. -/
def deferFault (t : Tile) (sub status opc addr : Nat) (s : State) : State :=
  if s.isSet (Reg.MSN_OPERR_PEND t) then
    ((s.flag (Reg.MSN_OPERR_LOST t)).flag (Reg.MSN_ERR_LOST t)).raise 0x3003 [t.val, addr]
  else
    let s := ((s.wr (Reg.MSN_OPERR_PEND t) 1).wr (Reg.MSN_OPERR_STATUS t) status).wr (Reg.MSN_OPERR_OPC t) opc
    (s.wr (Reg.MSN_OPERR_SUB t) sub).wr (Reg.MSN_OPADDR_ADDR t) addr

/-- The pending deferred fault is taken (rank 2). -/
def takeDeferred (t : Tile) (s : State) : State :=
  let sub := s.rd (Reg.MSN_OPERR_SUB t)
  let status := s.rd (Reg.MSN_OPERR_STATUS t)
  let addr := s.rd (Reg.MSN_OPADDR_ADDR t)
  trapEntry t causeMemory sub status (s.mason t).pc addr (s.wr (Reg.MSN_OPERR_PEND t) 0)

/-! ### Completion -/

/-- An instruction completes and the mason goes on at `pc`. -/
def completeAt (t : Tile) (pc : Nat) (s : State) : State :=
  let s := s.onMason t (fun m => { m with pc := pc, run := .running, blocked := none, stall := stallNone })
  tally t 48 1 (s.count (Reg.MSN_CNT0_INSTR t) 1)

/-- An instruction completes and the next in line follows. -/
def complete (t : Tile) (s : State) : State := completeAt t ((s.mason t).pc + 4) s

/-- An instruction completes with a result in rd. -/
def completeWith (t : Tile) (rd v : Nat) (s : State) : State := complete t (s.putReg t rd v)

/-! ### Stopping and suspension (R526, R527) -/

/-- STOP is performed: the mason halts, each open slot is cancelled, and each Done slot freed. -/
def stopNow (t : Tile) (s : State) : State :=
  let s := s.each (slotsIn s t .opened) (fun s k => issueOp (tileBrick t) (.masonPosted t.val) (wcancelOp t k (s.slot t k).bond (labelOf (s.slot t k).lbl)) s)
  let s := s.each (slotsIn s t .done) (fun s k => s.onSlot t k (fun _ => {}))
  let s := s.onMason t (fun m => { m with run := if m.run = .faulted then .faulted else .halted, stopReq := false, stall := 0xD })
  (s.flag (Reg.MSN_ERR_STOPPED t)).raise 0x3004 [t.val, (s.mason t).pc]

/-- At an instruction boundary after a blocking operation, a STOP that waited is performed. -/
def stopIfAsked (t : Tile) (s : State) : State := if (s.mason t).stopReq then stopNow t s else s

/-- A pending suspend request is taken: the trap of cause 0x07, and the request is cleared. -/
def takeSuspend (t : Tile) (xpc : Nat) (s : State) : State :=
  trapEntry t causeSuspend 0 0 xpc 0 (s.onMason t (fun m => { m with sreq := false }))

/-- The slots that a WSL waits for: the masked ones, or its one slot (R502). -/
def wslSlots (s : State) (t : Tile) (w : Nat) : List Nat :=
  if bitOf w 5 then setBits 16 (bitsOf (s.mreg t (iRa w)) 15 0) else [bitsOf w 3 0]

/-- The slots among those that are Done. -/
def wslDone (s : State) (t : Tile) (w : Nat) : List Nat := (wslSlots s t w).filter (fun k => decide ((s.slot t k).st = .done))

/-- The word at a mason's PC. -/
def wordAt (s : State) (t : Tile) : Nat := s.num (masonStoreKey t (s.mason t).pc) 4

/-- A suspend request from SUSPREQ or from the host (R527). A mason asleep in a WSL none of whose slots is Done takes it at once. -/
def requestSuspend (t : Tile) (s : State) : State :=
  let s := s.onMason t (fun m => { m with sreq := true })
  let m := s.mason t
  if m.run = .sleeping && !m.trap && tileRuns s t && (wslDone s t (wordAt s t)).isEmpty then takeSuspend t m.pc s else s

/-! ### Instruction boundaries (R487, R516) -/

/-- Whether a hardware breakpoint matches the PC. -/
def breakpointHit (s : State) (t : Tile) : Bool :=
  (List.range 4).any (fun k => s.isSet (Reg.MSN_BKPT_EN t k) && s.rd (Reg.MSN_BKPT_PC t k) * 4 == (s.mason t).pc)

/-- The mason reaches the instruction at its PC: the instruction and its word where it executes, or the traps of ranks 2 to 5. A mason asleep in a
WSL only looks at its slots again. -/
def boundary (t : Tile) (e : MemEnv) (s : State) : Option (MOp × Nat) × State :=
  let m := s.mason t
  let asleep := decide (m.run = .sleeping)
  if !tileRuns s t || (m.run ≠ .running && !asleep) || m.blocked.isSome then (none, s) else
  if !m.trap && s.isSet (Reg.MSN_OPERR_PEND t) then (none, takeDeferred t s) else
  if !asleep && !m.trap && breakpointHit s t then (none, trapEntry t causeBreak 0 0 m.pc m.pc s) else
  if 0x20000 ≤ m.pc then (none, takeTrap t causeMemory 0x01 0 m.pc m.pc s) else
  let s := tileReports { e with storeUnc := [] } s
  if masonBad e t m.pc 4 then (none, takeTrap t causeMemory 0x02 0 m.pc m.pc s) else
  let w := wordAt s t
  match decodeMason w m.trap with
  | none => (none, takeTrap t causeIllegal 0 0 m.pc w s)
  | some op => (some (op, w), s)

/-- The mason executes the instruction at its PC if it is `op`. -/
def execute (t : Tile) (op : MOp) (e : MemEnv) (f : Nat → State → State) (s : State) : Host.Outcome State Fault Refusal :=
  match boundary t e s with
  | (none, s) => .next s
  | (some (op', w), s') => if op' = op then .next (f w s') else .next s

/-- An instruction that is illegal as it executes (rank 5). -/
def illegalNow (t : Tile) (w : Nat) (s : State) : State := takeTrap t causeIllegal 0 0 (s.mason t).pc w s

/-- Whether the current label of a tile is permitted to it (R418). -/
def labelPermitted (s : State) (t : Tile) : Bool :=
  bitOf (s.reg (Reg.LBL_PERMIT (tileBrick t) (t.val % 32 / 4))) (16 * (t.val % 4) + (s.mason t).lbl)

/-- What a request, TCMD or release does under its label: the label-violation trap where it is not permitted (R513). -/
def underLabel (t : Tile) (f : State → State) (s : State) : State :=
  if labelPermitted s t then f s else takeTrap t causeLabel 0 0 (s.mason t).pc (s.mason t).lbl s

/-! ### ALU (R491 to R493) -/

/-- A register operation: rd takes a function of RA and RB. -/
def aluR (t : Tile) (f : Nat → Nat → Nat) (w : Nat) (s : State) : State :=
  completeWith t (iRd w) (f (s.mreg t (iRa w)) (s.mreg t (iRb w))) s

/-- An immediate operation: rd takes a function of RA and the immediate. -/
def aluI (t : Tile) (f : Nat → Nat → Nat) (w : Nat) (s : State) : State :=
  completeWith t (iRd w) (f (s.mreg t (iRa w)) (iImm w)) s

/-- The low 64 bits of a number. -/
def low64 (n : Nat) : Nat := n % 2 ^ 64

/-- Arithmetic shift right of a 64-bit number. -/
def sra64 (a n : Nat) : Nat := wrapNat 64 (sextInt 64 a / 2 ^ n)

/-- A signed division that truncates toward zero, and its remainder (R493). -/
def divSigned (a b : Nat) : Nat := if b = 0 then 2 ^ 64 - 1 else wrapNat 64 (Int.tdiv (sextInt 64 a) (sextInt 64 b))
def remSigned (a b : Nat) : Nat := if b = 0 then a else wrapNat 64 (Int.tmod (sextInt 64 a) (sextInt 64 b))

/-- Leading and trailing zeros of a 64-bit number, 64 for zero (R493). -/
def clz64 (a : Nat) : Nat := if a = 0 then 64 else 63 - a.log2
def ctz64 (a : Nat) : Nat := ((List.range 64).find? (bitOf a)).getD 64

/-- A 32-bit number sign-extended to 64. -/
def sext32 (n : Nat) : Nat := wrapNat 64 (sextInt 32 n)

def execAluAdd (t : Tile) (e : MemEnv) (s : State) : Host.Outcome State Fault Refusal := ended s <| execute t .aluAdd e (aluR t (fun a b => low64 (a + b))) s
def execAluSub (t : Tile) (e : MemEnv) (s : State) : Host.Outcome State Fault Refusal := ended s <| execute t .aluSub e (aluR t (fun a b => low64 (a + 2 ^ 64 - b))) s
def execAluAnd (t : Tile) (e : MemEnv) (s : State) : Host.Outcome State Fault Refusal := ended s <| execute t .aluAnd e (aluR t Nat.land) s
def execAluOr (t : Tile) (e : MemEnv) (s : State) : Host.Outcome State Fault Refusal := ended s <| execute t .aluOr e (aluR t Nat.lor) s
def execAluXor (t : Tile) (e : MemEnv) (s : State) : Host.Outcome State Fault Refusal := ended s <| execute t .aluXor e (aluR t Nat.xor) s
def execAluAndn (t : Tile) (e : MemEnv) (s : State) : Host.Outcome State Fault Refusal := ended s <|
  execute t .aluAndn e (aluR t (fun a b => Nat.land a (2 ^ 64 - 1 - b))) s
def execAluSll (t : Tile) (e : MemEnv) (s : State) : Host.Outcome State Fault Refusal := ended s <|
  execute t .aluSll e (aluR t (fun a b => low64 (a * 2 ^ bitsOf b 5 0))) s
def execAluSrl (t : Tile) (e : MemEnv) (s : State) : Host.Outcome State Fault Refusal := ended s <|
  execute t .aluSrl e (aluR t (fun a b => a / 2 ^ bitsOf b 5 0)) s
def execAluSra (t : Tile) (e : MemEnv) (s : State) : Host.Outcome State Fault Refusal := ended s <|
  execute t .aluSra e (aluR t (fun a b => sra64 a (bitsOf b 5 0))) s
def execAluMul (t : Tile) (e : MemEnv) (s : State) : Host.Outcome State Fault Refusal := ended s <| execute t .aluMul e (aluR t (fun a b => low64 (a * b))) s
def execAluMulh (t : Tile) (e : MemEnv) (s : State) : Host.Outcome State Fault Refusal := ended s <|
  execute t .aluMulh e (aluR t (fun a b => wrapNat 64 (sextInt 64 a * sextInt 64 b / 2 ^ 64))) s
def execAluMulhu (t : Tile) (e : MemEnv) (s : State) : Host.Outcome State Fault Refusal := ended s <|
  execute t .aluMulhu e (aluR t (fun a b => a * b / 2 ^ 64)) s
def execAluDiv (t : Tile) (e : MemEnv) (s : State) : Host.Outcome State Fault Refusal := ended s <| execute t .aluDiv e (aluR t divSigned) s
def execAluDivu (t : Tile) (e : MemEnv) (s : State) : Host.Outcome State Fault Refusal := ended s <|
  execute t .aluDivu e (aluR t (fun a b => if b = 0 then 2 ^ 64 - 1 else a / b)) s
def execAluRem (t : Tile) (e : MemEnv) (s : State) : Host.Outcome State Fault Refusal := ended s <| execute t .aluRem e (aluR t remSigned) s
def execAluRemu (t : Tile) (e : MemEnv) (s : State) : Host.Outcome State Fault Refusal := ended s <|
  execute t .aluRemu e (aluR t (fun a b => if b = 0 then a else a % b)) s
def execAluCmpeq (t : Tile) (e : MemEnv) (s : State) : Host.Outcome State Fault Refusal := ended s <|
  execute t .aluCmpeq e (aluR t (fun a b => bit (a == b))) s
def execAluCmplt (t : Tile) (e : MemEnv) (s : State) : Host.Outcome State Fault Refusal := ended s <|
  execute t .aluCmplt e (aluR t (fun a b => bit (decide (sextInt 64 a < sextInt 64 b)))) s
def execAluCmpltu (t : Tile) (e : MemEnv) (s : State) : Host.Outcome State Fault Refusal := ended s <|
  execute t .aluCmpltu e (aluR t (fun a b => bit (decide (a < b)))) s
def execAluMin (t : Tile) (e : MemEnv) (s : State) : Host.Outcome State Fault Refusal := ended s <|
  execute t .aluMin e (aluR t (fun a b => if sextInt 64 b < sextInt 64 a then b else a)) s
def execAluMax (t : Tile) (e : MemEnv) (s : State) : Host.Outcome State Fault Refusal := ended s <|
  execute t .aluMax e (aluR t (fun a b => if sextInt 64 a < sextInt 64 b then b else a)) s
def execAluMinu (t : Tile) (e : MemEnv) (s : State) : Host.Outcome State Fault Refusal := ended s <| execute t .aluMinu e (aluR t min) s
def execAluMaxu (t : Tile) (e : MemEnv) (s : State) : Host.Outcome State Fault Refusal := ended s <| execute t .aluMaxu e (aluR t max) s
def execAluClz (t : Tile) (e : MemEnv) (s : State) : Host.Outcome State Fault Refusal := ended s <| execute t .aluClz e (aluR t (fun a _ => clz64 a)) s
def execAluCtz (t : Tile) (e : MemEnv) (s : State) : Host.Outcome State Fault Refusal := ended s <| execute t .aluCtz e (aluR t (fun a _ => ctz64 a)) s
def execAluPopc (t : Tile) (e : MemEnv) (s : State) : Host.Outcome State Fault Refusal := ended s <| execute t .aluPopc e (aluR t (fun a _ => popcount 64 a)) s
def execAluAddw (t : Tile) (e : MemEnv) (s : State) : Host.Outcome State Fault Refusal := ended s <| execute t .aluAddw e (aluR t (fun a b => sext32 (a + b))) s
def execAluSubw (t : Tile) (e : MemEnv) (s : State) : Host.Outcome State Fault Refusal := ended s <|
  execute t .aluSubw e (aluR t (fun a b => sext32 (a + 2 ^ 64 - b))) s
def execAddi (t : Tile) (e : MemEnv) (s : State) : Host.Outcome State Fault Refusal := ended s <| execute t .addi e (aluI t (fun a i => addSigned a 16 i)) s
def execAndi (t : Tile) (e : MemEnv) (s : State) : Host.Outcome State Fault Refusal := ended s <| execute t .andi e (aluI t Nat.land) s
def execOri (t : Tile) (e : MemEnv) (s : State) : Host.Outcome State Fault Refusal := ended s <| execute t .ori e (aluI t Nat.lor) s
def execXori (t : Tile) (e : MemEnv) (s : State) : Host.Outcome State Fault Refusal := ended s <| execute t .xori e (aluI t Nat.xor) s
def execShiSll (t : Tile) (e : MemEnv) (s : State) : Host.Outcome State Fault Refusal := ended s <|
  execute t .shiSll e (aluI t (fun a i => low64 (a * 2 ^ bitsOf i 5 0))) s
def execShiSrl (t : Tile) (e : MemEnv) (s : State) : Host.Outcome State Fault Refusal := ended s <|
  execute t .shiSrl e (aluI t (fun a i => a / 2 ^ bitsOf i 5 0)) s
def execShiSra (t : Tile) (e : MemEnv) (s : State) : Host.Outcome State Fault Refusal := ended s <|
  execute t .shiSra e (aluI t (fun a i => sra64 a (bitsOf i 5 0))) s

/-- MOVW (R491): the immediate in halfword H = RA[1:0]. -/
def execMovw (t : Tile) (e : MemEnv) (s : State) : Host.Outcome State Fault Refusal := ended s <|
  execute t .movw e (fun w s => completeWith t (iRd w) (iImm w * 2 ^ (16 * bitsOf w 17 16)) s) s

/-- MOVK (R491): the immediate into halfword H of rd, the other bits kept. -/
def execMovk (t : Tile) (e : MemEnv) (s : State) : Host.Outcome State Fault Refusal := ended s <|
  execute t .movk e (fun w s =>
    let h := 16 * bitsOf w 17 16
    completeWith t (iRd w) (withBits (s.mreg t (iRd w)) (h + 15) h (iImm w)) s) s

/-! ### Branches and jumps (R491, R511) -/

/-- A PC plus a signed number of words, modulo 2^64. -/
def pcPlus (pc n f : Nat) : Nat := wrapNat 64 ((pc : Int) + 4 * sextInt n f)

/-- BR (R491). -/
def execBr (t : Tile) (e : MemEnv) (s : State) : Host.Outcome State Fault Refusal := ended s <|
  execute t .br e (fun w s =>
    let pc := (s.mason t).pc
    completeAt t (if branchCond (iRd w) (s.mreg t (iRa w)) then pcPlus pc 16 (iImm w) else pc + 4) s) s

/-- BRS (R511, R512): stalls while its summary register is pending. -/
def execBrs (t : Tile) (e : MemEnv) (s : State) : Host.Outcome State Fault Refusal := ended s <|
  execute t .brs e (fun w s =>
    let m := s.mason t
    let k := bitsOf w 19 16
    if 0 < m.pending k then stallMason t stallSummary s else
    completeAt t (if sumCond (iRd w) (tabGet 0 m.sums k).toNat then pcPlus m.pc 16 (iImm w) else m.pc + 4) s) s

/-- CALL (R491): h0 takes the return address. -/
def execCall (t : Tile) (e : MemEnv) (s : State) : Host.Outcome State Fault Refusal := ended s <|
  execute t .call e (fun w s =>
    let pc := (s.mason t).pc
    completeAt t (pcPlus pc 26 (bitsOf w 25 0)) (s.putReg t 24 (pc + 4))) s

/-- JLNK (R491): rd takes the return address; the target's low two bits are dropped (DEDUCED from R487). -/
def execJlnk (t : Tile) (e : MemEnv) (s : State) : Host.Outcome State Fault Refusal := ended s <|
  execute t .jlnk e (fun w s =>
    let pc := (s.mason t).pc
    completeAt t (addSigned (s.mreg t (iRa w)) 16 (iImm w) / 4 * 4) (s.putReg t (iRd w) (pc + 4))) s

/-! ### Windows (R484, R485) -/

/-- ENTER (R484): the value is computed in the old window and written in the new one. -/
def execEnter (t : Tile) (e : MemEnv) (s : State) : Host.Outcome State Fault Refusal := ended s <|
  execute t .enter e (fun w s =>
    let m := s.mason t
    if m.res = 6 then takeTrap t causeOverflow 0 0 m.pc 0 s else
    let v := addSigned (s.mreg t (iRa w)) 16 (iImm w)
    completeWith t (iRd w) v (s.onMason t (fun m => { m with cwin := (m.cwin + 1) % 7, res := m.res + 1 }))) s

/-- LEAVE (R484): with one resident frame an underflow, or an illegal instruction at root. -/
def execLeave (t : Tile) (e : MemEnv) (s : State) : Host.Outcome State Fault Refusal := ended s <|
  execute t .leave e (fun w s =>
    let m := s.mason t
    if m.res = 1 then (if m.nspill = 0 then illegalNow t w s else takeTrap t causeUnderflow 0 0 m.pc 0 s) else
    let v := addSigned (s.mreg t (iRa w)) 16 (iImm w)
    completeWith t (iRd w) v (s.onMason t (fun m => { m with cwin := (m.cwin + 6) % 7, res := m.res - 1 }))) s

/-- The ring window that a handler works from: XSTATE.CWIN, since T = 1 (R484). -/
def savedWindow (m : Mason) : Nat := bitsOf m.xstate 2 0

/-- SPILLW (R484, R485): the oldest resident frame goes to the spill stack. A spill that the bounds or RES do not allow is a double fault with
subcause 0x0C (DEDUCED for RES, log entry 37). -/
def execSpillw (t : Tile) (e : MemEnv) (s : State) : Host.Outcome State Fault Refusal := ended s <|
  execute t .spillw e (fun _ s =>
    let m := s.mason t
    if m.res = 1 || s.rd (Reg.MSN_SSPHI_HI t) * 128 < m.ssp + 128 then doubleFault t causeMemory 0x0C m.pc s else
    let f := (savedWindow m + 8 - m.res) % 7
    let frame := (List.range 16).flatMap (fun i => leBytes 8 (tabGet 0 m.regs (frameIndex f i)).toNat)
    let s := storePut t m.ssp frame false s
    complete t (s.onMason t (fun m => { m with ssp := m.ssp + 128, nspill := m.nspill + 1, res := m.res - 1 }))) s

/-- FILLW (R484, R485): a frame comes back from the spill stack; an uncorrectable read is a double fault with subcause 0x0D (DEDUCED). -/
def execFillw (t : Tile) (e : MemEnv) (s : State) : Host.Outcome State Fault Refusal := ended s <|
  execute t .fillw e (fun _ s =>
    let m := s.mason t
    if m.res = 6 || m.nspill = 0 || m.ssp < s.rd (Reg.MSN_SSPLO_LO t) * 128 + 128 then doubleFault t causeMemory 0x0C m.pc s else
    let ssp := m.ssp - 128
    let s := tileReports { e with masonUnc := [], masonCorr := [] } s
    if storeMarked s t ssp 128 then doubleFault t causeMemory 0x0D m.pc s else
    let f := (savedWindow m + 14 - m.res) % 7
    let frame := storeBytes s t ssp 128
    let s := s.onMason t (fun m => { m with
      ssp := ssp, nspill := m.nspill - 1, res := m.res + 1,
      regs := (List.range 16).foldl (fun r i => tabSet 0 r (frameIndex f i) (BitVec.ofNat 64 (leNat ((frame.drop (8 * i)).take 8)))) m.regs })
    complete t s) s

/-! ### System instructions (R494) -/

/-- NOP. -/
def execNop (t : Tile) (e : MemEnv) (s : State) : Host.Outcome State Fault Refusal := ended s <| execute t .nop e (fun _ s => complete t s) s

/-- YLD (R527): a pending suspend request is taken with T = 0. -/
def execYld (t : Tile) (e : MemEnv) (s : State) : Host.Outcome State Fault Refusal := ended s <|
  execute t .yld e (fun _ s =>
    let s := complete t s
    let m := s.mason t
    if m.sreq && !m.trap then takeSuspend t m.pc s else s) s

/-- BRK (R494). -/
def execBrk (t : Tile) (e : MemEnv) (s : State) : Host.Outcome State Fault Refusal := ended s <|
  execute t .brk e (fun w s => takeTrap t causeBreak 0 0 (s.mason t).pc (iRd w) s) s

/-- HALT (R494). -/
def execHalt (t : Tile) (e : MemEnv) (s : State) : Host.Outcome State Fault Refusal := ended s <|
  execute t .halt e (fun _ s => (complete t s).onMason t (fun m => { m with run := .halted, stall := 0xD })) s

/-- SRD (R486). -/
def execSrd (t : Tile) (e : MemEnv) (s : State) : Host.Outcome State Fault Refusal := ended s <|
  execute t .srd e (fun w s => completeWith t (iRd w) (specialGet s t (iRa w)) s) s

/-- SWR (R486). -/
def execSwr (t : Tile) (e : MemEnv) (s : State) : Host.Outcome State Fault Refusal := ended s <|
  execute t .swr e (fun w s => complete t (specialPut t (iRd w) (s.mreg t (iRa w)) s)) s

/-- XRET (R522). A saved CWIN of 7, which no trap saves, counts as window 0 (DESIGN CHOICE, log entry 38). -/
def execXret (t : Tile) (e : MemEnv) (s : State) : Host.Outcome State Fault Refusal := ended s <|
  execute t .xret e (fun _ s =>
    let m := s.mason t
    completeAt t m.xpc (s.onMason t (fun m => { m with cwin := savedWindow m % 7, lbl := bitsOf m.xstate 7 4, trap := false }))) s

/-- SUSP (R528). -/
def execSusp (t : Tile) (e : MemEnv) (s : State) : Host.Outcome State Fault Refusal := ended s <|
  execute t .susp e (fun _ s => (complete t s).onMason t (fun m => { m with run := .suspended, stall := 0xC })) s

/-! ### MSN_CTL (R524 to R528, R535) -/

/-- START (R524): only in Idle or Halted, and never while the tile is fenced (R848). What a deferred outcome recorded before is dropped (DEDUCED,
log entry 39). -/
def startMason (t : Tile) (s : State) : State :=
  let m := s.mason t
  if (m.run ≠ .idle && m.run ≠ .halted) || tileFenced s t || !tileServes s t then s else
  let ssp := s.rd (Reg.MSN_SSPLO_LO t) * 128
  let lbl := s.rd (Reg.MSN_CTL_LBLINIT t)
  let pc := s.rd (Reg.MSN_ENTRY_PC t) * 4
  let s := s.onMason t (fun m => { m with
    cwin := 0, res := 1, nspill := 0, ssp := ssp, trap := false, lbl := lbl, pc := pc, run := .running, stopReq := false,
    tccnt := if m.run = .idle then 0 else m.tccnt, stall := stallNone })
  fullAcquire t (s.wr (Reg.MSN_OPERR_PEND t) 0)

/-- START. -/
def execMasonStart (t : Tile) (s : State) : Host.Outcome State Fault Refusal := ended s <| .next (startMason t s)

/-- STOP (R526): at an instruction boundary, which is now unless a blocking operation is in progress. It does nothing in Idle; in Halted and Faulted
it frees the slots (DEDUCED, log entry 40). -/
def stopMason (t : Tile) (s : State) : State :=
  let m := s.mason t
  if m.run = .idle || !tileServes s t || tileFenced s t then s else
  if m.blocked.isSome then s.onMason t (fun m => { m with stopReq := true }) else stopNow t s

/-- STOP. -/
def execMasonStop (t : Tile) (s : State) : Host.Outcome State Fault Refusal := ended s <| .next (stopMason t s)

/-- SUSPREQ (R527). -/
def execSuspreq (t : Tile) (s : State) : Host.Outcome State Fault Refusal := ended s <|
  if tileServes s t then .next (requestSuspend t s) else .next s

/-- RESUME (R528): only in Suspended. -/
def resumeMason (t : Tile) (s : State) : State :=
  if (s.mason t).run = .suspended && tileServes s t then s.onMason t (fun m => { m with run := .running, stall := stallNone }) else s

/-- RESUME. -/
def execMasonResume (t : Tile) (s : State) : Host.Outcome State Fault Refusal := ended s <| .next (resumeMason t s)

/-- CLRFLT (R535): Faulted becomes Halted and MSN_DFLT is cleared; a fenced tile stays Faulted (R848). -/
def execClrflt (t : Tile) (s : State) : Host.Outcome State Fault Refusal := ended s <|
  if (s.mason t).run = .faulted && !tileFenced s t && tileServes s t then
    .next ((s.onMason t (fun m => { m with run := .halted })).setReg (Reg.MSN_DFLT t) 0)
  else .next s

end Sys2Proof.Machine
end

