-- ==== Sys2Proof/Machine/MasonMem.lean ====
section
/-! DEFINITION. The mason's memory, atomic, bond, ordering and tile-command instructions, and the outcomes of its operations (R495 to R512, R518
to R520). -/
namespace Sys2Proof.Machine
open Sys2Proof

/-! ### Own slot -/

/-- The offset within the tile's own region 0x8 slot that an address names, if it names it (R497). -/
def ownOffset (s : State) (t : Tile) (a : Nat) : Option Nat :=
  if s.realSeat a = s.ownSeatNo && addrRegion a = 0x8 && addrOffset a / 0x800000 = t.val then some (addrOffset a % 0x800000) else none

/-- Whether the region keys grant the tile's own access to its slot; a refusal is recorded (R867). -/
def ownKey (t : Tile) (right opc a n : Nat) (s : State) : Bool × State :=
  let w := s.own (s.mason t).lbl
  if keyGrants s w right 0x8 (addrOffset a) n none then (true, s) else (false, keyViolation w opc a s)

/-! ### Blocking -/

/-- A blocking operation begins: its number, and the state in which the mason waits for it. -/
def block (t : Tile) (why : Nat) (f : Nat → Blocked) (s : State) : Nat × State :=
  let n := (s.mason t).blockNo
  (n, s.onMason t (fun m => { m with blockNo := n + 1, blocked := some (f n), stall := why }))

/-- An operation of a tile's mason under its current label. -/
def masonOp (s : State) (t : Tile) (a opc aux : Nat) (payload : Bytes) : Op :=
  { addr := BitVec.ofNat 64 a, opc := BitVec.ofNat 8 opc, aux := BitVec.ofNat 8 aux, lbl := labelOf (s.mason t).lbl, size := payload.length,
    payload := payload }

/-- The subcause of an outcome that is a fault (R518), by its kind and status. -/
def faultSub (kind : Outcome57) : Nat :=
  match kind with
  | .completed => 0x08
  | .rejected => 0x04
  | .unsettled => 0x05
  | .unreachable => 0x06
  | .inDoubt => 0x07

/-- A request of the mason issued where its tile → uncore queue has room; the mason stalls otherwise (R191). -/
def whenRoom (t : Tile) (f : State → State) (s : State) : State := if queueFull s t then stallMason t stallOther s else f s

/-! ### LD and ST (R495 to R497) -/

/-- The value that loaded bytes put into rd (R495). -/
def loadedValue (bytes : Nat) (signed : Bool) (d : Bytes) : Nat :=
  let v := leNat (d.take bytes)
  if signed then wrapNat 64 (sextInt (8 * bytes) v) else v

/-- Whether a location is homed outside a tile's brick, in the regions that copies hold (R219). -/
def copyable (s : State) (t : Tile) (a : Nat) : Bool :=
  decide (addrRegion a ≤ 0x8) && !(s.realSeat a = s.ownSeatNo && destBrick a = some (tileBrick t))

/-- Whether a store of a tile of a brick to a line has no outcome yet. A load issued then fills no copy, so that no copy holds a value older than a store
that its brick issued before (R227, R942; DEDUCED, log entry 209). -/
def storeInFlight (s : State) (b : Brick) (line : Nat) : Bool :=
  let hit := fun (i : Issuer) (op : Op) => (issuerTile i).isSome && op.opc == 0x02 && lineMeets line (s.canon op.addr.toNat) op.size
  let B := s.brick b
  B.srcFlows.any (fun f => f.ops.any (fun o => hit o.issuer o.op)) || B.waitOps.any (fun w => hit w.issuer w.op)

/-- LD (R495, R497): the tile's own slot is read at once, a copy may serve, and any other load goes out and blocks. -/
def execLd (t : Tile) (e : MemEnv) (s : State) : Host.Outcome State Fault Refusal := ended s <|
  execute t .ld e (fun w s =>
    let a := addSigned (s.mreg t (iRa w)) 12 (bitsOf w 11 0)
    let code := bitsOf w 15 13
    let bytes := 2 ^ (code / 2)
    let signed := code < 6 && code % 2 == 0
    underLabel t (fun s =>
      if a % bytes ≠ 0 then dataFault t 0x03 0 a s else
      match ownOffset s t a with
      | some off =>
        let (ok, s) := ownKey t rightLD 0x01 a bytes s
        if !ok then dataFault t 0x04 0x02 a s else
        let unc := e.storeUnc.any (fun u => u.1 = t.val && (wordsOf off bytes).contains (u.2 / 8))
        let (r, s) := slotLoad t off bytes e s
        match r.1 with
        | 0x00 => tally t 53 bytes (completeWith t (iRd w) (loadedValue bytes signed r.2) s)
        | 0x41 => dataFault t (if unc then 0x0D else 0x08) 0x41 a s
        | st => dataFault t 0x04 st a s
      | none =>
        let bypass := bitOf w 12
        match (if bypass || !copyable s t a then none else copyServes t (s.canon a) bytes s) with
        | some d => tally t 53 bytes (completeWith t (iRd w) (loadedValue bytes signed d) s)
        | none => whenRoom t (fun s =>
          let line := lineOf (s.canon a)
          let b := tileBrick t
          let (n, s) := block t stallLoad (fun n => .load n (iRd w) bytes signed a) s
          let s := if bypass || !copyable s t a || storeInFlight s b line then s
            else s.onBrick b (fun B => { B with fills := B.fills ++ [{ tile := t.val, line := line, stamp := B.acquire, no := n, stale := false }] })
          issueOp b (.masonLoad t.val n) { masonOp s t a 0x01 0 [] with size := bytes } s) s) s) s

/-- ST (R496, R497): posted. -/
def execSt (t : Tile) (e : MemEnv) (s : State) : Host.Outcome State Fault Refusal := ended s <|
  execute t .st e (fun w s =>
    let a := addSigned (s.mreg t (iRa w)) 12 (bitsOf w 11 0)
    let bytes := 2 ^ bitsOf w 15 14
    let d := leBytes bytes (s.mreg t (iRd w))
    underLabel t (fun s =>
      if a % bytes ≠ 0 then dataFault t 0x03 0 a s else
      match ownOffset s t a with
      | some off =>
        let (ok, s) := ownKey t rightST 0x02 a bytes s
        let (r, s) := if ok then slotStore t off d true s else (((0x02, []) : Reply), s)
        let s := if r.1 = 0x00 then s else deferFault t (if r.1 = 0x40 then 0x08 else 0x04) r.1 0x02 a s
        tally t 54 bytes (complete t s)
      | none => whenRoom t (fun s =>
        let s := issueOp (tileBrick t) (.masonPosted t.val) (masonOp s t a 0x02 0 d) s
        tally t 54 bytes (complete t s)) s) s) s

/-! ### ATOM (R498) -/

/-- ATOM: class 0x1 blocks and writes the old value; class 0x2 is posted. An ATOM on the tile's own slot is rejected inside the tile (R44, R497). -/
def execAtom (t : Tile) (e : MemEnv) (s : State) : Host.Outcome State Fault Refusal := ended s <|
  execute t .atom e (fun w s =>
    let a := s.mreg t (iRa w)
    let opc := atomOpc w
    let fmt := bitsOf w 5 3
    let wd := (fmtWidth fmt).getD 8
    let v := leBytes wd (s.mreg t (iRb w))
    let d := if opc = 0x12 then leBytes wd (s.mreg t (iRd w)) ++ v else v
    underLabel t (fun s =>
      if a % wd ≠ 0 then dataFault t 0x03 0 a s else
      match ownOffset s t a with
      | some _ =>
        let s := tally t 55 1 s
        let (ok, s) := ownKey t rightAT opc a wd s
        let st := if ok then 0x01 else 0x02
        if opc < 0x20 then dataFault t 0x04 st a s else complete t (deferFault t 0x04 st opc a s)
      | none => whenRoom t (fun s =>
        let s := tally t 55 1 s
        if opc < 0x20 then
          let (n, s) := block t stallAnswer (fun n => .atom n (iRd w) wd a) s
          issueOp (tileBrick t) (.masonLoad t.val n) (masonOp s t a opc fmt d) s
        else
          complete t (issueOp (tileBrick t) (.masonPosted t.val) (masonOp s t a opc fmt d) s)) s) s) s

/-! ### BOND (R499 to R501) -/

/-- The payload of a bond operation (R249): `x` is RB, `slot` FN[6:3], `mode` FN[2:0]. -/
def bondPayload (t : Tile) (opc x slot mode wto : Nat) : Bytes :=
  let who := [BitVec.ofNat 8 t.val, BitVec.ofNat 8 slot]
  match opc with
  | 0x31 => leBytes 8 x
  | 0x32 | 0x33 => leBytes 8 x ++ who ++ [0, 0] ++ leBytes 4 wto
  | 0x34 | 0x35 => leBytes 8 x ++ [BitVec.ofNat 8 mode]
  | 0x36 => leBytes 8 0 ++ who ++ [0, 0] ++ leBytes 4 wto
  | 0x37 => leBytes 8 0 ++ who
  | 0x38 | 0x39 => leBytes 8 0 ++ [BitVec.ofNat 8 t.val]
  | _ => [0x01]

/-- The bond that a location names, as a tile's lists keep it: by its address with own seat 0xFFFF (R36, R261, R267). -/
def bondName (s : State) (a : Word) : Word := BitVec.ofNat 64 (s.canon a.toNat)

/-- The bond a SIGADD enters in the tile's signal log (R267). -/
def logSignal (t : Tile) (a : Word) (s : State) : State :=
  let a := bondName s a
  s.onTile t (fun T =>
    if T.sigLog.contains a then T
    else if T.sigLog.length < 256 then { T with sigLog := T.sigLog ++ [a] }
    else { T with sigOver := true })

/-- Whether every earlier command of the units in a mask has completed (R503, R508). -/
def unitsIdle (s : State) (t : Tile) (mask : Nat) : Bool :=
  let T := s.tile t
  (!bitOf mask 0 || (T.press.queue.isEmpty && T.press.run.isNone)) &&
  (!bitOf mask 1 || (T.glaze.queue.isEmpty && T.glaze.run.isNone)) &&
  (!bitOf mask 2 || (T.sieve.queue.isEmpty && T.sieve.run.isNone))

/-- The result of a bond operation on its tile (R261, R501): WCANCEL frees its slot, ARMSIG and DISARM keep the local armed list. -/
def bondEffect (t : Tile) (opc slot : Nat) (a : Word) (status : Nat) (s : State) : State :=
  if status ≠ 0 then s else
  let a := bondName s a
  match opc with
  | 0x37 => s.onSlot t slot (fun _ => {})
  | 0x38 => s.onTile t (fun T => { T with armedBonds := if T.armedBonds.contains a then T.armedBonds else T.armedBonds ++ [a] })
  | 0x39 => s.onTile t (fun T => { T with armedBonds := T.armedBonds.filter (fun x => x ≠ a) })
  | _ => s

/-- Whether a status is a normal result of a bond instruction (R500). -/
def bondNormal (opc status : Nat) : Bool := status == 0 || status == 0x20 || status == 0x21 || ((opc == 0x36 || opc == 0x37) && status == 0x14)

/-- The bonds in a tile's local armed list, with those whose ARMSIG has not been answered (R261; DEDUCED, log entry 210: they count, so that the list
never passes its 16 bonds). -/
def armedOrAsked (s : State) (t : Tile) : List Word :=
  let B := s.brick (tileBrick t)
  let mine := fun (i : Issuer) (op : Op) => op.opc == 0x38 && ownTile i == some t.val
  let asked := (B.srcFlows.flatMap (fun f => (f.ops.filter (fun o => mine o.issuer o.op)).map (fun o => o.op))) ++
    ((B.waitOps.filter (fun w => mine w.issuer w.op)).map (fun w => w.op)) ++ ((s.results.filter (fun r => mine r.issuer r.op)).map (fun r => r.op))
  ((s.tile t).armedBonds ++ asked.map (fun op => bondName s op.addr)).eraseDups

/-- A bond instruction (R499, R500). A WAIT to a slot that is not Free, and an ARMSIG when the local armed list is full, are data memory faults and
send nothing (R261, R501). SIGADD and RESET are releases: the mason waits for earlier tile commands that may still send requests (R508, DESIGN
CHOICE, log entry 33), and the operation leaves when its drain has ended (R230). -/
def bondInstr (t : Tile) (opc : Nat) (w : Nat) (s : State) : State :=
  let a := s.mreg t (iRa w)
  let slot := bitsOf w 6 3
  let mode := bitsOf w 2 0
  let op := masonOp s t a opc 0 (bondPayload t opc (s.mreg t (iRb w)) slot mode (s.mason t).wto)
  let release := opc = 0x31 || opc = 0x35
  let wait := opc = 0x32 || opc = 0x33
  underLabel t (fun s =>
    if wait && (s.slot t slot).st ≠ .free then
      dataFault t 0x0B 0x13 a (s.onMason t (fun m => { m with bstat := 0x13 }))
    else if opc = 0x38 && 16 ≤ (armedOrAsked s t).length && !(armedOrAsked s t).contains (bondName s op.addr) then
      dataFault t 0x0B 0x15 a (s.onMason t (fun m => { m with bstat := 0x15 }))
    else if queueFull s t || (release && !unitsIdle s t 4) then stallMason t stallOther s
    else
      let s := tally t 56 1 s
      let s := if opc = 0x31 then logSignal t op.addr s else s
      let s := if wait then s.onSlot t slot (fun _ => { st := .opened, bond := op.addr, lbl := op.lbl.val }) else s
      let blocks := wait || opc = 0x34 || iRd w ≠ 0
      let (issuer, s) :=
        if blocks then
          let (n, s) := block t stallAnswer (fun n => .bond n (iRd w) opc slot mode a) s
          ((if wait then Issuer.masonWait t.val slot n else .masonLoad t.val n), s)
        else (.masonPosted t.val, complete t s)
      if release then beginRelease t op false [] issuer s else issueOp (tileBrick t) issuer op s) s

def execBopSigadd (t : Tile) (e : MemEnv) (s : State) : Host.Outcome State Fault Refusal := ended s <| execute t .bopSigadd e (bondInstr t 0x31) s
def execBopWaitge (t : Tile) (e : MemEnv) (s : State) : Host.Outcome State Fault Refusal := ended s <| execute t .bopWaitge e (bondInstr t 0x32) s
def execBopWaiteq (t : Tile) (e : MemEnv) (s : State) : Host.Outcome State Fault Refusal := ended s <| execute t .bopWaiteq e (bondInstr t 0x33) s
def execBopTest (t : Tile) (e : MemEnv) (s : State) : Host.Outcome State Fault Refusal := ended s <| execute t .bopTest e (bondInstr t 0x34) s
def execBopReset (t : Tile) (e : MemEnv) (s : State) : Host.Outcome State Fault Refusal := ended s <| execute t .bopReset e (bondInstr t 0x35) s
def execBopArmto (t : Tile) (e : MemEnv) (s : State) : Host.Outcome State Fault Refusal := ended s <| execute t .bopArmto e (bondInstr t 0x36) s
def execBopWcancel (t : Tile) (e : MemEnv) (s : State) : Host.Outcome State Fault Refusal := ended s <| execute t .bopWcancel e (bondInstr t 0x37) s
def execBopArmsig (t : Tile) (e : MemEnv) (s : State) : Host.Outcome State Fault Refusal := ended s <| execute t .bopArmsig e (bondInstr t 0x38) s
def execBopDisarm (t : Tile) (e : MemEnv) (s : State) : Host.Outcome State Fault Refusal := ended s <| execute t .bopDisarm e (bondInstr t 0x39) s
def execBopPoison (t : Tile) (e : MemEnv) (s : State) : Host.Outcome State Fault Refusal := ended s <| execute t .bopPoison e (bondInstr t 0x3A) s

/-! ### Outcomes of the mason's operations -/

/-- The first result for an issuer that satisfies a test, and the state without it. -/
def takeResult (p : Issuer → Bool) (s : State) : Option (Result × State) :=
  match s.results.find? (fun r => p r.issuer) with
  | none => none
  | some r => some (r, { s with results := s.results.erase r })

/-- Whether an issuer is blocking operation `n` of a tile. -/
def isBlocking (t : Tile) (n : Nat) : Issuer → Bool
  | .masonLoad u m => u == t.val && m == n
  | .masonWait u _ m => u == t.val && m == n
  | _ => false

/-- Whether an issuer is any blocking operation of a tile. -/
def anyBlocking (t : Tile) : Issuer → Bool
  | .masonLoad u _ => u == t.val
  | .masonWait u _ _ => u == t.val
  | _ => false

/-- The number of the operation a mason waits for. -/
def Blocked.number : Blocked → Nat
  | .load n _ _ _ _ => n
  | .atom n _ _ _ => n
  | .bond n _ _ _ _ _ => n
  | .rel n _ => n

/-- What the result of a mason's blocking operation does to it (R495, R498, R500, R503, R518). -/
def unblock (t : Tile) (b : Blocked) (r : Result) (s : State) : State :=
  let s := s.onMason t (fun m => { m with blocked := none })
  match b with
  | .load _ rd bytes signed a =>
    if r.kind = .completed && r.status = 0 then tally t 53 bytes (completeWith t rd (loadedValue bytes signed r.data) s)
    else dataFault t (faultSub r.kind) r.status a s
  | .atom _ rd bytes a =>
    if r.kind = .completed && r.status = 0 then completeWith t rd (leNat (r.data.take bytes)) s
    else dataFault t (faultSub r.kind) r.status a s
  | .rel _ a =>
    if r.kind = .completed then complete t s else dataFault t (faultSub r.kind) r.status a s
  | .bond _ rd opc slot mode a =>
    let answered := decide (r.kind = .completed ∨ r.kind = .rejected)
    let s := if answered then s.onMason t (fun m => { m with bstat := r.status }) else s
    if answered && bondNormal opc r.status then
      let s := bondEffect t opc slot r.op.addr r.status s
      let s := if opc = 0x34 && mode ≠ 0 && r.status = 0 then fullAcquire t s else s
      completeWith t rd (leNat (r.data.take 8)) s
    else dataFault t (faultSub r.kind) r.status a s

/-- MASON_LOAD_RETURN (R495, R519, R526): the result of the operation a mason waits for arrives; a result of a blocking operation that no mason
waits for any more is discarded. A STOP that waited for it is performed then. -/
def execMasonLoadReturn (t : Tile) (s : State) : Host.Outcome State Fault Refusal := ended s <|
  match (s.mason t).blocked with
  | none =>
    match takeResult (anyBlocking t) s with
    | none => .next s
    | some (_, s) => .next s
  | some b =>
    match takeResult (isBlocking t b.number) s with
    | some (r, s) => .next (stopIfAsked t (unblock t b r s))
    | none =>
      match takeResult (anyBlocking t) s with
      | none => .next s
      | some (_, s) => .next s

/-- POSTED_OUTCOME (R500, R520, R532): an outcome of a posted operation that did not succeed is recorded. A mason asleep with T = 0 takes it at once. A
fenced tile discards it (R848). An operation reported as still in doubt is recorded with subcause 0x07 (DEDUCED, log entry 41). -/
def execPostedOutcome (t : Tile) (s : State) : Host.Outcome State Fault Refusal := ended s <|
  match takeResult (fun i => decide (i = .masonPosted t.val)) s with
  | none => .next s
  | some (r, s) =>
    if tileFenced s t then .next s else
    let opc := r.op.opc.toNat
    let answered := decide (r.kind = .completed ∨ r.kind = .rejected)
    let isBond := opc / 16 = 3
    let s := if isBond && answered then s.onMason t (fun m => { m with bstat := r.status }) else s
    if answered && (if isBond then bondNormal opc r.status else r.status = 0) then
      .next (bondEffect t opc (byteAt r.op.payload 9) r.op.addr r.status s)
    else
      let s := deferFault t (faultSub r.kind) r.status opc r.op.addr.toNat s
      let m := s.mason t
      .next (if m.run = .sleeping && !m.trap && tileRuns s t then takeDeferred t s else s)

/-! ### ORD (R503) -/

/-- Whether a range lies in one region that takes acquire and release (R44, R237). -/
def rangeOk (a n : Nat) : Bool :=
  let r := addrRegion a
  (decide (r ≤ 8) || r == 0xB) && decide (addrOffset a + n ≤ 2 ^ 44) && (destBrick a).isSome

/-- The homes of a range (R229): its seat with each brick that a byte of it decodes to. -/
def homesOfRange (s : State) (a n : Nat) : List (Nat × Nat) :=
  let seat := s.realSeat a
  let last := a + n - 1
  let bricks := if n = 0 || addrRegion a ≠ 0x8 then ((destBrick a).map (fun b => b.val)).toList
    else (List.range 4).filter (fun b => addrOffset a / 0x10000000 ≤ b && b ≤ addrOffset last / 0x10000000)
  bricks.map (fun b => (seat, b))

/-- CFENCE (R503, R508): waits for earlier tile commands that may still send requests (log entry 33). -/
def execCfence (t : Tile) (e : MemEnv) (s : State) : Host.Outcome State Fault Refusal := ended s <|
  execute t .cfence e (fun _ s => if unitsIdle s t 4 then complete t s else stallMason t stallOther s) s

/-- REL (R232, R503). -/
def execRel (t : Tile) (e : MemEnv) (s : State) : Host.Outcome State Fault Refusal := ended s <|
  execute t .rel e (fun w s =>
    let a := s.mreg t (iRa w)
    let n := s.mreg t (iRb w)
    underLabel t (fun s =>
      if !rangeOk a n then dataFault t 0x04 0x01 a s
      else if !unitsIdle s t 4 then stallMason t stallOrd s
      else
        let (k, s) := block t stallOrd (fun k => .rel k a) s
        beginRelease t (masonOp s t a 0x41 0 []) true (homesOfRange s a n) (.masonLoad t.val k) s) s) s

/-- ACQ (R237, R503). -/
def execAcq (t : Tile) (e : MemEnv) (s : State) : Host.Outcome State Fault Refusal := ended s <|
  execute t .acq e (fun w s =>
    let a := s.mreg t (iRa w)
    let n := s.mreg t (iRb w)
    if !rangeOk a n then dataFault t 0x04 0x01 a s
    else complete t (if n = 0 then s else rangeAcquire t (s.canon a) n s)) s

/-- ACQF (R503). -/
def execAcqf (t : Tile) (e : MemEnv) (s : State) : Host.Outcome State Fault Refusal := ended s <|
  execute t .acqf e (fun _ s => complete t (fullAcquire t s)) s

/-- TWAIT (R503). -/
def execTwait (t : Tile) (e : MemEnv) (s : State) : Host.Outcome State Fault Refusal := ended s <|
  execute t .twait e (fun w s => if unitsIdle s t (bitsOf w 5 3) then complete t s else stallMason t stallOrd s) s

/-- Whether an issuer is a mason's own. -/
def isMason (t : Tile) : Issuer → Bool
  | .masonLoad u _ => u == t.val
  | .masonPosted u => u == t.val
  | .masonWait u _ _ => u == t.val
  | _ => false

/-- Whether a request of a tile's mason has no outcome yet, or one that the mason has not taken (R503). -/
def masonOutstanding (s : State) (t : Tile) : Bool :=
  let B := s.brick (tileBrick t)
  B.srcFlows.any (fun f => f.ops.any (fun o => isMason t o.issuer)) || B.waitOps.any (fun o => isMason t o.issuer) ||
  (s.tile t).releases.any (fun r => isMason t r.issuer) || s.results.any (fun r => isMason t r.issuer)

/-- DRAIN (R503): a deferred fault found while it waits is taken at the DRAIN. -/
def execDrain (t : Tile) (e : MemEnv) (s : State) : Host.Outcome State Fault Refusal := ended s <|
  execute t .drain e (fun _ s => if masonOutstanding s t then stallMason t stallOrd s else complete t s) s

/-! ### WSL (R502) -/

/-- The mason sleeps in a WSL, or takes a pending suspend request there (R527). -/
def sleepOn (t : Tile) (s : State) : State :=
  let m := s.mason t
  if m.sreq && !m.trap then takeSuspend t m.pc s else s.onMason t (fun m => { m with run := .sleeping, stall := stallSleep })

/-- WSL: a Done slot is collected, or with ANY the lowest masked one reported; otherwise the mason sleeps. A suspend request is taken where no
slot it names is Done. -/
def execWsl (t : Tile) (e : MemEnv) (s : State) : Host.Outcome State Fault Refusal := ended s <|
  execute t .wsl e (fun w s =>
    let m := s.mason t
    let done := wslDone s t w
    let waiting := (wslSlots s t w).any (fun k => decide ((s.slot t k).st = .opened))
    if done.isEmpty && m.sreq && !m.trap then takeSuspend t m.pc s
    else if bitOf w 5 then
      match done with
      | k :: _ => completeWith t (iRd w) k s
      | [] => if waiting then sleepOn t s else completeWith t (iRd w) (2 ^ 64 - 1) s
    else
      let k := bitsOf w 3 0
      let slot := s.slot t k
      match slot.st with
      | .free => complete t s
      | .opened => sleepOn t s
      | .done =>
        let s := (s.onSlot t k (fun _ => {})).onMason t (fun m => { m with bstat := slot.status })
        let s := completeWith t (iRd w) slot.count.toNat s
        if bitOf w 4 then s else
        let trap := fun (cause sub : Nat) => takeTrap t cause sub 0 (m.pc + 4) (withSeat slot.bond.toNat (s.realSeat slot.bond.toNat)) s
        match slot.status with
        | 1 => trap causeTimeout 0
        | 2 => trap causeMemory 0x09
        | 3 => trap causeMemory 0x0A
        | _ => s) s

/-! ### TCMD and RDS (R504 to R507, R512) -/

/-- The modes in force for a command issued now (R468, R505), and the special-function settings of its tile (R599). -/
def captureCommand (s : State) (t : Tile) (c : Nat) : TileCmd :=
  { word := c, lbl := (s.mason t).lbl, after := (s.tile t).opNo,
    rtz := if cMov c then cRound c else s.rd (Reg.FMT_CTL_ROUND t) == 1,
    ieee := if cMov c then cOvf c else s.isSet (Reg.FMT_CTL_OVF t),
    iterDef := s.rd (Reg.SFN_CTL_ITERDEF t), subf := s.isSet (Reg.SFN_CTL_SUBF t),
    thr := [s.rd (Reg.SFN_FLUSH0_THR t), s.rd (Reg.SFN_FLUSH1_THR t), s.rd (Reg.SFN_FLUSH2_THR t)] }

/-- TCMD (R504, R506, R507, R512): a full queue, or a 256th pending writer of its summary register, stalls the mason. -/
def execTcmd (t : Tile) (e : MemEnv) (s : State) : Host.Outcome State Fault Refusal := ended s <|
  execute t .tcmd e (fun w s =>
    let c := s.mreg t (iRa w) + s.mreg t (iRb w) * 2 ^ 64
    let unit := bitsOf w 1 0
    if !commandOk c unit then illegalNow t w s else
    underLabel t (fun s =>
      let T := s.tile t
      let full := match unit with
        | 0 => decide (32 ≤ T.press.queue.length)
        | 1 => decide (32 ≤ T.glaze.queue.length)
        | _ => decide (16 ≤ T.sieve.queue.length)
      if full || (cSumen c && decide (255 ≤ T.mason.pending (cSreg c))) then stallMason t (4 + unit) s else
      let cmd := captureCommand s t c
      let s := if cSumen c then s.onMason t (fun m => { m with pend := tabSet 0 m.pend (cSreg c) (m.pending (cSreg c) + 1) }) else s
      let s := s.onTile t (fun T => match unit with
        | 0 => { T with press := { T.press with queue := T.press.queue ++ [cmd] } }
        | 1 => { T with glaze := { T.glaze with queue := T.glaze.queue ++ [cmd] } }
        | _ => { T with sieve := { T.sieve with queue := T.sieve.queue ++ [cmd] } })
      complete t s) s) s

/-- RDS (R512): stalls while its summary register is pending. -/
def execRds (t : Tile) (e : MemEnv) (s : State) : Host.Outcome State Fault Refusal := ended s <|
  execute t .rds e (fun w s =>
    let m := s.mason t
    let k := bitsOf w 3 0
    if 0 < m.pending k then stallMason t stallSummary s else completeWith t (iRd w) (tabGet 0 m.sums k).toNat s) s

/-- Whether every store that the mason issued to its own tile store before a TCMD has been performed (R509). -/
def storesDone (s : State) (t : Tile) (cmd : TileCmd) : Bool :=
  let B := s.brick (tileBrick t)
  let own := fun (o : Op) (no : Nat) => o.opc == 0x02 && decide (no < cmd.after) && addrRegion o.addr.toNat == 8 && addrOffset o.addr.toNat / 0x800000 == t.val &&
    s.realSeat o.addr.toNat == s.ownSeatNo
  !(B.srcFlows.any (fun f => f.ops.any (fun o => o.issuer == .masonPosted t.val && own o.op o.no)) ||
    B.waitOps.any (fun w => w.issuer == .masonPosted t.val && own w.op w.no))

/-- Whether a unit of a tile may start a command (R292, R509). -/
def mayStart (s : State) (t : Tile) (cmd : TileCmd) : Bool := tileRuns s t && storesDone s t cmd

/-- A command's summary is written and its writer leaves (R512). -/
def finishSummary (t : Tile) (cmd : TileCmd) (v : Word) (s : State) : State :=
  if cSumen cmd.word then
    let k := cSreg cmd.word
    s.onMason t (fun m => { m with sums := tabSet 0 m.sums k v, pend := tabSet 0 m.pend k (m.pending k - 1) })
  else s

end Sys2Proof.Machine
end

