-- ==== Sys2Proof/Machine/Press.lean ====
section
/-! DEFINITION. The press (chapter 11, R451 to R464): its descriptor, its refusals, exact group sums, scales, results and summaries, the residue
check, and quarter-array mode. -/
namespace Sys2Proof.Machine
open Sys2Proof

/-! ### The descriptor (R539) -/

/-- The fields of a press descriptor, with the formats of its command. -/
structure PressDesc where
  abase : Nat
  bbase : Nat
  dbase : Nat
  cbase : Nat
  apitch : Nat
  bpitch : Nat
  dpitch : Nat
  cpitch : Nat
  m : Nat
  n : Nat
  k : Nat
  flags : Nat
  scales : Nat
  zeros : Nat
  sumop : Nat
  sabase : Nat
  sbbase : Nat
  zabase : Nat
  zbbase : Nat
  sumarg : Nat
  fmtA : Nat
  fmtB : Nat
  fmtD : Nat
  deriving DecidableEq, Repr

/-- The descriptor that 64 bytes spell, under a command's header. -/
def pressDesc (d : Bytes) (c : Nat) : PressDesc :=
  let f := fun o n => leNat ((d.drop o).take n)
  { abase := f 0 4, bbase := f 4 4, dbase := f 8 4, cbase := f 12 4, apitch := f 16 2, bpitch := f 18 2, dpitch := f 20 2, cpitch := f 22 2,
    m := f 24 1 + 1, n := f 25 1 + 1, k := f 26 2 + 1, flags := f 28 1, scales := f 29 1, zeros := f 30 1, sumop := f 31 1,
    sabase := f 32 4, sbbase := f 36 4, zabase := f 40 4, zbbase := f 44 4, sumarg := f 48 4, fmtA := cFmtA c, fmtB := cFmtB c, fmtD := cFmtD c }

def PressDesc.ta (d : PressDesc) : Bool := bitOf d.flags 0
def PressDesc.tb (d : PressDesc) : Bool := bitOf d.flags 1
def PressDesc.loadc (d : PressDesc) : Bool := bitOf d.flags 2
def PressDesc.nod (d : PressDesc) : Bool := bitOf d.flags 3
def PressDesc.sma (d : PressDesc) : Nat := bitsOf d.scales 1 0
def PressDesc.smb (d : PressDesc) : Nat := bitsOf d.scales 3 2
def PressDesc.zma (d : PressDesc) : Nat := bitsOf d.zeros 1 0
def PressDesc.zmb (d : PressDesc) : Nat := bitsOf d.zeros 3 2
def PressDesc.isInt (d : PressDesc) : Bool := d.fmtA == 4 || d.fmtA == 5
def PressDesc.blocked (d : PressDesc) : Bool := d.sma == 3 || d.smb == 3
def PressDesc.outScaled (d : PressDesc) : Bool := d.sma == 1 || d.sma == 2 || d.smb == 1 || d.smb == 2
/-- Whether the accumulator is INT32 (R546). -/
def PressDesc.accInt (d : PressDesc) : Bool := d.isInt && !d.blocked
/-- Whether the results are INT32 (R463). -/
def PressDesc.resInt (d : PressDesc) : Bool := d.accInt && !d.outScaled
/-- Groups along the reduction (R454). -/
def PressDesc.groups (d : PressDesc) : Nat := ceilDiv d.k 32
def PressDesc.wa (d : PressDesc) : Nat := elemWidth d.fmtA
def PressDesc.wd (d : PressDesc) : Nat := elemWidth d.fmtD
def PressDesc.saw (d : PressDesc) : Nat := if bitOf d.scales 4 then 2 else 4
def PressDesc.sbw (d : PressDesc) : Nat := if bitOf d.scales 5 then 2 else 4

/-- Offsets of R540. -/
def PressDesc.offA (d : PressDesc) (m k : Nat) : Nat := d.abase + (if d.ta then 32 * d.apitch * k + d.wa * m else 32 * d.apitch * m + d.wa * k)
def PressDesc.offB (d : PressDesc) (k n : Nat) : Nat := d.bbase + (if d.tb then 32 * d.bpitch * n + d.wa * k else 32 * d.bpitch * k + d.wa * n)
def PressDesc.offC (d : PressDesc) (m n : Nat) : Nat := d.cbase + 64 * d.cpitch * m + 4 * n
def PressDesc.offD (d : PressDesc) (m n : Nat) : Nat := d.dbase + 64 * d.dpitch * m + d.wd * n
def PressDesc.offSA (d : PressDesc) (m g : Nat) : Nat :=
  d.sabase + d.saw * (if d.sma = 2 then m else if d.sma = 3 then d.groups * m + g else 0)
def PressDesc.offSB (d : PressDesc) (g n : Nat) : Nat :=
  d.sbbase + d.sbw * (if d.smb = 2 then n else if d.smb = 3 then d.n * g + n else 0)
def PressDesc.offZA (d : PressDesc) (m : Nat) : Nat := d.zabase + (if d.zma = 2 then m else 0)
def PressDesc.offZB (d : PressDesc) (n : Nat) : Nat := d.zbbase + (if d.zmb = 2 then n else 0)

/-- The byte ranges (offset, length) of a matrix stored in rows. -/
def rowRanges (base step rows len : Nat) : List (Nat × Nat) := (List.range rows).map (fun i => (base + step * i, len))

def PressDesc.rangesA (d : PressDesc) : List (Nat × Nat) :=
  if d.ta then rowRanges d.abase (32 * d.apitch) d.k (d.wa * d.m) else rowRanges d.abase (32 * d.apitch) d.m (d.wa * d.k)
def PressDesc.rangesB (d : PressDesc) : List (Nat × Nat) :=
  if d.tb then rowRanges d.bbase (32 * d.bpitch) d.n (d.wa * d.k) else rowRanges d.bbase (32 * d.bpitch) d.k (d.wa * d.n)
def PressDesc.rangesC (d : PressDesc) : List (Nat × Nat) := if d.loadc then rowRanges d.cbase (64 * d.cpitch) d.m (4 * d.n) else []
def PressDesc.rangesD (d : PressDesc) : List (Nat × Nat) := if d.nod then [] else rowRanges d.dbase (64 * d.dpitch) d.m (d.wd * d.n)
/-- The scales and zero points that a command reads. -/
def PressDesc.rangesSZ (d : PressDesc) : List (Nat × Nat) :=
  let count := fun (mode rows all : Nat) => if mode = 0 then 0 else if mode = 1 then 1 else if mode = 2 then rows else all
  [(d.sabase, d.saw * count d.sma d.m (d.groups * d.m)), (d.sbbase, d.sbw * count d.smb d.n (d.groups * d.n)),
   (d.zabase, count d.zma d.m 0), (d.zbbase, count d.zmb d.n 0)].filter (fun r => r.2 ≠ 0)

/-- Whether two byte ranges share a byte. -/
def rangesMeet (a b : Nat × Nat) : Bool := decide (a.2 ≠ 0 ∧ b.2 ≠ 0 ∧ a.1 < b.1 + b.2 ∧ b.1 < a.1 + a.2)

/-! ### Refusals (R541, R542, R546, R551, R554, R571) -/

/-- Whether an operand pair is one of R451. -/
def pairOk (a b : Nat) : Bool := (decide (a ≤ 1 ∧ b ≤ 1)) || (a == b && (a == 2 || a == 4 || a == 5))

/-- The reason a descriptor is refused for, if it is: the lowest of those that apply (DESIGN CHOICE, log entry 42: R571 gives no order). -/
def pressRefusal (d : PressDesc) (raw : Bytes) (sumen : Bool) : Option Nat :=
  let inside := fun (r : Nat × Nat) => decide (r.1 + r.2 ≤ tileStoreSize)
  if !pairOk d.fmtA d.fmtB then some 0x2 else
  if !d.isInt && d.zeros % 16 ≠ 0 then some 0x3 else
  if !(if d.resInt then d.fmtD == 6 else decide (d.fmtD ≤ 3)) then some 0x4 else
  if d.flags / 16 ≠ 0 || d.scales / 64 ≠ 0 || d.zeros / 16 ≠ 0 || d.zma = 3 || d.zmb = 3 || d.sumop / 16 ≠ 0 || d.abase / 2 ^ 23 ≠ 0 ||
     !zeroFrom 52 raw || (sumen && !(decide (1 ≤ d.sumop ∧ d.sumop ≤ 5))) || (d.nod && !sumen) then some 0x5 else
  if d.abase % 32 ≠ 0 || d.bbase % 32 ≠ 0 || d.dbase % 64 ≠ 0 || (d.loadc && d.cbase % 64 ≠ 0) || (d.sma ≠ 0 && d.sabase % d.saw ≠ 0) ||
     (d.smb ≠ 0 && d.sbbase % d.sbw ≠ 0) || d.apitch = 0 || (d.loadc && 64 * d.cpitch < 4 * d.n) ||
     (!d.nod && 64 * d.dpitch < d.wd * d.n) ||
     !(d.rangesA ++ d.rangesB ++ d.rangesC ++ d.rangesD ++ d.rangesSZ).all inside then some 0x6 else
  none

/-- Whether D overlaps what the command reads (R542). -/
def pressOverlap (d : PressDesc) (desc : Nat) : Bool :=
  let hits := fun (rs : List (Nat × Nat)) => d.rangesD.any (fun x => rs.any (rangesMeet x))
  hits d.rangesA || hits d.rangesB || hits d.rangesSZ || hits [(desc, 64)] ||
  (!(d.cbase = d.dbase && d.cpitch = d.dpitch) && hits d.rangesC)

/-! ### Results (R453 to R464, R547) -/

/-- An element of the tile store as a number. -/
def storeNumAt (s : State) (t : Tile) (off w : Nat) : Nat := leNat (storeBytes s t off w)

/-- A scale as an FP32 code (R461). -/
def scaleAt (s : State) (t : Tile) (off w : Nat) : Nat := if w = 2 then bf16to32 (storeNumAt s t off 2) else storeNumAt s t off 4

/-- 1.0 in FP32. -/
def f32one : Nat := 0x3F800000

/-- The indices of group `g`. -/
def PressDesc.group (d : PressDesc) (g : Nat) : List Nat := (List.range (min 32 (d.k - 32 * g))).map (fun i => 32 * g + i)

/-- The group sum of a floating pair, rounded once (R454, R456). -/
def groupFloat (s : State) (t : Tile) (d : PressDesc) (m n g : Nat) : Nat :=
  fmtFP32.enc ((d.group g).foldl (fun acc k =>
    acc.add ((elemFv d.fmtA (storeNumAt s t (d.offA m k) d.wa)).mul (elemFv d.fmtB (storeNumAt s t (d.offB k n) d.wa)))) (.fin true 0 0))

/-- An integer element or zero point. -/
def intElem (fmt v : Nat) : Int := if fmt = 4 then sextInt 8 v else (v % 256 : Nat)

/-- The group sum of an integer pair, exactly (R457 to R460). -/
def groupInt (s : State) (t : Tile) (d : PressDesc) (m n g : Nat) : Int :=
  let za := if d.zma = 0 then 0 else intElem d.fmtA (storeNumAt s t (d.offZA m) 1)
  let zb := if d.zmb = 0 then 0 else intElem d.fmtB (storeNumAt s t (d.offZB n) 1)
  (d.group g).foldl (fun acc k =>
    acc + (intElem d.fmtA (storeNumAt s t (d.offA m k) 1) - za) * (intElem d.fmtB (storeNumAt s t (d.offB k n) 1) - zb)) 0

/-- Scales that apply to an element at a stage, 1.0 where none does (R461, R462). -/
def PressDesc.scaleA (d : PressDesc) (s : State) (t : Tile) (block : Bool) (m g : Nat) : Nat :=
  if d.sma ≠ 0 && (d.sma == 3) == block then scaleAt s t (d.offSA m g) d.saw else f32one
def PressDesc.scaleB (d : PressDesc) (s : State) (t : Tile) (block : Bool) (n g : Nat) : Nat :=
  if d.smb ≠ 0 && (d.smb == 3) == block then scaleAt s t (d.offSB g n) d.sbw else f32one

/-- The INT32 accumulation of an element: its value, and whether some addition wrapped (R457). -/
def accumInt (s : State) (t : Tile) (d : PressDesc) (m n : Nat) : Int × Bool :=
  let c := if d.loadc then sextInt 32 (storeNumAt s t (d.offC m n) 4) else 0
  (List.range d.groups).foldl (fun (a : Int × Bool) g =>
    let x := a.1 + groupInt s t d m n g
    (sextInt 32 (wrapNat 32 x), a.2 || decide (x < -(2 ^ 31) ∨ 2 ^ 31 ≤ x))) (c, false)

/-- The FP32 accumulation of an element (R455, R462): an FP32 code. -/
def accumFloat (s : State) (t : Tile) (d : PressDesc) (m n : Nat) : Nat :=
  let c := if d.loadc then storeNumAt s t (d.offC m n) 4 else 0x80000000
  (List.range d.groups).foldl (fun acc g =>
    let x := if d.isInt then f32ofInt (groupInt s t d m n g) else groupFloat s t d m n g
    if d.blocked then f32add acc (f32mul (f32mul (d.scaleA s t true m g) (d.scaleB s t true n g)) x) else f32add acc x) c

/-- The result of an element after the output stage: an FP32 or INT32 code, and whether its accumulation wrapped. -/
def pressResult (s : State) (t : Tile) (d : PressDesc) (m n : Nat) : Nat × Bool :=
  let so := f32mul (d.scaleA s t false m 0) (d.scaleB s t false n 0)
  if d.accInt then
    let (x, wrapped) := accumInt s t d m n
    (if d.outScaled then f32mul (f32ofInt x) so else wrapNat 32 x, wrapped)
  else
    let x := accumFloat s t d m n
    (if d.outScaled then f32mul x so else x, false)

/-- Every scale a command uses, as FP32 codes (R464). -/
def PressDesc.allScales (d : PressDesc) (s : State) (t : Tile) : List Nat :=
  let gs := List.range d.groups
  (if d.sma = 0 then [] else (List.range d.m).flatMap (fun m => gs.map (fun g => scaleAt s t (d.offSA m g) d.saw))) ++
  (if d.smb = 0 then [] else (List.range d.n).flatMap (fun n => gs.map (fun g => scaleAt s t (d.offSB g n) d.sbw)))

/-! ### Poison (R572) -/

/-- Rows, columns and elements that poisoned operands poison. -/
def PressDesc.rowBad (d : PressDesc) (s : State) (t : Tile) (m : Nat) : Bool :=
  (List.range d.k).any (fun k => storeMarked s t (d.offA m k) d.wa) ||
  (d.sma ≠ 0 && (List.range d.groups).any (fun g => storeMarked s t (d.offSA m g) d.saw)) ||
  (d.zma ≠ 0 && storeMarked s t (d.offZA m) 1)
def PressDesc.colBad (d : PressDesc) (s : State) (t : Tile) (n : Nat) : Bool :=
  (List.range d.k).any (fun k => storeMarked s t (d.offB k n) d.wa) ||
  (d.smb ≠ 0 && (List.range d.groups).any (fun g => storeMarked s t (d.offSB g n) d.sbw)) ||
  (d.zmb ≠ 0 && storeMarked s t (d.offZB n) 1)

/-! ### Summaries (R551 to R553) -/

/-- Whether a result is a NaN, and its order against another: as IEEE 754 compares, or as INT32. -/
def resNan (int : Bool) (v : Nat) : Bool := !int && (f32 v).isNan
def resLess (int : Bool) (a b : Nat) : Bool :=
  if int then decide (sextInt 32 a < sextInt 32 b) else decide ((f32 a).cmp (f32 b) = some .lt)

/-- The index of the largest result that is no NaN, the lowest among equals; none where every result is a NaN. -/
def argMax (int : Bool) (vs : List Nat) : Option (Nat × Nat) :=
  ((List.range vs.length).zip vs).foldl (fun (best : Option (Nat × Nat)) e =>
    if resNan int e.2 then best else
    match best with
    | none => some e
    | some b => if resLess int b.2 e.2 then some e else best) none

/-- The summary of a list of results, in order of 256 × m + n with `n` results a row. -/
def pressSummary (sumop : Nat) (int : Bool) (n arg : Nat) (vs : List Nat) : Word :=
  let any := vs.any (fun v => resLess int arg v)
  let all := vs.all (fun v => resLess int arg v)
  let nan := vs.any (resNan int)
  let best := argMax int vs
  let kv : Nat × Nat := match sumop with
    | 1 => (if int then 6 else 1, (best.map (fun e => e.2)).getD 0x7FC00000)
    | 2 => if int then (7, (vs.foldl (fun a v => a + v) 0) % 2 ^ 32) else (2, vs.foldl f32add 0x80000000)
    | 3 => (3, (vs.filter (fun v => resLess int arg v)).length)
    | 4 => (4, (best.map (fun e => e.1 / n * 256 + e.1 % n)).getD 0xFFFFFFFF)
    | _ => (5, 0)
  BitVec.ofNat 64 (sumWord kv.1 kv.2 any all nan false)

/-- A summary with poisoned results among the good ones `vs` (R553): VAL is undefined, and a flag that a poisoned result could set is open. -/
def openSummary (w : Word) (kind : Nat) (anyGood allGood nanGood : Bool) (free : Word) : Word :=
  let f := free.toNat
  if w = 0 then 0 else
  BitVec.ofNat 64 (sumWord kind (bitsOf f 31 0) (anyGood || bitOf f 32) (allGood && bitOf f 33) (nanGood || bitOf f 34) true)

/-! ### Commands -/

/-- The press takes the head of its queue. -/
def popPress (t : Tile) (run : Option UnitRun) (s : State) : State :=
  s.onTile t (fun T => { T with press := { T.press with queue := T.press.queue.drop 1, run := run } })

/-- A press command is refused (R570). -/
def refusePress (t : Tile) (cmd : TileCmd) (why : Nat) (s : State) : State :=
  let c := cmd.word
  let desc := bitsOf c 56 40
  let s := finishSummary t cmd 0 (popPress t none s)
  let s := (((s.flag (Reg.PRS_ERR_REFUSED t)).wr (Reg.PRS_REFUSE_OP t) (cOp c)).wr (Reg.PRS_REFUSE_WHY t) why).wr (Reg.PRS_REFUSE_DESC t) desc
  let s := tally t 8 1 (s.count (Reg.PRS_CNT0_REFUSALS t) 1)
  let last := (s.tile t).press.refusedAt
  if last.all (fun x => decide (x + 10 ^ 6 ≤ s.now)) then
    (s.onTile t (fun T => { T with press := { T.press with refusedAt := some s.now } })).raise 0x3101 [t.val, cOp c, why, desc]
  else s

/-- The mode in effect for the next command (R558). -/
def settleQuarter (t : Tile) (s : State) : State := s.wr (Reg.PRS_STAT_QCUR t) (bit (s.isSet (Reg.PRS_STAT_QFORCE t) || s.isSet (Reg.PRS_STAT_QREQ t)))

/-- Bonds poisoned and the tile fenced after a second residue mismatch within 1 s; after a first, the tile becomes its shadow's next visit (R850). -/
def residueReaction (t : Tile) (s : State) : State :=
  let b := tileBrick t
  let again := (s.tile t).press.residueAt.any (fun x => decide (s.now < x + 10 ^ 9))
  let s := s.onTile t (fun T => { T with press := { T.press with residueAt := some s.now } })
  if again then fenceTile t 0x2 (poisonBonds t 0x03 (suspectBonds s t) s)
  else { s with safety := { s.safety with priority := tabPut s.safety.priority b.val (t.val % 32) } }

/-- The elements of a result, row by row. -/
def PressDesc.elements (d : PressDesc) : List (Nat × Nat) := (List.range d.m).flatMap (fun m => (List.range d.n).map (fun n => (m, n)))

/-- The conversion of a result into D (R549). -/
def pressConv (cmd : TileCmd) (fmtD v : Nat) : Conv :=
  match fmtD with
  | 0 => toFp8 fmtE4M3 cmd.rtz cmd.ieee (f32 v)
  | 1 => toFp8 fmtE5M2 cmd.rtz cmd.ieee (f32 v)
  | 2 => toBf16 cmd.rtz (f32 v)
  | _ => { code := v }

/-- Index of the multiply-accumulate counter of an operand pair (R894). -/
def pairIndex (a b : Nat) : Nat := if a ≤ 1 then 2 * a + b else if a = 2 then 4 else a + 1

/-- The performance of an accepted MMA: results, D with its marks, flags, and the summary it will write. `bad` is the element and group of a residue
mismatch (R574), with whether it was injected. -/
def performMma (t : Tile) (cmd : TileCmd) (d : PressDesc) (desc : Nat) (bad : Option (Nat × Nat × Nat × Bool)) (s : State) : State :=
  let c := cmd.word
  let rowsBad := (List.range d.m).map (fun m => d.rowBad s t m)
  let colsBad := (List.range d.n).map (fun n => d.colBad s t n)
  let poisoned := fun (e : Nat × Nat) => rowsBad.getD e.1 false || colsBad.getD e.2 false || (d.loadc && storeMarked s t (d.offC e.1 e.2) 4)
  let res := d.elements.map (fun e => (e, pressResult s t d e.1 e.2, poisoned e))
  let good := res.filter (fun x => !x.2.2)
  let anyBad := res.any (fun x => x.2.2)
  let convs := good.map (fun x =>
    let k := pressConv cmd d.fmtD x.2.1.1
    let f := f32 x.2.1.1
    if d.resInt then k else { k with nanOut := k.nanOut || f.isNan, infOut := k.infOut || f.isInf })
  let s0 := s
  -- the store
  let s := if d.nod then s else s.each res (fun s x => storePut t (d.offD x.1.1 x.1.2) (leBytes d.wd (pressConv cmd d.fmtD x.2.1.1).code) false s)
  let marked := if bad.isSome then res else res.filter (fun x => x.2.2)
  let s := if d.nod then s else
    s.each d.rangesD (fun s r => s.each (wholeWords r.1 r.2) (fun s w => markWord t false s w))
  let s := if d.nod then s else s.each marked (fun s x => s.each (wordsOf (d.offD x.1.1 x.1.2) d.wd) (fun s w => markWord t true s w))
  -- flags
  let s := noteConvs t convs s
  let s := s.when (good.any (fun x => x.2.1.2)) (fun s => s.flag (Reg.FMT_STAT_IWRAP t))
  let s := s.when ((d.allScales s0 t).any (fun v => !(f32 v).isFin)) (fun s => s.flag (Reg.FMT_STAT_SCALEX t))
  let (k, s) := s.draw 1
  let free := Config.freeWord k
  let s := s.when anyBad (fun s => s.flagBits ⟨Reg.FMT_STAT t, 3, 0⟩ (bitsOf free.toNat 43 40))
  let s := s.when anyBad (fun s =>
    let first := ((List.range d.m).find? (fun m => rowsBad.getD m false)).getD (((List.range d.n).find? (fun n => colsBad.getD n false)).getD 0)
    (s.flag (Reg.PRS_ERR_POISIN t)).raise 0x3102 [t.val, desc, first])
  let s := tally t (pairIndex d.fmtA d.fmtB) (d.m * d.n * d.k) s
  -- the summary
  let vs := res.map (fun x => x.2.1.1)
  let goodVs := good.map (fun x => x.2.1.1)
  let w := pressSummary d.sumop d.resInt d.n d.sumarg vs
  let sum := if anyBad || bad.isSome then
      openSummary 1 (sumKind w.toNat) (goodVs.any (resLess d.resInt d.sumarg)) (goodVs.all (resLess d.resInt d.sumarg)) (goodVs.any (resNan d.resInt)) free
    else w
  let s := if cSumen c then tally t 11 1 s else s
  let s := popPress t (some { cmd := cmd, sum := sum }) s
  match bad with
  | none => s
  | some (m, n, g, injected) =>
    let s := (s.flag (Reg.PRS_ERR_RESIDUE t)).count (Reg.PRS_CNT1_RESFAIL t) 1
    residueReaction t (s.raise 0x3103 [t.val, desc, m, n, g, bit injected])

/-- MMA (R536 to R554, R560 to R563, R570 to R574): the press starts the command at the head of its queue, where that is no PMODE; an operation that
no row names is refused. `fault` is an element and group whose residue the hardware finds wrong. -/
def execMma (t : Tile) (fault : Option (Fin 256 × Fin 256 × Fin 2048)) (e : MemEnv) (s : State) : Host.Outcome State Fault Refusal := ended s <|
  let P := (s.tile t).press
  match P.queue with
  | [] => .next s
  | cmd :: _ =>
    let c := cmd.word
    if !mayStart s t cmd || P.run.isSome || cOp c = 0x10 then .next s else
    let s := settleQuarter t s
    if cOp c ≠ 0x01 then .next (refusePress t cmd 0x1 s) else
    if bitsOf c 127 57 ≠ 0 || bitsOf c 39 32 ≠ 0 then .next (refusePress t cmd 0x5 s) else
    let desc := bitsOf c 56 40 * 64
    if tileStoreSize < desc + 64 then .next (refusePress t cmd 0x6 s) else
    let s := tileReports { e with masonUnc := [], masonCorr := [] } s
    if storeMarked s t desc 64 then .next (refusePress t cmd 0x8 s) else
    let raw := storeBytes s t desc 64
    let d := pressDesc raw c
    match pressRefusal d raw (cSumen c) with
    | some why => .next (refusePress t cmd why s)
    | none =>
      if pressOverlap d desc then .next (refusePress t cmd 0x7 s) else
      let injected := P.inject && d.isInt
      let s := if injected then s.onTile t (fun T => { T with press := { T.press with inject := false } }) else s
      let bad := if injected then some (0, 0, 0, true)
        else if d.isInt then fault.map (fun x => (x.1.val % d.m, x.2.1.val % d.n, x.2.2.val % d.groups, false)) else none
      .next (performMma t cmd d (bitsOf c 56 40) bad s)

/-- PMODE (R537, R557, R558): the mode is in effect when the command completes. -/
def execPmode (t : Tile) (s : State) : Host.Outcome State Fault Refusal := ended s <|
  let P := (s.tile t).press
  match P.queue with
  | [] => .next s
  | cmd :: _ =>
    let c := cmd.word
    if !mayStart s t cmd || P.run.isSome || cOp c ≠ 0x10 then .next s else
    if bitsOf c 127 33 ≠ 0 || bitsOf c 31 10 ≠ 0 then .next (refusePress t cmd 0x5 s) else
    .next (popPress t (some { cmd := cmd }) (s.wr (Reg.PRS_STAT_QREQ t) (bitsOf c 32 32)))

/-- PRESS_COMMAND_COMPLETE (R550, R557): the summary is written, and the next command may start. -/
def execPressCommandComplete (t : Tile) (s : State) : Host.Outcome State Fault Refusal := ended s <|
  match (s.tile t).press.run with
  | none => .next s
  | some r =>
    if !tileGoes s t then .next s else
    let s := s.onTile t (fun T => { T with press := { T.press with run := none } })
    let s := finishSummary t r.cmd r.sum s
    .next (settleQuarter t (tally t 7 1 (s.count (Reg.PRS_CNT0_CMDS t) 1)))

/-- Whether a unit's queue may be cleared (R577): the mason is Idle, Halted or Faulted. -/
def mayClear (s : State) (t : Tile) : Bool :=
  let r := (s.mason t).run
  decide (r = .idle ∨ r = .halted ∨ r = .faulted) && tileServes s t

/-- PRESS_CLRQ (R577): each queued command ends as if refused, without the event; PRS_REFUSE keeps what it held (DEDUCED, log entry 43). -/
def execPressClrq (t : Tile) (s : State) : Host.Outcome State Fault Refusal := ended s <|
  if !mayClear s t then .next s else
  let q := (s.tile t).press.queue
  let s := s.onTile t (fun T => { T with press := { T.press with queue := [] } })
  .next (s.each q (fun s cmd => tally t 8 1 (((finishSummary t cmd 0 s).flag (Reg.PRS_ERR_REFUSED t)).count (Reg.PRS_CNT0_REFUSALS t) 1)))

/-- RINJ (R577): with RINJEN, the next integer command's residue is inverted. -/
def execRinj (t : Tile) (s : State) : Host.Outcome State Fault Refusal := ended s <|
  if s.isSet (Reg.PRS_CTL_RINJEN t) && tileServes s t then .next (s.onTile t (fun T => { T with press := { T.press with inject := true } })) else .next s

end Sys2Proof.Machine
end

