-- ==== Sys2Proof/Machine/Sieve.lean ====
section
/-! DEFINITION. The sieve (chapter 14): its commands one request at a time (DESIGN CHOICE, log entry 51), their suspension and their end. -/
namespace Sys2Proof.Machine
open Sys2Proof

/-! ### The sieve's parts -/

def State.sieve (s : State) (t : Tile) : Sieve := (s.tile t).sieve
def State.onSieve (s : State) (t : Tile) (f : Sieve → Sieve) : State := s.onTile t (fun T => { T with sieve := f T.sieve })
/-- The state with the command in progress changed. -/
def State.onRun (s : State) (t : Tile) (f : SieveRun → SieveRun) : State := s.onSieve t (fun S => { S with run := S.run.map f })

/-- STATE of the sieve (R719). -/
def sieveState (s : State) (t : Tile) : Nat := s.rd (Reg.SVE_STAT_STATE t)
def svRunning : Nat := 1
def svSuspending : Nat := 2
def svSuspended : Nat := 3
def svCancelling : Nat := 4

/-- The request number `i` bytes into a descriptor. -/
def SieveRun.num (r : SieveRun) (i n : Nat) : Nat := leNat ((r.desc.drop i).take n)

/-- Bytes read from the tile store for a unit; a marked word makes them undefined (R379, R855). -/
def sieveRead (t : Tile) (off n : Nat) (s : State) : Bytes × Bool × State :=
  if storeMarked s t off n then
    let (free, s) := s.freeBytes n
    (free, true, s)
  else (storeBytes s t off n, false, s)

/-- Poisoned data met (R685, R719). -/
def notePoison (t : Tile) (bad : Bool) (s : State) : State :=
  if bad then (s.flag (Reg.SVE_ERR_POISIN t)).onRun t (fun r => { r with pois := true }) else s

/-- A LOAD's requests: at most 512 B each and none across a boundary of `grain` bytes (R161, R688). -/
def sieveLoads (lbl addr n grain : Nat) : List Op :=
  (piecesOf grain addr n).map (fun p => { addr := BitVec.ofNat 64 p.1, opc := 0x01, aux := 0, lbl := labelOf lbl, size := p.2, payload := [] })

/-- A STORE's requests. -/
def sieveStores (lbl addr : Nat) (bs : Bytes) : List Op :=
  (piecesOf 512 addr bs.length).map (fun p =>
    { addr := BitVec.ofNat 64 p.1, opc := 0x02, aux := 0, lbl := labelOf lbl, size := p.2, payload := (bs.drop (p.1 - addr)).take p.2 })

/-- The requests of the command's next step decided. -/
def askFor (t : Tile) (ops : List Op) (s : State) : State :=
  s.onRun t (fun r => { r with asked := true, pieces := ops, got := [], poison := [], fail := none })

/-- The command's place changed; its next step is still to be decided. -/
def moveTo (t : Tile) (pos : SievePos) (s : State) : State := s.onRun t (fun r => { r with pos := pos, asked := false })

/-- The entry, request, slot or point reached (R719). -/
def progress (t : Tile) (n : Nat) (s : State) : State := s.wr (Reg.SVE_STAT_PROG t) n

/-- An item failed (R719). -/
def itemError (t : Tile) (s : State) : State := s.flag (Reg.SVE_ERR_ITEMERR t)

/-- The command has nothing more to do: its summary (R685) waits for its completion. -/
def finishSieve (t : Tile) (val : Nat) (any all : Bool) (s : State) : State :=
  s.onRun t (fun r => { r with done := some (BitVec.ofNat 64 (sumWord 3 val any all false r.pois)), asked := false, pieces := [] })

/-- The end of a command that counts failed items out of `n`. -/
def finishItems (t : Tile) (val n : Nat) (s : State) : State := finishSieve t val (val ≠ 0) (decide (val = n ∧ n ≠ 0)) s

/-! ### Starting and refusing (R680 to R682, R716) -/

/-- A sieve command is refused: it completes with an empty summary (R570, R716). -/
def refuseSieve (t : Tile) (cmd : TileCmd) (why : Nat) (s : State) : State :=
  let c := cmd.word
  let s := s.onSieve t (fun S => { S with queue := S.queue.drop 1 })
  let s := finishSummary t cmd 0 s
  let s := (((s.flag (Reg.SVE_ERR_REFUSED t)).wr (Reg.SVE_REFUSE_OP t) (cOp c)).wr (Reg.SVE_REFUSE_WHY t) why).wr (Reg.SVE_REFUSE_DESC t) (bitsOf c 56 40)
  let s := s.count (Reg.SVE_CNT0_REFUSALS t) 1
  if (s.sieve t).refusedAt.all (fun x => decide (x + 10 ^ 6 ≤ s.now)) then
    (s.onSieve t (fun S => { S with refusedAt := some s.now })).raise 0x3301 [t.val, cOp c, why, bitsOf c 56 40]
  else s

/-- Whether the header formats of a command are allowed (R681): all zero, but for COMBINE's. -/
def sieveHeaderOk (c : Nat) : Bool :=
  if cOp c = 0x04 then (cFmtA c == 2 || cFmtA c == 3) && (cFmtD c == 2 || cFmtD c == 3) && cFmtB c == 0 && !cOvf c
  else cFmtA c == 0 && cFmtB c == 0 && cFmtD c == 0 && !cMov c && !cRound c && !cOvf c

/-- Bytes of the descriptor of an OP (R680). -/
def sieveDescSize (op : Nat) : Nat := if op = 0x05 then 128 else 64

/-- Whether `n` bytes at an offset lie in the tile store. -/
def inStore (off n : Nat) : Bool := decide (off + n ≤ tileStoreSize)

/-- The lowest reason for which a GATHER's descriptor is refused (R686). -/
def gatherRefusal (f : Nat → Nat → Nat) : Option Nat :=
  let rlen := f 32 4
  let grout := bitOf (f 26 1) 0
  if f 0 8 % 64 ≠ 0 || f 12 4 = 0 || 65535 < f 12 4 || f 20 4 % 64 ≠ 0 || 4 ≤ f 26 1 || rlen < 32 || 65536 < rlen || 65536 < f 28 4 + rlen ||
     f 44 4 ≠ 0 || f 48 2 = 0 || 64 < f 48 2 || f 27 1 ≠ 0 || f 50 14 ≠ 0 || (grout && (f 28 4 % 32 ≠ 0 || rlen % 32 ≠ 0)) then some 0x3
  else if f 16 4 % 64 ≠ 0 || f 40 4 % 16 ≠ 0 || !inStore (f 16 4) (f 20 4 * f 12 4) || !inStore (f 36 4) (f 12 4) || !inStore (f 40 4) (16 * f 48 2) then some 0x4
  else none

/-- The lowest reason for which a YARD's descriptor is refused (R690). -/
def yardRefusal (f : Nat → Nat → Nat) : Option Nat :=
  if f 0 4 = 0 || 256 < f 0 4 || f 12 52 ≠ 0 then some 0x3
  else if f 4 4 % 16 ≠ 0 || f 8 4 % 32 ≠ 0 || !inStore (f 4 4) (16 * f 0 4) || !inStore (f 8 4) (32 * f 0 4) then some 0x4
  else none

/-- The lowest reason for which a DISPATCH's or COMBINE's descriptor is refused (R693). `width` is the width of COMBINE's output elements. -/
def expertRefusal (combine : Bool) (width : Nat) (f : Nat → Nat → Nat) : Option Nat :=
  let rb := f 16 4
  let row := if combine then rb * width else rb
  if f 0 4 = 0 || 65536 < f 0 4 || f 4 2 = 0 || 8 < f 4 2 || f 6 2 = 0 || 1024 < f 6 2 || f 12 4 % 16 ≠ 0 || f 32 32 ≠ 0 ||
     (if combine then rb = 0 || 4096 < rb else rb % 16 ≠ 0 || rb < 16 || 4080 < rb) then some 0x3
  else if f 20 4 % 8 ≠ 0 || f 24 4 % 8 ≠ 0 || f 28 4 % 64 ≠ 0 || !inStore (f 8 4) (f 12 4 * (f 0 4 - 1) + row) ||
     !inStore (f 20 4) (8 * f 0 4 * f 4 2) || !inStore (f 24 4) (8 * f 0 4 * f 4 2) || !inStore (f 28 4) (64 * f 6 2) then some 0x4
  else none

/-- Budget of a frame (R704). -/
def frameBudget (f : Nat → Nat → Nat) : Nat := if f 45 1 % 2 = 1 then 1048576 else f 40 4

/-- Whether `n` bytes at a global address lie in a stack window of brick `b`, in bed-mode granules (R704). -/
def ownWindow (s : State) (b : Brick) (a n : Nat) : Bool :=
  (addrSeat a == 0xFFFF || addrSeat a == s.ownSeatNo) && (match ownStack b (addrRegion a) with
    | some st => decide (addrOffset a + n ≤ winTop s st * 4096) &&
        (List.range (ceilDiv n granuleSize + 1)).all (fun g => !foldMode s st (min (addrOffset a + g * granuleSize) (addrOffset a + n - 1) / granuleSize))
    | none => false)

/-- The lowest reason for which a POINTS's descriptor is refused (R703, R704, R710). -/
def pointsRefusal (s : State) (b : Brick) (f : Nat → Nat → Nat) : Option Nat :=
  let worst := f 45 1 % 2 = 1
  let h := f 44 1
  let inve := f32 (f 60 4)
  if f 0 8 % 16 ≠ 0 || 8 < addrRegion (f 0 8) || f 32 4 = 0 || f 36 2 = 0 || 256 < f 36 2 || f 38 2 = 0 || 2 ≤ f 45 1 ||
     (if worst then f 40 4 ≠ 0 else f 40 4 = 0 || 1048576 < f 40 4) || h < 10 || 22 < h || !inve.isFin || inve.isZero || inve.signBit ||
     f 64 2 = 0 || f 66 2 = 0 || f 68 2 = 0 || f 46 2 ≠ 0 || f 70 2 ≠ 0 || f 76 52 ≠ 0 then some 0x3
  else if !inStore (f 72 4) 64 then some 0x4
  else if f 16 8 % 4096 ≠ 0 || f 24 8 % 64 ≠ 0 || 2 ^ h < 2 * frameBudget f || !ownWindow s b (f 16 8) (16 * 2 ^ h) ||
     !ownWindow s b (f 24 8) (64 * frameBudget f) then some 0x5
  else none

/-- A routing entry's expert and weight (R694). -/
def routingAt (t : Tile) (off i : Nat) (s : State) : (Nat × Nat) × State :=
  let (bs, bad, s) := sieveRead t (off + 8 * i) 8 s
  ((leNat (bs.take 2), leNat ((bs.drop 4).take 4)), notePoison t bad s)

/-- The first `n` entries of a table in the tile store, in order. -/
def readTable {α : Type} (one : Nat → State → α × State) (n : Nat) (s : State) : List α × State :=
  (List.range n).foldl (fun (acc : List α × State) i =>
    let (x, s) := one i acc.2
    (acc.1 ++ [x], s)) ([], s)

/-- A landing entry's expert, status and row (R698). -/
def landingAt (t : Tile) (off i : Nat) (s : State) : (Nat × Nat × Nat) × State :=
  let (bs, bad, s) := sieveRead t (off + 8 * i) 8 s
  ((leNat (bs.take 2), leNat ((bs.drop 2).take 1), leNat ((bs.drop 4).take 4)), notePoison t bad s)

/-- A command at the head of the queue starts (R680, R682, R712, R716): the sieve is not busy or held, and the command's OP is the one asked for. -/
def startSieve (t : Tile) (mine : Nat → Bool) (e : MemEnv) (s : State) : State :=
  let S := s.sieve t
  match S.queue with
  | [] => s
  | cmd :: _ =>
    let c := cmd.word
    if !mayStart s t cmd || S.run.isSome || sieveState s t ≠ 0 || !mine (cOp c) then s else
    if cOp c = 0 || 5 < cOp c then refuseSieve t cmd 0x1 s else
    if !sieveHeaderOk c then refuseSieve t cmd 0x2 s else
    if bitsOf c 127 57 ≠ 0 || bitsOf c 39 32 ≠ 0 then refuseSieve t cmd 0x3 s else
    let desc := bitsOf c 56 40
    let size := sieveDescSize (cOp c)
    if !inStore (desc * 64) size || (size = 128 && desc % 2 = 1) then refuseSieve t cmd 0x4 s else
    let s := tileReports { e with masonUnc := [], masonCorr := [] } s
    if storeMarked s t (desc * 64) size then refuseSieve t cmd 0x6 s else
    let d := storeBytes s t (desc * 64) size
    let f := fun i n => leNat ((d.drop i).take n)
    let why := match cOp c with
      | 0x01 => gatherRefusal f
      | 0x02 => yardRefusal f
      | 0x03 => expertRefusal false 0 f
      | 0x04 => expertRefusal true (elemWidth (cFmtD c)) f
      | _ => pointsRefusal s (tileBrick t) f
    match why with
    | some w => refuseSieve t cmd w s
    | none =>
      let pos : SievePos := match cOp c with
        | 0x01 => .gather {}
        | 0x02 => .yard 0 0
        | 0x03 => .dispatch {}
        | 0x04 => .combine {}
        | _ => .points { startedAt := s.plumb.toNat }
      let s := s.onSieve t (fun S => { S with queue := S.queue.drop 1, run := some { cmd := cmd, desc := d, pos := pos } })
      let s := ((s.wr (Reg.SVE_STAT_STATE t) svRunning).wr (Reg.SVE_STAT_OP t) (cOp c)).wr (Reg.SVE_STAT_PROG t) 0
      let slots := f 0 4 * f 4 2
      match cOp c with
      | 0x03 =>
        let (rs, s) := readTable (routingAt t (f 20 4)) slots s
        moveTo t (.dispatch { routing := rs }) s
      | 0x04 =>
        let (rs, s) := readTable (routingAt t (f 20 4)) slots s
        let (ls, s) := readTable (landingAt t (f 24 4)) slots s
        moveTo t (.combine { routing := rs, landing := ls, acc := List.replicate (f 16 4) 0x80000000 }) s
      | _ => s

/-! ### Requests and their answers (R683, R684, R692) -/

/-- The next request of the command's step issued, where the tile's queue has room (R191); a SIGADD is a release (R230, R696). -/
def sieveIssue (t : Tile) (s : State) : State :=
  match (s.sieve t).run with
  | none => s
  | some r =>
    match r.pieces with
    | [] => s
    | op :: ops =>
      if queueFull s t then s else
      let n := (s.sieve t).item + 1
      let s := s.onSieve t (fun S => { S with item := n, run := some { r with pieces := ops, waiting := true } })
      let s := match r.pos with
        | .yard _ _ => tally t 38 1 s
        | _ => s
      if op.opc = 0x31 then beginRelease t op false [] (.sieve t.val n) (logSignal t op.addr s)
      else issueOp (tileBrick t) (.sieve t.val n) op s

/-- The status byte that an outcome other than Completed with 0x00 or 0x41 counts as (R692). -/
def outcomeStatus (r : Result) : Nat :=
  match r.kind with
  | .unsettled => 0xF1
  | .unreachable => 0xF2
  | _ => r.status

/-- The answer of the outstanding request, where it has come. A request reported in doubt sets INDOUBT and is waited for (R684). -/
def sieveTake (t : Tile) (s : State) : State :=
  match (s.sieve t).run with
  | none => s
  | some r =>
    if !r.waiting then s else
    match takeResult (fun i => i == .sieve t.val (s.sieve t).item) s with
    | none => s
    | some (x, s) =>
      if x.kind = .inDoubt then s.flag (Reg.SVE_ERR_INDOUBT t) else
      if x.kind = .completed && x.status = 0 then
        s.onRun t (fun r => { r with waiting := false, got := r.got ++ (if x.op.opc = 0x01 then padTo x.op.size x.data else x.data) })
      else if x.kind = .completed && x.op.opc = 0x01 && x.status = 0x41 then
        notePoison t true (s.onRun t (fun r =>
          { r with waiting := false, poison := r.poison ++ [(r.got.length, x.op.size)], got := r.got ++ padTo x.op.size x.data }))
      else
        s.onRun t (fun r => { r with waiting := false, fail := some (outcomeStatus x), pieces := [],
                                     got := if x.op.opc.toNat / 16 = 5 then x.data else r.got })

/-! ### GATHER (R686 to R689) -/

/-- A class-0x5 request of the sieve. -/
def yardRequest (lbl : Nat) (addr : Nat) (opc : Nat) (payload : Bytes) : Op :=
  { addr := BitVec.ofNat 64 addr, opc := BitVec.ofNat 8 opc, aux := 0, lbl := labelOf lbl, size := payload.length, payload := payload }

/-- The yard table of a GATHER: address, seat and brick of each entry (R687). -/
def yardTable (s : State) (t : Tile) (r : SieveRun) : List (Nat × Nat × Nat) :=
  (List.range (r.num 48 2)).map (fun k =>
    let bs := storeBytes s t (r.num 40 4 + 16 * k) 16
    (leNat (bs.take 8), leNat ((bs.drop 8).take 2), leNat ((bs.drop 10).take 1) % 4))

/-- Zeros written over the unread blocks of an entry's range, from block `i` on (R689). -/
def zeroBlocks (t : Tile) (r : SieveRun) (entry i nblk : Nat) (s : State) : State :=
  let rlen := r.num 32 4
  if bitOf (r.num 26 1) 1 && nblk * rlen ≤ r.num 20 4 then
    storePut t (r.num 16 4 + r.num 20 4 * entry + rlen * i) (List.replicate (rlen * (nblk - i)) 0) false s
  else s

/-- An entry of a GATHER ends with a status (R689). -/
def endEntry (t : Tile) (r : SieveRun) (g : GatherPos) (status : Nat) (s : State) : State :=
  let counts := status ≠ 0 && status ≠ 7
  let s := storePut t (r.num 36 4 + g.entry) [BitVec.ofNat 8 status] false s
  let s := if status ≠ 0 then tally t 36 1 s else s
  let s := if counts then itemError t s else s
  let g := { g with entry := g.entry + 1, block := 0, failed := g.failed + bit counts, phase := if g.entry + 1 = r.num 12 4 then GatherPhase.unpin else .entry }
  moveTo t (.gather g) (progress t g.entry s)

/-- The next step of a GATHER: its requests. Between entries a suspending sieve stops, and a cancelled command gives up its remaining entries
(R680, R713). -/
def gatherAsk (t : Tile) (r : SieveRun) (g : GatherPos) (s : State) : State :=
  let lbl := r.cmd.lbl
  let man := r.num 0 8
  match g.phase with
  | .header => askFor t (sieveLoads lbl man 64 512) s
  | .entry =>
    if sieveState s t = svCancelling then
      let rest := r.num 12 4 - g.entry
      let s := storePut t (r.num 36 4 + g.entry) (List.replicate rest 8) false s
      moveTo t (.gather { g with phase := .unpin, failed := g.failed + rest }) (if rest = 0 then s else itemError t (tally t 36 rest s))
    else if sieveState s t = svRunning then askFor t (sieveLoads lbl (man + 64 + 64 * (r.num 8 4 + g.entry)) 64 512) s
    else s
  | .chain => askFor t (sieveLoads lbl (g.chain + 8 * (g.lg * g.block + r.num 24 2)) 8 512) s
  | .pin =>
    match (yardTable s t r)[g.yard]? with
    | some y => askFor t [yardRequest lbl y.1 0x56 ([2] ++ List.replicate 7 0)] s
    | none => s
  | .slab =>
    match (yardTable s t r)[g.yard]? with
    | some y => askFor t (sieveLoads lbl (y.1 + 32 * bitsOf g.link 39 16) 32 512) s
    | none => s
  | .data => s
  | .unpin =>
    match r.pins with
    | [] => finishItems t g.failed (r.num 12 4) s
    | (a, ep) :: _ => askFor t [yardRequest lbl a.toNat 0x56 ([3, 0] ++ leBytes 2 ep ++ leBytes 4 0)] s

/-- The requests that read a block's data (R688): 512 B at most, or 32 B on the grout path. -/
def blockLoads (r : SieveRun) (g : GatherPos) (sloc : Nat) : List Op :=
  let a := bitsOf g.link 63 48 * 2 ^ 48 + bitsOf sloc 31 28 * 2 ^ 44 + bitsOf sloc 27 0 * 0x10000 + r.num 28 4
  sieveLoads r.cmd.lbl a (r.num 32 4) (if bitOf (r.num 26 1) 0 then 32 else 512)

/-- A step of a GATHER answered (R688, R689). A manifest that does not hold its entries fails the command: SVE_ERR has no field for a reason, so
ITEMERR alone shows it, and the summary counts no item (DEDUCED, log entry 220). -/
def gatherAnswered (t : Tile) (r : SieveRun) (g : GatherPos) (s : State) : State :=
  let f := fun i n => leNat ((r.got.drop i).take n)
  let bad : Option Nat := if r.fail.isSome then some 4 else if r.poison.isEmpty then none else some 3
  let failAt := fun (status : Nat) (s : State) => endEntry t r g status (zeroBlocks t r g.entry g.block g.nblk s)
  match g.phase with
  | .header =>
    if bad.isSome || f 0 4 < r.num 8 4 + r.num 12 4 || f 4 1 ≤ r.num 24 2 then
      finishItems t 0 (r.num 12 4) (itemError t s)
    else moveTo t (.gather { g with phase := .entry, lg := f 4 1 }) s
  | .entry =>
    let g := { g with block := 0, nblk := f 32 4, chain := f 24 8 }
    match bad with
    | some x => endEntry t r g x s
    | none =>
      if bitOf (f 6 1) 1 then endEntry t r g 7 (zeroBlocks t r g.entry 0 g.nblk s)
      else if r.num 20 4 < g.nblk * r.num 32 4 then endEntry t r g 6 s
      else if g.nblk = 0 then endEntry t r g 0 s
      else moveTo t (.gather { g with phase := .chain }) s
  | .chain =>
    match bad with
    | some x => failAt x s
    | none =>
      let link := f 0 8
      let ys := yardTable s t r
      match ys.findIdx? (fun y => y.2.1 = bitsOf link 63 48 && y.2.2 = bitsOf link 47 46) with
      | none => failAt 5 s
      | some k =>
        let pinned := match ys[k]? with
          | some y => r.pins.any (fun p => p.1.toNat = y.1)
          | none => true
        moveTo t (.gather { g with link := link, yard := k, phase := if pinned then .slab else .pin }) s
  | .pin =>
    if bad.isSome then failAt 5 s else
    match (yardTable s t r)[g.yard]? with
    | some y => moveTo t (.gather { g with phase := .slab }) (s.onRun t (fun r => { r with pins := r.pins ++ [(BitVec.ofNat 64 y.1, f 0 2)] }))
    | none => failAt 5 s
  | .slab =>
    match bad with
    | some x => failAt x s
    | none =>
      if f 19 1 % 4 ≠ 1 || f 16 2 ≠ bitsOf g.link 15 0 then failAt 1 s
      else if bitOf (f 6 2) 2 then failAt 2 s
      else askFor t (blockLoads r g (f 0 4)) (s.onRun t (fun r => { r with pos := .gather { g with phase := .data } }))
  | .data =>
    if r.fail.isSome then failAt 4 s else
    let at' := r.num 16 4 + r.num 20 4 * g.entry + r.num 32 4 * g.block
    let s := storePut t at' r.got false s
    let s := s.each r.poison (fun s p => storePut t (at' + p.1) ((r.got.drop p.1).take p.2) true s)
    let s := tally t 35 r.got.length (s.count (Reg.SVE_CNT1_SLABS t) 1)
    let g := { g with block := g.block + 1 }
    if !r.poison.isEmpty then endEntry t r g 3 (zeroBlocks t r g.entry g.block g.nblk s)
    else if g.block = g.nblk then endEntry t r g 0 s
    else moveTo t (.gather { g with phase := .chain }) s
  | .unpin =>
    let s := if bad.isSome then itemError t s else s
    moveTo t (.gather g) (s.onRun t (fun r => { r with pins := r.pins.drop 1 }))

/-! ### YARD (R690 to R692, R655) -/

/-- The pin ledger after a YARD request that completed (R655): a pin enters it, an unpin leaves it. -/
def ledgerAfter (l : List (Word × Nat × Nat)) (addr : Word) (sub ep : Nat) : List (Word × Nat × Nat) :=
  if sub = 2 then
    if l.any (fun x => x.1 = addr && x.2.1 = ep) then l.map (fun x => if x.1 = addr && x.2.1 = ep then (x.1, x.2.1, x.2.2 + 1) else x)
    else l ++ [(addr, ep, 1)]
  else if sub = 3 then
    (l.map (fun x => if x.1 = addr && x.2.1 = ep then (x.1, x.2.1, x.2.2 - 1) else x)).filter (fun x => x.2.2 ≠ 0)
  else l

/-- A result slot of a YARD written (R692). -/
def endRequest (t : Tile) (r : SieveRun) (k failed status : Nat) (data : Bytes) (s : State) : State :=
  let s := storePut t (r.num 8 4 + 32 * k) ([BitVec.ofNat 8 status] ++ List.replicate 7 0 ++ padTo 24 data) false s
  let bad := status ≠ 0x00 && status ≠ 0x5A
  moveTo t (.yard (k + 1) (failed + bit bad)) (progress t (k + 1) (if bad then itemError t s else s))

/-- Entry `k` of a YARD's table: address, operation code, payload, and whether it may be sent (R690, R691). -/
def yardEntry (t : Tile) (r : SieveRun) (k : Nat) (s : State) : (Word × Nat × Bytes × Bool) × State :=
  let (bs, bad, s) := sieveRead t (r.num 4 4 + 16 * k) 16 s
  let f := fun i n => leNat ((bs.drop i).take n)
  let n := f 10 2
  let ok := !bad && f 9 1 = 0 && 0x51 ≤ f 8 1 && f 8 1 ≤ 0x5A && n ≤ 512 && inStore (f 12 4) n
  if ok then
    let (p, bad', s) := sieveRead t (f 12 4) n s
    ((BitVec.ofNat 64 (f 0 8), f 8 1, p, !bad'), notePoison t bad' s)
  else ((0, 0, [], false), notePoison t bad s)

/-- The next request of a YARD. An entry that may not be sent takes status 0x01, a pin for which the ledger has no room 0xF4, and the rest of a
cancelled command 0xF3. -/
def yardAsk (t : Tile) (r : SieveRun) (k failed : Nat) (s : State) : State :=
  if k = r.num 0 4 then finishItems t failed (r.num 0 4) s
  else if sieveState s t = svCancelling then endRequest t r k failed 0xF3 [] s
  else if sieveState s t ≠ svRunning then s
  else
    let (x, s) := yardEntry t r k s
    if !x.2.2.2 then endRequest t r k failed 0x01 [] s
    else if x.2.1 = 0x56 && leNat (x.2.2.1.take 1) = 2 && 64 ≤ (s.sieve t).ledger.length then endRequest t r k failed 0xF4 [] s
    else askFor t [yardRequest r.cmd.lbl x.1.toNat x.2.1 x.2.2.1] (s.onRun t (fun r => { r with got := [] }))

/-- A request of a YARD answered. -/
def yardAnswered (t : Tile) (r : SieveRun) (k failed : Nat) (s : State) : State :=
  let (x, s) := yardEntry t r k s
  let sub := leNat (x.2.2.1.take 1)
  let s := if x.2.1 = 0x56 && r.fail.isNone then
      let ep := if sub = 2 then leNat (r.got.take 2) else leNat ((x.2.2.1.drop 2).take 2)
      s.onSieve t (fun S => { S with ledger := ledgerAfter S.ledger x.1 sub ep })
    else s
  endRequest t r k failed (r.fail.getD 0) r.got s

/-! ### DISPATCH (R693 to R699) -/

/-- A field of expert `e`'s table entry (R695). -/
def expertField (s : State) (t : Tile) (r : SieveRun) (e off n : Nat) : Nat := leNat (storeBytes s t (r.num 28 4 + 64 * e + off) n)

/-- Slots routed to expert `e`, and of those the ones before slot `q`. -/
def routedTo (d : DispatchPos) (e q : Nat) : Nat := ((d.routing.take q).filter (fun x => x.1 = e)).length

/-- A landing entry written (R698); a row that the rules do not give is undefined. -/
def land (t : Tile) (r : SieveRun) (q e status : Nat) (row : Option Nat) (s : State) : State :=
  let (k, s) := match row with
    | some x => (x, s)
    | none =>
      let (i, s) := s.draw 1
      ((Config.freeWord i).toNat, s)
  storePut t (r.num 24 4 + 8 * q) (leBytes 2 e ++ [BitVec.ofNat 8 status, 0] ++ leBytes 4 k) false s

/-- The header of a row (R697). -/
def rowHeader (s : State) (t : Tile) (ksel q weight : Nat) : Bytes :=
  leBytes 2 s.ownSeatNo ++ [BitVec.ofNat 8 t.val, BitVec.ofNat 8 (q % ksel)] ++ leBytes 4 (q / ksel) ++ leBytes 4 weight ++ leBytes 4 0

/-- A slot of a DISPATCH ends (R698). -/
def endSlot (t : Tile) (r : SieveRun) (d : DispatchPos) (e status : Nat) (row : Option Nat) (s : State) : State :=
  let bad := status ≠ 0 && status ≠ 4
  let s := land t r d.next e status row s
  let s := if status = 0 then tally t 40 1 (s.count (Reg.SVE_CNT1_ROWS t) 1) else if status = 1 then tally t 41 1 s else s
  let s := if bad then itemError t s else s
  moveTo t (.dispatch { d with next := d.next + 1, failed := d.failed + bit bad, rows := d.rows + bit (status == 0) }) (progress t (d.next + 1) s)

/-- Rows dropped of expert `e`. -/
def droppedOf (s : State) (t : Tile) (r : SieveRun) (d : DispatchPos) (e : Nat) : Nat :=
  match tabFind d.base e with
  | none => 0
  | some b =>
    let n := routedTo d e d.routing.length
    n - min n (expertField s t r e 16 4 - b)

/-- The next step of a DISPATCH (R696, R699). -/
def dispatchAsk (t : Tile) (r : SieveRun) (d : DispatchPos) (s : State) : State :=
  let lbl := r.cmd.lbl
  let nexp := r.num 6 2
  match d.phase with
  | .reserve =>
    match (List.range nexp).find? (fun e => decide (d.next ≤ e) && decide (0 < routedTo d e d.routing.length)) with
    | none => moveTo t (.dispatch { d with phase := .row, next := 0 }) s
    | some e =>
      askFor t [{ addr := BitVec.ofNat 64 (expertField s t r e 0 8), opc := 0x13, aux := 0, lbl := labelOf lbl, size := 4,
                  payload := leBytes 4 (routedTo d e d.routing.length) }] (s.onRun t (fun r => { r with pos := .dispatch { d with next := e } }))
  | .row =>
    match d.routing[d.next]? with
    | none => moveTo t (.dispatch { d with phase := .signal, next := 0 }) s
    | some (e, w) =>
      if e = 0xFFFF then endSlot t r d e 4 none s
      else if nexp ≤ e then endSlot t r d e 5 none s
      else match tabFind d.base e with
        | none => endSlot t r d e 2 none s
        | some b =>
          let row := (b + routedTo d e d.next) % 2 ^ 32
          if expertField s t r e 16 4 ≤ row then endSlot t r d e 1 (some row) s else
          let rb := r.num 16 4
          let (bs, bad, s) := sieveRead t (r.num 8 4 + r.num 12 4 * (d.next / r.num 4 2)) rb s
          let s := notePoison t bad s
          askFor t (sieveStores lbl (expertField s t r e 8 8 + expertField s t r e 20 4 * row) (rowHeader s t (r.num 4 2) d.next w ++ bs)) s
  | .signal =>
    match (List.range nexp).find? (fun e => decide (d.next ≤ e) && expertField s t r e 24 8 ≠ 0) with
    | none =>
      let s := s.each (List.range nexp) (fun s e => if droppedOf s t r d e = 0 then s else s.raise 0x3303 [t.val, e, droppedOf s t r d e])
      finishItems t d.failed d.routing.length s
    | some e =>
      askFor t [{ addr := BitVec.ofNat 64 (expertField s t r e 24 8), opc := 0x31, aux := 0, lbl := labelOf lbl, size := 8, payload := leBytes 8 1 }]
        (s.onRun t (fun r => { r with pos := .dispatch { d with next := e } }))

/-- A step of a DISPATCH answered. -/
def dispatchAnswered (t : Tile) (r : SieveRun) (d : DispatchPos) (s : State) : State :=
  match d.phase with
  | .reserve =>
    let d := if r.fail.isNone then { d with base := tabPut d.base d.next (leNat (r.got.take 4)) } else { d with refused := d.refused ++ [d.next] }
    moveTo t (.dispatch { d with next := d.next + 1 }) s
  | .row =>
    match d.routing[d.next]? with
    | none => s
    | some (e, _) =>
      let row := match tabFind d.base e with
        | some b => (b + routedTo d e d.next) % 2 ^ 32
        | none => 0
      endSlot t r d e (if r.fail.isNone then 0 else 3) (some row) s
  | .signal => moveTo t (.dispatch { d with next := d.next + 1 }) (if r.fail.isNone then s else itemError t s)

/-! ### COMBINE (R700, R701) -/

/-- A COMBINE's output row written (R700): converted under the modes of R468, and poisoned where a load of its token was. -/
def writeToken (t : Tile) (r : SieveRun) (c : CombinePos) (s : State) : State :=
  let fmt := cFmtD r.cmd.word
  let convs := c.acc.map (fun a => if fmt = 2 then toBf16 r.cmd.rtz (f32 a) else ({ code := a } : Conv))
  let bs := convs.flatMap (fun k => leBytes (elemWidth fmt) k.code)
  let s := storePut t (r.num 8 4 + r.num 12 4 * c.token) bs c.bad s
  tally t 43 1 (if c.bad then s else noteConvs t convs s)

/-- The next step of a COMBINE. -/
def combineAsk (t : Tile) (r : SieveRun) (c : CombinePos) (s : State) : State :=
  let ksel := r.num 4 2
  let nel := r.num 16 4
  if c.token = r.num 0 4 then finishItems t c.failed (r.num 0 4) s
  else if c.slot = ksel then
    let s := writeToken t r c s
    let s := if c.miss then itemError t s else s
    moveTo t (.combine { c with token := c.token + 1, slot := 0, acc := List.replicate nel 0x80000000, bad := false, miss := false, failed := c.failed + bit c.miss })
      (progress t (c.token + 1) s)
  else
    match c.landing[ksel * c.token + c.slot]? with
    | none => s
    | some (e, status, row) =>
      if status ≠ 0 || r.num 6 2 ≤ e then moveTo t (.combine { c with slot := c.slot + 1, miss := c.miss || status ≠ 4 }) s
      else
        askFor t (sieveLoads r.cmd.lbl (expertField s t r e 32 8 + expertField s t r e 40 4 * row) (nel * elemWidth (cFmtA r.cmd.word)) 512) s

/-- A step of a COMBINE answered: the slot's elements weighted into the accumulators, or the slot's landing status 0x6. -/
def combineAnswered (t : Tile) (r : SieveRun) (c : CombinePos) (s : State) : State :=
  let q := r.num 4 2 * c.token + c.slot
  if r.fail.isSome then
    let s := storePut t (r.num 24 4 + 8 * q + 2) [6] false s
    moveTo t (.combine { c with slot := c.slot + 1, miss := true }) s
  else
    let w := (c.routing.getD q (0, 0)).2
    let width := elemWidth (cFmtA r.cmd.word)
    let xs := (elemsOf width r.got).map (fun x => if width = 2 then bf16to32 x else x)
    let acc := List.zipWith (fun a x => f32add a (f32mul w x)) c.acc xs
    moveTo t (.combine { c with slot := c.slot + 1, acc := acc, bad := c.bad || !r.poison.isEmpty }) s

/-! ### POINTS (R702 to R711) -/

/-- The integer part of a floating value that is not negative, and whether it lies in [0, n). -/
def gridIndex (u : Nat) (n : Nat) : Option Nat :=
  match f32 u with
  | .fin neg m e =>
    let i := if 0 ≤ e then m * 2 ^ e.toNat else m / 2 ^ (-e).toNat
    if (neg && m ≠ 0) || n ≤ i then none else some i
  | _ => none

/-- What a point comes to (R705). -/
inductive PointFate where
  | nan
  | outside
  | voxel (coords : List Nat) (ix iy iz : Nat)
  deriving DecidableEq, Repr

/-- One axis of a point: the transformed coordinate and its scaled offset (R705). -/
def pointAxis (m : List Nat) (x y z o inve : Nat) : Nat × Nat :=
  let q := f32add (f32add (f32mul (m.getD 0 0) x) (f32mul (m.getD 1 0) y)) (f32mul (m.getD 2 0) z)
  let p := f32add q (m.getD 3 0)
  (p, f32mul (f32sub p o) inve)

/-- A point placed at a level (R705). -/
def placePoint (r : SieveRun) (p : PointsPos) (bs : Bytes) : PointFate :=
  let f := fun i n => leNat ((bs.drop i).take n)
  let slice := min (f 14 2 / r.num 38 2) (r.num 36 2 - 1)
  let m := elemsOf 4 ((p.poses.drop (48 * slice)).take 48)
  let axis := fun a => pointAxis ((m.drop (4 * a)).take 4) (f 0 4) (f 4 4) (f 8 4) (r.num (48 + 4 * a) 4) (r.num 60 4)
  let go := fun a => (f32 (axis a).2).isNan
  let ix := fun a => gridIndex (axis a).2 (r.num (64 + 2 * a) 2)
  if go 0 then .nan else match ix 0 with
  | none => .outside
  | some i => if go 1 then .nan else match ix 1 with
    | none => .outside
    | some j => if go 2 then .nan else match ix 2 with
      | none => .outside
      | some k => .voxel [(axis 0).1, (axis 1).1, (axis 2).1] (i / 2 ^ p.level) (j / 2 ^ p.level) (k / 2 ^ p.level)

/-- First hash-table slot of a key (R705). -/
def hashSlot (key hbits : Nat) : Nat := key * 0x9E3779B97F4A7C15 % 2 ^ 64 / 2 ^ (64 - hbits)

/-- Intensity of a point, widened exactly (R465, R707). -/
def intensityOf (bs : Bytes) : Nat := fmtFP32.enc (fmtFP16.dec (leNat ((bs.drop 12).take 2)))

/-- The larger intensity, NaN ignored; one that is all NaN is undefined. -/
def maxIntensity (a b : Nat) : Nat := if (f32 b).isNan then a else if (f32 a).cmp (f32 b) = some .lt then b else a

/-- A voxel record with one more point (R707); `old` is none for the first. -/
def voxelRecord (p : PointsPos) (old : Option Bytes) (maxI : Nat) : Bytes :=
  let f := fun i n => leNat (((old.getD []).drop i).take n)
  let add := fun off x => match old with
    | some _ => f32add (f off 4) x
    | none => x
  let tim := leNat ((p.point.drop 14).take 2)
  let c := fun a => p.coords.getD a 0
  leBytes 2 (bitsOf p.key 15 0) ++ leBytes 2 (bitsOf p.key 31 16) ++ leBytes 2 (bitsOf p.key 47 32) ++ [BitVec.ofNat 8 p.level, 0] ++
  leBytes 4 (f 8 4 + 1) ++ leBytes 4 0 ++ leBytes 4 (add 16 (c 0)) ++ leBytes 4 (add 20 (c 1)) ++ leBytes 4 (add 24 (c 2)) ++
  leBytes 4 (add 28 (intensityOf p.point)) ++ leBytes 4 maxI ++
  leBytes 2 (if old.isSome then min (f 36 2) tim else tim) ++ leBytes 2 (if old.isSome then max (f 38 2) tim else tim) ++
  leBytes 4 (add 40 (f32mul (c 0) (c 0))) ++ leBytes 4 (add 44 (f32mul (c 1) (c 1))) ++ leBytes 4 (add 48 (f32mul (c 2) (c 2))) ++ List.replicate 12 0

/-- The bytes of a stack range left undefined (R710, R713): those that the command's requester may store to, so that no other party's bytes change
(R29, R866). -/
def leaveUndefined (w : Who) (a n : Nat) (e : MemEnv) (s : State) : State :=
  s.each (piecesOf 64 (addrOffset a) n) (fun s p =>
    if keyGrants s w rightST (addrRegion a) p.1 p.2 none then
      let (free, s) := s.freeBytes p.2
      (homeWrite (stackOf (addrRegion a)) p.1 free e s).2
    else s)

/-- A frame ends (R711): its record, its flags, its event and its summary. End states 0 done, 1 rejected, 2 cancelled, 3 failed. -/
def endFrame (t : Tile) (r : SieveRun) (p : PointsPos) (state reason : Nat) (e : MemEnv) (s : State) : State :=
  let voxels := if state = 1 then 0 else p.voxels
  let rec' := [BitVec.ofNat 8 state, BitVec.ofNat 8 p.level, BitVec.ofNat 8 (bit p.trunc), BitVec.ofNat 8 reason] ++ leBytes 4 voxels ++ leBytes 4 p.used ++
    leBytes 4 p.outside ++ leBytes 4 p.nan ++ leBytes 4 p.budget ++ leBytes 4 p.poisoned ++ leBytes 8 p.startedAt ++ leBytes 8 s.plumb.toNat
  let s := storePut t (r.num 72 4) (padTo 64 rec') false s
  let s := if state = 1 || state = 2 then
      let w := s.own r.cmd.lbl
      leaveUndefined w (r.num 24 8) (64 * frameBudget r.num) e (leaveUndefined w (r.num 16 8) (16 * 2 ^ r.num 44 1) e s)
    else s
  let s := if state ≠ 0 then s.flag (Reg.SVE_ERR_FRAME t) else s
  let s := if p.trunc then s.flag (Reg.SVE_ERR_TRUNC t) else s
  let s := if state ≠ 0 || p.trunc then s.raise 0x3305 [t.val, state, reason] else s
  let s := (s.count (Reg.SVE_CNT2_POINTS t) p.used).count (Reg.SVE_CNT2_VOXELS t) voxels
  let s := tally t 45 p.used (tally t 46 voxels s)
  finishSieve t voxels (decide (0 < p.level)) p.trunc s

/-- The next point, or the end of the frame. -/
def nextPoint (t : Tile) (p : PointsPos) (s : State) : State :=
  moveTo t (.points { p with phase := .point, next := p.next + 1 }) (progress t (p.next + 1) s)

/-- The next step of a frame (R708 to R710). -/
def pointsAsk (t : Tile) (r : SieveRun) (p : PointsPos) (e : MemEnv) (s : State) : State :=
  let lbl := r.cmd.lbl
  let htab := r.num 16 8
  let out := r.num 24 8
  if sieveState s t = svCancelling then endFrame t r p 2 0 e s else
  match p.phase with
  | .poses =>
    if 4194304 < r.num 32 4 then endFrame t r p 1 1 e s
    else askFor t (sieveLoads lbl (r.num 8 8) (48 * r.num 36 2) 512) s
  | .clear => askFor t (sieveStores lbl (htab + 512 * p.next) (List.replicate 512 0)) s
  | .point => if p.next = r.num 32 4 then endFrame t r p 0 0 e s else askFor t (sieveLoads lbl (r.num 0 8 + 16 * p.next) 16 512) s
  | .probe => askFor t (sieveLoads lbl (htab + 16 * p.slot) 16 512) s
  | .open' => askFor t (sieveStores lbl (htab + 16 * p.slot) (leBytes 8 p.key ++ leBytes 4 p.voxels ++ [1, 0, 0, 0])) s
  | .record => askFor t (sieveLoads lbl (out + 64 * p.index) 64 512) s
  | .write =>
    let i := intensityOf p.point
    let (m, s) := if (f32 i).isNan then
        let (k, s) := s.draw 1
        ((Config.freeWord k).toNat % 2 ^ 32, s)
      else (i, s)
    let p := if (f32 i).isNan then { p with nanOnly := p.index :: p.nanOnly } else p
    askFor t (sieveStores lbl (out + 64 * p.index) (voxelRecord p none m)) (s.onRun t (fun r => { r with pos := .points p }))

/-- A step of a frame answered (R705 to R709). -/
def pointsAnswered (t : Tile) (r : SieveRun) (p : PointsPos) (e : MemEnv) (s : State) : State :=
  let f := fun i n => leNat ((r.got.drop i).take n)
  let hbits := r.num 44 1
  if r.fail.isSome then endFrame t r p 3 4 e s else
  match p.phase with
  | .poses =>
    if !r.poison.isEmpty then endFrame t r p 3 3 e s
    else moveTo t (.points { p with phase := .clear, next := 0, poses := r.got }) s
  | .clear =>
    if p.next + 1 = 2 ^ hbits * 16 / 512 then moveTo t (.points { p with phase := .point, next := 0 }) (progress t 0 s)
    else moveTo t (.points { p with next := p.next + 1 }) s
  | .point =>
    if !r.poison.isEmpty then nextPoint t { p with poisoned := p.poisoned + 1 } s else
    match placePoint r p r.got with
    | .nan => nextPoint t { p with nan := p.nan + 1 } s
    | .outside => nextPoint t { p with outside := p.outside + 1 } s
    | .voxel cs ix iy iz =>
      let key := p.level * 2 ^ 48 + iz * 2 ^ 32 + iy * 2 ^ 16 + ix
      moveTo t (.points { p with phase := .probe, point := r.got, coords := cs, key := key, slot := hashSlot key hbits }) s
  | .probe =>
    if !r.poison.isEmpty then endFrame t r p 3 3 e s
    else if bitOf (f 12 1) 0 then
      if f 0 8 = p.key then moveTo t (.points { p with phase := .record, index := f 8 4 }) s
      else moveTo t (.points { p with slot := (p.slot + 1) % 2 ^ hbits }) s
    else if p.voxels < frameBudget r.num then moveTo t (.points { p with phase := .open', index := p.voxels }) s
    else if r.num 45 1 % 2 = 1 then endFrame t r p 1 2 e s
    else if p.level < 3 then
      moveTo t (.points { phase := .clear, startedAt := p.startedAt, level := p.level + 1, poses := p.poses }) s
    else nextPoint t { p with budget := p.budget + 1, trunc := true } s
  | .open' => moveTo t (.points { p with phase := .write, voxels := p.voxels + 1 }) s
  | .record =>
    if !r.poison.isEmpty then endFrame t r p 3 3 e s else
    let i := intensityOf p.point
    let first := p.nanOnly.contains p.index
    let (m, s) := if first && (f32 i).isNan then
        let (k, s) := s.draw 1
        ((Config.freeWord k).toNat % 2 ^ 32, s)
      else (if first then i else maxIntensity (f 32 4) i, s)
    let p := if (f32 i).isNan then p else { p with nanOnly := p.nanOnly.filter (fun x => x ≠ p.index) }
    askFor t (sieveStores r.cmd.lbl (r.num 24 8 + 64 * p.index) (voxelRecord p (some r.got) m))
      (s.onRun t (fun r => { r with pos := .points { p with phase := .write } }))
  | .write => nextPoint t { p with used := p.used + 1 } s

/-! ### Commands -/

/-- The step of the command in progress: the answer that has come is taken, and the next request goes out. -/
def stepSieve (t : Tile) (e : MemEnv) (s : State) : State :=
  let s := sieveTake t s
  match (s.sieve t).run with
  | none => s
  | some r =>
    if r.waiting || r.done.isSome then s else
    let stop := sieveState s t = svCancelling && (match r.pos with
      | .points _ => true
      | _ => false)
    let s := if !r.asked || stop then
        (match r.pos with
          | .gather g => gatherAsk t r g s
          | .yard k n => yardAsk t r k n s
          | .dispatch d => dispatchAsk t r d s
          | .combine c => combineAsk t r c s
          | .points p => pointsAsk t r p e s)
      else if r.pieces.isEmpty then
        (match r.pos with
          | .gather g => gatherAnswered t r g s
          | .yard k n => yardAnswered t r k n s
          | .dispatch d => dispatchAnswered t r d s
          | .combine c => combineAnswered t r c s
          | .points p => pointsAnswered t r p e s)
      else s
    sieveIssue t s

/-- One command row of the sieve: it starts the command at the head of the queue where its OP is the row's, and otherwise takes the command in
progress one step on. A site in IDLE goes on with the command in progress (R715). -/
def sieveRow (t : Tile) (mine : Nat → Bool) (e : MemEnv) (s : State) : State :=
  match (s.sieve t).run with
  | none => startSieve t mine e s
  | some r => if mine (cOp r.cmd.word) && tileGoes s t then stepSieve t e s else s

/-- GATHER (R686 to R689). A reserved OP at the head of the queue is refused here too (R680). -/
def execGather (t : Tile) (e : MemEnv) (s : State) : Host.Outcome State Fault Refusal := ended s <| .next (sieveRow t (fun op => op == 1 || op == 0 || decide (5 < op)) e s)

/-- SIEVE_YARD (R690 to R692). -/
def execSieveYard (t : Tile) (e : MemEnv) (s : State) : Host.Outcome State Fault Refusal := ended s <| .next (sieveRow t (fun op => op == 2) e s)

/-- DISPATCH (R693 to R699). -/
def execDispatch (t : Tile) (e : MemEnv) (s : State) : Host.Outcome State Fault Refusal := ended s <| .next (sieveRow t (fun op => op == 3) e s)

/-- COMBINE (R700, R701). -/
def execCombine (t : Tile) (e : MemEnv) (s : State) : Host.Outcome State Fault Refusal := ended s <| .next (sieveRow t (fun op => op == 4) e s)

/-- POINTS (R702 to R711). -/
def execPoints (t : Tile) (e : MemEnv) (s : State) : Host.Outcome State Fault Refusal := ended s <| .next (sieveRow t (fun op => op == 5) e s)

/-- SIEVE_COMMAND_COMPLETE (R684, R685, R712): the summary is written, and STATE becomes what it was asked to become. -/
def execSieveCommandComplete (t : Tile) (s : State) : Host.Outcome State Fault Refusal := ended s <|
  match (s.sieve t).run with
  | none => .next s
  | some r =>
    match r.done with
    | none => .next s
    | some v =>
      if !tileGoes s t then .next s else
      let op := cOp r.cmd.word
      let s := finishSummary t r.cmd v s
      let s := s.onSieve t (fun S => { S with run := none })
      let s := tally t (match op with
        | 1 => 34
        | 2 => 37
        | 3 => 39
        | 4 => 42
        | _ => 44) 1 (s.count (Reg.SVE_CNT0_CMDS t) 1)
      let s := if op ≠ 5 && sumVal v.toNat ≠ 0 then s.raise 0x3302 [t.val, op, sumVal v.toNat] else s
      let s := if r.pois then s.raise 0x3304 [t.val, op] else s
      let s := s.wr (Reg.SVE_STAT_OP t) 0
      .next (s.wr (Reg.SVE_STAT_STATE t) (if sieveState s t = svSuspending then svSuspended else 0))

/-- SIEVE_SUSP (R712): a write of SUSP, or a suspend request of the hold policy. -/
def suspendSieve (t : Tile) (s : State) : State :=
  if !tileServes s t || tileFenced s t then s else
  if sieveState s t = svRunning then s.wr (Reg.SVE_STAT_STATE t) svSuspending
  else if sieveState s t = 0 then s.wr (Reg.SVE_STAT_STATE t) svSuspended else s

/-- SIEVE_SUSP. -/
def execSieveSusp (t : Tile) (s : State) : Host.Outcome State Fault Refusal := ended s <| .next (suspendSieve t s)

/-- Whether a suspending sieve is at a suspension point (R680): between entries of a GATHER, or between requests of a YARD. -/
def atSuspension (r : SieveRun) : Bool :=
  !r.waiting && !r.asked && r.done.isNone && (match r.pos with
    | .gather g => g.phase == .entry
    | .yard _ _ => true
    | _ => false)

/-- SIEVE_SUSPENSION_POINT (R712). -/
def execSieveSuspensionPoint (t : Tile) (s : State) : Host.Outcome State Fault Refusal := ended s <|
  if !tileGoes s t then .next s else
  match (s.sieve t).run with
  | none => .next (if sieveState s t = svSuspending then s.wr (Reg.SVE_STAT_STATE t) svSuspended else s)
  | some r => .next (if sieveState s t = svSuspending && atSuspension r then s.wr (Reg.SVE_STAT_STATE t) svSuspended else s)

/-- SIEVE_RESUME (R712): the sieve runs on from the point reached; without a command in progress it is idle. -/
def resumeSieve (t : Tile) (s : State) : State :=
  if !tileServes s t || tileFenced s t then s else
  if sieveState s t = svSuspending || sieveState s t = svSuspended then
    s.wr (Reg.SVE_STAT_STATE t) (if (s.sieve t).run.isSome then svRunning else 0) else s

/-- SIEVE_RESUME. -/
def execSieveResume (t : Tile) (s : State) : Host.Outcome State Fault Refusal := ended s <| .next (resumeSieve t s)

/-- Every queued command ends as if refused, without the event (R712, R716). -/
def dropSieveQueue (t : Tile) (s : State) : State :=
  let q := (s.sieve t).queue
  let s := s.onSieve t (fun S => { S with queue := [] })
  s.each q (fun s cmd => ((finishSummary t cmd 0 s).flag (Reg.SVE_ERR_REFUSED t)).count (Reg.SVE_CNT0_REFUSALS t) 1)

/-- SIEVE_CANCEL (R712, R713): the queue is discarded, and the command in progress ends as its kind does. -/
def cancelSieve (t : Tile) (s : State) : State :=
  if !tileServes s t || tileFenced s t || sieveState s t = 0 then s else
  let s := dropSieveQueue t s
  s.wr (Reg.SVE_STAT_STATE t) (if (s.sieve t).run.isSome then svCancelling else 0)

/-- SIEVE_CANCEL. -/
def execSieveCancel (t : Tile) (s : State) : Host.Outcome State Fault Refusal := ended s <| .next (cancelSieve t s)

/-- SIEVE_CLRQ (R716): while the mason is Idle, Halted or Faulted. -/
def execSieveClrq (t : Tile) (s : State) : Host.Outcome State Fault Refusal := ended s <|
  if mayClear s t then .next (dropSieveQueue t s) else .next s

end Sys2Proof.Machine
end

