-- ==== Sys2Proof/Machine/Start.lean ====
section
/-! DEFINITION. Start and reset: the boot ROM, the power-on sequence, cold reset, loss of main power and the resets of a brick
(R305, R779, R783 to R797, R811 to R834). -/
namespace Sys2Proof.Machine
open Sys2Proof

/-! ### Kiln images (R791, R792) -/

/-- The image in a bank: 0 A, 1 B. -/
def bankImage (s : State) (bank : Nat) : Bytes := if bank = 0 then s.hod.bankA else s.hod.bankB

def imageVersion (img : Bytes) : Nat := numAt img 4 4
def imageSvn (img : Bytes) : Nat := numAt img 8 1
def imageKey (img : Bytes) : Bytes := (img.drop 64).take 97

/-- Whether an image has the form of R791: its magic, its length and its SVN. -/
def imageFormed (img : Bytes) : Bool :=
  numAt img 0 4 == 0x4E4C494B && decide (imageSvn img ≤ 64) && decide (numAt img 12 4 ≤ 0x7FF000) && decide (4096 + numAt img 12 4 ≤ img.length)

/-- The Hod status of the first condition of R792 that an image fails; 0 where it is valid. -/
def imageStatus (s : State) (img : Bytes) : Nat :=
  if !imageFormed img then 0x03
  else if sha384 (imageKey img) ≠ s.hod.fuses.rootHash || !ecdsaVerify (imageKey img) (sha384 (img.take 256)) ((img.drop 256).take 96) ||
      sha384 ((img.drop 4096).take (numAt img 12 4)) ≠ (img.drop 16).take 48 then 0x04
  else if imageSvn img < s.hod.fuses.counter then 0x05
  else 0x00

/-- The image of a bank that is to be run: the named one where it is valid, else the other (R811). -/
def bankToRun (s : State) (bank : Nat) : Option Nat :=
  if imageStatus s (bankImage s bank) = 0 then some bank
  else if imageStatus s (bankImage s (1 - bank)) = 0 then some (1 - bank)
  else none

/-! ### Boot (R794 to R797, R811) -/

/-- The trial is over without a commit (R794): the boot block names the previous bank, event 0x5004 gives the version that failed. -/
def trialFails (s : State) : State :=
  let h := s.hod
  let v := imageVersion (bankImage s h.boot.bank)
  let s := { s with hod := { h with boot := { bank := 1 - h.boot.bank, trial := false, tries := 0 } } }
  (s.flag Reg.HOD_ERR_TRIALFB).raise 0x5004 [v]

/-- The fuse bytes that measurement 5 covers (R796); their order is the model's (DESIGN CHOICE, log entry 62). -/
def fuseBytes (f : Fuses) : Bytes := f.rootHash ++ f.intKey.getD [] ++ [BitVec.ofNat 8 (bit f.sealReq), BitVec.ofNat 8 f.counter] ++ f.fmax.flatMap (leBytes 1)

/-- The measurement blocks 1 to 5 of the running state (R796). -/
def measure (s : State) : State :=
  let img := bankImage s s.hod.boot.bank
  let m := [sha384 Config.bootRom, sha384 (img.take (4096 + numAt img 12 4)),
    sha384 [BitVec.ofNat 8 (imageSvn img), BitVec.ofNat 8 s.hod.fuses.counter, BitVec.ofNat 8 (bit s.hod.boot.trial)], sha384 s.hod.sheet,
    sha384 (fuseBytes s.hod.fuses)]
  measureIdents { s with hod := { s.hod with meas := m ++ [[]] } }

/-- An image begins to run: HOD_STAT, HOD_VER, event 0x5001 (R794, R796, R810). -/
def runImage (bank : Nat) (s : State) : State :=
  let boot := s.hod.boot
  let s := { s with hod := { s.hod with
    running := true, boot := { boot with bank := bank, tries := if boot.trial then boot.tries + 1 else 0 }, trialAt := s.now, restart := none } }
  let img := bankImage s bank
  let s := ((s.wr Reg.HOD_STAT_BANK bank).wr Reg.HOD_STAT_SVN (imageSvn img)).wr Reg.HOD_STAT_TRIAL (bit boot.trial)
  let s := (s.wr Reg.HOD_VER_RUN (imageVersion img)).wr Reg.HOD_STAT_RECOV 0
  (measure s).raise 0x5001 [bank, imageVersion img, imageSvn img, bit boot.trial]

/-- The boot ROM chooses and runs an image (R794, R811): none where no bank is valid. A trial that has run once has failed. -/
def bootImage (s : State) : Option State :=
  let s := if s.hod.boot.trial && 1 ≤ s.hod.boot.tries then trialFails s else s
  match bankToRun s s.hod.boot.bank with
  | none => none
  | some k =>
    let s := if s.hod.boot.trial && k ≠ s.hod.boot.bank then trialFails s else s
    some (runImage k s)

/-- Recovery mode (R797): TRAY_INT_N asserted, no switched domain powered. -/
def enterRecovery (s : State) : State :=
  let s := { s with start := { s.start with recovery := true } }
  (s.wr Reg.HOD_STAT_RECOV 1).emit (.pin "TRAY_INT_N" 0)

/-! ### Seal (R790) -/

/-- Sealing (R790): SWAPOK of every port, SPARE of every brick, and the RWS fields read-only. -/
def sealPackage (s : State) : State :=
  if s.sealed then s else
  let s := s.each (List.range 24) (fun s p => match s.sheetRec p with
    | some r => s.wr (Reg.MRT_PCTL_SWAPOK p) (bit (recSwapOk r))
    | none => s)
  let s := s.each (List.range 4) (fun s b => s.wr (Reg.PWR_SITEMAP_SPARE b) (s.hod.spare.getD b 0x20))
  ({ s with sealed := true }.wr Reg.HOD_STAT_SEALED 1).raise 0x5006 []

/-! ### The power-on sequence (R800, R819 to R824) -/

/-- A VR_EN line driven: group `g` at a level. -/
def driveRail (g level : Nat) (s : State) : State :=
  let s := { s with hod := { s.hod with vren := withBits s.hod.vren g g level } }
  s.emit (.pin ("VR_EN" ++ toString g) level)

/-- The order in which Hod raises the groups (R800). -/
def railOrder : List Nat := [4, 5, 6, 7, 0, 1, 2, 3]

/-- Every group that is up lowered, in the order that the hardware sequencer takes (R800, R814). -/
def lowerRails (s : State) : State :=
  s.each [0, 1, 2, 3, 7, 6, 5, 4] (fun s g => if bitOf s.hod.vren g then driveRail g 0 s else s)

/-- The stack record of a stack in the build sheet (R785). -/
def stackRecord (s : State) (n : Nat) : Bytes := (s.hod.sheet.drop (256 + 32 * n)).take 21

/-- A step of R819 that failed, by its place in the table from 1 (DESIGN CHOICE, log entry 63). -/
def stepFailed (step reason : Nat) (s : State) : State :=
  ({ s with start := { s.start with failed := s.start.failed ++ [step] } }).raise 0x5103 [step, reason]

/-- One group raised (R788, R800): it stays off where its regulator is not the one the sheet names, or where the check of R800 fails, as `bad` says. -/
def raiseGroup (bad : BitVec 8) (s : State) (g : Nat) : State :=
  let want := ((railRecord s g).drop 6).take 24
  let got := ((s.hod.modules.regulators.getD g [])).take 24
  let wrong := !s.hod.sheet.isEmpty && want ≠ got
  let keep := fun (s : State) => { s with hod := { s.hod with groupOff := insertNum s.hod.groupOff g } }
  if wrong then stepFailed 8 g (keep (mismatch 1 g (leNat want) (leNat got) s))
  else if bad.getLsbD g then stepFailed 8 g (keep (mismatch 1 g (leNat want) (leNat got) s))
  else
    let s := { s with hod := { s.hod with groupOff := s.hod.groupOff.filter (fun x => x ≠ g) } }
    let n := numAt (railRecord s g) 2 1
    let s := (s.wr (Reg.HOD_RAIL_PHASES g) n).wr (Reg.HOD_RAIL_PHOK g) n
    let s := s.when (g < 4) (setTileVolt (brickOf g) (s.rd (Reg.PWR_DVFS_FCUR g)))
    driveRail g 1 s

/-- Whether a stack is one the package works with (R314, R788): 24 Gb, 16-high, and as the sheet says. -/
def checkStack (s : State) (n : Nat) : State :=
  let got := (s.hod.modules.hbm.getD n []).take 21
  let want := stackRecord s n
  let known := !s.hod.sheet.isEmpty
  let off := numAt got 18 2 ≠ 24 || numAt got 20 1 ≠ 16 || (known && (want.drop 18 ≠ got.drop 18))
  let s := if off || (known && want ≠ got) then mismatch 0 n (leNat want) (leNat got) s else s
  { s with hod := { s.hod with stackOff := if off then insertNum s.hod.stackOff n else s.hod.stackOff.filter (fun x => x ≠ n) } }

/-- Whether a domain of a list is still on its way. -/
def onTheWay (s : State) (ds : List Nat) : Bool := ds.any (fun d => domMoving s d || s.power.queue.any (fun x => x.1 = d))

/-- Once main power is good and the image runs: the rails, then the uncores are asked for (R819). -/
def startRails (bad : BitVec 8) (s : State) : State :=
  if s.start.phase ≠ 2 || !s.start.mainGood || !hodActs s then s else
  let s := railOrder.foldl (raiseGroup bad) s
  let s := if s.start.mainLost then raiseIncarnation s else s
  let s := { s with start := { s.start with phase := 3, mainLost := false } }
  ([132, 133, 134, 135] : List Nat).foldl (fun s d => requestDomain d 3 s) s

/-- Once the uncores are up: the seal, where SEALREQ is fused, the stack identities, and the stacks are asked for, to be cleared (R790, R819, R824). -/
def startStacks (s : State) : State :=
  if s.start.phase ≠ 3 || !hodActs s || onTheWay s [132, 133, 134, 135] then s else
  let s := ([0, 1, 2, 3] : List Brick).foldl (fun s b => if uncoreOn s b then s else stepFailed 9 b.val s) s
  let s := if s.hod.fuses.sealReq then sealPackage s else s
  let s := (List.range 8).foldl checkStack s
  let s := measureIdents s
  let s := { s with start := { s.start with phase := 4, toClear := (List.range 8).filter (fun n => !s.hod.stackOff.contains n), cleared := [] } }
  (List.range 8).foldl (fun s n =>
    if s.hod.stackOff.contains n then stepFailed 11 n s
    else if uncoreOn s (stackBrick (stackOf n)) then requestDomain (136 + n) 3 s else s) s

/-- Once the stacks are up: EN of every bridge, and of every port with a role other than unused (R819). -/
def startPorts (s : State) : State :=
  if s.start.phase ≠ 4 || !hodActs s || onTheWay s ((List.range 8).map (fun n => 136 + n)) then s else
  let s := { s with start := { s.start with phase := 5 } }
  let s := ([0, 1, 2, 3] : List Brick).foldl (fun s b =>
    if uncoreOn s b then ([0, 1, 2] : List (Fin 3)).foldl (fun s q => enableLink (.bridge b q) s) s else s) s
  (List.finRange 24).foldl (fun (s : State) (p : Port) => match s.sheetRec p with
    | some r => if recRole r ≠ 0 && uncoreOn s (portBrick p) then enableLink (.port p) s else s
    | none => s) s

/-- The sequence goes on as far as it can, while Hod acts (R773, R833). -/
def startSequence (bad : BitVec 8) (s : State) : State := startPorts (startStacks (startRails bad s))

/-! ### Persistent state (R183, R783, R811) -/

/-- What the image that runs after a reset loads (R787, R811, R819): the persistent state, with the incarnation advanced, and the build sheet. -/
def loadPersistent (s : State) : State :=
  let s := raiseIncarnation s
  let s := s.each (List.range 4) (fun s b =>
    ((s.wr (Reg.PWR_SITEMAP_RETIRE b) (s.hod.retire.getD b 0x3F)).wr (Reg.PWR_SITEMAP_SPARE b) (s.hod.spare.getD b 0x20)).wr (Reg.PWR_DVFS_FMAX b)
      (s.hod.fuses.fmax.getD b 0x78))
  let s := s.each (List.range 144) (fun s d => s.wr (Reg.PWR_DOM_REQ d) 0)
  let s := { s with hod := { s.hod with siteTag := numAt s.hod.sheet 16 4 } }
  if s.hod.sheet.isEmpty then stepFailed 5 0 (s.wr Reg.HOD_STAT_BS 0)
  else (s.wr Reg.HOD_STAT_BS 1).wr Reg.SEAT_PID_PID (numAt s.hod.sheet 12 2)

/-- Whether a cold-plate record is the one expected (R788, R789): its form, its checksum and its part number. -/
def plateOk (s : State) (r : Bytes) : Bool :=
  r.length == 256 && numAt r 0 4 == 0x50434C54 && numAt r 4 2 == 1 && crc32c (r.take 252) == numAt r 252 4 &&
  (s.hod.sheet.isEmpty || (r.drop 8).take 16 == (s.hod.sheet.drop 1024).take 16)

/-- The modules that Hod reads before the rails rise (R788): identities kept, and the cold plate checked. -/
def readModules (m : Modules) (s : State) : State :=
  let s := { s with hod := { s.hod with modules := m, coldPlateOk := plateOk s m.coldPlate } }
  let want := (s.hod.sheet.drop 1024).take 32
  let got := (m.coldPlate.drop 8).take 32
  measureIdents (if !s.hod.coldPlateOk || (!s.hod.sheet.isEmpty && want ≠ got) then mismatch 3 0 (leNat want) (leNat got) s else s)

/-- The sequence number after the highest in the NOR log whose record is intact (R784). -/
def nextLogSeq (log : Tab Bytes) : Nat :=
  (log.foldl (fun n r => if crc32c (r.2.take 60) = numAt r.2 60 4 then max n (numAt r.2 8 4 + 1) else n) 0) % 2 ^ 32

/-- BOOT_ROM (R797, R811, R819): with PKG_RST_N released, the boot ROM runs a bank or enters recovery, and the image carries the sequence on. `recov`:
RECOV_N is low; `bad`: groups whose rails do not come up as R800 checks. -/
def execBootRom (recov : Bool) (m : Modules) (bad : BitVec 8) (s : State) : Host.Outcome State Fault Refusal := ended s <|
  if s.start.phase ≠ 1 || s.start.rstLow || !s.start.aon || s.start.recovery then .next s else
  if recov then .next (enterRecovery s) else
  match bootImage s with
  | none => .next (enterRecovery s)
  | some s =>
    let s := { s with hod := { s.hod with logSeq := max s.hod.logSeq (nextLogSeq s.hod.norLog) } }
    let s := readModules m (loadPersistent s)
    .next (startSequence bad { s with start := { s.start with phase := 2 } })

/-- RECOVERY (R797): in recovery the boot ROM takes an image from the tray controller, checks it, and writes it to bank A. -/
def execRecovery (img : Bytes) (s : State) : Host.Outcome State Fault Refusal := ended s <|
  .next (if s.start.recovery && imageStatus s img = 0 then { s with hod := { s.hod with bankA := img } } else s)

/-! ### Resets of the whole package (R813, R814, R815, R832) -/

/-- What a loss of the rails of every switched domain leaves, beside the registers that the caller keeps (R815, R832, R878, R917). -/
def loseDomains (s : State) : State :=
  let s := s.each (List.finRange 8) (fun s st => stackLost st s)
  let s := s.each ([0, 1, 2, 3] : List Brick) (fun s b => resetUncore b s)
  let s := s.each (List.finRange 128) (fun s t => tileLost t s)
  let s := s.each (List.finRange 8) (fun s st => resetRegs (Reg.STK_CTL st) (Reg.STK_CTL st + 0x10000)
    (resetRegs (Reg.PGC_CTL st) (Reg.PGC_CTL st + 0x1000) (resetRegs (Reg.RMP_ENT st 0) (Reg.RMP_ENT st 0 + 0x1000)
      (resetRegs (Reg.FOLD_CNT st) (Reg.FOLD_CNT st + 8) (resetRegs (Reg.FOLD_MAP st 0) (Reg.FOLD_MAP st 0 + 0x1000) s)))))
  let s := s.each (List.range 144) (fun s d => setDomain d 0 (dropRequests d s))
  let s := (s.wr Reg.PWR_STAT_UNCON 0).wr Reg.PWR_STAT_TPLL 0
  let s := { s with regs := s.regs.filter (fun e => e.1 < 0x10000 || 0x10000 + 4 * 65535 ≤ e.1), results := [], power := {} }
  let s := resetPkgBlock 1 (resetPkgBlock 4 (resetPkgBlock 5 s))
  { s with safety := {}, observe := { s.observe with pull := none } }

/-- Hod's core, SRAM and RAM log after a reset of the always-on logic (R811, R832): the fuses and the NOR stay. -/
def hodReset (h : HodState) : HodState :=
  { sheet := h.sheet, fuses := h.fuses, bankA := h.bankA, bankB := h.bankB, boot := h.boot, incarnation := h.incarnation, retire := h.retire,
    spare := h.spare, swap := h.swap, norLog := h.norLog, modules := {} }

/-- HOD_ fields that show fuse state (R811). -/
def showFuses (s : State) : State :=
  (s.wr Reg.HOD_STAT_FUSECTR s.hod.fuses.counter).wr Reg.HOD_STAT_SEALREQ (bit s.hod.fuses.sealReq)

/-- The package after a power-on or a cold reset, before the release of PKG_RST_N (R814, R832): registers outside the PWR_ block at their reset
values. -/
def coldState (keepPwr : Bool) (s : State) : State :=
  let s := loseDomains s
  let s := { s with
    regs := s.regs.filter (fun e => keepPwr && pkgReg 3 0 ≤ e.1 && e.1 < pkgReg 4 0), hod := hodReset s.hod, sealed := false, sealLogged := [],
    events := [], host := { perst := s.host.perst }, observe := {}, start := { mainGood := s.start.mainGood } }
  showFuses s

/-- POWER_ON (R305, R813, R832): the always-on supply comes up. The fuses and the NOR hold what `f` says, or what they held. -/
def execPowerOn (f : Option Factory) (s : State) : Host.Outcome State Fault Refusal := ended s <|
  let s := match f with
    | none => s
    | some f =>
      let s := { s with hod := { fuses := f.fuses, boot := f.boot, bankA := f.bankA, bankB := f.bankB, sheet := f.sheet, incarnation := f.incarnation.toNat,
                                 retire := f.retire, spare := f.spare, swap := f.swap,
                                 norLog := f.log.foldl (fun t (x : Nat × Bytes) => tabPut t (x.1 % 524288) x.2) [] } }
      s.each (List.finRange 8) (fun s st => s.onStack st (fun S => { S with
        repairs := (f.repairs.filter (fun (r : Nat × Nat × Nat) => r.1 = st.val)).map (fun (r : Nat × Nat × Nat) => (r.2.1, r.2.2)) }))
  let s := coldState false s
  .next (noteReset [kindPowerOn, 0] { s with now := 0, plumb := 0 })

/-- COLD_RESET (R813, R814, R832): PKG_RST_N goes low: Hod is held in reset and the rails fall in order. -/
def execColdReset (s : State) : Host.Outcome State Fault Refusal := ended s <|
  if s.start.rstLow then .next s else
  let was := s.isSet Reg.PLB_STAT_ALIGNED
  let s := coldState true (lowerRails s)
  .next (noteReset [kindCold, 0] (if was then s.raise 0x7004 [3] else s))

/-- COLD_RESET_RELEASE (R819): PKG_RST_N goes high; the always-on PLLs lock and the boot ROM runs. -/
def execColdResetRelease (s : State) : Host.Outcome State Fault Refusal := ended s <|
  if !s.start.aon || !s.start.rstLow then .next s else
  let s := { s with start := { s.start with rstLow := false, releasedAt := s.now, phase := 1 } }
  .next (((s.wr Reg.PWR_STAT_AONLOCK 1).wr Reg.PWR_STAT_HREFOK 1).wr Reg.PWR_STAT_MREFOK 1)

/-- MAIN_POWER_LOSS (R813, R815, R832): MAIN_PWRGD falls: every switched domain is lost; Hod runs on and waits. -/
def execMainPowerLoss (s : State) : Host.Outcome State Fault Refusal := ended s <|
  if !s.start.mainGood then .next s else
  let s := loseAlignment 3 (loseDomains (lowerRails s))
  let s := { s with start := { s.start with mainGood := false, mainLost := true, phase := if s.hod.running then 2 else s.start.phase } }
  .next (noteReset [kindMainLoss, 0] s)

/-- MAIN_PWRGD_RISE (R823): MAIN_PWRGD goes high and the sequence resumes. -/
def execMainPwrgdRise (bad : BitVec 8) (s : State) : Host.Outcome State Fault Refusal := ended s <|
  .next (startSequence bad { s with start := { s.start with mainGood := true } })

/-- MAIN_PWRGD_TIMEOUT (R823): MAIN_PWRGD is not high within 1 s of the step that awaits it: event 0x5103 names the step, and the sequence waits. -/
def execMainPwrgdTimeout (s : State) : Host.Outcome State Fault Refusal := ended s <|
  .next (if s.start.phase = 2 && !s.start.mainGood then s.raise 0x5103 [7, 0] else s)

/-- Whether a port that is in use has resolved: Active, Miswired, Module rejected or Held (R820). -/
def portResolved (s : State) (p : Port) : Bool :=
  s.portState p == 8 || s.portState p == 0xA || s.portState p == 0xB || s.portOff p

/-- The positions of own tray that hold no package (R66): no tray port of the build sheet leads there, or the neighbour of each that does is absent. -/
def missingPositions (s : State) : List Nat :=
  (List.range 8).filter (fun q => q ≠ pidPos s.ownPid && (List.finRange 24).all (fun (p : Port) => match s.sheetRec p with
    | some r => recRole r ≠ 1 || pidPos (recNbr r) ≠ q || (s.link (.port p)).absentRaised
    | none => true))

/-- FABRIC_READY (R820, R824, R834): declared when every used port has resolved, or 1 s after its EN was set. A position of own tray
without a package is reported as a mismatch of the build sheet (R66; the moment and the kind are a DESIGN CHOICE, log entry 207). -/
def execFabricReady (s : State) : Host.Outcome State Fault Refusal := ended s <|
  if s.start.phase ≠ 5 then .next s else
  let used := (List.finRange 24).filter (fun (p : Port) => match s.sheetRec p with
    | some r => recRole r ≠ 0
    | none => false)
  if !used.all (fun p => portResolved s p || decide ((s.link (.port p)).enAt + 1000000000 ≤ s.now)) then .next s else
  let active := (used.filter (fun p => s.portState p = 8)).length
  let s := { s with start := { s.start with phase := 6 } }
  let s := if s.hod.sheet.isEmpty then s else s.each (missingPositions s) (fun s q => mismatch 4 q 1 0 s)
  let s := s.raise 0x1301 [active, used.length - active, s.now - s.start.releasedAt]
  .next (s.raise 0x5101 [s.start.cleared.foldl (fun m n => Nat.lor m (2 ^ n)) 0, s.rd Reg.PWR_STAT_UNCON,
    s.start.failed.foldl (fun m n => Nat.lor m (2 ^ n)) 0])

/-- PERST_DEASSERT (R822): HOST_PERST_N is deasserted, and the host link may train. -/
def execPerstDeassert (s : State) : Host.Outcome State Fault Refusal := ended s <| .next { s with host := { s.host with perst := false } }

/-! ### Domains, with the sequence that waits for them -/

/-- An uncore comes ON: outside the power-on sequence that is the end of a brick power cycle (R813, R818). -/
def uncoreUp (b : Brick) (s : State) : State :=
  if s.start.phase = 3 then uncoreArrives b s else noteReset [kindCycle, 0, b.val] (uncoreArrives b s)

/-- DOMAIN_TRANSITION_DONE (R291, R292, R354, R819): a domain reaches the state it was asked for. A controller that leaves ON does so once what it
holds up is finished; a domain whose rails are down does not come up; one that may no longer enter OFF stays as it was, refused (R293, R294; DEDUCED,
log entry 212). -/
def execDomainTransitionDone (d : Fin 144) (slow : Bool) (held : List (Nat × Bytes)) (e : MemEnv) (s : State) : Host.Outcome State Fault Refusal := ended s <|
  match s.power.moving.find? (fun x => x.1 = d.val) with
  | none => .next s
  | some (_, v) =>
    if v ≠ 0 && !railsUp s d.val then .next s else
    let go := fun (s : State) => { s with power := { s.power with moving := s.power.moving.filter (fun x => x.1 ≠ d.val) } }
    let why := if v = 0 then judge (go s) d.val 0 else 0
    if why ≠ 0 then .next (startSequence 0 (refuseDomain d.val why (go s))) else
    match domKind d.val with
    | .site b k => .next (siteArrives b k v held (go s))
    | .stack st =>
      if domCur s d.val = 3 && !stackQuiet s st then .next s
      else .next (startSequence 0 (stackArrives st v slow held e (go (memReports e s))))
    | .uncore b => .next (startSequence 0 (if v = 0 then uncoreLeaves b (go s) else uncoreUp b (go s)))
    | .none => .next s

/-- DOMAIN_FAULT (R303, R819, R823): a domain that has not reached its state within four times its wake time is left OFF. -/
def execDomainFault (d : Fin 144) (e : MemEnv) (s : State) : Host.Outcome State Fault Refusal := ended s <|
  if !domMoving s d.val then .next s else
  let step := if d.val < 136 then 9 else 12
  let s := if s.start.phase = 3 || s.start.phase = 4 then stepFailed step d.val s else s
  .next (startSequence 0 (faultDomain d.val e s))

/-! ### Resets of a brick (R817, R818, R880) -/

/-- BRESET (R880): a write of 1 to BRESET asks for a brick warm reset. -/
def execBreset (b : Brick) (s : State) : Host.Outcome State Fault Refusal := ended s <|
  .next { s with safety := { s.safety with resets := if s.safety.resets.contains b.val then s.safety.resets else s.safety.resets ++ [b.val] } }

/-- BRICK_WARM_RESET (R817, R833, R860): a warm reset that was asked for is carried out, one at a time, in the order asked; one asked of a brick whose
uncore is no longer ON is forgotten. A package in its safe state resets no brick. -/
def execBrickWarmReset (b : Brick) (e : MemEnv) (s : State) : Host.Outcome State Fault Refusal := ended s <|
  let asked := s.safety.resets.filter (fun x => uncoreOn s (brickOf x))
  if asked.headD 4 ≠ b.val || !hodActs s || s.isSet Reg.SAF_STAT_PSAFE then .next s else
  let s := { s with safety := { s.safety with resets := asked.tail } }
  .next (warmReset b 0 e (memReports e s))

/-- BRICK_POWER_CYCLE (R818): an uncore that was taken OFF comes ON again, with steps 2, 4, 5 and 6 of R817. -/
def execBrickPowerCycle (b : Brick) (s : State) : Host.Outcome State Fault Refusal := ended s <|
  let d := 132 + b.val
  if !s.power.moving.contains (d, 3) || s.start.phase = 3 || !railsUp s d then .next s else
  let s := { s with power := { s.power with moving := s.power.moving.filter (fun x => x.1 ≠ d) } }
  .next (uncoreUp b s)

end Sys2Proof.Machine
end

