-- ==== Sys2Proof/Machine/LongOps.lean ====
section
/-! DEFINITION. Long operations of the host: their states, hold flags, suspension points and work (R744 to R752, R927). -/
namespace Sys2Proof.Machine
open Sys2Proof

/-! ### Commands and their states -/

/-- The number `i` bytes into a command entry, of `n` bytes (R737). -/
def entryNum (e : Bytes) (i n : Nat) : Nat := numAt e i n

def entryOpc (e : Bytes) : Nat := entryNum e 8 1

/-- The states of R748. -/
def loQueued : Nat := 0
def loRunning : Nat := 1
def loSuspending : Nat := 2
def loSuspended : Nat := 3
def loCancelling : Nat := 4
def loDone : Nat := 5
def loFailed : Nat := 6

def HostOp.opc (o : HostOp) : Nat := entryOpc o.entry
def HostOp.long (o : HostOp) : Bool := decide (0x20 ≤ o.opc)
def HostOp.num (o : HostOp) (i n : Nat) : Nat := entryNum o.entry i n
/-- Whether a hold flag of an operation is set (R750). -/
def HostOp.held (o : HostOp) : Bool := o.hostSusp || !o.devSusp.isEmpty

/-- The stack of a SCRUB or MEMTEST, and the brick of a job. -/
def HostOp.stack (o : HostOp) : Stack := stackOf (o.num 24 1)
def HostOp.brick (o : HostOp) : Brick := brickOf (o.num 24 1)

def State.hostOp (s : State) (id : Nat) : Option HostOp := s.host.ops.find? (fun o => o.id = id)

/-- The state with an operation changed. -/
def State.onHostOp (s : State) (id : Nat) (f : HostOp → HostOp) : State :=
  { s with host := { s.host with ops := s.host.ops.map (fun o => if o.id = id then f o else o) } }

/-- Whether a unit works for the operation: its pass or its job. -/
def unitWorks (s : State) (o : HostOp) : Bool :=
  o.started && o.step == .work && (match o.opc with
    | 0x22 => (match (s.stack o.stack).pass with
      | some p => p.hostId == some o.id
      | none => false)
    | 0x23 | 0x24 => (match (s.brick o.brick).yard.job with
      | some j => j.hostId == some o.id
      | none => false)
    | _ => false)

/-- STATE of an operation (R748 to R750). One whose unit works for it follows the unit's state (R752), which is coded alike. -/
def opState (s : State) (o : HostOp) : Nat :=
  match o.ended with
  | some (done, _) => if done then loDone else loFailed
  | none =>
    if unitWorks s o then (if o.opc = 0x22 then s.rd (Reg.PGC_SSTAT_STATE o.stack) else s.rd (Reg.SLB_JSTAT_STATE o.brick))
    else if o.cancelling then loCancelling
    else if !o.started then (if o.held then loSuspended else loQueued)
    else if o.held then (if o.paused then loSuspended else loSuspending)
    else loRunning

/-- Whether an operation is final. -/
def HostOp.final (o : HostOp) : Bool := o.ended.isSome

/-- Long operations that are not final (R747, R770). -/
def openLongOps (s : State) : List HostOp := s.host.ops.filter (fun o => o.long && !o.final)

def State.recordOf (s : State) (id : Nat) : Option HostRec := s.host.record.find? (fun r => leNat (r.entry.take 8) = id)

/-- STATE, STATUS and RESULT that a command has now (R740). -/
def commandNow (s : State) (r : HostRec) : Nat × Nat × Bytes :=
  match s.hostOp (leNat (r.entry.take 8)) with
  | some o => (opState s o, (match o.ended with
    | some (_, st) => if o.discarded && st = 0x08 then 0x09 else st
    | none => 0x00), o.result)
  | none => (r.state, r.status, r.result)

/-- A command ends (R738, R740): its final state stands in the record, and its completion is posted. -/
def finishCommand (id ring state status : Nat) (result : Bytes) (noint : Bool) (s : State) : State :=
  let s := { s with host := { s.host with record := s.host.record.map (fun r =>
    if leNat (r.entry.take 8) = id then { r with state := state, status := status, result := padTo 16 result } else r) } }
  postCompletion ring { id := id, state := state, status := status, flags := 0, result := result, noint := noint } s

/-! ### Steering (R749 to R752) -/

/-- The tiles of a RUN (R745). -/
def runTiles (o : HostOp) : List Tile := (setBits 128 (o.num 24 16)).map tileOf

/-- Whether the masons of a RUN have been started. -/
def runGoing (o : HostOp) : Bool := o.opc = 0x20 && o.started && o.step == .work && !o.final

/-- A tile asked to suspend: its mason and its sieve (R527, R712, R751). -/
def holdTile (t : Tile) (s : State) : State :=
  let s := if (s.mason t).run = .running || (s.mason t).run = .sleeping then requestSuspend t s else s
  suspendSieve t s

/-- A tile of a RUN that goes on: a suspend request not yet taken is withdrawn (DEDUCED, log entry 67). -/
def releaseTile (t : Tile) (s : State) : State :=
  resumeSieve t (resumeMason t (s.onMason t (fun m => { m with sreq := false })))

/-- What an operation's unit is told when the operation is to be held (R751). -/
def holdWork (o : HostOp) (s : State) : State :=
  if runGoing o then s.each (runTiles o) (fun s t => holdTile t s)
  else if unitWorks s o then (if o.opc = 0x22 then suspendPass o.stack false s else suspendJob o.brick false s)
  else s

/-- SUSPEND of an operation that is not final (R749), or the hold policy (R755). -/
def suspendOp (id : Nat) (s : State) : State :=
  match s.hostOp id with
  | none => s
  | some o => if o.final || o.cancelling then s else holdWork o (s.onHostOp id (fun o => { o with hostSusp := true }))

/-- RESUME: HOSTSUSP is cleared (R749, R750). -/
def resumeOp (id : Nat) (s : State) : State :=
  match s.hostOp id with
  | none => s
  | some o =>
    if o.final || o.cancelling then s else
    let s := s.onHostOp id (fun o => { o with hostSusp := false })
    if !o.devSusp.isEmpty then s
    else if runGoing o then s.each (runTiles o) (fun s t => releaseTile t s)
    else if unitWorks s o then (if o.opc = 0x22 then resumePass o.stack false s else resumeJob o.brick false s)
    else s

/-- CANCEL (R749, R751): an operation that never started fails at once. -/
def cancelOp (id : Nat) (s : State) : State :=
  match s.hostOp id with
  | none => s
  | some o =>
    if o.final || o.cancelling then s
    else if !o.started then endHostOp (some id) false 0x08 o.result s
    else
      let s := s.onHostOp id (fun o => { o with cancelling := true })
      if runGoing o then s.each (runTiles o) (fun s t => cancelSieve t (stopMason t s))
      else if unitWorks s o then (if o.opc = 0x22 then cancelPass o.stack s else cancelJob o.brick s)
      else s

/-! ### Requests of a command -/

/-- The label of a command's own traffic (R744): its ring's. -/
def opLabel (s : State) (o : HostOp) : Nat := s.rd (Reg.HST_CBASE_LABEL o.ring)

/-- The requests of the next step of an operation. -/
def askHost (id : Nat) (step : HostStep) (ops : List Op) (s : State) : State :=
  s.onHostOp id (fun o => { o with step := step, pieces := ops, got := [], waiting := false, fail := none })

/-- The outcome of an operation's outstanding request taken (R745, R748): a YARD's own request brings its status as data. A request reported in doubt
is waited for. -/
def takeHostResult (id : Nat) (s : State) : State :=
  match s.results.find? (fun r => r.issuer = .host id) with
  | none => s
  | some r =>
    let s := { s with results := s.results.filter (fun x => x ≠ r) }
    if r.kind = .inDoubt then s else
    s.onHostOp id (fun o =>
      let fail := match r.kind with
        | .unsettled | .unreachable => some (0x0B, 0)
        | _ =>
          if o.step == .yard then none
          else if r.status = 0x00 then none
          else if r.status = 0x40 || r.status = 0x41 then some (0x0C, r.status)
          else some (0x0A, r.status)
      { o with waiting := false, got := o.got ++ (if o.step == .yard then BitVec.ofNat 8 r.status :: r.data else r.data),
               fail := if o.fail.isSome then o.fail else fail, pieces := if fail.isSome then [] else o.pieces })

/-- The next request of an operation issued. -/
def issueHost (id : Nat) (op : Op) (rest : List Op) (s : State) : State :=
  issueOp 0 (.host id) op (s.onHostOp id (fun o => { o with pieces := rest, waiting := true }))

/-- RESULT with byte 15 set to the owning unit's reason (R748). -/
def withReason (result : Bytes) (why : Nat) : Bytes := (padTo 16 result).take 15 ++ leBytes 1 why

/-! ### The work of each kind -/

/-- RUN (R241, R746): the argument block has landed, and the masons start. -/
def startRun (id : Nat) (o : HostOp) (s : State) : State :=
  if o.cancelling then endHostOp (some id) false 0x08 o.result s else
  let s := s.each (runTiles o) (fun s t =>
    startMason t ((s.wr (Reg.MSN_ENTRY_PC t) (o.num 40 4 / 4)).wr (Reg.MSN_CTL_LBLINIT t) (o.num 44 1 % 16)))
  let s := s.onHostOp id (fun o => { o with step := .work })
  if o.held then holdWork { o with step := .work } s else s

/-- Whether every mason and sieve of a RUN is at rest (R751). -/
def runAtRest (s : State) (o : HostOp) : Bool :=
  (runTiles o).all (fun t => ((s.mason t).run = .suspended || (s.mason t).run = .halted) && (sieveState s t = 0 || sieveState s t = svSuspended))

/-- A RUN looked at (R746, R751): done once every mason is Halted, failed once one is Faulted or its site has been turned OFF (DEDUCED, log entry 68). -/
def watchRun (id : Nat) (o : HostOp) (s : State) : State :=
  let halted := ((runTiles o).filter (fun t => (s.mason t).run = .halted)).length
  let bad := (runTiles o).filter (fun t => (s.mason t).run = .faulted || (s.mason t).run = .idle)
  let result := leBytes 4 halted ++ leBytes 1 (match bad with
    | t :: _ => t.val
    | [] => 0xFF)
  if !bad.isEmpty then endHostOp (some id) false 0x0D result s
  else if halted = (runTiles o).length then
    endHostOp (some id) (!o.cancelling) (if o.cancelling then 0x08 else 0x00) result (s.each (if o.held then runTiles o else []) (fun s t => resumeSieve t s))
  else s.onHostOp id (fun x => { x with result := padTo 16 result, paused := o.held && runAtRest s o })

/-- Bytes of a chunk of a COPY, and of a block of a FWSTAGE (R746, R751). -/
def chunkSize : Nat := 65536

/-- Whether SRC and DST of a COPY overlap (R746). -/
def copyOverlaps (s : State) (o : HostOp) : Bool :=
  let a := s.canon (o.num 24 8)
  let b := s.canon (o.num 32 8)
  decide (a < b + o.num 40 8 ∧ b < a + o.num 40 8)

/-- The chunk that a COPY has read stored at DST; where SRC and DST overlap the result is undefined (R29, R746): free bytes. -/
def copyStore (id : Nat) (o : HostOp) (s : State) : State :=
  let (bs, s) := if copyOverlaps s o then s.freeBytes o.got.length else (o.got, s)
  askHost id .store (storesOf (opLabel s o) (o.num 32 8 + o.next * chunkSize) bs) s

/-- The next chunk of a COPY (R746, R751), or its end. -/
def copyNext (id : Nat) (o : HostOp) (s : State) : State :=
  let lo := o.next * chunkSize
  if o.num 40 8 ≤ lo then endHostOp (some id) true 0x00 o.result s
  else if o.cancelling then endHostOp (some id) false 0x08 o.result s
  else if o.held then s.onHostOp id (fun o => { o with paused := true })
  else askHost id .load (loadsOf (opLabel s o) (o.num 24 8 + lo) (min chunkSize (o.num 40 8 - lo))) (s.onHostOp id (fun o => { o with paused := false }))

/-- A staging that does not end leaves the bank that is not active invalid (R751). -/
def dropStaged (s : State) : State := ({ s with hod := { s.hod with staged := [] } }).wr Reg.HOD_STAT_STAGED 3

/-- The next block of a FWSTAGE (R746, R751, R793), or its end: the image is checked in the bank that is not active. -/
def stageNext (id : Nat) (o : HostOp) (s : State) : State :=
  let len := o.num 24 4
  let lo := o.next * chunkSize
  if len ≤ lo then
    let img := s.hod.staged
    let s := { s with hod := if s.hod.boot.bank = 0 then { s.hod with bankB := img } else { s.hod with bankA := img } }
    let st := imageStatus s img
    let result := leBytes 4 img.length ++ leBytes 1 st
    let s := ((s.wr Reg.HOD_STAT_STAGED (if st = 0 then 2 else 3)).wr Reg.HOD_VER_STAGE (imageVersion img)).raise 0x5002 [st]
    if st = 0 then endHostOp (some id) true 0x00 result s else endHostOp (some id) false 0x0A (withReason result st) s
  else if o.cancelling then endHostOp (some id) false 0x08 o.result (dropStaged s)
  else if o.held then s.onHostOp id (fun o => { o with paused := true })
  else askHost id .load (loadsOf (opLabel s o) (o.num 16 8 + lo) (min chunkSize (len - lo))) (s.onHostOp id (fun o => { o with paused := false }))

/-- The next page of a MEMTEST (R746, R751): it is written, read back and left zeroed by a full-page write. A page fails where the memory reports an
uncorrectable burst in it, or contents that it did not keep (DEDUCED, log entry 69). -/
def testPage (id : Nat) (o : HostOp) (e : MemEnv) (s : State) : State :=
  let st := o.stack
  let p := o.num 28 4 + o.next
  let j := physPage s st p
  let failing := e.unc.any (fun x => x.1 = st.val && x.2 / 4096 = j) || e.decay.any (fun x => x.1 = st.val && x.2.1 / 4096 = j)
  let s := s.onBrick (stackBrick st) (fun B => { B with bed := B.bed.filter (fun l => !(keyStack l.1 = st && keyOff l.1 / 4096 = p)) })
  let s := s.onStack st (fun S => { S with fold := S.fold.filter (fun x => x.sector / 64 ≠ p) })
  let s := fullWrite st p [] s
  let first := if failing && numAt o.result 4 4 = 0 then p else numAt o.result 8 4
  let result := leBytes 4 (o.next + 1) ++ leBytes 4 (numAt o.result 4 4 + bit failing) ++ leBytes 4 first
  let s := s.onHostOp id (fun o => { o with next := o.next + 1, result := padTo 16 result })
  if o.num 32 4 ≤ o.next + 1 then endHostOp (some id) true 0x00 result s else s

/-- A MEMTEST between pages: it ends, pauses or tests the next page. -/
def testNext (id : Nat) (o : HostOp) (e : MemEnv) (s : State) : State :=
  if o.cancelling then endHostOp (some id) false 0x08 o.result s
  else if o.held then s.onHostOp id (fun o => { o with paused := true })
  else testPage id { o with paused := false } e (s.onHostOp id (fun o => { o with paused := false }))

/-- A descriptor has come for a unit (R399, R668, R746): its refusal is STATUS 0x02. -/
def startUnit (id : Nat) (o : HostOp) (s : State) : State :=
  let d := padTo 32 o.got
  if o.cancelling then endHostOp (some id) false 0x08 o.result s else
  let refused := if o.opc = 0x22 then passBusy s o.stack || !passDescOk s o.stack d
    else jobBusy s o.brick || !jobDescOk d || ((o.opc = 0x23) != decide (numAt d 0 1 ≤ 2))
  if refused then endHostOp (some id) false 0x02 o.result s else
  let s := if o.opc = 0x22 then startPass o.stack d (some id) s else startJob o.brick d (some id) s
  let s := s.onHostOp id (fun o => { o with step := .work })
  if o.hostSusp then holdWork { o with step := .work } s else s

/-- A YARD command's answer has come (R745): RESULT carries its status and the first 15 bytes of its payload, and RESADDR the whole payload. -/
def yardAnswer (id : Nat) (o : HostOp) (s : State) : State :=
  let result := padTo 16 (o.got.take 16)
  let s := s.onHostOp id (fun o => { o with result := result })
  let data := o.got.drop 1
  if o.num 32 8 = 0 || data.isEmpty then endHostOp (some id) true 0x00 result s
  else askHost id .yres (storesOf (opLabel s o) (o.num 32 8) data) s

/-- The class-0x5 request of a YARD command (R745). -/
def hostYardRequest (o : HostOp) (payload : Bytes) (s : State) : Op :=
  { addr := BitVec.ofNat 64 (0xFFFF * 2 ^ 48 + yardAddr s o.brick), opc := BitVec.ofNat 8 (o.num 25 1), aux := 0, lbl := labelOf (opLabel s o),
    size := payload.length, payload := payload }

/-- An operation whose requests of this step are all answered goes on. -/
def stepDone (id : Nat) (o : HostOp) (e : MemEnv) (s : State) : State :=
  match o.fail with
  | some (st, why) => endHostOp (some id) false st (withReason o.result why) (if o.opc = 0x26 then dropStaged s else s)
  | none =>
    match o.opc, o.step with
    | 0x20, .desc => askHost id .args ((runTiles o).flatMap (fun t => storesOf (opLabel s o) (0xFFFF * 2 ^ 48 + 8 * 2 ^ 44 + t.val * 0x800000 + o.num 48 4) (padTo 64 o.got))) s
    | 0x20, .args => startRun id o s
    | 0x20, .work => watchRun id o s
    | 0x21, .work => copyNext id o s
    | 0x21, .load => copyStore id o s
    | 0x21, .store =>
      let n := min chunkSize (o.num 40 8 - o.next * chunkSize)
      s.onHostOp id (fun o => { o with step := .work, next := o.next + 1, result := padTo 16 (leBytes 8 (numAt o.result 0 8 + n)) })
    | 0x22, .desc => startUnit id o s
    | 0x23, .desc => startUnit id o s
    | 0x24, .desc => startUnit id o s
    | 0x25, .work => testNext id o e s
    | 0x26, .work => stageNext id o s
    | 0x26, .load =>
      let s := { s with hod := { s.hod with staged := s.hod.staged ++ o.got } }
      s.onHostOp id (fun o => { o with step := .work, next := o.next + 1, result := padTo 16 (leBytes 4 (numAt o.result 0 4 + o.got.length)) })
    | 0x08, .desc => askHost id .yard [hostYardRequest o (o.got.take (o.num 26 2)) s] s
    | 0x08, .yard => yardAnswer id o s
    | 0x08, .yres => endHostOp (some id) true 0x00 o.result s
    | _, _ => s

/-- A YARD command that has ended completes at once; a long operation's end is LONG_OP_END's. -/
def endShort (id : Nat) (s : State) : State :=
  match s.hostOp id with
  | some o =>
    (match o.long, o.ended with
    | false, some (done, st) =>
      let s := { s with host := { s.host with ops := s.host.ops.filter (fun x => x.id ≠ id) } }
      finishCommand id o.ring (if done then loDone else loFailed) st o.result (bitOf (o.num 9 1) 1) s
    | _, _ => s)
  | none => s

/-- A command at work takes its next step: the outcome of its request, the next request, or what follows them. A MEMTEST's pages are tested only at
LONG_OP_SUSPENSION_POINT, which carries what the memories report. -/
def advanceOp (id : Nat) (e : MemEnv) (page : Bool) (s : State) : State :=
  let s := takeHostResult id s
  match s.hostOp id with
  | none => s
  | some o =>
    if !o.started || o.final || o.waiting then s else
    match o.pieces with
    | op :: rest => issueHost id op rest s
    | [] => if o.opc = 0x25 && !page && !o.cancelling && !o.held then s else endShort id (stepDone id o e s)

/-- Every command at work takes its next step. -/
def advanceOps (s : State) : State := s.each (s.host.ops.map (fun o => o.id)) (fun s id => advanceOp id MemEnv.quiet false s)

/-! ### Start, suspension points and ends (R747, R751) -/

/-- What an operation holds against others (R747): tiles, a stack's pass, or a yard's job. -/
def opResources (o : HostOp) : List Nat :=
  match o.opc with
  | 0x20 => setBits 128 (o.num 24 16)
  | 0x22 => [200 + o.num 24 1]
  | 0x23 => [300 + o.num 24 1]
  | 0x24 => [300 + o.num 24 1]
  | 0x26 => [400]
  | _ => []

/-- Whether every earlier command of an operation's ring is final (R737). -/
def fenceOk (s : State) (o : HostOp) : Bool :=
  !bitOf (o.num 9 1) 0 ||
  ((s.host.record.takeWhile (fun r => leNat (r.entry.take 8) ≠ o.id)).all (fun r => r.ring ≠ o.ring || decide (5 ≤ (commandNow s r).1)))

/-- Whether a unit that an operation needs is busy with work that is not the host's. -/
def unitBusy (s : State) (o : HostOp) : Bool :=
  match o.opc with
  | 0x22 => passBusy s o.stack
  | 0x23 => jobBusy s o.brick
  | 0x24 => jobBusy s o.brick
  | _ => false

/-- The first queued operation that may start (R747, R750): resources of earlier operations that are not final are held against it. -/
def nextStart (s : State) : List Nat → List HostOp → Option HostOp
  | _, [] => none
  | heldRes, o :: rest =>
    let free := (opResources o).all (fun r => !heldRes.contains r)
    if o.long && !o.final && !o.started && !o.held && free && fenceOk s o && !unitBusy s o then some o
    else nextStart s (if o.final then heldRes else heldRes ++ opResources o) rest

/-- Whether a resource that an operation needs is missing (R748, STATUS 0x04). -/
def lacksResource (s : State) (o : HostOp) : Bool :=
  match o.opc with
  | 0x20 => (runTiles o).any (fun t => siteState s t ≠ 3 || tileFenced s t || (s.mason t).run = .faulted || (s.mason t).run = .suspended)
  | 0x22 => !stackOn s o.stack
  | 0x23 => !s.isSet (Reg.SLB_STATE_READY o.brick)
  | 0x24 => !s.isSet (Reg.SLB_STATE_READY o.brick)
  | 0x25 => !stackOn s o.stack
  | _ => false

/-- The status of Hod for which a FWSTAGE may not begin (R793), if there is one: an image is on trial, or its length is out of range. -/
def stageRefusal (s : State) (len : Nat) : Option Nat :=
  if len < 4096 || 0x800000 < len then some 0x07
  else if s.hod.boot.trial || s.hod.restart.isSome then some 0x08
  else none

/-- An operation starts (R746): its descriptor or argument block is loaded first where it has one. -/
def beginOp (o : HostOp) (s : State) : State :=
  let id := o.id
  if lacksResource s o then endHostOp (some id) false 0x04 o.result s else
  let s := s.onHostOp id (fun o => { o with started := true, step := .work })
  let lbl := opLabel s o
  match o.opc with
  | 0x20 => if o.num 16 8 = 0 then startRun id { o with started := true } s else askHost id .desc (loadsOf lbl (o.num 16 8) 64) s
  | 0x26 =>
    (match stageRefusal s (o.num 24 4) with
    | some why => endHostOp (some id) false 0x0A (withReason (leBytes 4 0 ++ leBytes 1 why) why) s
    | none => ({ s with hod := if s.hod.boot.bank = 0 then { s.hod with staged := [], bankB := [] } else { s.hod with staged := [], bankA := [] } }).wr Reg.HOD_STAT_STAGED 1)
  | 0x21 => s
  | 0x25 => s
  | _ => askHost id .desc (loadsOf lbl (o.num 16 8) 32) s

/-- LONG_OP_START (R747): the first operation in acceptance order whose resources are free starts, while a driver is attached (R755). -/
def execLongOpStart (s : State) : Host.Outcome State Fault Refusal := ended s <|
  if !s.isSet Reg.HST_STAT_ATTACHED || s.isSet Reg.HST_STAT_HOSTLOST then .next s else
  match nextStart s [] s.host.ops with
  | none => .next s
  | some o => .next (beginOp o s)

/-- LONG_OP_SUSPENSION_POINT (R751): a long operation goes on to its next suspension point; one that is held stops there, suspended. -/
def execLongOpSuspensionPoint (id : Word) (e : MemEnv) (s : State) : Host.Outcome State Fault Refusal := ended s <|
  .next (advanceOp id.toNat e true (memReports e s))

/-- Whether an operation that a tile issued toward host memory (region 0xB) has no outcome yet. -/
def hostAccessOut (s : State) (t : Tile) : Bool :=
  let B := s.brick (tileBrick t)
  let mine (i : Issuer) (op : Op) : Bool := issuerTile i = some t.val && addrRegion op.addr.toNat = 0xB
  B.srcFlows.any (fun f => f.ops.any (fun o => mine o.issuer o.op)) || B.waitOps.any (fun w => mine w.issuer w.op) ||
  (s.tile t).releases.any (fun r => mine r.issuer r.op)

/-- Whether a command that has ended may still have a write into host memory that the host cannot see (R242): a RUN whose tiles have one on its way, or,
where its masons halted, a sieve that still works (DEDUCED, log entry 221). The other commands wait for each of their writes themselves. -/
def hostWritesOut (s : State) (o : HostOp) (done : Bool) : Bool :=
  o.opc = 0x20 && o.started &&
  (runTiles o).any (fun t => hostAccessOut s t || (done && ((s.sieve t).run.isSome || !(s.sieve t).queue.isEmpty)))

/-- LONG_OP_END (R242, R749, R751, R763): the work of a long operation has ended: its final completion is posted once its writes into host memory are
globally visible. -/
def execLongOpEnd (id : Word) (s : State) : Host.Outcome State Fault Refusal := ended s <|
  match s.hostOp id.toNat with
  | none => .next s
  | some o =>
    match o.long, o.ended with
    | true, some (done, st) =>
      if hostWritesOut s o done then .next s else
      let st := if o.discarded && st = 0x08 then 0x09 else st
      let s := { s with host := { s.host with ops := s.host.ops.filter (fun x => x.id ≠ o.id) } }
      .next (finishCommand o.id o.ring (if done then loDone else loFailed) st o.result (bitOf (o.num 9 1) 1) s)
    | _, _ => .next s

end Sys2Proof.Machine
end

