-- ==== Sys2Proof/Machine/Command.lean ====
section
/-! DEFINITION. Commands of the host: fetch, the record, refusals, and what each opcode begins (R736 to R748, R868). -/
namespace Sys2Proof.Machine
open Sys2Proof

/-! ### Fetch (R736, R740) -/

/-- Accepted long commands that have not begun, and long operations that are not final (R747). -/
def longHeld (s : State) : Nat :=
  (openLongOps s).length + (s.host.accepted.filter (fun id => match s.recordOf id with
    | some r => decide (0x20 ≤ entryOpc r.entry)
    | none => false)).length

/-- Whether a ring may fetch its next entry (R736, R739, R747). -/
def mayFetch (s : State) (r : Nat) : Bool :=
  ringWorks s r && (s.ring r).visible ≠ s.rd (Reg.HST_RSTAT_HEAD r) && (s.ring r).due.isEmpty && decide ((s.ring r).inUse < complSlots s r) &&
  decide (longHeld s < 256)

/-- Whether an OPC names a command (R745). -/
def opcListed (opc : Nat) : Bool := [0x01, 0x03, 0x04, 0x05, 0x07, 0x08, 0x20, 0x21, 0x22, 0x23, 0x24, 0x25, 0x26].contains opc

/-- A fetched entry takes its place in its ring's fetch order, with its first completion where that is known. -/
def fetched (r id : Nat) (c : Option Completion) (s : State) : State :=
  flushFirsts r (s.onRing r (fun R => { R with firsts := R.firsts ++ [(id, c)] }))

/-- What an entry comes to (R740). A duplicate of a command that is not final carries INTERIM too (DEDUCED, log entry 70). -/
def takeEntry (r : Nat) (x : Bytes) (s : State) : State :=
  let id := leNat (x.take 8)
  let noint := bitOf (entryNum x 9 1) 1
  let zero := List.replicate 16 (0 : Byte)
  if id = 0 then fetched r id (some { id := 0, state := loFailed, status := 0x02, flags := 0, result := zero, noint := noint }) s else
  match s.recordOf id with
  | some old =>
    if old.entry.drop 8 = x.drop 8 then
      let (st, status, result) := commandNow s old
      fetched r id (some { id := id, state := st, status := status, flags := if 5 ≤ st then 2 else 6, result := result, noint := noint }) (s.count Reg.HST_CNT1_DUPS 1)
    else
      fetched r id (some { id := id, state := loFailed, status := 0x05, flags := 8, result := zero, noint := noint })
        ((s.flag Reg.HST_ERR_IDCONF).raise 0x4005 [r, id])
  | none =>
    let e : HostRec := { entry := x, ring := r, state := loQueued, status := 0, result := zero }
    let keep := s.host.record ++ [e]
    let s := { s with host := { s.host with record := keep.drop (keep.length - 65536) } }
    let s := fetched r id none s
    if opcListed (entryOpc x) then { s with host := { s.host with accepted := s.host.accepted ++ [id] } }
    else finishCommand id r loFailed 0x01 zero noint s

/-- COMMAND_FETCH (R732, R736, R740): the next entry of a ring comes from host memory, or from the host-line cache, and is accepted, answered as a
duplicate or refused. Poison stops the ring's fetch there until its next doorbell (DESIGN CHOICE, log entry 71). -/
def execCommandFetch (r : Fin 32) (data : Bytes) (poisoned : Bool) (s : State) : Host.Outcome State Fault Refusal := ended s <|
  let s := releaseDoorbells s.host.doorbells.length s
  let k := r.val
  if !mayFetch s k then .next s else
  let head := s.rd (Reg.HST_RSTAT_HEAD k)
  let line := (s.rd (Reg.HST_CBASE_HPA k) * 4096 + 64 * head) / 64
  let cached := s.host.lines.find? (fun l => l.1 = line)
  if poisoned && cached.isNone then
    .next (((s.flag Reg.HST_ERR_RINGERR).raise 0x4004 [k, head]).onRing k (fun R => { R with visible := head }))
  else
    let x := match cached with
      | some l => l.2
      | none => padTo 64 data
    let rest := s.host.lines.filter (fun l => l.1 ≠ line)
    let s := { s with host := { s.host with lines := rest.drop (rest.length - 1023) ++ [(line, x)] } }
    let s := (s.wr (Reg.HST_RSTAT_HEAD k) ((head + 1) % cmdSlots s k)).count Reg.HST_CNT0_FETCHED 1
    .next (takeEntry k x s)

/-- INTERIM_COMPLETION (R742): a command whose first completion is still due, and that is not final, within the command settle time. -/
def execInterimCompletion (id : Word) (s : State) : Host.Outcome State Fault Refusal := ended s <|
  match s.recordOf id.toNat with
  | none => .next s
  | some r =>
    let (st, status, result) := commandNow s r
    if 5 ≤ st || !(s.ring r.ring).firsts.any (fun x => x.1 = id.toNat && x.2.isNone) then .next s else
    .next (postCompletion r.ring { id := id.toNat, state := st, status := status, flags := 4, result := result, noint := bitOf (entryNum r.entry 9 1) 1 } s)

/-! ### Field rules (R737, R745) -/

/-- Whether every byte of an entry from 16 on, outside the listed ranges, is zero, with its header as R737 asks. -/
def entryFormed (x : Bytes) (long : Bool) (used : List (Nat × Nat)) : Bool :=
  decide (entryNum x 9 1 / 4 = 0) && entryNum x 10 6 == 0 && (long || !bitOf (entryNum x 9 1) 0) &&
  (List.range 48).all (fun i => used.any (fun u => decide (u.1 ≤ i + 16 ∧ i + 16 < u.2)) || numAt x (i + 16) 1 == 0)

/-- Whether an address is a DESCADDR (R745) with `n` populated bytes. -/
def descAddrOk (s : State) (a n maxRegion : Nat) : Bool :=
  addrSeat a == 0xFFFF && decide (addrRegion a ≤ maxRegion) && a % 32 == 0 && populated s (addrRegion a) (addrOffset a) n

/-- Whether the host holds a right on `n` bytes at an address of this package, under a label (R865, R868); an address of another package is checked
there. -/
def hostMay (s : State) (lbl right a n : Nat) : Bool :=
  (addrSeat a != 0xFFFF && addrSeat a != s.ownSeatNo) ||
  keyGrants s { host := true, seat := s.ownSeatNo, lbl := lbl } right (addrRegion a) (addrOffset a) n none

/-- Whether an address names this package. -/
def ours (s : State) (a : Nat) : Bool := addrSeat a == 0xFFFF || addrSeat a == s.ownSeatNo

/-- A local address from region and offset. -/
def localAddr (region off : Nat) : Nat := 0xFFFF * 2 ^ 48 + region * 2 ^ 44 + off

/-- The first accepted command, taken where its OPC is the one given. -/
def takeCommand (opc : Nat) (s : State) : Option (HostRec × State) :=
  match s.host.accepted with
  | [] => none
  | id :: rest =>
    match s.recordOf id with
    | none => none
    | some r => if entryOpc r.entry = opc then some (r, { s with host := { s.host with accepted := rest } }) else none

/-- A short command that ends: Done with status 0x00, else Failed. -/
def endCommand (r : HostRec) (status : Nat) (result : Bytes) (s : State) : State :=
  finishCommand (leNat (r.entry.take 8)) r.ring (if status = 0 then loDone else loFailed) status (padTo 16 result) (bitOf (entryNum r.entry 9 1) 1) s

/-! ### Short commands -/

/-- CMD_NOP (R745). -/
def execCmdNop (s : State) : Host.Outcome State Fault Refusal := ended s <|
  match takeCommand 0x01 s with
  | none => .next s
  | some (r, s) => .next (endCommand r (if entryFormed r.entry false [] then 0 else 0x02) [] s)

/-- A steering command (R749): its target is a long operation that is not final. -/
def steerCommand (opc : Nat) (f : Nat → State → State) (s : State) : State :=
  match takeCommand opc s with
  | none => s
  | some (r, s) =>
    if !entryFormed r.entry false [(16, 24)] then endCommand r 0x02 [] s else
    let id := entryNum r.entry 16 8
    match s.hostOp id with
    | none => endCommand r 0x06 [] s
    | some o =>
      if o.final || !o.long then endCommand r 0x06 [] s else
      let s := f id s
      endCommand r 0x00 (leBytes 1 (match s.hostOp id with
        | some o => opState s o
        | none => 0)) s

/-- CMD_SUSPEND (R745, R749). -/
def execCmdSuspend (s : State) : Host.Outcome State Fault Refusal := ended s <| .next (steerCommand 0x03 suspendOp s)
/-- CMD_RESUME (R745, R749). -/
def execCmdResume (s : State) : Host.Outcome State Fault Refusal := ended s <| .next (steerCommand 0x04 resumeOp s)
/-- CMD_CANCEL (R745, R749). -/
def execCmdCancel (s : State) : Host.Outcome State Fault Refusal := ended s <| .next (steerCommand 0x05 cancelOp s)

/-- CMD_POLICY (R745, R761): the host-loss policy, and a preserved range added or removed. A range lies in one stack window of the package (DEDUCED, log
entry 72). -/
def execCmdPolicy (s : State) : Host.Outcome State Fault Refusal := ended s <|
  match takeCommand 0x07 s with
  | none => .next s
  | some (r, s) =>
    let x := r.entry
    let op := entryNum x 25 1
    let base := entryNum x 32 8
    let len := entryNum x 40 8
    if !entryFormed x false [(24, 26), (32, 56)] || decide (1 < entryNum x 24 1) || decide (2 < op) then .next (endCommand r 0x02 [] s) else
    let s' := s.wr Reg.HST_CTL_HLPOL (entryNum x 24 1)
    let n := fun (s : State) => leBytes 1 s.host.ranges.length
    if op = 0 then .next (endCommand r 0x00 (n s') s') else
    if !ours s base || decide (7 < addrRegion base) || len = 0 || len % 0x200000 ≠ 0 || !decide (addrOffset base + len ≤ windowPages (curT s (stackOf (addrRegion base))) * 4096) then
      .next (endCommand r 0x02 [] s) else
    if op = 1 then
      if 64 ≤ s.host.ranges.length then .next (endCommand r 0x0E [] s) else
      let s := { s' with host := { s'.host with ranges := s'.host.ranges ++ [{ base := base, length := len, tag := entryNum x 48 8, intact := true }] } }
      .next (endCommand r 0x00 (n s) s)
    else
      let mine := fun (g : PresRange) => bitsOf g.base 47 0 = bitsOf base 47 0 && g.length = len
      if !s.host.ranges.any mine then .next (endCommand r 0x02 [] s) else
      let s := { s' with host := { s'.host with ranges := s'.host.ranges.eraseP mine } }
      .next (endCommand r 0x00 (n s) s)

/-- CMD_YARD (R745): one slab-yard request on behalf of the host; its payload is inline, or at DESCADDR where it is longer than 24 bytes. -/
def execCmdYard (s : State) : Host.Outcome State Fault Refusal := ended s <|
  match takeCommand 0x08 s with
  | none => .next s
  | some (r, s) =>
    let x := r.entry
    let n := entryNum x 26 2
    let desc := entryNum x 16 8
    let res := entryNum x 32 8
    let lbl := s.rd (Reg.HST_CBASE_LABEL r.ring)
    let placed := if n ≤ 24 then desc = 0 && (x.drop (40 + n)).all (fun b => b = 0) else entryNum x 40 24 = 0 && descAddrOk s desc n 8
    if !entryFormed x false [(16, 28), (32, 64)] || decide (3 < entryNum x 24 1) || !decide (0x51 ≤ entryNum x 25 1 ∧ entryNum x 25 1 ≤ 0x5A) ||
      decide (512 < n) || !placed || (res ≠ 0 && addrSeat res ≠ 0xFFFF) then .next (endCommand r 0x02 [] s) else
    let b := brickOf (entryNum x 24 1)
    let at' := localAddr 0 (yardAddr s b)
    if !hostMay s lbl rightSLAB at' 1 || (n > 24 && !hostMay s lbl rightLD desc n) || (res ≠ 0 && !hostMay s lbl rightST res 1) then .next (endCommand r 0x03 [] s) else
    if !s.isSet (Reg.SLB_STATE_READY b) then .next (endCommand r 0x04 [] s) else
    let id := leNat (x.take 8)
    let o : HostOp := { id := id, ring := r.ring, entry := x, started := true, step := .desc }
    let s := { s with host := { s.host with ops := s.host.ops ++ [o] } }
    .next (if n ≤ 24 then askHost id .yard [hostYardRequest o ((x.drop 40).take n) s] s else askHost id .desc (loadsOf lbl desc n) s)

/-! ### Long commands (R745, R746) -/

/-- A long command taken up: refused with a status, or queued with an INTERIM completion (R742, R747). -/
def takeLong (opc : Nat) (check : Bytes → Nat → State → Option Nat) (s : State) : State :=
  match takeCommand opc s with
  | none => s
  | some (r, s) =>
    match check r.entry (s.rd (Reg.HST_CBASE_LABEL r.ring)) s with
    | some st => endCommand r st [] s
    | none =>
      let id := leNat (r.entry.take 8)
      let s := { s with host := { s.host with ops := s.host.ops ++ [{ id := id, ring := r.ring, entry := r.entry }] } }
      postCompletion r.ring { id := id, state := loQueued, status := 0x00, flags := 4, result := List.replicate 16 0, noint := bitOf (entryNum r.entry 9 1) 1 } s

/-- RUN's fields (R745, R868). A RUN of no tile is a field that is not valid (DEDUCED, log entry 73). -/
def checkRun (x : Bytes) (lbl : Nat) (s : State) : Option Nat :=
  let desc := entryNum x 16 8
  let off := entryNum x 48 4
  let tiles := setBits 128 (entryNum x 24 16)
  if !entryFormed x true [(16, 45), (48, 52)] || decide (15 < entryNum x 44 1) || tiles.isEmpty || entryNum x 40 4 % 4 ≠ 0 || decide (0x20000 ≤ entryNum x 40 4) ||
    (desc ≠ 0 && (!descAddrOk s desc 64 8 || decide (0x600000 < off + 64))) then some 0x02
  else if (desc ≠ 0 && (!hostMay s lbl rightLD desc 64 || !tiles.all (fun t => hostMay s lbl rightST (localAddr 8 (t * 0x800000 + off)) 64))) ||
    !tiles.all (fun t => hostMay s lbl rightST (localAddr 0xA (tileReg t 0 0)) 8) then some 0x03
  else none

/-- Whether an address range of a COPY is one it may name (R746). -/
def copyRangeOk (s : State) (a len : Nat) (dst : Bool) : Bool :=
  let r := addrRegion a
  let o := addrOffset a
  decide (o + len ≤ 2 ^ 44) && (decide (r ≤ 8) || (dst && r == 0xB && addrSeat a == 0xFFFF)) &&
  (!ours s a || decide (7 < r) || decide (o + len ≤ windowPages (curT s (stackOf r)) * 4096))

/-- COPY's fields (R745, R746, R868). -/
def checkCopy (x : Bytes) (lbl : Nat) (s : State) : Option Nat :=
  let src := entryNum x 24 8
  let dst := entryNum x 32 8
  let len := entryNum x 40 8
  if !entryFormed x true [(24, 48)] || len = 0 || decide (2 ^ 40 < len) || !copyRangeOk s src len false || !copyRangeOk s dst len true then some 0x02
  else if !hostMay s lbl rightLD src (min len 512) || !hostMay s lbl rightST dst (min len 512) then some 0x03
  else none

/-- SCRUB's fields. -/
def checkScrub (x : Bytes) (lbl : Nat) (s : State) : Option Nat :=
  if !entryFormed x true [(16, 25)] || decide (7 < entryNum x 24 1) || !descAddrOk s (entryNum x 16 8) 32 8 then some 0x02
  else if !hostMay s lbl rightLD (entryNum x 16 8) 32 then some 0x03
  else none

/-- A job's fields; a job needs yard administration (R668). -/
def checkJob (x : Bytes) (lbl : Nat) (s : State) : Option Nat :=
  if !entryFormed x true [(16, 25)] || decide (3 < entryNum x 24 1) || !descAddrOk s (entryNum x 16 8) 32 8 then some 0x02
  else if !hostMay s lbl rightLD (entryNum x 16 8) 32 || !hostMay s lbl rightYADM (localAddr 0 (yardAddr s (brickOf (entryNum x 24 1)))) 1 then some 0x03
  else none

/-- MEMTEST's fields; a range that overlaps a preserved range is refused (R748). -/
def checkMemtest (x : Bytes) (lbl : Nat) (s : State) : Option Nat :=
  let st := entryNum x 24 1
  let first := entryNum x 28 4
  let count := entryNum x 32 4
  let lo := first * 4096
  let hi := (first + count) * 4096
  if !entryFormed x true [(24, 25), (28, 37), (40, 48)] || decide (7 < st) || decide (2 < entryNum x 36 1) || count = 0 ||
    decide (windowPages (curT s (stackOf st)) < first + count) then some 0x02
  else if !hostMay s lbl rightST (localAddr st lo) (hi - lo) then some 0x03
  else if s.host.ranges.any (fun g => addrRegion g.base = st && decide (addrOffset g.base < hi ∧ lo < addrOffset g.base + g.length)) then some 0x07
  else none

/-- FWSTAGE's fields. -/
def checkStage (x : Bytes) (lbl : Nat) (s : State) : Option Nat :=
  let n := entryNum x 24 4
  if !entryFormed x true [(16, 28)] || !descAddrOk s (entryNum x 16 8) n 7 then some 0x02
  else if !hostMay s lbl rightLD (entryNum x 16 8) n then some 0x03
  else none

/-- CMD_RUN (R745, R746). -/
def execCmdRun (s : State) : Host.Outcome State Fault Refusal := ended s <| .next (takeLong 0x20 checkRun s)
/-- CMD_COPY (R745, R746). -/
def execCmdCopy (s : State) : Host.Outcome State Fault Refusal := ended s <| .next (takeLong 0x21 checkCopy s)
/-- CMD_SCRUB (R745, R746). -/
def execCmdScrub (s : State) : Host.Outcome State Fault Refusal := ended s <| .next (takeLong 0x22 checkScrub s)
/-- CMD_PFXJOB (R745, R746). -/
def execCmdPfxjob (s : State) : Host.Outcome State Fault Refusal := ended s <| .next (takeLong 0x23 checkJob s)
/-- CMD_SLABJOB (R745, R746). -/
def execCmdSlabjob (s : State) : Host.Outcome State Fault Refusal := ended s <| .next (takeLong 0x24 checkJob s)
/-- CMD_MEMTEST (R745, R746). -/
def execCmdMemtest (s : State) : Host.Outcome State Fault Refusal := ended s <| .next (takeLong 0x25 checkMemtest s)
/-- CMD_FWSTAGE (R745, R746, R793). -/
def execCmdFwstage (s : State) : Host.Outcome State Fault Refusal := ended s <| .next (takeLong 0x26 checkStage s)

end Sys2Proof.Machine
end

