-- ==== Sys2Proof/Machine/SfnExact.lean ====
section
/-! DEFINITION. How far a special-function result may lie from the exact value (R601, R603): an enclosure of the exact value, the bound that the
iterations give, and the FP32 codes within it, one of which the device gives.

An exact value is held in units of 2^-192, as two integers that enclose it: every FP32 value is a whole number of 2^-149. -/
namespace Sys2Proof.Machine
open Sys2Proof

/-- 1, ln 2 and 2 ÷ √π in units of 2^-192, rounded down. -/
def fxOne : Nat := 2 ^ 192
def fxLn2 : Nat := 0xb17217f7d1cf79abc9e3b39803f2f6af40f343267298b62d
def fxErf : Nat := 0x120dd750429b6d11ae3a914fed7fd8688281341d7587cea2e

/-- The sum of the first terms of a series: `next i t` is term i + 1 where term i is `t`, and `part i t` what term i adds. -/
def fxSeries (next : Nat → Nat → Nat) (part : Nat → Nat → Int) (terms first : Nat) : Int :=
  ((List.range terms).foldl (fun (a : Int × Nat) i => (a.1 + part i a.2, next i a.2)) (0, first)).1

/-- The magnitude of a finite value in these units, whole for every FP32 value, up to 256. -/
def fxMag (m : Nat) (e : Int) : Nat := min (256 * fxOne) (m * 2 ^ (e + 192).toNat)

/-- e^x for |x| up to 256: E and n with e^x = E × 2^n, E within 2^12 units. -/
def fxExp (x : Int) : Nat × Int :=
  let n := Int.fdiv x fxLn2
  let r := (x - n * fxLn2).toNat
  ((fxSeries (fun i t => t * r / fxOne / (i + 1)) (fun _ t => t) 48 fxOne).toNat, n)

/-- e^x in units, within 2^12 of them, for x at most 0. -/
def fxExpNeg (x : Nat) : Nat :=
  let (e, n) := fxExp (-(x : Int))
  e / 2 ^ (-n).toNat

/-- An enclosure of a value known within `slack` units. -/
def fxNear (v : Int) (slack : Nat) : Int × Int := (v - slack, v + slack)

/-- e^x enclosed. -/
def encExp (x : Int) : Int × Int :=
  let (e, n) := fxExp x
  if 0 ≤ n then ((e - 2 ^ 12 : Int) * 2 ^ n.toNat, (e + 2 ^ 12 : Int) * 2 ^ n.toNat)
  else ((e - 2 ^ 12 : Int) / 2 ^ (-n).toNat, (e + 2 ^ 12 : Int) / 2 ^ (-n).toNat + 1)

/-- ln x of m × 2^e enclosed: the exponent's share, and 2 artanh ((u − 1) ÷ (u + 1)) of the significand u. -/
def encLog (m : Nat) (e : Int) : Int × Int :=
  let l := Nat.log2 m
  let z := (m - 2 ^ l) * fxOne / (m + 2 ^ l)
  fxNear ((e + l) * fxLn2 + fxSeries (fun _ t => t * z / fxOne * z / fxOne) (fun i t => (2 * t / (2 * i + 1) : Nat)) 64 z) (2 ^ 12)

/-- The integer square root, bit by bit. -/
def fxSqrt (n : Nat) : Nat := (List.range 300).foldl (fun r i => if (r + 2 ^ (299 - i)) ^ 2 ≤ n then r + 2 ^ (299 - i) else r) 0

/-- 1 ÷ x and 1 ÷ √x of m × 2^e enclosed. -/
def encRec (m : Nat) (e : Int) : Int × Int :=
  let v := 2 ^ (384 - (e + 192)).toNat / m
  (v, v + 1)
def encRsq (m : Nat) (e : Int) : Int × Int :=
  let v := fxSqrt (2 ^ (384 - e).toNat / m)
  (v, v + 1)

/-- tanh x enclosed: below 2^-20 it lies between x − x³ ÷ 3 and x. -/
def encTanh (x : Nat) : Int × Int :=
  if x < 2 ^ 172 then ((x : Int) - x ^ 3 / (3 * fxOne ^ 2) - 1, x) else
  let w := fxExpNeg (min (256 * fxOne) (2 * x))
  fxNear (((fxOne - w) * fxOne / (fxOne + w) : Nat) : Int) (2 ^ 14)

/-- 1 ÷ (1 + e^−x) enclosed. -/
def encSigmoid (neg : Bool) (x : Nat) : Int × Int :=
  let w := fxExpNeg x
  fxNear (((if neg then w else fxOne) * fxOne / (fxOne + w) : Nat) : Int) (2 ^ 14)

/-- erf x enclosed: from 6 on it is within 2^-54 of 1; below, its Taylor series, whose largest term is under 2^56. -/
def encErf (x : Nat) : Int × Int :=
  if 6 * fxOne ≤ x then ((fxOne - 2 ^ 138 : Nat), fxOne) else
  let q := x * x / fxOne
  let s := fxSeries (fun i t => t * q / fxOne / (i + 1)) (fun i t => (if i % 2 = 0 then 1 else -1) * ((t / (2 * i + 1) : Nat) : Int)) 200 x
  fxNear (s * fxErf / fxOne) (if x < fxOne then 2 ^ 12 else 2 ^ 66)

/-- An enclosure with its sign turned. -/
def encNeg (neg : Bool) (v : Int × Int) : Int × Int := if neg then (-v.2, -v.1) else v

/-- The exact value of function `f` of R597 at a finite value that R600 does not cover, enclosed. -/
def encSf (f : Nat) (neg : Bool) (m : Nat) (e : Int) : Int × Int :=
  let x := fxMag m e
  let signed : Int := if neg then -x else x
  match f with
  | 0 => encExp signed
  | 1 => encExp (signed * fxLn2 / fxOne)
  | 2 => encLog m e
  | 3 => encNeg neg (encRec m e)
  | 4 => encRsq m e
  | 5 => encNeg neg (encTanh x)
  | 6 => encSigmoid neg x
  | _ => encNeg neg (encErf x)

/-- The bounds of R603 in units of ulp(y), by function and iterations. -/
def sfUlps (f iter : Nat) : Nat :=
  let row : List Nat := match f with
    | 0 | 1 => [8, 2, 1]
    | 2 => [16, 2, 1]
    | 3 => [256, 1, 1]
    | 4 => [256, 2, 1]
    | 5 | 6 => [32, 3, 2]
    | _ => [64, 4, 2]
  row.getD (iter - 1) 1

/-- ulp(y) of R603 for a value of magnitude `a` units. -/
def sfUlp (a : Nat) : Nat := 2 ^ (max ((Nat.log2 a : Int) - 192) (-126) + 169).toNat

/-- The bound of R603 at a value m × 2^e, with the exact result enclosed in `y`: an absolute one for LOG in [0.75, 1.5]. -/
def sfReach (f iter m : Nat) (e : Int) (y : Int × Int) : Nat :=
  let x := fxMag m e
  if f = 2 ∧ 3 * fxOne ≤ 4 * x ∧ 2 * x ≤ 3 * fxOne then 2 ^ (192 - ([22, 24, 25].getD (iter - 1) 25))
  else sfUlps f iter * sfUlp (max y.1.natAbs y.2.natAbs)

/-- FP32 codes in order of value: the number of the largest code at or below a value in units, and of the smallest at or above it. -/
def keyDown (v : Int) : Int :=
  if 0 ≤ v then (fmtFP32.magCode true v.toNat (-192) : Nat) else -((fmtFP32.magCode true (-v - 1).toNat (-192) : Nat) + 1 : Int)
def keyUp (v : Int) : Int := -keyDown (-v)

/-- The FP32 code of a number in that order. -/
def keyCode (k : Int) : Nat := if k < 0 then 2 ^ 31 + k.natAbs else k.toNat

/-- The numbers of the lowest and the highest FP32 code that R603 allows: within the bound of the exact value. -/
def sfWindow (f iter : Nat) (neg : Bool) (m : Nat) (e : Int) : Int × Int :=
  let y := encSf f neg m e
  let b : Int := sfReach f iter m e y
  (keyUp (y.1 - b), keyDown (y.2 + b))

/-- The code that the device's choice `c` stands for among those of a window: each of them, and −0 too where zero is one. Where the bound reaches the
largest finite value the result is that value or the infinity, and beyond it the infinity (R601; of both signs, DEDUCED, log entry 217). -/
def sfPick (w : Int × Int) (c : Nat) : Nat :=
  let top : Int := fmtFP32.maxCode
  if top < w.1 then fmtFP32.infCode
  else if top ≤ w.2 then (if c % 2 = 0 then fmtFP32.maxCode else fmtFP32.infCode)
  else if w.2 < -top then 2 ^ 31 + fmtFP32.infCode
  else if w.1 ≤ -top then 2 ^ 31 + (if c % 2 = 0 then fmtFP32.maxCode else fmtFP32.infCode)
  else
    let n := (w.2 - w.1 + 1).toNat
    let j := c % (if w.1 ≤ 0 ∧ 0 ≤ w.2 then n + 1 else n)
    if j = n then 2 ^ 31 else keyCode (w.1 + j)

/-- The FP32 result of function `f` with `iter` iterations at the FP32 code `x`, where R600, R602 and the exact cases of R601 do not fix it: some
code within the bound of R603, the same on every tile (R604). -/
def sfBounded (f iter x : Nat) : Nat :=
  match fmtFP32.dec x with
  | .fin neg m e => sfPick (sfWindow f iter neg m e) (Config.specialFn f iter x)
  | _ => fmtFP32.nanCode

/-- Whether the exact result lies beyond the largest finite BF16 value by more than the bound of a BF16 result (R601, R603). -/
def sfBeyondBf16 (f iter x : Nat) : Bool :=
  match fmtFP32.dec x with
  | .fin neg m e =>
    let y := encSf f neg m e
    decide ((2 ^ 128 - 2 ^ 119 : Int) * fxOne < (if neg && f == 3 then -y.2 else y.1) - sfReach f iter m e y)
  | _ => false

end Sys2Proof.Machine
end

