-- ==== Sys2Proof/Machine/Sfn.lean ====
section
/-! DEFINITION. Special functions, the summing tree and division (R595, R597 to R604, R610): what the glaze computes beyond R588. -/
namespace Sys2Proof.Machine
open Sys2Proof

/-- FP32 codes that recur. -/
def f32inf : Nat := 0x7F800000
def f32ninf : Nat := 0xFF800000
def f32nan : Nat := 0x7FC00000
def f32half : Nat := 0x3F000000
def f32unit : Nat := 0x3F800000

/-- Equality of FP32 codes as C's == has it: a NaN equals nothing, and −0 equals +0. -/
def f32eq (a b : Nat) : Bool := decide ((f32 a).cmp (f32 b) = some .eq)
/-- Order of FP32 codes; false where either is a NaN. -/
def f32lt (a b : Nat) : Bool := decide ((f32 a).cmp (f32 b) = some .lt)

/-- IEEE 754 division of FP32 codes, rounded to nearest with ties to even (R610). -/
def f32div (a b : Nat) : Nat :=
  match f32 a, f32 b with
  | .nan, _ => f32nan
  | _, .nan => f32nan
  | .inf _, .inf _ => f32nan
  | .inf x, .fin y _ _ => fmtFP32.enc (.inf (xor x y))
  | .fin x _ _, .inf y => fmtFP32.enc (.fin (xor x y) 0 0)
  | .fin x m e, .fin y n f =>
    if n = 0 then (if m = 0 then f32nan else fmtFP32.enc (.inf (xor x y)))
    else
      -- 64 more bits and a sticky bit settle the one rounding
      let q := m * 2 ^ 64 / n
      let r := bit (decide (m * 2 ^ 64 % n ≠ 0))
      fmtFP32.enc (.fin (xor x y) (2 * q + r) (e - f - 65))

/-- One level of the tree of R595: lane i takes lane i plus lane i + h. -/
def treeLevel (add : Nat → Nat → Nat) (vs : List Nat) : List Nat :=
  let h := vs.length / 2
  List.zipWith add (vs.take h) (vs.drop h)

/-- The tree sum of 2^n lanes (R595). -/
def treeFold (add : Nat → Nat → Nat) : Nat → List Nat → Nat
  | 0, vs => vs.headD 0
  | n + 1, vs => treeFold add n (treeLevel add vs)

/-- The FP32 tree sum of 128 or 256 lanes, inactive lanes holding −0 (R595). -/
def treeSum (lanes : Nat) (vs : List Nat) : Nat :=
  treeFold f32add (Nat.log2 lanes) (vs ++ List.replicate (lanes - vs.length) 0x80000000)

/-! ### Special functions -/

/-- The functions of R597. -/
def sfExp : Nat := 0
def sfExp2 : Nat := 1
def sfLog : Nat := 2
def sfRec : Nat := 3
def sfRsq : Nat := 4
def sfTanh : Nat := 5
def sfSigmoid : Nat := 6
def sfErf : Nat := 7

/-- The result of a special input (R600), or none. -/
def sfSpecial (f x : Nat) : Option Nat :=
  match f32 x with
  | .nan => some f32nan
  | .inf neg =>
    some (match f, neg with
      | 0, false | 1, false | 2, false => f32inf
      | 0, true | 1, true | 6, true => 0
      | 2, true | 4, true => f32nan
      | 3, false | 4, false => 0
      | 3, true => 0x80000000
      | 6, false => f32unit
      | _, false => f32unit
      | _, true => f32unit + 2 ^ 31)
  | .fin neg m _ =>
    if m = 0 then
      some (match f with
        | 0 | 1 => f32unit
        | 2 => f32ninf
        | 3 | 4 => if neg then f32ninf else f32inf
        | 6 => f32half
        | _ => if neg then 0x80000000 else 0)
    else if (f = 2 || f = 4) && neg then some f32nan
    else if f = 2 && x = f32unit then some 0
    else none

/-- The integer that a finite FP32 code holds, if it holds one. -/
def f32int (x : Nat) : Option Int :=
  match f32 x with
  | .fin neg m e =>
    if 0 ≤ e then some ((if neg then -1 else 1) * ((m * 2 ^ e.toNat : Nat) : Int))
    else if m % 2 ^ (-e).toNat = 0 then some ((if neg then -1 else 1) * ((m / 2 ^ (-e).toNat : Nat) : Int))
    else none
  | _ => none

/-- The exponent of a finite FP32 code that is a power of two, if it is one. -/
def f32pow (x : Nat) : Option Int :=
  match f32 x with
  | .fin _ m e => if m ≠ 0 ∧ m = 2 ^ Nat.log2 m then some ((Nat.log2 m : Int) + e) else none
  | _ => none

/-- The code of ±2^n in FP32. -/
def f32two (neg : Bool) (n : Int) : Nat := fmtFP32.enc (.fin neg 1 n)

/-- The exact results of R601. -/
def sfExact (f x : Nat) : Option Nat :=
  if f = sfExp2 then
    match f32int x with
    | some n => if -126 ≤ n ∧ n ≤ 127 then some (f32two false n) else none
    | none => none
  else if f = sfRec then
    match f32pow x with
    | some n => if -126 ≤ -n ∧ -n ≤ 127 then some (f32two (f32 x).signBit (-n)) else none
    | none => none
  else if f = sfRsq then
    match f32pow x with
    | some n => if n % 2 = 0 then some (f32two false (-(n / 2))) else none
    | none => none
  else none

/-- The SFN_FLUSH index of a function (R597). -/
def flushIndex (f : Nat) : Option Nat := if f = 0 then some 0 else if f = 1 then some 1 else if f = 6 then some 2 else none

/-- One evaluation: the result with the flags of its last rounding, and whether the argument or the result was flushed (R602). -/
structure SfResult where
  conv : Conv
  flushed : Bool := false
  subfl : Bool := false
  deriving DecidableEq, Repr

/-- The iterations a command uses (R599). -/
def sfIter (cmd : TileCmd) (iter : Nat) : Nat := if iter = 0 then cmd.iterDef else iter

/-- A special function of an FP32 code, with the command's settings; `bf16`: the output format is BF16 (R598 to R603; a BF16 result is the one
rounding of the FP32 result under ROUND, DEDUCED, log entry 217). -/
def sfEval (cmd : TileCmd) (iter f x : Nat) (bf16 : Bool) : SfResult :=
  let out := fun (v : Nat) => if bf16 then toBf16 cmd.rtz (f32 v) else ({ code := v } : Conv)
  match sfSpecial f x with
  | some v => { conv := out v }
  | none =>
    if (flushIndex f).any (fun i => f32lt x (cmd.thr.getD i f32ninf)) then { conv := { code := 0 }, flushed := true } else
    let v := match sfExact f x with
      | some v => out v
      | none =>
        let v := out (sfBounded f (sfIter cmd iter) x)
        -- R601 speaks of the exact result, so toward-zero rounding does not hold it at the largest finite value
        if bf16 && sfBeyondBf16 f (sfIter cmd iter) x && (fmtBF16.dec v.code).isFin then
          { code := fmtBF16.sign (fmtBF16.dec v.code).signBit + fmtBF16.infCode, infOut := true } else v
    let mb := if bf16 then 7 else 23
    let mag := v.code % 2 ^ (8 + mb)
    if cmd.subf && decide (0 < mag ∧ mag < 2 ^ mb) then { conv := { v with code := v.code - mag }, subfl := true } else { conv := v }

/-- The code of an evaluation. -/
def SfResult.code (r : SfResult) : Nat := r.conv.code

/-- What evaluations of one function leave in the tile's registers and counters (R602, R624, R894). -/
def noteSf (t : Tile) (iter f : Nat) (rs : List SfResult) (s : State) : State :=
  let n := (rs.filter (fun r => r.flushed || r.subfl)).length
  let s := s.when (rs.any (fun r => r.flushed)) (fun s => s.flag (Reg.SFN_STAT_FLUSHED t))
  let s := s.when (rs.any (fun r => r.subfl)) (fun s => s.flag (Reg.SFN_STAT_SUBFL t))
  tally t (24 + f) rs.length (tally t 32 n (tally t 33 (iter * rs.length) (s.count (Reg.SFN_CNT_FLUSHES t) n)))

end Sys2Proof.Machine
end

