-- ==== Sys2Proof/Machine/Glaze.lean ====
section
/-! DEFINITION. The glaze and its row statistics (chapter 12): registers and poison marks, the checks of a command, and what each operation
writes. -/
namespace Sys2Proof.Machine
open Sys2Proof

/-! ### Fields of a glaze command (R583) -/

def gImm (c : Nat) : Nat := bitsOf c 127 96
def gVd (c : Nat) : Nat := bitsOf c 95 91
def gVa (c : Nat) : Nat := bitsOf c 90 86
def gVb (c : Nat) : Nat := bitsOf c 85 81
def gVc (c : Nat) : Nat := bitsOf c 80 76
def gSlot (c : Nat) : Nat := bitsOf c 75 72
def gSub (c : Nat) : Nat := bitsOf c 71 64
def gIter (c : Nat) : Nat := bitsOf c 63 60
def gVl (c : Nat) : Nat := bitsOf c 47 32
def gBimm (c : Nat) : Bool := bitOf c 71

/-! ### Registers (R578 to R580) -/

/-- Elements of `w` bytes in a register. -/
def lanes (w : Nat) : Nat := 512 / w

/-- The active elements of a command over `n` processed elements (R585). -/
def active (c n : Nat) : Nat := if gVl c = 0 then n else gVl c

/-- Byte b of a glaze register. -/
def gregByte (G : Glaze) (v b : Nat) : Byte := tabGet 0 G.regs (512 * v + b)

/-- Element i, of w bytes, of a glaze register. -/
def gregElem (G : Glaze) (v w i : Nat) : Nat := leNat ((List.range w).map (fun k => gregByte G v (w * i + k)))

/-- Whether the word that holds element i of w bytes of a register is poisoned. -/
def gregBad (G : Glaze) (v w i : Nat) : Bool := G.marks.contains (64 * v + w * i / 8)

/-- An element that a command writes: its index, its code, and whether it is poisoned. -/
structure OutElem where
  ix : Nat
  code : Nat
  bad : Bool
  deriving DecidableEq, Repr

/-- A register with elements of w bytes written (R585, R619): a word with a poisoned one is poisoned; a word written whole without poison is
cleared; any other keeps its mark. -/
def gregPut (v w : Nat) (es : List OutElem) (G : Glaze) : Glaze :=
  let regs := es.foldl (fun r e => (List.range w).foldl (fun r k => tabSet 0 r (512 * v + w * e.ix + k) (BitVec.ofNat 8 (e.code / 256 ^ k))) r) G.regs
  let word := fun (e : OutElem) => w * e.ix / 8
  let bad := (es.filter (fun e => e.bad)).map word
  let marks := (es.map word).eraseDups.foldl (fun m x =>
    if bad.contains x then insertNum m (64 * v + x)
    else if (es.filter (fun e => word e = x)).length * w = 8 then m.filter (fun y => y ≠ 64 * v + x) else m) G.marks
  { G with regs := regs, marks := marks }

/-- The state with a tile's glaze changed. -/
def State.onGlaze (s : State) (t : Tile) (f : Glaze → Glaze) : State := s.onTile t (fun T => { T with glaze := f T.glaze })

/-- What SECDED reports of a tile's glaze registers (R620). -/
def glazeReports (t : Tile) (e : MemEnv) (s : State) : State :=
  s.each (e.glazeUnc.filter (fun u => u.1 = t.val)) (fun s u =>
    ((s.onGlaze t (fun G => { G with marks := insertNum G.marks u.2 })).flag (Reg.GLZ_ERR_REGUNC t)).raise 0x3203 [t.val, u.2 / 64, u.2 % 64])

/-! ### Starting, refusing and completing a command -/

/-- The glaze takes the head of its queue. -/
def popGlaze (t : Tile) (run : Option UnitRun) (s : State) : State := s.onGlaze t (fun G => { G with queue := G.queue.drop 1, run := run })

/-- A glaze command is refused (R617). -/
def refuseGlaze (t : Tile) (cmd : TileCmd) (why : Nat) (s : State) : State :=
  let c := cmd.word
  let s := finishSummary t cmd 0 (popGlaze t none s)
  let s := (((s.flag (Reg.GLZ_ERR_REFUSED t)).wr (Reg.GLZ_REFUSE_OP t) (cOp c)).wr (Reg.GLZ_REFUSE_WHY t) why).wr (Reg.GLZ_REFUSE_SUB t) (gSub c)
  let s := tally t 22 1 (s.count (Reg.GLZ_CNT0_REFUSALS t) 1)
  if (s.tile t).glaze.refusedAt.all (fun x => decide (x + 10 ^ 6 ≤ s.now)) then
    (s.onGlaze t (fun G => { G with refusedAt := some s.now })).raise 0x3201 [t.val, cOp c, gSub c, why]
  else s

/-- A command starts and runs until GLAZE_COMMAND_COMPLETE writes its summary. -/
def startGlaze (t : Tile) (cmd : TileCmd) (sum : Word) (s : State) : State := popGlaze t (some { cmd := cmd, sum := sum }) s

/-- The first poisoned input of a command (R619): POISIN, and event 0x3202 with a register or slot. -/
def glazePoisIn (t : Tile) (c : Nat) (bad : Bool) (what : Nat) (s : State) : State :=
  if bad then (s.flag (Reg.GLZ_ERR_POISIN t)).raise 0x3202 [t.val, cOp c, what] else s

/-- Which fields a command uses, for R584: format A, format B, format D, VD, VA, VB, VC, IMM. -/
structure GlazeUse where
  fa : Bool := false
  fb : Bool := false
  fd : Bool := false
  vd : Bool := false
  va : Bool := false
  vb : Bool := false
  vc : Bool := false
  imm : Bool := false
  deriving DecidableEq, Repr

/-- Whether the fields a command does not use are zero, and its reserved ones (R583, R584). -/
def unusedZero (u : GlazeUse) (c : Nat) : Bool :=
  (u.fa || cFmtA c == 0) && (u.fb || cFmtB c == 0) && (u.fd || cFmtD c == 0) && (u.vd || gVd c == 0) && (u.va || gVa c == 0) &&
  (u.vb || gVb c == 0) && (u.vc || gVc c == 0) && (u.imm || gImm c == 0) && bitsOf c 59 48 == 0 && decide (gIter c ≤ 3)

/-- What a command's own checks find, in the order of R618's reasons: its formats, its sub-operation and unused fields with VL against the processed
element count, its address, SUMEN where it writes no summary, and its slot. -/
structure GlazeCheck where
  fmt : Bool := true
  fields : Bool := true
  addr : Bool := true
  sums : Bool := false       -- the operation writes a summary
  slot : Bool := true
  deriving DecidableEq, Repr

/-- The reason a command is refused for, if it is; the lowest where several apply (DESIGN CHOICE, log entry 42). -/
def GlazeCheck.why (k : GlazeCheck) (c : Nat) : Option Nat :=
  if !k.fmt then some 0x2 else if !k.fields then some 0x3 else if !k.addr then some 0x4
  else if cSumen c && !k.sums then some 0x5 else if !k.slot then some 0x6 else none

/-- Whether the glaze can start the command at the head of its queue, and that command. -/
def glazeHead (s : State) (t : Tile) (mine : Nat → Bool) : Option TileCmd :=
  let G := (s.tile t).glaze
  match G.queue with
  | [] => none
  | cmd :: _ => if mayStart s t cmd && G.run.isNone && mine cmd.word then some cmd else none

/-- A glaze command is carried out: the head of the queue, where it is one that `mine` accepts, is refused or performed. -/
def glazeDo (t : Tile) (mine : Nat → Bool) (check : Nat → State → GlazeCheck) (perform : TileCmd → State → Word × State) (e : MemEnv) (s : State) :
    Host.Outcome State Fault Refusal :=
  match glazeHead s t mine with
  | none => .next s
  | some cmd =>
    match (check cmd.word s).why cmd.word with
    | some why => .next (refuseGlaze t cmd why s)
    | none =>
      let s := glazeReports t e (tileReports { e with masonUnc := [], masonCorr := [] } s)
      let (sum, s) := perform cmd s
      .next (startGlaze t cmd sum s)

/-- A summary of a glaze command (R596, R611, R619): where a poisoned element enters it, POIS is set and what depends on that element is open. -/
def glazeSum (kind val : Nat) (any all nan bad : Bool) (s : State) : Word × State :=
  if bad then
    let (k, s) := s.draw 1
    (openSummary 1 kind any all nan (Config.freeWord k), s)
  else (BitVec.ofNat 64 (sumWord kind val any all nan false), s)

/-- The summary of a row statistics command (R611): ANY and ALL are 0, NAN is set where VAL is a NaN, and VAL of a poisoned slot is undefined. -/
def rowSum (kind val : Nat) (bad : Bool) (s : State) : Word × State :=
  let (k, s) := s.draw 1
  let v := if bad then (Config.freeWord k).toNat % 2 ^ 32 else val
  (BitVec.ofNat 64 (sumWord kind v false false (f32 v).isNan bad), s)

/-! ### Moves (R586, R615) -/

/-- Whether the address of a move and the bytes it touches are allowed (R615). -/
def moveAddrOk (c bytes : Nat) : Bool := decide (gImm c % 64 = 0 ∧ gImm c + bytes ≤ tileStoreSize) && bitsOf (gImm c) 31 23 == 0

/-- Whether a format code is one of R450. -/
def fmtListed (f : Nat) : Bool := decide (f ≤ 7)

/-- VLD; an operation that no row names is refused here (R586). -/
def execVld (t : Tile) (e : MemEnv) (s : State) : Host.Outcome State Fault Refusal := ended s <|
  let known := fun (o : Nat) => decide (1 ≤ o ∧ o ≤ 3) || decide (0x10 ≤ o ∧ o ≤ 0x1B) || o == 0x20 || o == 0x21 || o == 0x30 || o == 0x31 ||
    o == 0x40 || o == 0x50 || o == 0x60
  match glazeHead s t (fun c => !known (cOp c)) with
  | some cmd => .next (refuseGlaze t cmd 0x1 s)
  | none =>
    glazeDo t (fun c => cOp c == 0x01)
      (fun c _ =>
        let w := elemWidth (cFmtD c)
        let n := active c (lanes w)
        { fmt := fmtListed (cFmtD c), fields := unusedZero { fd := true, vd := true, imm := true } c && gSub c == 0 && decide (n ≤ lanes w),
          addr := moveAddrOk c (n * w) })
      (fun cmd s =>
        let c := cmd.word
        let w := elemWidth (cFmtD c)
        let n := active c (lanes w)
        let es := (List.range n).map (fun i =>
          ({ ix := i, code := storeNumAt s t (gImm c + w * i) w, bad := storeMarked s t (gImm c + w * i) w } : OutElem))
        let s := glazePoisIn t c (es.any (fun x => x.bad)) (gVd c) s
        (0, tally t 12 n (s.onGlaze t (gregPut (gVd c) w es)))) e s

/-- VST: poisoned words carry their mark into the tile store (R619). -/
def execVst (t : Tile) (e : MemEnv) (s : State) : Host.Outcome State Fault Refusal := ended s <|
  glazeDo t (fun c => cOp c == 0x02)
    (fun c _ =>
      let w := elemWidth (cFmtA c)
      let n := active c (lanes w)
      { fmt := fmtListed (cFmtA c), fields := unusedZero { fa := true, va := true, imm := true } c && gSub c == 0 && decide (n ≤ lanes w),
        addr := moveAddrOk c (n * w) })
    (fun cmd s =>
      let c := cmd.word
      let w := elemWidth (cFmtA c)
      let n := active c (lanes w)
      let G := (s.tile t).glaze
      let bytes := (List.range (n * w)).map (gregByte G (gVa c))
      let bad := (wordsOf 0 (n * w)).filter (fun x => G.marks.contains (64 * gVa c + x))
      let s := glazePoisIn t c (!bad.isEmpty) (gVa c) s
      let s := storePut t (gImm c) bytes false s
      let s := s.each bad (fun s x => markWord t true s (gImm c / 8 + x))
      (0, tally t 12 n s)) e s

/-- VBC. -/
def execVbc (t : Tile) (e : MemEnv) (s : State) : Host.Outcome State Fault Refusal := ended s <|
  glazeDo t (fun c => cOp c == 0x03)
    (fun c _ =>
      { fmt := fmtListed (cFmtD c),
        fields := unusedZero { fd := true, vd := true, imm := true } c && gSub c == 0 && decide (active c (lanes (elemWidth (cFmtD c))) ≤ lanes (elemWidth (cFmtD c))) })
    (fun cmd s =>
      let c := cmd.word
      let w := elemWidth (cFmtD c)
      let n := active c (lanes w)
      let es := (List.range n).map (fun i => ({ ix := i, code := gImm c % 256 ^ w, bad := false } : OutElem))
      (0, tally t 12 n (s.onGlaze t (gregPut (gVd c) w es)))) e s

/-! ### Element-wise arithmetic (R587, R588) -/

/-- The conversion of a glaze result, with NANOUT and INFOUT set for any NaN or infinity (R593). -/
def glazeConv (fmt : Nat) (k : Conv) : Conv :=
  let v := elemFv fmt k.code
  { k with nanOut := k.nanOut || v.isNan, infOut := k.infOut || v.isInf }

/-- An exact value rounded to FP32 or BF16 (R588). -/
def glazeRound (fmt : Nat) (rtz : Bool) (x : Fv) : Conv :=
  glazeConv fmt (if fmt = 2 then toBf16 rtz x else { code := fmtFP32.enc x })

/-- The floating format of a code of R450 that the glaze computes in. -/
def glazeFmt (fmt : Nat) : FloatFmt := if fmt = 2 then fmtBF16 else fmtFP32

/-- Arithmetic of one element (R588): `op` is the OP of R586. -/
def glazeArith (op fmt : Nat) (rtz : Bool) (a b c : Nat) : Conv :=
  if fmt = 6 then
    let x := sextInt 32 a
    let y := sextInt 32 b
    { code := wrapNat 32 (match op with
        | 0x10 => x + y
        | 0x11 => x - y
        | 0x12 => x * y
        | 0x14 => min x y
        | 0x15 => max x y
        | 0x16 => if x < 0 then -x else x
        | _ => -x) }
  else
    let F := glazeFmt fmt
    let x := F.dec a
    let y := F.dec b
    match op with
    | 0x10 => glazeRound fmt rtz (x.add y)
    | 0x11 => glazeRound fmt rtz (x.add y.neg)
    | 0x12 => glazeRound fmt rtz (x.mul y)
    | 0x13 => glazeRound fmt rtz ((x.mul y).add (F.dec c))
    | 0x14 => glazeConv fmt { code := F.minCode a b }
    | 0x15 => glazeConv fmt { code := F.maxOf a b }
    | 0x16 => glazeConv fmt { code := if x.isNan then F.nanCode else a % 2 ^ (F.eb + F.mb) }
    | _ => glazeConv fmt { code := if x.isNan then F.nanCode else (a + 2 ^ (F.eb + F.mb)) % 2 ^ (1 + F.eb + F.mb) }

/-- Operand B of an element: the element of VB, or IMM broadcast (R587), with its poison. -/
def operandB (G : Glaze) (c w i : Nat) : Nat × Bool :=
  if gBimm c then (gImm c % 256 ^ w, false) else (gregElem G (gVb c) w i, gregBad G (gVb c) w i)

/-- The checks that arithmetic, CMP and bitwise operations share: equal formats, BIMM, VL. -/
def elementCheck (fmts : List Nat) (useB useC subOk : Bool) (sums : Bool) (c : Nat) : GlazeCheck :=
  let w := elemWidth (cFmtA c)
  { fmt := fmts.contains (cFmtA c) && cFmtD c == cFmtA c && (if useB then cFmtB c == cFmtA c else cFmtB c == 0),
    fields := unusedZero { fa := true, fb := true, fd := true, vd := true, va := true, vb := useB && !gBimm c, vc := useC, imm := gBimm c } c &&
      subOk && decide (active c (lanes w) ≤ lanes w),
    sums := sums }

/-- An element-wise operation of OP 0x10 to 0x17 (R588, R593). -/
def arithCmd (t : Tile) (op : Nat) (e : MemEnv) (s : State) : Host.Outcome State Fault Refusal :=
  let two := decide (op ≤ 0x15)
  let fma := op == 0x13
  glazeDo t (fun c => cOp c == op)
    (fun c _ => elementCheck (if fma then [3, 2] else [3, 2, 6]) two fma (if two then bitsOf (gSub c) 6 0 == 0 else gSub c == 0) false c)
    (fun cmd s =>
      let c := cmd.word
      let f := cFmtA c
      let w := elemWidth f
      let n := active c (lanes w)
      let G := (s.tile t).glaze
      let rs := (List.range n).map (fun i =>
        let b := if two then operandB G c w i else (0, false)
        let k := glazeArith op f cmd.rtz (gregElem G (gVa c) w i) b.1 (if fma then gregElem G (gVc c) w i else 0)
        (i, k, gregBad G (gVa c) w i || b.2 || (fma && gregBad G (gVc c) w i)))
      let es := rs.map (fun r => ({ ix := r.1, code := r.2.1.code, bad := r.2.2 } : OutElem))
      let s := glazePoisIn t c (es.any (fun x => x.bad)) (gVa c) s
      let s := noteConvs t (rs.map (fun r => r.2.1)) s
      (0, tally t (13 + if f = 3 then 0 else if f = 2 then 1 else 2) n (s.onGlaze t (gregPut (gVd c) w es)))) e s

def execGlzAdd (t : Tile) (e : MemEnv) (s : State) : Host.Outcome State Fault Refusal := ended s <| arithCmd t 0x10 e s
def execGlzSub (t : Tile) (e : MemEnv) (s : State) : Host.Outcome State Fault Refusal := ended s <| arithCmd t 0x11 e s
def execGlzMul (t : Tile) (e : MemEnv) (s : State) : Host.Outcome State Fault Refusal := ended s <| arithCmd t 0x12 e s
def execFma (t : Tile) (e : MemEnv) (s : State) : Host.Outcome State Fault Refusal := ended s <| arithCmd t 0x13 e s
def execGlzMin (t : Tile) (e : MemEnv) (s : State) : Host.Outcome State Fault Refusal := ended s <| arithCmd t 0x14 e s
def execGlzMax (t : Tile) (e : MemEnv) (s : State) : Host.Outcome State Fault Refusal := ended s <| arithCmd t 0x15 e s
def execAbs (t : Tile) (e : MemEnv) (s : State) : Host.Outcome State Fault Refusal := ended s <| arithCmd t 0x16 e s
def execNeg (t : Tile) (e : MemEnv) (s : State) : Host.Outcome State Fault Refusal := ended s <| arithCmd t 0x17 e s

/-- A bitwise operation (R586, R587): 8-bit formats take no BIMM. -/
def bitwiseCmd (t : Tile) (op : Nat) (f : Nat → Nat → Nat) (e : MemEnv) (s : State) : Host.Outcome State Fault Refusal :=
  glazeDo t (fun c => cOp c == op)
    (fun c _ => elementCheck [0, 1, 2, 3, 4, 5, 6, 7] true false (bitsOf (gSub c) 6 0 == 0 && !(gBimm c && elemWidth (cFmtA c) == 1)) false c)
    (fun cmd s =>
      let c := cmd.word
      let w := elemWidth (cFmtA c)
      let n := active c (lanes w)
      let G := (s.tile t).glaze
      let es := (List.range n).map (fun i =>
        let b := operandB G c w i
        ({ ix := i, code := f (gregElem G (gVa c) w i) b.1 % 256 ^ w, bad := gregBad G (gVa c) w i || b.2 } : OutElem))
      let s := glazePoisIn t c (es.any (fun x => x.bad)) (gVa c) s
      (0, tally t 16 n (s.onGlaze t (gregPut (gVd c) w es)))) e s

def execGlzAnd (t : Tile) (e : MemEnv) (s : State) : Host.Outcome State Fault Refusal := ended s <| bitwiseCmd t 0x18 Nat.land e s
def execGlzOr (t : Tile) (e : MemEnv) (s : State) : Host.Outcome State Fault Refusal := ended s <| bitwiseCmd t 0x19 Nat.lor e s
def execGlzXor (t : Tile) (e : MemEnv) (s : State) : Host.Outcome State Fault Refusal := ended s <| bitwiseCmd t 0x1A Nat.xor e s
def execGlzAndn (t : Tile) (e : MemEnv) (s : State) : Host.Outcome State Fault Refusal := ended s <|
  bitwiseCmd t 0x1B (fun a b => Nat.land a (2 ^ 32 - 1 - b)) e s

/-- A predicate of R589. -/
def cmpHolds (fmt pred a b : Nat) : Bool :=
  let o := if fmt = 6 then some (compare (sextInt 32 a) (sextInt 32 b)) else ((glazeFmt fmt).dec a).cmp ((glazeFmt fmt).dec b)
  match pred with
  | 0 => decide (o = some .eq)
  | 1 => decide (o ≠ some .eq)
  | 2 => decide (o = some .lt)
  | 3 => decide (o = some .lt ∨ o = some .eq)
  | 4 => decide (o = some .gt)
  | 5 => decide (o = some .gt ∨ o = some .eq)
  | _ => o.isNone

/-- CMP (R589). -/
def execCmp (t : Tile) (e : MemEnv) (s : State) : Host.Outcome State Fault Refusal := ended s <|
  glazeDo t (fun c => cOp c == 0x20)
    (fun c _ => elementCheck [3, 2, 6] true false (bitsOf (gSub c) 6 3 == 0 && bitsOf (gSub c) 2 0 != 7) true c)
    (fun cmd s =>
      let c := cmd.word
      let f := cFmtA c
      let w := elemWidth f
      let n := active c (lanes w)
      let G := (s.tile t).glaze
      let rs := (List.range n).map (fun i =>
        let b := operandB G c w i
        let a := gregElem G (gVa c) w i
        (i, cmpHolds f (bitsOf (gSub c) 2 0) a b.1, gregBad G (gVa c) w i || b.2, f ≠ 6 && (((glazeFmt f).dec a).isNan || ((glazeFmt f).dec b.1).isNan)))
      let es := rs.map (fun r => ({ ix := r.1, code := if r.2.1 then 256 ^ w - 1 else 0, bad := r.2.2.1 } : OutElem))
      let bad := es.any (fun x => x.bad)
      let good := rs.filter (fun r => !r.2.2.1)
      let k := (rs.filter (fun r => r.2.1)).length
      let s := glazePoisIn t c bad (gVa c) s
      let s := tally t 17 n (s.onGlaze t (gregPut (gVd c) w es))
      glazeSum 3 k (good.any (fun r => r.2.1)) (good.all (fun r => r.2.1)) (good.any (fun r => r.2.2.2)) bad s) e s

/-- SEL (R586). -/
def execSel (t : Tile) (e : MemEnv) (s : State) : Host.Outcome State Fault Refusal := ended s <|
  glazeDo t (fun c => cOp c == 0x21)
    (fun c _ =>
      let w := elemWidth (cFmtA c)
      { fmt := fmtListed (cFmtA c) && cFmtD c == cFmtA c && cFmtB c == cFmtA c,
        fields := unusedZero { fa := true, fb := true, fd := true, vd := true, va := true, vb := true, vc := true } c && gSub c == 0 &&
          decide (active c (lanes w) ≤ lanes w) })
    (fun cmd s =>
      let c := cmd.word
      let w := elemWidth (cFmtA c)
      let n := active c (lanes w)
      let G := (s.tile t).glaze
      let es := (List.range n).map (fun i =>
        let v := if gregElem G (gVc c) w i ≠ 0 then gVa c else gVb c
        ({ ix := i, code := gregElem G v w i, bad := gregBad G (gVc c) w i || gregBad G v w i } : OutElem))
      let s := glazePoisIn t c (es.any (fun x => x.bad)) (gVa c) s
      (0, tally t 17 n (s.onGlaze t (gregPut (gVd c) w es)))) e s

/-! ### Conversions (R590 to R593) -/

/-- The element index in a register of narrower elements that part `part` puts element `i` at: `n` elements are processed (R591). -/
def partIndex (part n i : Nat) : Nat := part * n + i

/-- The ratio of two element widths. -/
def widthRatio (a b : Nat) : Nat := max a b / min a b

/-- Whether a conversion of CVT is one the rules describe (R590): FP16 widens to FP32 alone, INT8 and UINT8 widen to floating formats, and only the
floating formats convert into INT32 (DEDUCED, log entry 46). -/
def cvtOk (a d : Nat) : Bool :=
  if d = 6 then decide (a ≤ 3)
  else if decide (d ≤ 3) then (if a = 7 then d == 3 else decide (a ≤ 6))
  else false

/-- The conversion of one element by CVT (R590). -/
def cvtElem (cmd : TileCmd) (a d v : Nat) : Conv :=
  let x := elemFv a v
  match d with
  | 0 => glazeConv 0 (toFp8 fmtE4M3 cmd.rtz cmd.ieee x)
  | 1 => glazeConv 1 (toFp8 fmtE5M2 cmd.rtz cmd.ieee x)
  | 2 => glazeConv 2 (toBf16 cmd.rtz x)
  | 3 => glazeConv 3 (match a, x with
    | 6, .fin n m e => { code := fmtFP32.sign n + fmtFP32.magCode cmd.rtz m e }
    | _, _ => { code := fmtFP32.enc x })
  | _ =>
    match x with
    | .nan => { code := 0, nanOut := true }
    | .inf n => { code := if n then 0x80000000 else 0x7FFFFFFF, sat := true }
    | .fin _ m _ =>
      let i := x.toInt cmd.rtz
      { code := wrapNat 32 (max (-(2 ^ 31)) (min (2 ^ 31 - 1) i)), sat := decide (i < -(2 ^ 31) ∨ 2 ^ 31 - 1 < i), under := decide (m ≠ 0 ∧ i = 0) }

/-- CVT. -/
def execCvt (t : Tile) (e : MemEnv) (s : State) : Host.Outcome State Fault Refusal := ended s <|
  glazeDo t (fun c => cOp c == 0x30)
    (fun c _ =>
      let wa := elemWidth (cFmtA c)
      let wd := elemWidth (cFmtD c)
      let n := lanes (max wa wd)
      { fmt := cvtOk (cFmtA c) (cFmtD c),
        fields := unusedZero { fa := true, fd := true, vd := true, va := true } c && decide (gSub c < widthRatio wa wd ∧ active c n ≤ n) })
    (fun cmd s =>
      let c := cmd.word
      let wa := elemWidth (cFmtA c)
      let wd := elemWidth (cFmtD c)
      let n := lanes (max wa wd)
      let part := gSub c
      let G := (s.tile t).glaze
      let rs := (List.range (active c n)).map (fun i =>
        let src := if wa < wd then partIndex part n i else i
        let dst := if wd < wa then partIndex part n i else i
        (dst, cvtElem cmd (cFmtA c) (cFmtD c) (gregElem G (gVa c) wa src), gregBad G (gVa c) wa src))
      let es := rs.map (fun r => ({ ix := r.1, code := r.2.1.code, bad := r.2.2 } : OutElem))
      let s := glazePoisIn t c (es.any (fun x => x.bad)) (gVa c) s
      let s := noteConvs t (rs.map (fun r => r.2.1)) s
      (0, tally t 18 rs.length (s.onGlaze t (gregPut (gVd c) wd es)))) e s

/-- QNT (R592): a zero point out of range leaves that element's result open. -/
def execQnt (t : Tile) (e : MemEnv) (s : State) : Host.Outcome State Fault Refusal := ended s <|
  glazeDo t (fun c => cOp c == 0x31)
    (fun c _ =>
      { fmt := cFmtA c == 3 && cFmtB c == 3 && (cFmtD c == 4 || cFmtD c == 5),
        fields := unusedZero { fa := true, fb := true, fd := true, vd := true, va := true, vb := !gBimm c, vc := true, imm := gBimm c } c &&
          bitsOf (gSub c) 6 2 == 0 && decide (active c 128 ≤ 128) })
    (fun cmd s =>
      let c := cmd.word
      let n := active c 128
      let part := bitsOf (gSub c) 1 0
      let signed := cFmtD c == 4
      let G := (s.tile t).glaze
      let (k, s) := s.draw 128
      let rs := (List.range n).map (fun i =>
        let b := operandB G c 4 i
        let z := sextInt 32 (gregElem G (gVc c) 4 i)
        let inRange := if signed then decide (-128 ≤ z ∧ z ≤ 127) else decide (0 ≤ z ∧ z ≤ 255)
        let free := (Config.freeByte (k + i)).toNat
        (partIndex part 128 i, if inRange then quantise signed cmd.rtz (gregElem G (gVa c) 4 i) b.1 z free else { code := free },
         gregBad G (gVa c) 4 i || b.2 || gregBad G (gVc c) 4 i))
      let es := rs.map (fun r => ({ ix := r.1, code := r.2.1.code, bad := r.2.2 } : OutElem))
      let s := glazePoisIn t c (es.any (fun x => x.bad)) (gVa c) s
      let s := noteConvs t (rs.map (fun r => r.2.1)) s
      (0, tally t 18 n (s.onGlaze t (gregPut (gVd c) 1 es)))) e s

/-! ### Reductions (R594 to R596) -/

/-- The formats of each reduction, and its result's (R594). -/
def redFmtOk (red a d : Nat) : Bool :=
  match red with
  | 1 => ((a == 3 || a == 2) && d == 3) || (a == 6 && d == 6)
  | 2 | 3 => (a == 3 || a == 6) && d == a
  | 4 | 5 => (a == 3 || a == 2 || a == 6) && d == 6
  | _ => true

/-- An element of a reduction as FP32, or as INT32 where the format is that. -/
def redElem (fmt v : Nat) : Nat := if fmt = 2 then bf16to32 v else v

/-- A reduction of the active elements, as FP32 or INT32 codes: its result and its KIND (R594, R595). MAX and MIN order −0 below +0, as R588 does
(DEDUCED, log entry 44). -/
def reduce (red fmt : Nat) (arg : Nat) (vs : List Nat) : Nat × Nat :=
  let int := fmt == 6
  let nums := vs.filter (fun v => !resNan int v)
  let pick := fun (f : Nat → Nat → Nat) => match nums with
    | [] => f32nan
    | v :: rest => rest.foldl f v
  match red with
  | 1 => if int then (vs.foldl (fun a v => a + v) 0 % 2 ^ 32, 7) else (treeSum (if fmt = 2 then 256 else 128) vs, 2)
  | 2 => (pick (if int then (fun a v => if resLess true a v then v else a) else fmtFP32.maxOf), if int then 6 else 1)
  | 3 => (pick (if int then (fun a v => if resLess true v a then v else a) else fmtFP32.minCode), 0)
  | 4 => (((argMax int vs).map (fun x => x.1)).getD 0xFFFFFFFF, 4)
  | _ => ((vs.filter (fun v => resLess int arg v)).length, 3)

/-- A RED command of one reduction. -/
def redCmd (t : Tile) (red : Nat) (e : MemEnv) (s : State) : Host.Outcome State Fault Refusal :=
  glazeDo t (fun c => cOp c == 0x40 && gSub c == red)
    (fun c _ =>
      let n := lanes (elemWidth (cFmtA c))
      { fmt := redFmtOk red (cFmtA c) (cFmtD c),
        fields := unusedZero { fa := true, fd := true, vd := true, va := true, imm := true } c && decide (active c n ≤ n), sums := red != 3 })
    (fun cmd s =>
      let c := cmd.word
      let f := cFmtA c
      let w := elemWidth f
      let n := active c (lanes w)
      let G := (s.tile t).glaze
      let arg := redElem f (gImm c % 256 ^ w)
      let vs := (List.range n).map (fun i => redElem f (gregElem G (gVa c) w i))
      let good := ((List.range n).filter (fun i => !gregBad G (gVa c) w i)).map (fun i => redElem f (gregElem G (gVa c) w i))
      let bad := decide (good.length < n)
      let r := reduce red f arg vs
      let es := ({ ix := 0, code := r.1, bad := bad } : OutElem) :: (List.range 127).map (fun i => ({ ix := i + 1, code := 0, bad := false } : OutElem))
      let s := glazePoisIn t c bad (gVa c) s
      let s := if cFmtD c = 3 then noteConvs t [glazeConv 3 { code := r.1 }] s else s
      let s := tally t 19 1 (s.onGlaze t (gregPut (gVd c) 4 es))
      let int := f == 6
      let nan := vs.any (resNan int) || (cFmtD c == 3 && (f32 r.1).isNan)
      glazeSum r.2 r.1 ((if bad then good else vs).any (resLess int arg)) ((if bad then good else vs).all (resLess int arg))
        (if bad then good.any (resNan int) else nan) bad s) e s

/-- RED SUM; a RED of a reserved reduction is refused here (R594). -/
def execRedSum (t : Tile) (e : MemEnv) (s : State) : Host.Outcome State Fault Refusal := ended s <|
  match glazeHead s t (fun c => cOp c == 0x40 && !decide (1 ≤ gSub c ∧ gSub c ≤ 5)) with
  | some cmd => .next (refuseGlaze t cmd 0x3 s)
  | none => redCmd t 1 e s
def execRedMax (t : Tile) (e : MemEnv) (s : State) : Host.Outcome State Fault Refusal := ended s <| redCmd t 2 e s
def execRedMin (t : Tile) (e : MemEnv) (s : State) : Host.Outcome State Fault Refusal := ended s <| redCmd t 3 e s
def execRedArgmax (t : Tile) (e : MemEnv) (s : State) : Host.Outcome State Fault Refusal := ended s <| redCmd t 4 e s
def execRedCount (t : Tile) (e : MemEnv) (s : State) : Host.Outcome State Fault Refusal := ended s <| redCmd t 5 e s

/-! ### Special functions (R597 to R602) -/

/-- An SFN command of one function. Where the widths differ, which half of the narrow side it uses is open, since R597 gives SUB[3:0] to the function
and R591 gives SUB[1:0] to PART (DESIGN CHOICE, log entry 45). -/
def sfnCmd (t : Tile) (f : Nat) (e : MemEnv) (s : State) : Host.Outcome State Fault Refusal :=
  glazeDo t (fun c => cOp c == 0x50 && gSub c == f)
    (fun c _ =>
      let n := lanes (max (elemWidth (cFmtA c)) (elemWidth (cFmtD c)))
      { fmt := (cFmtA c == 3 || cFmtA c == 2) && (cFmtD c == 3 || cFmtD c == 2),
        fields := unusedZero { fa := true, fd := true, vd := true, va := true } c && decide (active c n ≤ n) })
    (fun cmd s =>
      let c := cmd.word
      let wa := elemWidth (cFmtA c)
      let wd := elemWidth (cFmtD c)
      let n := lanes (max wa wd)
      let (k, s) := s.draw 1
      let part := Config.freeIndex k % 2
      let G := (s.tile t).glaze
      let rs := (List.range (active c n)).map (fun i =>
        let src := if wa < wd then partIndex part n i else i
        let dst := if wd < wa then partIndex part n i else i
        (dst, sfEval cmd (gIter c) f (redElem (cFmtA c) (gregElem G (gVa c) wa src)) (cFmtD c == 2), gregBad G (gVa c) wa src))
      let es := rs.map (fun r => ({ ix := r.1, code := r.2.1.code, bad := r.2.2 } : OutElem))
      let s := glazePoisIn t c (es.any (fun x => x.bad)) (gVa c) s
      let s := noteConvs t (rs.map (fun r => glazeConv (cFmtD c) r.2.1.conv)) s
      let s := noteSf t (sfIter cmd (gIter c)) f (rs.map (fun r => r.2.1)) (s.count (Reg.SFN_CNT_CMDS t) 1)
      (0, s.onGlaze t (gregPut (gVd c) wd es))) e s

/-- SFN EXP; an SFN of a reserved function is refused here (R597). -/
def execSfnExp (t : Tile) (e : MemEnv) (s : State) : Host.Outcome State Fault Refusal := ended s <|
  match glazeHead s t (fun c => cOp c == 0x50 && decide (8 ≤ gSub c)) with
  | some cmd => .next (refuseGlaze t cmd 0x3 s)
  | none => sfnCmd t 0 e s
def execSfnExp2 (t : Tile) (e : MemEnv) (s : State) : Host.Outcome State Fault Refusal := ended s <| sfnCmd t 1 e s
def execSfnLog (t : Tile) (e : MemEnv) (s : State) : Host.Outcome State Fault Refusal := ended s <| sfnCmd t 2 e s
def execSfnRec (t : Tile) (e : MemEnv) (s : State) : Host.Outcome State Fault Refusal := ended s <| sfnCmd t 3 e s
def execSfnRsq (t : Tile) (e : MemEnv) (s : State) : Host.Outcome State Fault Refusal := ended s <| sfnCmd t 4 e s
def execSfnTanh (t : Tile) (e : MemEnv) (s : State) : Host.Outcome State Fault Refusal := ended s <| sfnCmd t 5 e s
def execSfnSigmoid (t : Tile) (e : MemEnv) (s : State) : Host.Outcome State Fault Refusal := ended s <| sfnCmd t 6 e s
def execSfnErf (t : Tile) (e : MemEnv) (s : State) : Host.Outcome State Fault Refusal := ended s <| sfnCmd t 7 e s

/-! ### Row statistics (R605 to R612) -/

/-- A row statistics slot of a glaze. -/
def rowSlot (G : Glaze) (k : Nat) : RowSlot := tabGet .empty G.slots k

/-- A slot written. -/
def putRow (k : Nat) (r : RowSlot) (G : Glaze) : Glaze := { G with slots := tabSet .empty G.slots k r }

/-- A slot's poison flag written. -/
def markRow (k : Nat) (bad : Bool) (G : Glaze) : Glaze :=
  { G with slotBad := if bad then insertNum G.slotBad k else G.slotBad.filter (fun x => x ≠ k) }

def isSoftmax (G : Glaze) (k : Nat) : Bool := match rowSlot G k with
  | .softmax _ _ _ => true
  | _ => false
def isNorm (G : Glaze) (k : Nat) : Bool := match rowSlot G k with
  | .norm _ _ _ _ => true
  | _ => false

/-- An RSTAT command of one operation; `evals` are the special functions it evaluates, which count it in SFN_CNT. -/
def rstatCmd (t : Tile) (sub : Nat) (check : Nat → Glaze → GlazeCheck) (perform : TileCmd → State → Word × State) (e : MemEnv) (s : State) :
    Host.Outcome State Fault Refusal :=
  glazeDo t (fun c => cOp c == 0x60 && gSub c == sub) (fun c s => check c (s.tile t).glaze)
    (fun cmd s =>
      let (w, s) := perform cmd s
      (w, tally t 20 1 s)) e s

/-- CLRS; an RSTAT of a reserved operation is refused here (R606). -/
def execClrs (t : Tile) (e : MemEnv) (s : State) : Host.Outcome State Fault Refusal := ended s <|
  match glazeHead s t (fun c => cOp c == 0x60 && !decide (1 ≤ gSub c ∧ gSub c ≤ 6)) with
  | some cmd => .next (refuseGlaze t cmd 0x3 s)
  | none =>
    rstatCmd t 1 (fun c _ => { fields := unusedZero {} c })
      (fun cmd s => (0, s.onGlaze t (fun G => markRow (gSlot cmd.word) false (putRow (gSlot cmd.word) (.softmax f32ninf 0 f32unit) G)))) e s

/-- CLRN. -/
def execClrn (t : Tile) (e : MemEnv) (s : State) : Host.Outcome State Fault Refusal := ended s <|
  rstatCmd t 2 (fun c _ => { fields := unusedZero { imm := true } c })
    (fun cmd s => (0, s.onGlaze t (fun G => markRow (gSlot cmd.word) false (putRow (gSlot cmd.word) (.norm 0 (gImm cmd.word) 0 0) G)))) e s

/-- EXP of an FP32 code with a command's settings (R607). -/
def expOf (cmd : TileCmd) (x : Nat) : SfResult := sfEval cmd (gIter cmd.word) sfExp x false

/-- The exponential of a difference, or 1.0 where the two are equal (R608), with the evaluation made. -/
def expDiff (cmd : TileCmd) (a b : Nat) : Nat × List SfResult :=
  if f32eq a b then (f32unit, []) else
  let r := expOf cmd (f32sub a b)
  (r.code, [r])

/-- SMX (R608). -/
def execSmx (t : Tile) (e : MemEnv) (s : State) : Host.Outcome State Fault Refusal := ended s <|
  rstatCmd t 3
    (fun c G =>
      let n := lanes (elemWidth (cFmtA c))
      { fmt := (cFmtA c == 3 || cFmtA c == 2) && cFmtD c == cFmtA c,
        fields := unusedZero { fa := true, fd := true, vd := true, va := true, imm := true } c && decide (active c n ≤ n), sums := true,
        slot := isSoftmax G (gSlot c) })
    (fun cmd s =>
      let c := cmd.word
      let k := gSlot c
      let w := elemWidth (cFmtA c)
      let n := active c (lanes w)
      let G := (s.tile t).glaze
      let bad := (List.range n).any (fun i => gregBad G (gVa c) w i)
      match rowSlot G k with
      | .softmax m l _ =>
        let ys := (List.range n).map (fun i => f32mul (redElem (cFmtA c) (gregElem G (gVa c) w i)) (gImm c))
        let mn := fmtFP32.maxOf m (ys.foldl fmtFP32.maxOf f32ninf)
        let none' := mn == f32ninf
        let ps := ys.map (fun y => if none' then (0, []) else expDiff cmd y mn)
        let c1 := if none' then (f32unit, []) else expDiff cmd m mn
        let l' := f32add (f32mul l c1.1) (treeSum (lanes w) (ps.map (fun p => p.1)))
        let outs := ps.map (fun p => glazeConv (cFmtD c) (if cFmtD c = 2 then toBf16 cmd.rtz (f32 p.1) else { code := p.1 }))
        let es := outs.mapIdx (fun i o => ({ ix := i, code := o.code, bad := bad } : OutElem))
        let evals := ps.flatMap (fun p => p.2) ++ c1.2
        let s := glazePoisIn t c bad (gVa c) s
        let s := noteConvs t outs s
        let s := noteSf t (sfIter cmd (gIter c)) sfExp evals (if evals.isEmpty then s else s.count (Reg.SFN_CNT_CMDS t) 1)
        let s := s.onGlaze t (fun G => gregPut (gVd c) w es (markRow k (bad || G.slotBad.contains k) (putRow k (.softmax mn l' c1.1) G)))
        rowSum 1 mn ((s.tile t).glaze.slotBad.contains k) s
      | _ => (0, s)) e s

/-- NACC (R609). -/
def execNacc (t : Tile) (e : MemEnv) (s : State) : Host.Outcome State Fault Refusal := ended s <|
  rstatCmd t 4
    (fun c G =>
      let n := lanes (elemWidth (cFmtA c))
      { fmt := cFmtA c == 3 || cFmtA c == 2, fields := unusedZero { fa := true, va := true } c && decide (active c n ≤ n), slot := isNorm G (gSlot c) })
    (fun cmd s =>
      let c := cmd.word
      let k := gSlot c
      let w := elemWidth (cFmtA c)
      let n := active c (lanes w)
      let G := (s.tile t).glaze
      let bad := (List.range n).any (fun i => gregBad G (gVa c) w i)
      match rowSlot G k with
      | .norm m K s1 s2 =>
        let ys := (List.range n).map (fun i => f32sub (redElem (cFmtA c) (gregElem G (gVa c) w i)) K)
        let s1' := f32add s1 (treeSum (lanes w) ys)
        let s2' := f32add s2 (treeSum (lanes w) (ys.map (fun y => f32mul y y)))
        let s := glazePoisIn t c bad (gVa c) s
        (0, s.onGlaze t (fun G => markRow k (bad || G.slotBad.contains k) (putRow k (.norm (satNat 32 (m + n)) K s1' s2') G)))
      | _ => (0, s)) e s

/-- MRG (R608). -/
def execMrg (t : Tile) (e : MemEnv) (s : State) : Host.Outcome State Fault Refusal := ended s <|
  rstatCmd t 5
    (fun c G => { fmt := cFmtA c == 3, fields := unusedZero { fa := true, va := true } c, sums := true, slot := isSoftmax G (gSlot c) })
    (fun cmd s =>
      let c := cmd.word
      let k := gSlot c
      let G := (s.tile t).glaze
      let bad := gregBad G (gVa c) 4 0
      match rowSlot G k with
      | .softmax m l _ =>
        let m2 := gregElem G (gVa c) 4 0
        let l2 := gregElem G (gVa c) 4 1
        let mn := fmtFP32.maxOf m m2
        let none' := mn == f32ninf
        let c1 := if none' then (f32unit, []) else expDiff cmd m mn
        let c2 := if none' then (f32unit, []) else expDiff cmd m2 mn
        let row := if none' then RowSlot.softmax m l f32unit else .softmax mn (f32add (f32mul l c1.1) (f32mul l2 c2.1)) c1.1
        let evals := c1.2 ++ c2.2
        let s := glazePoisIn t c bad (gVa c) s
        let s := noteSf t (sfIter cmd (gIter c)) sfExp evals (if evals.isEmpty then s else s.count (Reg.SFN_CNT_CMDS t) 1)
        let s := s.onGlaze t (fun G => markRow k (bad || G.slotBad.contains k) (putRow k row G))
        rowSum 1 mn ((s.tile t).glaze.slotBad.contains k) s
      | _ => (0, s)) e s

/-- The elements RD writes for a norm slot, with the RSQ evaluations made (R610). -/
def rdNorm (cmd : TileCmd) (n K s1 s2 : Nat) : List Nat × List SfResult :=
  let nf := f32ofInt n
  if n = 0 then ([f32nan, f32nan, s2, nf, f32nan, f32nan, s1, K], []) else
  let a := f32div s1 nf
  let q := f32div s2 nf
  let var := fmtFP32.maxOf 0 (f32sub q (f32mul a a))
  let r4 := sfEval cmd (gIter cmd.word) sfRsq (f32add var (gImm cmd.word)) false
  let r5 := sfEval cmd (gIter cmd.word) sfRsq (f32add q (gImm cmd.word)) false
  ([f32add K a, var, s2, nf, r4.code, r5.code, s1, K], [r4, r5])

/-- RD (R610). -/
def execRstatRd (t : Tile) (e : MemEnv) (s : State) : Host.Outcome State Fault Refusal := ended s <|
  rstatCmd t 6
    (fun c G =>
      { fmt := cFmtD c == 3, fields := unusedZero { fd := true, vd := true, imm := isNorm G (gSlot c) } c && gVl c == 0, sums := true,
        slot := isSoftmax G (gSlot c) || isNorm G (gSlot c) })
    (fun cmd s =>
      let c := cmd.word
      let k := gSlot c
      let G := (s.tile t).glaze
      let bad := G.slotBad.contains k
      let (first, evals, kind, val) : List Nat × List SfResult × Nat × Nat := match rowSlot G k with
        | .softmax m l c => ([m, l, c, f32div f32unit l], [], 1, m)
        | .norm n K s1 s2 => ((rdNorm cmd n K s1 s2).1, (rdNorm cmd n K s1 s2).2, 2, s2)
        | .empty => ([], [], 0, 0)
      let es := (List.range 128).map (fun i => ({ ix := i, code := first.getD i 0, bad := bad } : OutElem))
      let s := glazePoisIn t c bad k s
      let s := noteConvs t (first.map (fun v => glazeConv 3 { code := v })) s
      let s := noteSf t (sfIter cmd (gIter c)) sfRsq evals (if evals.isEmpty then s else s.count (Reg.SFN_CNT_CMDS t) 1)
      let s := s.onGlaze t (gregPut (gVd c) 4 es)
      rowSum kind val bad s) e s

/-! ### Completion and clearing -/

/-- GLAZE_COMMAND_COMPLETE (R614). -/
def execGlazeCommandComplete (t : Tile) (s : State) : Host.Outcome State Fault Refusal := ended s <|
  match (s.tile t).glaze.run with
  | none => .next s
  | some r =>
    if !tileGoes s t then .next s else
    let s := s.onGlaze t (fun G => { G with run := none })
    .next (tally t 21 1 ((finishSummary t r.cmd r.sum s).count (Reg.GLZ_CNT0_CMDS t) 1))

/-- GLAZE_CLRQ (R623): each queued command ends as if refused, without the event (DEDUCED, log entry 43). -/
def execGlazeClrq (t : Tile) (s : State) : Host.Outcome State Fault Refusal := ended s <|
  if !mayClear s t then .next s else
  let q := (s.tile t).glaze.queue
  let s := s.onGlaze t (fun G => { G with queue := [] })
  .next (s.each q (fun s cmd => tally t 22 1 (((finishSummary t cmd 0 s).flag (Reg.GLZ_ERR_REFUSED t)).count (Reg.GLZ_CNT0_REFUSALS t) 1)))

end Sys2Proof.Machine
end

