-- ==== Sys2Proof/Machine/Hod.lean ====
section
/-! DEFINITION. Hod: its commands, restarts and trials, the log, sensors, regulators, overcurrent, the grant and the sideband buses
(R771 to R812). -/
namespace Sys2Proof.Machine
open Sys2Proof

/-! ### Commands of HOD_CMD (R787, R790, R793, R794, R812) -/

/-- A Hod command completes. -/
def hodDone (s : State) : State := (((s.wr Reg.HOD_CSTAT_BUSY 0).flag Reg.HOD_CSTAT_DONE).wr Reg.HOD_CSTAT_WHY 0)

/-- A Hod command is refused with a status of R793. -/
def hodRefuse (why : Nat) (s : State) : State := (((s.wr Reg.HOD_CSTAT_BUSY 0).flag Reg.HOD_CSTAT_FAIL).wr Reg.HOD_CSTAT_WHY why)

/-- A command taken up: Hod acts, and no command runs (R812). -/
def hodCommand (f : State → State) (s : State) : State :=
  if !hodActs s then s else if s.isSet Reg.HOD_CSTAT_BUSY then hodRefuse 0x08 s else f s

/-- SEAL: OP 0x01 (R790). -/
def hodSeal (s : State) : State := hodCommand (fun s => hodDone (sealPackage s)) s

/-- BSLOAD: OP 0x02 (R787): the loads of the sheet's first bytes begin; its length is known after them. -/
def hodBsload (s : State) : State := hodCommand (fun s =>
  let a := s.rd Reg.HOD_CARG_ADDR
  if s.sealed then (hodRefuse 0x02 s).raise 0x5008 [0, 0x02]
  else if addrSeat a ≠ 0xFFFF || decide (8 < addrRegion a) then (hodRefuse 0x03 s).raise 0x5008 [0, 0x03]
  else ({ s with hod := { s.hod with bsBusy := true, bsPieces := loadsOf 15 a 1216, bsWaiting := false, bsGot := [], bsFail := false } }).wr Reg.HOD_CSTAT_BUSY 1) s

/-- Whether a build sheet has the form of R785. -/
def sheetFormed (x : Bytes) : Bool :=
  numAt x 0 4 == 0x54485342 && numAt x 4 2 == 1 && decide (numAt x 6 2 ≤ 1) && numAt x 8 4 == (if numAt x 6 2 = 1 then 1216 else 1120) &&
  (x.drop 1088).take 32 == List.replicate 32 0

/-- Whether every port record's role is unused or the port's own (R280, R786). -/
def sheetRoles (x : Bytes) : Bool :=
  (List.range 24).all (fun p =>
    let role := recRole (numAt x (64 + 8 * p) 8)
    role == 0 || (match portRole p with
      | .tray => role == 1
      | .wall => role == 2
      | .site => role == 3))

/-- Whether a sheet's signature is the integrator's (R785, R787). -/
def sheetSigned (x key : Bytes) : Bool :=
  numAt x 6 2 == 1 && ecdsaVerify key (sha384 (x.take 1120)) ((x.drop 1120).take 96)

/-- The Hod status of a build sheet that has come (R787, R793), by its form, its serial, its roles and its signature. -/
def sheetStatus (s : State) (x : Bytes) : Nat :=
  if s.sealed then 0x02
  else if !sheetFormed x then 0x03
  else if !s.hod.sheet.isEmpty && numAt x 20 4 ≤ numAt s.hod.sheet 20 4 then 0x06
  else if !sheetRoles x then 0x0A
  else match s.hod.fuses.intKey with
    | none => 0x00
    | some h => if sha384 (Config.keyOfHash h) = h && sheetSigned x (Config.keyOfHash h) then 0x00 else 0x04

/-- A build sheet that has come is written, or refused (R787): event 0x5008. -/
def finishSheet (s : State) : State :=
  let x := s.hod.bsGot
  let st := if s.hod.bsFail then 0x03 else sheetStatus s x
  let s := { s with hod := { s.hod with bsBusy := false, bsGot := [], bsPieces := [], bsFail := false } }
  let s := s.raise 0x5008 [numAt x 20 4, st]
  if st ≠ 0 then hodRefuse st s else
  let s := { s with hod := { s.hod with sheet := x.take (numAt x 8 4) } }
  let waits := numAt x 12 2 ≠ s.ownPid || numAt x 16 4 ≠ s.hod.siteTag
  let meas := s.hod.meas.set 3 (sha384 s.hod.sheet)
  let s := hodDone (({ s with hod := { s.hod with meas := meas } }).wr Reg.HOD_STAT_BS (if waits then 2 else 1))
  s.each ((List.finRange 24).filter (fun p => s.portState p = 0xB)) (fun s p => startTraining p false s)

/-- The load of a build sheet goes on: an answer is taken, the next load goes out under label 15 (R772), or the sheet is whole. An unsigned sheet ends
before the last 96 bytes, which are loaded with it. -/
def advanceHod (s : State) : State :=
  if !s.hod.bsBusy || !hodActs s then s else
  let s := match s.results.find? (fun r => r.issuer = Issuer.hod) with
    | none => s
    | some r =>
      let s := { s with results := s.results.filter (fun x => x ≠ r) }
      if r.kind = .inDoubt then s else
      let ok := r.kind = .completed && r.status = 0
      { s with hod := { s.hod with bsWaiting := false, bsGot := s.hod.bsGot ++ r.data, bsFail := s.hod.bsFail || !ok,
                                   bsPieces := if ok then s.hod.bsPieces else [] } }
  if s.hod.bsWaiting then s else
  match s.hod.bsPieces with
  | op :: rest => issueOp 0 .hod op { s with hod := { s.hod with bsPieces := rest, bsWaiting := true } }
  | [] => finishSheet s

/-- The Hod status with which ACTIVATE is refused, or 0 (R793, R794). -/
def activateStatus (s : State) : Nat :=
  if s.hod.boot.trial || s.rd Reg.HOD_STAT_STAGED = 1 then 0x08
  else if s.rd Reg.HOD_STAT_STAGED ≠ 2 || imageStatus s (bankImage s (1 - s.hod.boot.bank)) ≠ 0 then 0x0B
  else 0x00

/-- ACTIVATE: OP 0x03 (R794): the boot block names the staged bank with TRIAL 1, and Hod restarts. -/
def hodActivate (s : State) : State := hodCommand (fun s =>
  let st := activateStatus s
  if st ≠ 0 then hodRefuse st s else
  let s := { s with hod := { s.hod with boot := { bank := 1 - s.hod.boot.bank, trial := true, tries := 0 }, restart := some 2 } }
  (hodDone s).wr Reg.HOD_STAT_STAGED 0) s

/-- RESTART: OP 0x04 (R773). -/
def hodRestart (s : State) : State := hodCommand (fun s => hodDone { s with hod := { s.hod with restart := some 0 } }) s

/-- CLRSWAP: OP 0x05 (R809). -/
def hodClrswap (s : State) : State := hodCommand (fun s => hodDone { s with hod := { s.hod with swap := false, swapSince := none } }) s

/-- SEAL (R790). -/
def execSeal (s : State) : Host.Outcome State Fault Refusal := ended s <| .next (hodSeal s)
/-- BSLOAD (R787): the sheet is loaded from HOD_CARG; its acceptance follows its last load. -/
def execBsload (s : State) : Host.Outcome State Fault Refusal := ended s <| .next (hodBsload s)
/-- ACTIVATE (R794). -/
def execActivate (s : State) : Host.Outcome State Fault Refusal := ended s <| .next (hodActivate s)
/-- RESTART (R773). -/
def execRestart (s : State) : Host.Outcome State Fault Refusal := ended s <| .next (hodRestart s)
/-- CLRSWAP (R809). -/
def execClrswap (s : State) : Host.Outcome State Fault Refusal := ended s <| .next (hodClrswap s)

/-! ### Restarts and trials (R773, R794, R795) -/

/-- WATCHDOG_EXPIRY (R773, R794): Hod alone restarts; a trial image has failed. -/
def execWatchdogExpiry (s : State) : Host.Outcome State Fault Refusal := ended s <|
  if !hodActs s then .next s else
  let s := if s.hod.boot.trial then trialFails s else s
  .next { s with hod := { s.hod with restart := some 1 } }

/-- TRIAL_TIMEOUT (R794): no commit within 60 s: the previous bank is named and Hod restarts on it. -/
def execTrialTimeout (s : State) : Host.Outcome State Fault Refusal := ended s <|
  if !hodActs s || !s.hod.boot.trial then .next s else
  let s := trialFails s
  .next { s with hod := { s.hod with restart := some 2 } }

/-- What a restart leaves of Hod's core, SRAM and timers (R771, R773): the RAM log ring, the records still to be persisted and the times are lost; the
log goes on from the NOR (R784). -/
def hodCoreReset (s : State) : State :=
  let h := { s.hod with
    ram := [], persistQ := [], logSeq := nextLogSeq s.hod.norLog, bucket := 4096 * 10 ^ 9, bucketAt := s.now, dropped := List.replicate 16 0,
    dropRepAt := 0, soundAt := [], swapSince := none, downAt := [], upAt := [], under90 := [], under70 := [], aboveRun := [], hot105 := [], spdm := {},
    bsBusy := false, bsPieces := [], bsWaiting := false, bsGot := [], bsFail := false }
  let s := { s with hod := h, results := s.results.filter (fun r => r.issuer ≠ Issuer.hod) }
  (s.wr Reg.HOD_LOGSTAT_RAMHEAD 0).wr Reg.HOD_CSTAT_BUSY 0

/-- HOD_RESTART_COMPLETE (R773, R794, R833): the boot ROM has chosen and run an image, which continues a power-on sequence from its first incomplete
step. A restart is one of the reset
kinds, event 0x5102 with its cause: 0 a command, 1 the watchdog, 2 the kiln (R813, R832); event 0x5054 after a watchdog restart. -/
def execHodRestartComplete (s : State) : Host.Outcome State Fault Refusal := ended s <|
  match s.hod.restart with
  | none => .next s
  | some cause =>
    let s := hodCoreReset { s with hod := { s.hod with restart := none } }
    match bootImage s with
    | none => .next (enterRecovery { s with hod := { s.hod with running := false } })
    | some s =>
      let s := noteReset [kindHod, cause] s
      .next (startSequence 0 (if cause = 1 then s.raise 0x5054 [] else s))

/-- IMAGE_COMMIT (R794, R795): the trial image commits; where its SVN exceeds the fuse counter, fuses are blown. -/
def execImageCommit (s : State) : Host.Outcome State Fault Refusal := ended s <|
  if !hodActs s || !s.hod.boot.trial then .next s else
  let img := bankImage s s.hod.boot.bank
  let s := { s with hod := { s.hod with boot := { s.hod.boot with trial := false, tries := 0 } } }
  let s := (s.wr Reg.HOD_STAT_TRIAL 0).raise 0x5003 [imageVersion img]
  if imageSvn img ≤ s.hod.fuses.counter then .next s else
  let s := { s with hod := { s.hod with fuses := { s.hod.fuses with counter := imageSvn img } } }
  .next ((s.wr Reg.HOD_STAT_FUSECTR (imageSvn img)).raise 0x5005 [imageSvn img])

/-! ### The log (R780 to R784) -/

/-- Width in bytes of argument `i` of an event (R781): addresses, stack offsets, command IDs, plumb times and offsets of plumb take 8, the fields of an
identity 21, a count of dropped records 2, and every other argument 4 (DESIGN CHOICE, log entry 74). -/
def argWidth (code i : Nat) : Nat :=
  if code = 0x5010 then 2
  else if code = 0x5020 then (if i < 2 then 1 else 21)
  else if [(0x1301, 2), (0x1302, 1), (0x2003, 1), (0x2004, 1), (0x3001, 6), (0x3003, 1), (0x4005, 1), (0x4006, 0), (0x4007, 0), (0x4009, 1), (0x6001, 5),
    (0x600A, 4), (0x7002, 0), (0x7002, 1), (0x7003, 0)].contains (code, i) then 8
  else 4

/-- An event's arguments as the log lays them out: 44 B at most (R781). -/
def argBytes (code : Nat) (args : List Nat) : Bytes := (((List.range args.length).zip args).flatMap (fun x => leBytes (argWidth code x.1) x.2)).take 44

/-- Source of an event (R781): the tile or the brick that its first argument names, where its class names one first; the package otherwise. -/
def eventSource (e : Event) : Nat :=
  let a := e.args.headD 0
  let tile := [0x3001, 0x3002, 0x3003, 0x3004, 0x3101, 0x3102, 0x3103, 0x3104, 0x3201, 0x3202, 0x3203, 0x3301, 0x3302, 0x3303, 0x3304, 0x3305, 0x6002, 0x6004].contains e.code
  let stack := [0x2001, 0x2002, 0x2003, 0x2005, 0x2006, 0x2008, 0x2009, 0x5033, 0x600E].contains e.code || e.code / 256 = 0x21
  let port := e.code / 256 = 0x10 || e.code = 0x1302
  let brick := [0x1108, 0x1109, 0x110B, 0x110C, 0x110D, 0x2004, 0x5055, 0x6001, 0x6003, 0x6005, 0x6006, 0x6007, 0x6008, 0x600D, 0x600F, 0x7001].contains e.code || e.code / 256 = 0x23
  if tile && a < 128 then 0x80 + a
  else if stack && a < 8 then 0x10 + a / 2
  else if port && a < 24 then 0x10 + a / 6
  else if brick && a < 4 then 0x10 + a
  else 0x00

/-- A log record (R781). -/
def logRecord (e : Event) (seq : Nat) (persisted : Bool) : Bytes :=
  let body := leBytes 8 e.time.toNat ++ leBytes 4 seq ++ leBytes 2 e.code ++ leBytes 1 (eventSource e) ++ leBytes 1 (bit persisted + 2 * bit e.aligned) ++
    padTo 44 (argBytes e.code e.args)
  body ++ leBytes 4 (crc32c body)

/-- The persisting bucket filled up to now (R782): 64 records a second, 4,096 at most. -/
def fillBucket (s : State) : State :=
  let h := s.hod
  { s with hod := { h with bucket := min (4096 * 10 ^ 9) (h.bucket + 64 * (s.now - h.bucketAt)), bucketAt := s.now } }

/-- Whether an event's class is persisted (R782). -/
def persists (s : State) (code : Nat) : Bool := code / 4096 = 5 || code / 4096 = 6 || bitOf (s.rd Reg.HOD_LOGCTL_PCLASS) (code / 4096)

/-- A record into the RAM ring (R780). -/
def ramRecord (x : Bytes) (s : State) : State :=
  let slot := s.rd Reg.HOD_LOGSTAT_RAMHEAD
  ({ s with hod := { s.hod with ram := tabPut s.hod.ram slot x, logSeq := (s.hod.logSeq + 1) % 2 ^ 32 } }).wr Reg.HOD_LOGSTAT_RAMHEAD ((slot + 1) % 8192)

/-- EVENT_LOG (R780 to R782, R767): the oldest event raised enters the RAM ring, and is to be persisted where the bucket lets it; the host's event ring
takes it too. -/
def execEventLog (s : State) : Host.Outcome State Fault Refusal := ended s <|
  match s.events with
  | [] => .next s
  | e :: rest =>
    if !hodActs s then .next s else
    let s := { s with events := rest }
    let s := eventToHost e.code e.time.toNat ((argBytes e.code e.args).take 16) e.quiet s
    let s := fillBucket s
    let wanted := persists s e.code
    let room := decide (10 ^ 9 ≤ s.hod.bucket) && !s.hod.norFail
    let x := logRecord e s.hod.logSeq (wanted && room)
    let s := ramRecord x s
    if !wanted then .next s
    else if room then .next { s with hod := { s.hod with bucket := s.hod.bucket - 10 ^ 9, persistQ := s.hod.persistQ ++ [x] } }
    else
      let c := e.code / 4096
      let s := { s with hod := { s.hod with dropped := s.hod.dropped.set c (s.hod.dropped.getD c 0 + 1) } }
      .next (s.count Reg.HOD_LOGSTAT_DROPPED 1)

/-- LOG_PERSIST (R784, R809): the oldest record to be persisted is written to the NOR log, or the write fails and persisting stops until a good one. -/
def execLogPersist (ok : Bool) (s : State) : Host.Outcome State Fault Refusal := ended s <|
  match s.hod.persistQ with
  | [] => .next s
  | x :: rest =>
    if !hodActs s then .next s
    else if !ok then .next (({ s with hod := { s.hod with norFail := true } }).flag Reg.HOD_ERR_NORFAIL)
    else
      let seq := numAt x 8 4
      .next (({ s with hod := { s.hod with norFail := false, persistQ := rest, norLog := tabPut s.hod.norLog (seq % 524288) x } }).wr Reg.HOD_LOGSTAT_NORSEQ seq)

/-- LOG_DROP_REPORT (R782): while records are being dropped, one record 0x5010 a second, outside the bucket, with the count of each class. -/
def execLogDropReport (s : State) : Host.Outcome State Fault Refusal := ended s <|
  if !hodActs s || s.hod.dropped.all (fun n => n = 0) || (s.hod.dropRepAt ≠ 0 && s.now < s.hod.dropRepAt + 10 ^ 9) then .next s else
  let e : Event := { code := 0x5010, args := s.hod.dropped, time := s.plumb, aligned := s.isSet Reg.PLB_STAT_ALIGNED }
  let x := logRecord e s.hod.logSeq true
  let s := ramRecord x (eventToHost e.code e.time.toNat ((argBytes e.code e.args).take 16) false s)
  .next { s with hod := { s.hod with dropped := List.replicate 16 0, dropRepAt := s.now, persistQ := s.hod.persistQ ++ [x] } }

/-- The record of a sequence number shown in HOD_LOGREC (R812): VALID where the NOR ring still holds it, intact. -/
def fetchRecord (seq : Nat) (s : State) : State :=
  let s := s.wr Reg.HOD_LOGRD_SEQ seq
  match tabFind s.hod.norLog (seq % 524288) with
  | none => s.wr Reg.HOD_LOGRD_VALID 0
  | some x =>
    if numAt x 8 4 ≠ seq || crc32c (x.take 60) ≠ numAt x 60 4 then s.wr Reg.HOD_LOGRD_VALID 0
    else (s.wr Reg.HOD_LOGRD_VALID 1).each (List.range 8) (fun s i => s.wr (Reg.HOD_LOGREC_DATA i) (numAt x (8 * i) 8))

/-- LOG_FETCH (R812): a write of SEQ in HOD_LOGRD. -/
def execLogFetch (seq : BitVec 32) (s : State) : Host.Outcome State Fault Refusal := ended s <|
  if hodActs s then .next (fetchRecord seq.toNat s) else .next (s.wr Reg.HOD_LOGRD_SEQ seq.toNat)

/-! ### Temperatures (R774 to R776, R809) -/

/-- Whether a die sensor is powered (R774): that of a tile site, uncore, port or stack with its domain; those of the host link with brick 0's uncore. -/
def sensorPowered (s : State) (i : Nat) : Bool :=
  if i < 172 then (if i % 43 < 33 then domCur s (33 * (i / 43) + i % 43) ≠ 0 else domCur s (132 + i / 43) ≠ 0)
  else if i < 188 then domCur s (136 + (i - 172) / 2) ≠ 0
  else if i < 190 then domCur s 132 ≠ 0
  else true

/-- The sensors of a brick: its sites, ports and uncore, its stacks, its diodes, and for brick 0 those of the host link. -/
def brickSensors (b : Nat) : List Nat :=
  (List.range 43).map (fun k => 43 * b + k) ++ (List.range 4).map (fun k => 172 + 4 * b + k) ++ (if b = 0 then [188, 189] else []) ++
  (List.range 5).map (fun k => 192 + 5 * b + k)

/-- A sensor's last sample, in 1/16 °C. -/
def sensorT (s : State) (i : Nat) : Int := sextInt 16 (s.rd (Reg.HOD_TEMP_T i))

def sensorValid (s : State) (i : Nat) : Bool := s.rd (Reg.HOD_TEMP_STATE i) = 0

/-- The hottest valid sensor of a brick. -/
def hottestOf (s : State) (xs : List Nat) : Option Int :=
  (xs.filter (sensorValid s)).foldl (fun m i => match m with
    | none => some (sensorT s i)
    | some t => some (max t (sensorT s i))) none

/-- The hottest reading of a brick, an excluded sensor's site taken as its hottest other sensor + 10 °C (R809). -/
def brickHot (s : State) (b : Nat) : Int :=
  let xs := brickSensors b
  match hottestOf s xs with
  | none => -640
  | some t => if xs.any (fun i => s.rd (Reg.HOD_TEMP_STATE i) = 1) then t + 160 else t

/-- The bricks where Hod raises no clock (R803): from a reading of 100 °C or more until every sensor reads below 97 °C. -/
def noteHeat (s : State) : State :=
  { s with hod := { s.hod with heated := (List.range 4).filter (fun b =>
      decide (1600 ≤ brickHot s b) || (s.hod.heated.contains b && decide (1552 ≤ brickHot s b))) } }

/-- Whether a sample is outside −40 to 150 °C (R809). -/
def implausible (t : Int) : Bool := decide (t < -640) || decide (2400 < t)

/-- One sample of a sensor (R775, R809): excluded where it is implausible or suspect, taken in again after 10 s of plausible readings; a crossing needs
two consecutive samples. An alert lasts until the sensor reads below 97 °C (DEDUCED, log entry 117), a trip until the cold reset (R809). -/
def sampleSensor (suspect : List Nat) (i : Nat) (t : Int) (s : State) : State :=
  if !sensorPowered s i then
    let h := s.hod
    ({ s with hod := { h with warm := h.warm.filter (fun x => x ≠ i), trips := h.trips.filter (fun x => x ≠ i), alerts := h.alerts.filter (fun x => x ≠ i) } }).wr (Reg.HOD_TEMP_STATE i) 2
  else
    let bad := implausible t || suspect.contains i
    let was := s.rd (Reg.HOD_TEMP_STATE i) = 1
    let s := s.wr (Reg.HOD_TEMP_T i) (wrapNat 16 t)
    if bad then
      let h := s.hod
      let s := { s with hod := { h with soundAt := tabErase h.soundAt i, warm := h.warm.filter (fun x => x ≠ i), trips := h.trips.filter (fun x => x ≠ i),
                                        alerts := h.alerts.filter (fun x => x ≠ i) } }
      if was then s else ((s.wr (Reg.HOD_TEMP_STATE i) 1).flag Reg.HOD_ERR_SENSOR).raise 0x5034 [i, wrapNat 16 t]
    else
      let since := (tabFind s.hod.soundAt i).getD s.now
      if was && s.now < since + 10 ^ 10 then { s with hod := { s.hod with soundAt := tabPut s.hod.soundAt i since } } else
      let s := ({ s with hod := { s.hod with soundAt := tabErase s.hod.soundAt i } }).wr (Reg.HOD_TEMP_STATE i) 0
      let h := s.hod
      let over1 := decide (1600 ≤ t)
      let over2 := decide (1840 ≤ t)
      let alert := over1 && h.warm.contains i && !h.alerts.contains i
      let trip := over2 && h.trips.contains i && !h.tripped.contains i
      let s := { s with hod := { h with
        warm := if over1 then insertNum h.warm i else h.warm.filter (fun x => x ≠ i),
        trips := if over2 then insertNum h.trips i else h.trips.filter (fun x => x ≠ i),
        tripped := if trip then insertNum h.tripped i else h.tripped,
        alerts := if alert then insertNum h.alerts i else if t < 1552 then h.alerts.filter (fun x => x ≠ i) else h.alerts } }
      let s := if alert then (if h.alerts.isEmpty then s.emit (.pin "THERM_ALERT_N" 0) else s).raise 0x5030 [i, wrapNat 16 t] else s
      if trip then (s.emit (.pin "THERMTRIP_N" 0)).raise 0x5032 [i] else s

/-- The hottest die sensor shown (R812). -/
def showHot (s : State) : State :=
  let best := (List.range 212).foldl (fun (m : Option (Int × Nat)) i =>
    if !sensorValid s i then m else match m with
      | none => some (sensorT s i, i)
      | some (t, k) => if t < sensorT s i then some (sensorT s i, i) else some (t, k)) none
  match best with
  | none => s
  | some (t, i) => (s.wr Reg.HOD_THERM_HOT (wrapNat 16 t)).wr Reg.HOD_THERM_HOTIDX i

/-- SENSOR_SAMPLE (R775, R809): the die sensors are sampled: sensor and reading in 1/16 °C. `suspect` are diodes found open or shorted, and digital
sensors more than 25 °C from both their neighbours, which the spec does not name. -/
def execSensorSample (reads : List (Nat × BitVec 16)) (suspect : List Nat) (s : State) : Host.Outcome State Fault Refusal := ended s <|
  let had := !s.hod.alerts.isEmpty
  let s := s.each (reads.filter (fun x => decide (x.1 < 212))) (fun s x => sampleSensor suspect x.1 x.2.toInt s)
  let s := if had && s.hod.alerts.isEmpty then s.emit (.pin "THERM_ALERT_N" 1) else s
  .next (showHot (noteHeat s))

/-- FMAX set by Hod; the clock follows (R803, R308). -/
def setFmax (b : Brick) (v : Nat) (s : State) : State := if s.rd (Reg.PWR_DVFS_FMAX b) = v then s else seekClock b (s.wr (Reg.PWR_DVFS_FMAX b) v)

/-- STACK_TEMP_READ (R315, R776, R809): Hod reads a powered stack's temperature, in 1/16 °C: its band follows; above 105 °C its brick runs at
FMAX 0x30; above 110 °C for 1 ms the stack goes to RETAIN and the brick to its safe state; below 95 °C both end. -/
def execStackTempRead (st : Stack) (t : BitVec 16) (e : MemEnv) (s : State) : Host.Outcome State Fault Refusal := ended s <|
  let b := stackBrick st
  if !hodActs s || domCur s (136 + st.val) = 0 then .next s else
  let s := if stackOn s st then reportBand st t s else s
  let t := t.toInt
  let hot := s.hod.hotStacks.contains st.val
  let s := if decide (1680 < t) && !hot then
      setFmax b 0x30 (({ s with hod := { s.hod with hotStacks := insertNum s.hod.hotStacks st.val } }).raise 0x5033 [st.val, wrapNat 16 t])
    else if decide (t < 1520) then { s with hod := { s.hod with hotStacks := s.hod.hotStacks.filter (fun x => x ≠ st.val) } }
    else s
  if t ≤ 1760 then .next { s with hod := { s.hod with stackHot := tabErase s.hod.stackHot st.val } } else
  let since := (tabFind s.hod.stackHot st.val).getD s.now
  let s := { s with hod := { s.hod with stackHot := tabPut s.hod.stackHot st.val since } }
  if s.now < since + 10 ^ 6 then .next s
  else .next (enterBrickSafe b 4 e (if domCur s (136 + st.val) = 3 then requestDomain (136 + st.val) 1 s else s))

/-- COOLANT_READ (R776, R809): Hod reads the inlet and outlet sensors, in 1/16 °C; none where a sensor is absent. -/
def execCoolantRead (inlet outlet : Option (BitVec 16)) (s : State) : Host.Outcome State Fault Refusal := ended s <|
  if !hodActs s || s.hod.busFailed.contains 1 then .next s else
  let i := if s.hod.swap then outlet else inlet
  let o := if s.hod.swap then inlet else outlet
  let s := match i with
    | some x => s.wr Reg.HOD_THERM_TIN x.toNat
    | none => s
  let s := match o with
    | some x => s.wr Reg.HOD_THERM_TOUT x.toNat
    | none => s
  let bad := i.isNone || o.isNone || i.any (fun x => decide (720 < x.toInt))
  let swapped := match i, o with
    | some x, some y => decide (y.toInt + 32 < x.toInt) && decide (1000 < s.rd Reg.PWR_PKG_MEAS)
    | _, _ => false
  let s := if bad && !s.hod.coolantBad then (s.flag Reg.HOD_ERR_COOLANT).raise 0x5031 [(i.map (fun x => x.toNat)).getD 0, (o.map (fun x => x.toNat)).getD 0] else s
  let s := { s with hod := { s.hod with coolantBad := bad, coolantRead := true } }
  if !swapped then .next { s with hod := { s.hod with swapSince := none } } else
  let since : Nat := s.hod.swapSince.getD s.now
  if s.now < since + 10 ^ 10 then .next { s with hod := { s.hod with swapSince := some since } }
  else .next ((({ s with hod := { s.hod with swap := !s.hod.swap, swapSince := none } }).flag Reg.HOD_ERR_COOLANT).raise 0x5035 [])

/-- LEAK (R776, R809): LEAK_N is asserted, and THERMTRIP_N follows. -/
def execLeak (s : State) : Host.Outcome State Fault Refusal := ended s <|
  .next (((s.flag Reg.HOD_ERR_LEAK).emit (.pin "THERMTRIP_N" 0)).raise 0x5036 [])

/-! ### Voltages, overcurrent and regulators (R777 to R779, R809) -/

/-- VOLTAGE_OUT_OF_WINDOW (R777, R809, R847, R858): a domain out of its window for 10 µs. -/
def execVoltageOutOfWindow (d : Fin 145) (mv : BitVec 16) (e : MemEnv) (s : State) : Host.Outcome State Fault Refusal := ended s <|
  let s := (s.wr (Reg.HOD_VMON_OUT d) 1).wr (Reg.HOD_VMON_MV d) mv.toNat
  let s := (s.flag Reg.HOD_ERR_VMON).raise 0x5043 [d.val, mv.toNat]
  match domKind d.val with
  | .site b k =>
    (match siteTile s b k with
    | some t => .next (if tileFenced s t then s else fenceTile t 0x3 (poisonBonds t 0x03 (suspectBonds s t) s))
    | none => .next s)
  | .stack st => .next (enterBrickSafe (stackBrick st) 1 e s)
  | .uncore b => .next (enterBrickSafe b 1 e s)
  | .none => .next s

/-- The bricks whose tile clock an overcurrent on a rail stops (R809): its own for a tile rail, every one for a rail they share. -/
def railBricks (g : Nat) : List Brick := if g < 4 then [brickOf g] else [0, 1, 2, 3]

/-- The carrying tiles of a brick have QFORCE set or cleared (R804): each change raises event 0x3104. -/
def setQforce (b : Brick) (v : Nat) (s : State) : State :=
  s.each (brickTiles b) (fun s t =>
    if s.rd (Reg.PRS_STAT_QFORCE t) = v || siteState s t = 0 then s else
    let s := s.wr (Reg.PRS_STAT_QFORCE t) v
    (if v = 1 then s.flag (Reg.PRS_ERR_QFORCED t) else s).raise 0x3104 [t.val, v])

/-- OVERCURRENT (R778, R809): a rail trips: the clocks stop, FMAX falls to 0x30 and QFORCE is set; a third trip of a tile rail within 1 s gives the brick's
safe state. -/
def execOvercurrent (g : Fin 8) (amps : BitVec 16) (e : MemEnv) (s : State) : Host.Outcome State Fault Refusal := ended s <|
  let s := (s.flag Reg.HOD_ERR_OC).raise 0x5040 [g.val, amps.toNat]
  let s := s.each (railBricks g.val) (fun s b =>
    let s := { s with power := { s.power with stopped := insertNum s.power.stopped b.val } }
    let s := { s with hod := { s.hod with ocAt := tabPut s.hod.ocAt b.val s.now } }
    setQforce b 1 (setFmax b 0x30 s))
  if 4 ≤ g.val then .next s else
  let b := brickOf g.val
  let trips := (b.val, s.now) :: s.hod.ocTrips.filter (fun x => decide (s.now < x.2 + 10 ^ 9))
  let s := { s with hod := { s.hod with ocTrips := trips } }
  .next (if 3 ≤ (trips.filter (fun x => x.1 = b.val)).length then enterBrickSafe b 2 e s else s)

/-- OVERCURRENT_CLOCK_RESTART (R809): 100 µs after a trip Hod restarts the clock. -/
def execOvercurrentClockRestart (b : Brick) (s : State) : Host.Outcome State Fault Refusal := ended s <|
  if !hodActs s || (tabFind s.hod.ocAt b.val).isNone then .next s else
  .next { s with hod := { s.hod with ocAt := tabErase s.hod.ocAt b.val }, power := { s.power with stopped := s.power.stopped.filter (fun x => x ≠ b.val) } }

/-- An output fault or shutdown of the regulator of a group (R809, R858, R860): the domains of its rails fail, with a brick's or the package's safe
state. -/
def regulatorFault (g : Nat) (e : MemEnv) (s : State) : State :=
  let s := { s with hod := { s.hod with groupOff := insertNum s.hod.groupOff g } }
  if g < 4 then
    let b := brickOf g
    let s := s.each ((List.range 33).map (fun k => 33 * g + k)) (fun s d => if domCur s d ≠ 0 then faultDomain d e s else s)
    enterBrickSafe b 3 e s
  else
    let s := enterPackageSafe 2 e s
    let ds := if g < 6 then [132, 133, 134, 135] else (List.range 8).map (fun n => 136 + n)
    s.each ds (fun s d => if domCur s d ≠ 0 then faultDomain d e s else s)

/-- PMB_ALERT (R779, R809): Hod reads the STATUS of the regulator of a group. A phase fault sheds the phase by PSCMD; an output fault or shutdown fails
the domains of the rail and brings a safe state. CLEAR_FAULTS follows once the fault is logged. -/
def execPmbAlert (g : Fin 8) (status : BitVec 16) (phase : Option Nat) (output : Bool) (e : MemEnv) (s : State) : Host.Outcome State Fault Refusal := ended s <|
  if !hodActs s || s.hod.busFailed.contains 0 then .next s else
  let s := (s.wr (Reg.HOD_RAIL_STATUS g) status.toNat).raise 0x5041 [g.val, status.toNat]
  let s := match phase with
    | some p =>
      let n := s.rd (Reg.HOD_RAIL_PHOK g) - 1
      let s := pmbusWrite g.val (numAt (railRecord s g.val) 3 1) (leBytes 1 p) s
      ((s.wr (Reg.HOD_RAIL_PHOK g) n).flag Reg.HOD_ERR_PHASE).raise 0x5042 [g.val, p, n]
    | none => s
  .next (pmbusWrite g.val 0x03 [] (if output then regulatorFault g.val e s else s))

/-- TELEMETRY_POLL (R779): Hod reads a regulator's output voltage and current. -/
def execTelemetryPoll (g : Fin 8) (vout iout : BitVec 16) (s : State) : Host.Outcome State Fault Refusal := ended s <|
  if !hodActs s || s.hod.busFailed.contains 0 then .next s
  else .next ((s.wr (Reg.HOD_RAIL_VOUT g) vout.toNat).wr (Reg.HOD_RAIL_IOUT g) iout.toNat)

/-! ### The grant (R802 to R804) -/

/-- A share of the power left, brick by brick (R802): bricks capped below their share are fixed first. `open'`: bricks not yet fixed. -/
def shareGrants (w cap : Nat → Rat) : Nat → Rat → List Nat → List (Nat × Rat)
  | 0, _, _ => []
  | n + 1, avail, open' =>
    match open' with
    | [] => []
    | b0 :: rest =>
      let share := avail / (open'.map w).sum
      let b := rest.foldl (fun b x => if cap x / w x < cap b / w b then x else b) b0
      if cap b < share * w b then (b, cap b) :: shareGrants w cap n (avail - cap b) (open'.filter (fun x => x ≠ b))
      else open'.map (fun x => (x, share * w x))

/-- The package grant (R802): `tin` in °C. -/
def packageGrant (cap : Nat) (plate : Bool) (tin : Rat) : Rat :=
  min (min (cap : Rat) (if plate then 2500 else 1500)) (2500 - 60 * max 0 (min 5 (tin - 40)))

/-- The inlet temperature that the grant uses, in °C: 45 where it is unknown (R802, R809). -/
def grantTin (s : State) : Rat :=
  if !s.hod.coolantRead || s.hod.coolantBad || s.hod.busFailed.contains 1 then 45 else mkRat (sextInt 16 (s.rd Reg.HOD_THERM_TIN)) 16

/-- The cap of a brick's tile rail (R802), in W. -/
def railCap (s : State) (b : Nat) : Rat :=
  (9 / 10 : Rat) * ((s.hod.vset.getD b 0 : Rat) / 1000) * (s.rd (Reg.HOD_RAIL_PHOK b) : Rat) * (numAt (railRecord s b) 4 2 : Rat)

/-- The whole watts of a figure. -/
def watts (x : Rat) : Nat := x.floor.toNat

/-- A millisecond counted while a condition holds. -/
def runOf (t : Tab Nat) (b : Nat) (holds : Bool) : Tab Nat := tabPut t b (if holds then tabGet 0 t b + 1 else 0)

/-- FMAX and QFORCE of a brick after a measurement (R803, R804, R809). -/
def steerBrick (b : Brick) (meas grant : Nat) (s : State) : State :=
  let s := noteHeat s
  let h := s.hod
  let fmax := s.rd (Reg.PWR_DVFS_FMAX b)
  let hot := brickHot s b.val
  let h := { h with
    under90 := runOf h.under90 b (decide (10 * meas < 9 * grant)), under70 := runOf h.under70 b (decide (10 * meas < 7 * grant)),
    aboveRun := runOf h.aboveRun b (decide (grant < meas) && fmax = 0x30), hot105 := runOf h.hot105 b (decide (1680 ≤ hot) && fmax = 0x30) }
  let s := { s with hod := h }
  let mayFall := (tabFind h.downAt b).all (fun t => decide (t + 2 * 10 ^ 6 ≤ s.now))
  let mayRise := 100 ≤ tabGet 0 h.under90 b && (tabFind h.upAt b).all (fun t => decide (t + 10 ^ 8 ≤ s.now)) && !h.heated.contains b.val && !h.busFailed.contains 0 &&
    !hotBrick s b && s.isSet Reg.PWR_STAT_MREFOK
  let top := h.fuses.fmax.getD b 0x78
  let budget := decide (grant < meas) && mayFall
  let next :=
    if hotBrick s b then 0x30
    else if decide (1600 ≤ hot) then max 0x30 (fmax - 8)
    else if budget then max 0x30 (fmax - 4)
    else if mayRise then min top (fmax + 4)
    else fmax
  let s := if next < fmax && budget then { s with hod := { s.hod with downAt := tabPut s.hod.downAt b s.now } } else s
  let s := if fmax < next then { s with hod := { s.hod with upAt := tabPut s.hod.upAt b s.now } } else s
  let s := setFmax b next s
  let force := 10 ≤ tabGet 0 s.hod.aboveRun b || 10 ≤ tabGet 0 s.hod.hot105 b
  let clear := 100 ≤ tabGet 0 s.hod.under70 b && decide (hot < 1600)
  let s := if force then setQforce b 1 s else if clear then setQforce b 0 s else s
  if s.rd (Reg.PWR_DVFS_FCUR b) < s.rd (Reg.PWR_DVFS_FREQ b) then s.flag Reg.PWR_ERR_THROT else s

/-- GRANT_COMPUTE (R778, R802 to R804): every 1 ms Hod takes the measurements of the last 1 ms, in W: those of the tile rails, and of the other rails. -/
def execGrantCompute (meas : List (BitVec 16)) (other : BitVec 16) (s : State) : Host.Outcome State Fault Refusal := ended s <|
  let m := fun b => (meas.getD b 0).toNat
  let s := s.each (List.range 4) (fun s b => s.wr ⟨Reg.PWR_MEAS, 16 * b + 15, 16 * b⟩ (m b))
  let s := s.wr Reg.PWR_PKG_MEAS (m 0 + m 1 + m 2 + m 3 + other.toNat)
  if !hodActs s then .next s else
  let p := packageGrant (min (s.rd Reg.HOD_PCAP_PCAP) (s.rd Reg.HOD_PCAP_TRAYCAP)) s.hod.coldPlateOk (grantTin s)
  let avail := p - (105 / 100 : Rat) * (other.toNat : Rat)
  let on := (List.range 4).filter (fun b => uncoreOn s (brickOf b))
  let weight := fun b => (s.rd ⟨Reg.HOD_BWGT, 8 * b + 7, 8 * b⟩ : Rat)
  let gs := shareGrants weight (railCap s) 5 avail on
  let g := fun b => match gs.find? (fun x => x.1 = b) with
    | some x => watts x.2
    | none => 0
  let s := s.wr Reg.PWR_PKG_GRANT (watts p)
  let s := s.each (List.range 4) (fun s b => s.wr (grantField (brickOf b)) (g b))
  .next (s.each (List.range 4) (fun s b => if uncoreOn s (brickOf b) then steerBrick (brickOf b) (m b) (g b) s else s))

/-! ### Sideband buses (R808, R809) -/

/-- The tile supplies and clocks after the PMBus works again (R801, R809): normal control resumes. -/
def resumeVolts (s : State) : State :=
  s.each ([0, 1, 2, 3] : List Brick) (fun s b => seekClock b (setTileVolt b (s.rd (Reg.PWR_DVFS_FCUR b)) s))

/-- A sideband bus works again. -/
def busWorks (bus : Nat) (s : State) : State :=
  let was := s.hod.busFailed.contains bus
  let s := { s with hod := { s.hod with busFailed := s.hod.busFailed.filter (fun x => x ≠ bus) } }
  s.when (was && bus = 0) resumeVolts

/-- A sideband bus is released: event 0x5050. -/
def busFreed (bus : Nat) (s : State) : State := (busWorks bus s).raise 0x5050 [bus]

/-- A sideband bus fails (R808, R809): event 0x5051; with a module bus the lane status of its modules is lost. -/
def busFails (bus : Nat) (s : State) : State :=
  let s := s.each ((List.finRange 24).filter (fun p => moduleBus p = bus)) (fun s p => s.onLink (.port p) (fun L => { L with laneFault := 0 }))
  (({ s with hod := { s.hod with busFailed := insertNum s.hod.busFailed bus } }).flag Reg.HOD_ERR_BUSFAIL).raise 0x5051 [bus]

/-- MOD_RST_N of a module bus pulsed (R808). -/
def pulseModules (bus : Nat) (s : State) : State :=
  if bus < 3 then s else
  (s.emit (.pin ("MOD_RST_N" ++ toString (bus - 3)) 0)).emit (.pin ("MOD_RST_N" ++ toString (bus - 3)) 1)

/-- BUS_RECOVERY (R808): a stuck bus: 0 PMBus, 1 board bus, 2 tray bus, 3 + n module bus n (DESIGN CHOICE, log entry 75). SCL pulses free it; a module
bus that stays stuck has MOD_RST_N pulsed and is tried once more; a bus that stays stuck, or whose SCL is held low, is failed. -/
def execBusRecovery (bus : Fin 7) (how : BusEnd) (s : State) : Host.Outcome State Fault Refusal := ended s <|
  if !hodActs s then .next s else
  match how with
  | .pulses => .next (busFreed bus.val s)
  | .moduleReset => .next (if bus.val < 3 then busFails bus.val s else busFreed bus.val (pulseModules bus.val s))
  | .stuck => .next (busFails bus.val (pulseModules bus.val s))
  | .sclLow => .next (busFails bus.val s)

/-- BUS_RETRY (R808): a failed bus is tried again. -/
def execBusRetry (bus : Fin 7) (ok : Bool) (s : State) : Host.Outcome State Fault Refusal := ended s <|
  if !hodActs s || !s.hod.busFailed.contains bus.val || !ok then .next s
  else .next (busWorks bus.val s)

end Sys2Proof.Machine
end

