-- ==== Sys2Proof/Machine/Labels.lean ====
section
/-! DEFINITION. The arbitration points: ranking, ceilings, grants, averages and missed guarantees (R421 to R438), and the transmission of the
packet that a link's point grants (R86, R90, R93). -/
namespace Sys2Proof.Machine
open Sys2Proof

/-- A request that could be granted at a point: its label, age and bytes, and its place in the point's list. -/
structure Candidate where
  lbl : Nat
  age : Nat
  size : Nat
  at' : Nat
  hit : Bool := false
  deriving DecidableEq, Repr

/-- Whether a label's bucket holds a request's bytes. -/
def bucketHolds (P : LabelPoint) (lbl size : Nat) : Bool :=
  let need := size * 10 ^ 12
  match lbl with
  | 13 => decide (need ≤ P.bucket13)
  | 14 => decide (need ≤ P.bucket14)
  | 15 => decide (need ≤ P.bucket15)
  | _ => true

/-- The level of a label whose oldest eligible request has age `age` (R427). -/
def labelLevel (s : State) (pt : Fin 58) (lbl age size : Nat) : Nat :=
  let P := s.points[pt]
  if lbl = 14 && bucketHolds P 14 size then 9
  else if lbl = 15 && bucketHolds P 15 size then 8
  else if 64000 ≤ age then 7
  else
    let target := s.rd (Reg.LBL_CFG_TARGET pt lbl)
    let e := max (s.rd (Reg.LBL_MEAS_EWMA pt lbl) / 16) age
    let r := if target = 0 then 0 else min 7 (8 * e / target)
    max r (s.rd (Reg.LBL_CFG_BASE pt lbl))

/-- A label's best candidate and its level. `cs`: the label's own, in arrival order; `raise`: the level to which a candidate is raised by requests that it
blocks (R424). The label's level is that of its oldest one (R427, R428), and label 13 needs its bucket (R429). -/
def rankLabel (s : State) (pt : Fin 58) (raise : Candidate → Option Nat) : List Candidate → Option (Candidate × Nat)
  | [] => none
  | c :: rest =>
    if c.lbl = 13 && !bucketHolds s.points[pt] 13 c.size then none else
    let own := labelLevel s pt c.lbl c.age c.size
    some (rest.foldl (fun best x => match raise x with
      | some n => if best.2 < n then (x, n) else best
      | none => best) (c, max own ((raise c).getD 0)))

/-- The ranking of a list of candidates: what each label puts forward. -/
def rankAll (s : State) (pt : Fin 58) (raise : Candidate → Option Nat) (cs : List Candidate) (lbl : Nat) : Option (Candidate × Nat) :=
  rankLabel s pt raise (cs.filter (fun c => c.lbl == lbl))

/-- Labels in the order of a tie: the first after the one last granted, ascending modulo 16 (R428). -/
def tieOrder (last : Nat) : List Nat := (List.range 16).map (fun k => (last + 1 + k) % 16)

/-- The candidate with the highest level, ties by the order of R428. -/
def bestLabel (rank : Nat → Option (Candidate × Nat)) : List Nat → Option (Candidate × Nat)
  | [] => none
  | l :: ls =>
    match rank l, bestLabel rank ls with
    | none, rest => rest
    | some x, some y => if x.2 < y.2 then some y else some x
    | some x, none => some x

/-- Event code of a point's missed guarantee (R438). -/
def missCode (pt : Fin 58) : Nat := if 56 ≤ pt.val then 0x4201 else if (pointLink pt).isSome then 0x1201 else 0x2201

/-- A miss of a label (R437): counted in the window, and reported once per window when it exceeds MISSMAX: flag and event with scope, point, label,
L[l] in ns, WORST and MISSES; it interrupts where MISSEN says so. -/
def labelMiss (pt : Fin 58) (lbl : Nat) (s : State) : State :=
  let s := s.count (Reg.LBL_MEAS_MISSES pt lbl) 1
  let max' := s.rd (Reg.LBL_CFG_MISSMAX pt lbl)
  if max' = 0xFF || s.rd (Reg.LBL_MEAS_MISSES pt lbl) ≤ max' || bitOf s.points[pt].reported lbl then s else
  let s := s.onPoint pt (fun P => { P with reported := P.reported + 2 ^ lbl })
  let s := s.flagBits (Reg.LBL_MISSST_MISS pt) (2 ^ lbl)
  let scope := if pt.val < 56 then 1 + pt.val / 14 else 0
  let n := if pt.val < 56 then pt.val % 14 else pt.val - 56
  s.raiseIf (bitOf (s.rd (Reg.LBL_MISSEN_EN pt)) lbl) (missCode pt)
    [scope, n, lbl, s.rd (Reg.LBL_MEAS_EWMA pt lbl) / 16, s.rd (Reg.LBL_MEAS_WORST pt lbl), s.rd (Reg.LBL_MEAS_MISSES pt lbl)]

/-- What a grant leaves at a point (R426, R428, R430): the average, the worst sample, a miss, the label last granted and its bucket. -/
def onGrant (pt : Fin 58) (lbl wait size : Nat) (s : State) : State :=
  let l := s.rd (Reg.LBL_MEAS_EWMA pt lbl)
  let w := s.rd (Reg.LBL_PCTL_WSHIFT pt)
  let d : Int := sextInt 32 (wait * 16 % 2 ^ 32 + 2 ^ 32 - l)
  let s := s.wr (Reg.LBL_MEAS_EWMA pt lbl) (wrapNat 32 ((l : Int) + d / (2 : Int) ^ w))
  let s := if s.rd (Reg.LBL_MEAS_WORST pt lbl) < wait then s.wr (Reg.LBL_MEAS_WORST pt lbl) (min wait 0xFFFF) else s
  let target := s.rd (Reg.LBL_CFG_TARGET pt lbl)
  let s := if target ≠ 0 && decide (target < wait) then labelMiss pt lbl s else s
  let take := size * 10 ^ 12
  s.onPoint pt (fun P => { P with
    last := lbl,
    bucket13 := if lbl = 13 then P.bucket13 - take else P.bucket13,
    bucket14 := if lbl = 14 then P.bucket14 - take else P.bucket14,
    bucket15 := if lbl = 15 then P.bucket15 - take else P.bucket15 })

/-- The level of each label that has an eligible request stands in STEP: 7 for a level above 7 (R442). -/
def writeSteps (pt : Fin 58) (rank : Nat → Option (Candidate × Nat)) (s : State) : State :=
  s.each (List.range 16) (fun s l => match rank l with
    | some c => s.wr (Reg.LBL_MEAS_STEP pt l) (min 7 c.2)
    | none => s)

/-! ### The transmission of a granted packet -/

/-- Label of a packet at an arbitration point (R419). -/
def pointLabel (p : Packet) : Nat := if p.ptype.toNat = ptReq || p.ptype.toNat = ptRsp then p.lbl.toNat else 14

/-- The units of a packet in flits of one channel: 29 units of 8 B each; the first flit carries FIRST = 0 (R84, R86). -/
def sendUnits (l : LinkId) (vc : Nat) : Nat → Bool → Bytes → State → State
  | 0, _, _, s => s
  | fuel + 1, begins, bs, s =>
    if bs.isEmpty then s else
    let now' := bs.take 232
    let s := sendFlit l 1 vc (now'.length / 8) (if begins then 0 else 0x1F) false now' s
    sendUnits l vc fuel false (bs.drop 232) s

/-- A packet leaves on a link: its credit is spent, its flits are sent, and it is in flight until they are acknowledged (R90, R93, R132). -/
def transmit (l : LinkId) (q : Queued) (s : State) : State :=
  let bs := packetBytes q.pkt
  let n := ceilDiv bs.length 232
  let s := s.onLink l (fun L => { L with
    queue := L.queue.erase q,
    credits := L.credits.modify q.vc (fun c => c - q.pkt.len.toNat),
    inflight := L.inflight ++ [((L.txFsn + n - 1) % 4096, q.pkt)] })
  let s := stampPacket s.plumb.toNat (linkBrick l) (linkNo l) true q.pkt s
  sendUnits l q.vc n true bs s

/-- A link's packets that could be sent: the head of each label of each channel that holds its credit, while the replay buffer has room (R90, R93,
R423). Arrival order over the channels is kept. -/
def linkCandidates (s : State) (l : LinkId) : List (Queued × Candidate) :=
  let L := s.link l
  let heads := L.queue.zipIdx.filter (fun e =>
    !(L.queue.take e.2).any (fun q => q.vc == e.1.vc && pointLabel q.pkt == pointLabel e.1.pkt))
  (heads.filter (fun e => decide (e.1.pkt.len.toNat ≤ L.credits.getD e.1.vc 0 ∧
      L.replay.length + ceilDiv (8 * e.1.pkt.len.toNat) 232 ≤ replayMax l))).map (fun e =>
    (e.1, { lbl := pointLabel e.1.pkt, age := s.plumb.toNat - e.1.since, size := 8 * e.1.pkt.len.toNat, at' := e.2 }))

/-- LABEL_GRANT at a link's point (R423, R428): the packet granted is sent; with nothing to send, or the replay buffer full, a null flit goes out
(R93). -/
def grantLink (pt : Fin 58) (l : LinkId) (s : State) : State :=
  let qs := linkCandidates s l
  let rank := rankAll s pt (fun _ => none) (qs.map (fun e => e.2))
  match bestLabel rank (tieOrder s.points[pt].last) with
  | none => sendNull l false s
  | some (c, _) =>
    match qs.find? (fun e => e.2 = c) with
    | none => s
    | some (q, _) => transmit l q (onGrant pt c.lbl c.age c.size (writeSteps pt rank s))

/-- The requests at an inner point that no earlier one of the same flow or sector holds back (R424), each with the label it is ranked by. -/
def freeRequests (rs : List LabelReq) : List (LabelReq × Nat) :=
  rs.zipIdx.filter (fun e => !(rs.take e.2).any (fun r => r.flow = e.1.flow || r.sector = e.1.sector))

/-- The level to which request `i` is raised by the later requests of its sector, which it blocks (R424). -/
def raisedLevel (s : State) (pt : Fin 58) (rs : List LabelReq) (i : Nat) : Option Nat :=
  match rs[i]? with
  | none => none
  | some r => ((rs.drop (i + 1)).filter (fun x => x.sector = r.sector)).foldl
      (fun m x => some (max (m.getD 0) (labelLevel s pt x.lbl x.age x.size))) none

/-- The bytes that a point counts for a request (R431): at least 64 at the bed cache intake, whole sectors of a stream, 32 for a grout read. -/
def pointBytes (pt : Fin 58) (size : Nat) : Nat :=
  match pointStack pt with
  | some (_, false) => ceilDiv size 64 * 64
  | some (_, true) => 32
  | none => if pt.val < 56 then max 64 size else size

/-- LABEL_GRANT at an inner point: the bed cache intake, a stack's streaming or grout queue, or the host link (R421, R424, R425, R428, R432). A grout read
activates a row unless it hits an open one, and while a streaming request waits for its pseudo-channel only as GACT allows (R318).
`rs` waits here, in arrival order; `rivals` waits at the other point of the same stack. Of the winning level a stack point takes a request that hits an
open row first, as R425 lets it (DESIGN CHOICE, log entry 216). -/
def grantInner (pt other : Fin 58) (rs rivals : List LabelReq) (s : State) : State :=
  let P := s.points[pt]
  let free := freeRequests rs
  let cs : List Candidate := free.map (fun e => { lbl := e.1.lbl, age := e.1.age, size := e.1.size, at' := e.2, hit := e.1.rowHit })
  let rank := rankAll s pt (fun c => raisedLevel s pt rs c.at') cs
  let own := rankAll s pt (fun _ => none) cs
  match bestLabel rank (tieOrder P.last) with
  | none => s
  | some (c, n) =>
    let hit := cs.find? (fun x => x.hit && ((own x.lbl).any (fun y => y.2 == n) || (rank x.lbl == some (x, n))) &&
      (x.lbl != 13 || bucketHolds P 13 x.size))
    let c := if (pointStack pt).isSome && !c.hit then hit.getD c else c
    let channel := match rs[c.at']? with
      | some r => r.channel
      | none => 0
    let against := rivals.filter (fun r => r.channel = channel)
    let m := against.foldl (fun m r => max m (labelLevel s other r.lbl r.age r.size)) 0
    let tie := !against.isEmpty && m == n
    if (pointStack pt).isSome && !against.isEmpty && (decide (n < m) || (tie && P.tie.contains channel)) then s else
    let grout := match pointStack pt with
      | some (st, true) => some st
      | _ => none
    if !c.hit && !against.isEmpty && grout.any (fun st => !activationFree s st channel) then s else
    let s := match grout with
      | some st => if c.hit then s else noteActivation st channel s
      | none => s
    let s := writeSteps pt rank s
    let s := onGrant pt c.lbl c.age c.size s
    if (pointStack pt).isSome && tie then
      (s.onPoint pt (fun P => { P with tie := channel :: P.tie.erase channel })).onPoint other (fun P => { P with tie := P.tie.erase channel })
    else s

/-- A point's window begins: MISSES and WORST of every label become zero (R436). -/
def startWindow (pt : Fin 58) (k : Nat) (s : State) : State :=
  let s := s.onPoint pt (fun P => { P with reported := 0, window := k })
  s.each (List.range 16) (fun s l => (s.wr (Reg.LBL_MEAS_WORST pt l) 0).wr (Reg.LBL_MEAS_MISSES pt l) 0)

/-- The number of the window of WIN µs, on the plumb counter, that a point is in (R436). -/
def windowNow (s : State) (pt : Fin 58) : Nat := s.plumb.toNat / (1000 * s.rd (Reg.LBL_PCTL_WIN pt))

/-- The window of a point follows the plumb counter (R436). -/
def rollWindow (pt : Fin 58) (s : State) : State := if windowNow s pt = s.points[pt].window then s else startWindow pt (windowNow s pt) s

/-- Whether a point stands still: of a brick whose uncore is not ON, a link's that carries nothing, and the host link's while the link is out of service
(R435). -/
def pointStill (s : State) (pt : Fin 58) : Bool :=
  !uncoreOn s (if pt.val < 56 then brickOf (pt.val / 14) else 0) ||
  match pointLink pt with
  | some l => !s.linkOpen l
  | none => 56 ≤ pt.val && !s.isSet Reg.HST_STAT_LINKUP

/-- LABEL_GRANT (R428, R435): a grant opportunity at a point. A link's point grants from its own queue; what waits at another point comes with the
command. -/
def execLabelGrant (pt : Fin 58) (rs rivals : List LabelReq) (s : State) : Host.Outcome State Fault Refusal := ended s <|
  if pointStill s pt then .next s else
  let s := rollWindow pt (fillBuckets pt s)
  let counted := fun (p : Fin 58) (r : LabelReq) => { r with size := pointBytes p r.size }
  let other : Fin 58 := match pointStack pt with
    | some (_, false) => ⟨(pt.val + 2) % 58, Nat.mod_lt _ (by decide)⟩
    | some (_, true) => ⟨(pt.val - 2) % 58, Nat.mod_lt _ (by decide)⟩
    | none => pt
  match pointLink pt with
  | some l => .next (grantLink pt l s)
  | none => .next (grantInner pt other (rs.map (counted pt)) (rivals.map (counted other)) s)

/-- LABEL_WINDOW_START (R435, R436): a window of WIN µs on the plumb counter begins at a point; the counts of the host link's points stand still while
the link is out of service. -/
def execLabelWindowStart (pt : Fin 58) (s : State) : Host.Outcome State Fault Refusal := ended s <|
  .next (if 56 ≤ pt.val && !s.isSet Reg.HST_STAT_LINKUP then s else rollWindow pt s)

end Sys2Proof.Machine
end

