-- ==== Sys2Proof/Machine/Observe.lean ====
section
/-! DEFINITION. Observation (chapter 19): the plumb counter and its alignment, the sampler, the observation rings, pulls and PC samples. -/
namespace Sys2Proof.Machine
open Sys2Proof

/-! ### The plumb counter (R882 to R892) -/

/-- A slew spread evenly over the interval that begins (R886). -/
def slew (n : Int) (s : State) : State :=
  { s with observe := { s.observe with slew := n, slewLen := s.rd Reg.PLB_CTL_SYNCINT * 1000, slewPos := 0 } }

/-- An integer held within `[-m, m]`. -/
def clampInt (m i : Int) : Int := if i < -m then -m else if m < i then m else i

/-- Whether a step is allowed (R885). -/
def stepAllowed (s : State) : Bool :=
  !s.isSet Reg.SEAT_OWN_VALID && !s.isSet Reg.PLB_CTL_ROOT && (List.range 132).all (fun d => domCur s d = 0 || domCur s d = 2)

/-- The sampler instants of a brick that lie in `(lo, hi]` of the plumb counter (R891). -/
def instantsIn (s : State) (b : Brick) (lo hi : Nat) : Nat :=
  let i := s.rd (Reg.OBS_SMP_INTV b) * 1000
  hi / i - lo / i

/-- Instants missed of the tiles that a brick's sampler selects (R891, R899). -/
def missInstants (b : Brick) (n : Nat) (ks : List Nat) (s : State) : State :=
  if n = 0 || ks.isEmpty then s else
  let s := s.onBrick b (fun B => { B with missed := ks.foldl (fun m k => tabMod 0 m k (fun v => satNat 16 (v + n))) B.missed })
  (s.count (Reg.OBS_SKIPS_SKIPS b) (n * ks.length)).flag (Reg.OBS_ERR_SKIP b)

/-- The tiles that the sampler of brick `b` latches (R897), by k: selected, their site ON or IDLE, and not fenced. -/
def sampledTiles (s : State) (b : Brick) : List Nat :=
  (setBits 32 (s.rd (Reg.OBS_SMP_TILES b))).filter (fun k =>
    let t := brickTile b k
    (siteState s t = 3 || siteState s t = 1) && !tileFenced s t)

/-- What a step leaves to do (R891): every arbitration point restarts its windows, and the instants passed over count as skips. -/
def afterStep (before : Nat) (s : State) : State :=
  let s := s.each (List.finRange 58) (fun s pt => startWindow pt (windowNow s pt) s)
  s.each ([0, 1, 2, 3] : List Brick) (fun s b =>
    if s.isSet (Reg.OBS_SMP_EN b) then missInstants b (instantsIn s b before s.plumb.toNat) (sampledTiles s b) s else s)

/-- The plumb counter moved at once (R884, R885, R891): event 0x7002 with the values before and after. -/
def stepPlumb (theta : Int) (s : State) : State :=
  let before := s.plumb.toNat
  let s := { s with plumb := BitVec.ofNat 64 (wrapNat 64 ((before : Int) + theta)), observe := { s.observe with slew := 0 } }
  let s := (s.setReg Reg.PLB_FREQ 0).setReg Reg.PLB_STEP (wrapNat 64 theta)
  (afterStep before (s.flag Reg.PLB_STAT_STEPPED)).raise 0x7002 [before, s.plumb.toNat]

/-- An interval without a measurement (R884, R887): the rate F goes on alone, and holdover begins. That it ends the run of good intervals is DEDUCED
(log entry 80). -/
def unmeasured (s : State) : State :=
  let rmax : Int := (s.rd Reg.PLB_CTL_SYNCINT / 5 : Nat)
  let s := slew (clampInt rmax (sextInt 64 (s.reg Reg.PLB_FREQ) / 65536)) (s.wr Reg.PLB_STAT_OKRUN 0)
  if s.isSet Reg.PLB_STAT_HOLD then s else
  let s := { s with observe := { s.observe with holdAt := s.now } }
  (s.flag Reg.PLB_STAT_HOLD).raise 0x7005 [s.rd Reg.PLB_CTL_UPPORT]

/-- The run of measured intervals within ALTHR, and alignment after eight of them (R887). -/
def countAligned (theta : Int) (s : State) : State :=
  if theta.natAbs ≤ s.rd Reg.PLB_CTL_ALTHR then
    let s := s.count Reg.PLB_STAT_OKRUN 1
    if 8 ≤ s.rd Reg.PLB_STAT_OKRUN && !s.isSet Reg.PLB_STAT_ALIGNED then
      (s.flag Reg.PLB_STAT_ALIGNED).raise 0x7003 [s.rd Reg.PLB_CTL_UPPORT, wrapNat 64 theta]
    else s
  else s.wr Reg.PLB_STAT_OKRUN 0

/-- A measured interval (R884). -/
def measured (theta : Int) (s : State) : State :=
  let rmax : Int := (s.rd Reg.PLB_CTL_SYNCINT / 5 : Nat)
  let s := countAligned theta ((s.wr Reg.PLB_STAT_HOLD 0).setReg Reg.PLB_THETA (wrapNat 64 theta))
  let far := decide (1000 < theta.natAbs)
  let s := if far then loseAlignment 0 s else s
  if far && stepAllowed s then stepPlumb theta s else
  let f := clampInt (rmax * 65536) (sextInt 64 (s.reg Reg.PLB_FREQ) + theta * 8192)
  slew (clampInt rmax (Int.tdiv theta 2 + f / 65536)) (s.setReg Reg.PLB_FREQ (wrapNat 64 f))

/-- Whether the package follows UPPORT (R884). -/
def following (s : State) : Bool := s.isSet Reg.PLB_CTL_SYNC && !s.isSet Reg.PLB_CTL_ROOT

/-- Ports measured in an interval that begins now (R884, R892). -/
def measuredPorts (s : State) : List Port :=
  (List.finRange 24).filter (fun p => s.portState p = 8 && (s.isSet Reg.PLB_CTL_MEASALL || (following s && p.val = s.rd Reg.PLB_CTL_UPPORT)))

/-- The four exchanges of a port started (R884). -/
def askTimes (p : Port) (s : State) : State :=
  let s := s.onLink (.port p) (fun L => { L with training := { L.training with exchanges := 0 } })
  s.each (List.range 4) (fun s _ => sendTsreq (.port p) s)

/-- SYNC_INTERVAL (R884, R887, R892): SYNCINT has passed. The exchanges of the interval that ends are taken, the package acts on UPPORT's, and the
exchanges of the next interval start. An interval whose exchanges had not been started is no interval yet; without SYNC, intervals go on only in
holdover (R914; DEDUCED, log entry 80). -/
def execSyncInterval (s : State) : Host.Outcome State Fault Refusal := ended s <|
  let asked := s.observe.asked
  let got := fun (p : Port) => asked.contains p.val && s.portState p = 8 && decide (0 < (s.link (.port p)).training.exchanges)
  let up := portOf (s.rd Reg.PLB_CTL_UPPORT)
  let upUp := s.portState up = 8 && decide (s.rd Reg.PLB_CTL_UPPORT < 24)
  let T := (s.link (.port up)).training
  let s := s.each ((List.finRange 24).filter got) (fun s p =>
    let T := (s.link (.port p)).training
    if s.isSet Reg.PLB_CTL_MEASALL || (following s && p = up) then recordTheta p T.theta T.rtt s else s)
  let s :=
    if following s then
      if upUp && got up then measured T.theta s
      else if upUp && !asked.contains up.val then s
      else unmeasured s
    else if s.isSet Reg.PLB_STAT_HOLD && !s.isSet Reg.PLB_CTL_ROOT then unmeasured s
    else s
  let ports := measuredPorts s
  let s := { s with observe := { s.observe with asked := ports.map (fun (p : Port) => p.val) } }
  .next (s.each ports (fun s p => askTimes p s))

/-- HOLDOVER_LIMIT (R887): holdover has lasted longer than HOLDMAX. -/
def execHoldoverLimit (s : State) : Host.Outcome State Fault Refusal := ended s <|
  let longer := decide (s.observe.holdAt + s.rd Reg.PLB_CTL_HOLDMAX * 1000000000 < s.now)
  .next (if s.isSet Reg.PLB_STAT_HOLD && !s.isSet Reg.PLB_CTL_ROOT && longer then loseAlignment 1 s else s)

/-- What a write of PLB_CTL does to alignment (R887, R914): one that writes ROOT to 1 (`wrote`) sets ALIGNED; with neither ROOT nor SYNC set alignment is
lost, and a root that gave up goes into holdover. -/
def plumbRole (wasRoot wrote : Bool) (s : State) : State :=
  let root := s.isSet Reg.PLB_CTL_ROOT
  let s := if root && wrote then s.flag Reg.PLB_STAT_ALIGNED else s
  if root || s.isSet Reg.PLB_CTL_SYNC then s else
  let s := loseAlignment 2 s
  if wasRoot then unmeasured s else s

/-! ### Samples (R896 to R899) -/

/-- A sample record (R898). `number` is 0 and `pull` set for a pulled one. -/
def sampleBytes (s : State) (t : Tile) (time number mask missed : Nat) (pull : Bool) : Bytes :=
  let flags := bit (decide (0 < missed)) + 2 * bit pull + 4 * s.rd Reg.PLB_STAT_ALIGNED + 8 * bit (!s.isSet (Reg.OBS_TILE_CNTEN t))
  leBytes 8 time ++ leBytes 4 number ++ [BitVec.ofNat 8 t.val, BitVec.ofNat 8 flags] ++ leBytes 2 missed ++ leBytes 8 mask ++
    leBytes 4 (32 + 8 * popcount 64 mask) ++ leBytes 4 0 ++ (setBits 64 mask).flatMap (fun i => leBytes 8 (s.reg (Reg.OBS_CNT t i)))

/-- Whether a tile's latched snapshot still awaits its write (R899): its sample record has not been stored in the ring (DEDUCED, log entry 77). -/
def snapshotWaits (s : State) (b : Brick) (t : Tile) : Bool :=
  (s.brick b).obsBuf.any (fun r => !r.trace && r.tile = t.val) ||
  (match (s.brick b).ringStore with
   | some w => !w.trace && w.tile = t.val && !w.crossing
   | none => false)

/-- One tile latched at an instant, or an instant missed (R897, R899). -/
def sampleTile (b : Brick) (s : State) (k : Nat) : State :=
  let t := brickTile b k
  if snapshotWaits s b t then missInstants b 1 [k] s else
  let i := s.rd (Reg.OBS_SMP_INTV b) * 1000
  let n := s.plumb.toNat / i
  let bytes := sampleBytes s t (n * i) n (s.rd (Reg.OBS_SCM_CMASK b)) (tabGet 0 (s.brick b).missed k) false
  let s := obsPush b { trace := false, typ := 0, tile := t.val, data := bytes } s
  s.onBrick b (fun B => { B with missed := tabErase B.missed k })

/-- Whether the plumb counter is in the microsecond of a multiple of `us` µs. -/
def atMultiple (s : State) (us : Nat) : Bool := s.plumb.toNat / 1000 % us == 0

/-- SAMPLER_INSTANT (R897, R899): the plumb counter is at a multiple of INTV. -/
def execSamplerInstant (b : Brick) (s : State) : Host.Outcome State Fault Refusal := ended s <|
  if !s.isSet (Reg.OBS_SMP_EN b) || !atMultiple s (s.rd (Reg.OBS_SMP_INTV b)) then .next s else .next (s.each (sampledTiles s b) (sampleTile b))

/-! ### Rings (R900 to R903, R915) -/

def ringEn (trace : Bool) (b : Brick) : FieldRef := if trace then Reg.OBS_TRC_EN b else Reg.OBS_SMP_EN b
def ringBase (trace : Bool) (b : Brick) : Nat := if trace then Reg.OBS_TBASE b else Reg.OBS_SBASE b
def ringProd (trace : Bool) (b : Brick) : Nat := if trace then Reg.OBS_TPROD b else Reg.OBS_SPROD b
def ringCons (trace : Bool) (b : Brick) : Nat := if trace then Reg.OBS_TCONS b else Reg.OBS_SCONS b
def ringBond (trace : Bool) (b : Brick) : Nat := if trace then Reg.OBS_TBOND b else Reg.OBS_SBOND b
def ringLog (trace : Bool) (b : Brick) : FieldRef := if trace then Reg.OBS_TRC_LOG2SZ b else Reg.OBS_SRING_LOG2SZ b
def ringWm (trace : Bool) (b : Brick) : FieldRef := if trace then Reg.OBS_TRC_WM b else Reg.OBS_SRING_WM b

/-- Bytes of a ring, and the bytes it holds that the reader has not consumed (R900). -/
def ringBytes (s : State) (trace : Bool) (b : Brick) : Nat := 2 ^ s.rd (ringLog trace b)
def ringHeld (s : State) (trace : Bool) (b : Brick) : Nat := (s.reg (ringProd trace b) + 2 ^ 64 - s.reg (ringCons trace b)) % 2 ^ 64

/-- Whether a ring's base is one that R900 allows. -/
def ringBaseOk (s : State) (trace : Bool) (b : Brick) : Bool :=
  let a := s.reg (ringBase trace b)
  addrSeat a = 0xFFFF && (addrRegion a = 2 * b.val || addrRegion a = 2 * b.val + 1) && a % ringBytes s trace b = 0

/-- A ring enabled, or left disabled with CFG (R915). -/
def enableObs (b : Brick) (trace : Bool) (s : State) : State :=
  if ringBaseOk s trace b && decide (ringHeld s trace b ≤ ringBytes s trace b) then s.flag (ringEn trace b)
  else (s.wr (ringEn trace b) 0).flag (Reg.OBS_ERR_CFG b)

/-- RING_ENABLE (R915): a write of EN = 1 in OBS_TRC (`trace`) or OBS_SMP. -/
def execRingEnable (b : Brick) (trace : Bool) (s : State) : Host.Outcome State Fault Refusal := ended s <| .next (enableObs b trace s)

/-- A write of CONS (R900): a value below the current one or above PROD leaves it unchanged. -/
def writeCons (b : Brick) (trace : Bool) (v : Nat) (s : State) : State :=
  if s.reg (ringCons trace b) ≤ v && v ≤ s.reg (ringProd trace b) then s.setReg (ringCons trace b) v else s

/-- CONS_WRITE (R900). -/
def execConsWrite (b : Brick) (trace : Bool) (v : Word) (s : State) : Host.Outcome State Fault Refusal := ended s <| .next (writeCons b trace v.toNat s)

/-- A store, signal or record of a ring failed (R915): the ring is disabled, and what it has not stored is dropped. -/
def failRing (b : Brick) (trace : Bool) (status : Nat) (current : List ObsRec) (s : State) : State :=
  let s := ((s.wr (ringEn trace b) 0).flag (Reg.OBS_ERR_CFG b)).raise 0x7006 [b.val, bit trace, status]
  let lost := current ++ (s.brick b).obsBuf.filter (fun r => r.trace = trace)
  let s := s.onBrick b (fun B => { B with obsBuf := B.obsBuf.filter (fun r => r.trace ≠ trace), ringStore := none })
  s.each lost (fun s r => obsDrop b r s)

/-- The pad that fills the sample ring to its end (R898, R900); one of fewer than 32 B is cut short (DEDUCED, log entry 78). -/
def padBytes (n : Nat) : Bytes := (List.replicate 12 0 ++ [0xFF] ++ List.replicate 11 0 ++ leBytes 4 n ++ leBytes 4 0).take n

/-- The stores of a record begin, with those of its pad (R900); a record that finds too little space is dropped. -/
def beginRecord (b : Brick) (r : ObsRec) (s : State) : State :=
  let size := ringBytes s r.trace b
  let off := s.reg (ringProd r.trace b) % size
  let pad := if size < off + r.data.length then size - off else 0
  let base := s.reg (ringBase r.trace b)
  if size < ringHeld s r.trace b + pad + r.data.length then obsDrop b r s else
  let at' := if pad = 0 then base + off else base
  let pieces := (if pad = 0 then [] else storesOf 13 (base + off) (padBytes pad)) ++ storesOf 13 at' r.data
  s.onBrick b (fun B => { B with ringStore := some { trace := r.trace, size := pad + r.data.length, tile := r.tile, pieces := pieces } })

/-- Every store of a record has been performed (R901, R902): PROD moves past it, and a crossing of the watermark is signalled. -/
def finishRecord (b : Brick) (w : RingStore) (s : State) : State :=
  let old := s.reg (ringProd w.trace b)
  let s := s.setReg (ringProd w.trace b) ((old + w.size) % 2 ^ 64)
  let wm := s.rd (ringWm w.trace b)
  let bond := s.reg (ringBond w.trace b)
  if wm = 0 || bond = 0 || old / 2 ^ wm = (old + w.size) / 2 ^ wm then s.onBrick b (fun B => { B with ringStore := none })
  else
    let s := s.onBrick b (fun B => { B with ringStore := some { w with waiting := true, crossing := true } })
    issueOp b (.ring b.val) { addr := BitVec.ofNat 64 bond, opc := 0x31, aux := 0, lbl := 13, size := 8, payload := leBytes 8 1 } s

/-- What a record that a ring store carried counts as when it is lost. -/
def RingStore.lost (w : RingStore) : List ObsRec := if w.crossing then [] else [{ trace := w.trace, typ := 0, tile := w.tile, data := [] }]

/-- The outcome of the store or signal that a ring waits for taken. -/
def takeRingResult (b : Brick) (s : State) : State :=
  match s.results.find? (fun r => r.issuer = .ring b.val) with
  | none => s
  | some r =>
    let s := { s with results := s.results.filter (fun x => x ≠ r) }
    match (s.brick b).ringStore with
    | none => s
    | some w =>
      if r.kind = .inDoubt || !w.waiting then s
      else if r.kind ≠ .completed || r.status ≠ 0 then failRing b w.trace r.status w.lost s
      else if w.crossing then s.onBrick b (fun B => { B with ringStore := none })
      else s.onBrick b (fun B => { B with ringStore := some { w with waiting := false } })

/-- A record store in progress goes on. -/
def advanceRing (b : Brick) (s : State) : State :=
  let s := takeRingResult b s
  match (s.brick b).ringStore with
  | none => s
  | some w =>
    if w.waiting then s else
    match w.pieces with
    | op :: rest => issueOp b (.ring b.val) op (s.onBrick b (fun B => { B with ringStore := some { w with pieces := rest, waiting := true } }))
    | [] => finishRecord b w s

/-- The oldest record of a brick whose ring is enabled, taken from the buffer. -/
def takeRecord (s : State) (b : Brick) : List ObsRec → Option (ObsRec × List ObsRec)
  | [] => none
  | r :: rest =>
    if s.isSet (ringEn r.trace b) then some (r, rest)
    else (takeRecord s b rest).map (fun x => (x.1, r :: x.2))

/-- RING_RECORD_WRITE (R900, R901, R902, R915): the ring engine of a brick goes on: the store in progress, or else the next record whose ring is
enabled. -/
def execRingRecordWrite (b : Brick) (s : State) : Host.Outcome State Fault Refusal := ended s <|
  let s := advanceRing b s
  if (s.brick b).ringStore.isSome then .next s else
  match takeRecord s b (s.brick b).obsBuf with
  | none => .next s
  | some (r, rest) => .next (advanceRing b (beginRecord b r (s.onBrick b (fun B => { B with obsBuf := rest }))))

/-- LOSS_MARKER (R907, R911): space has returned, and the trace records dropped since the last marker are told. -/
def execLossMarker (b : Brick) (s : State) : Host.Outcome State Fault Refusal := ended s <|
  .next (if s.isSet (Reg.OBS_TRC_EN b) then pushMarker b s else s)

/-- DROP_EVENT_REPORT (R911, R916): event 0x7001 with brick, ring (0 sample, 1 trace) and count, at most once per second per ring. -/
def execDropEventReport (b : Brick) (trace : Bool) (s : State) : Host.Outcome State Fault Refusal := ended s <|
  let B := s.brick b
  let n := if trace then B.obsLost.traceRep else B.obsLost.sampleRep
  let last := if trace then B.dropRepAt.2 else B.dropRepAt.1
  if n = 0 || (last ≠ 0 && decide (s.now < last + 1000000000)) then .next s else
  let s := s.onBrick b (fun B => { B with
    obsLost := if trace then { B.obsLost with traceRep := 0 } else { B.obsLost with sampleRep := 0 },
    dropRepAt := if trace then (B.dropRepAt.1, s.now) else (s.now, B.dropRepAt.2) })
  .next (s.raise 0x7001 [b.val, bit trace, n])

/-! ### Pulls (R904, R905) -/

/-- The tiles that a pull latches (R904). -/
def pulledTiles (s : State) : List Tile :=
  ((List.finRange 128).filter (fun t =>
    bitOf (if t.val < 64 then s.reg Reg.OBS_PT0 else s.reg Reg.OBS_PT1) (t.val % 64) && (siteState s t = 3 || siteState s t = 1) && !tileFenced s t))

/-- A pull fails (R905). -/
def failPull (status : Nat) (s : State) : State :=
  let s := { s with observe := { s.observe with pull := none } }
  (((s.wr Reg.OBS_PST_BUSY 0).flag Reg.OBS_PST_ERR).wr Reg.OBS_PST_STATUS status).raise 0x7007 [status]

/-- A pull starts (R904). An address that R904 does not allow ends it at once with ERR and status 0x01 (DESIGN CHOICE, log entry 81). -/
def startPull (s : State) : State :=
  if s.isSet Reg.OBS_PST_BUSY then s else
  let s := (s.wr Reg.OBS_PST_STATUS 0).wr Reg.OBS_PST_COUNT 0
  let a := s.reg Reg.OBS_PADDR
  if addrSeat a ≠ 0xFFFF || !(addrRegion a ≤ 8 || addrRegion a = 0xB) then failPull 0x01 s else
  let ts := pulledTiles s
  let recs := ts.map (fun t => sampleBytes s t s.plumb.toNat 0 (s.reg Reg.OBS_PCM) 0 true)
  { s with observe := { s.observe with pull := some { left := recs, addr := a, tiles := ts.map (fun (t : Tile) => t.val) } } }.wr Reg.OBS_PST_BUSY 1

/-- PULL (R904): a write of GO. -/
def execPull (s : State) : Host.Outcome State Fault Refusal := ended s <| .next (startPull s)

/-- The outcome of the store that a pull waits for taken. -/
def takePullResult (s : State) : State :=
  match s.results.find? (fun r => r.issuer = .pull) with
  | none => s
  | some r =>
    let s := { s with results := s.results.filter (fun x => x ≠ r) }
    match s.observe.pull with
    | none => s
    | some p =>
      if r.kind = .inDoubt || !p.waiting then s
      else if r.kind ≠ .completed || r.status ≠ 0 then failPull r.status s
      else
        let s := { s with observe := { s.observe with pull := some { p with waiting := false } } }
        if p.pieces.isEmpty then s.count Reg.OBS_PST_COUNT 1 else s

/-- A pull goes on: its next store. Its requests leave from brick 0 (DEDUCED, log entry 82). -/
def advancePull (s : State) : State :=
  let s := takePullResult s
  match s.observe.pull with
  | none => s
  | some p =>
    if p.waiting then s else
    match p.pieces, p.left with
    | op :: rest, _ => issueOp 0 .pull op { s with observe := { s.observe with pull := some { p with pieces := rest, waiting := true } } }
    | [], r :: rest =>
      (match storesOf 13 p.addr r with
       | op :: more => issueOp 0 .pull op { s with observe := { s.observe with
           pull := some { p with pieces := more, left := rest, addr := p.addr + r.length, waiting := true } } }
       | [] => s)
    | [], [] => s

/-- PULL_DONE (R905): every store of the pull has been performed. -/
def execPullDone (s : State) : Host.Outcome State Fault Refusal := ended s <|
  let s := advancePull s
  match s.observe.pull with
  | some p =>
    if p.left.isEmpty && p.pieces.isEmpty && !p.waiting then
      .next (({ s with observe := { s.observe with pull := none } }.wr Reg.OBS_PST_BUSY 0).flag Reg.OBS_PST_DONE)
    else .next s
  | none => .next s

/-! ### PC samples and the tile's counters (R895, R908) -/

/-- Number of a mason's state (R523). -/
def MasonRun.code : MasonRun → Nat
  | .idle => 0
  | .running => 1
  | .sleeping => 2
  | .suspended => 3
  | .halted => 4
  | .faulted => 5

/-- The stall reason that a PC sample carries (R908). -/
def stallReason (m : Mason) : Nat :=
  match m.run with
  | .running => m.stall
  | .sleeping => 0x3
  | .suspended => 0xC
  | _ => 0xD

/-- Wait slots that are Open or Done (R535). -/
def slotMask (s : State) (t : Tile) : Nat :=
  (List.range 16).foldl (fun m k => if (s.slot t k).st = .free then m else m + 2 ^ k) 0

/-- Commands that wait in a unit's queue: the one at work has left it (R577, R623, R719; DEDUCED, log entry 83). -/
def pressOcc (s : State) (t : Tile) : Nat := (s.tile t).press.queue.length
def glazeOcc (s : State) (t : Tile) : Nat := (s.tile t).glaze.queue.length
def sieveOcc (s : State) (t : Tile) : Nat := (s.tile t).sieve.queue.length

/-- PC_SAMPLE (R907, R908): a moment of sampling of a tile whose PCEN is set: a multiple of PCINT, or, with PCJIT, a later one. `switching` says that the clock switches or the shadow joins in that
cycle. -/
def execPcSample (t : Tile) (switching : Bool) (s : State) : Host.Outcome State Fault Refusal := ended s <|
  if !s.isSet (Reg.OBS_TILE_PCEN t) || siteState s t ≠ 3 || tileFenced s t ||
    !(s.isSet (Reg.OBS_TILE_PCJIT t) || atMultiple s (s.rd (Reg.OBS_TILE_PCINT t))) then .next s else
  let m := s.mason t
  let done := s.reg (Reg.OBS_CNT t 48)
  let since := satNat 32 ((done + 2 ^ 64 - m.sampled % 2 ^ 64) % 2 ^ 64)
  let why := if switching then 0xB else stallReason m
  let state := m.run.code + 16 * bit m.trap + 32 * (if m.trap then 7 else m.cwin)
  let body := [BitVec.ofNat 8 why, BitVec.ofNat 8 state] ++ leBytes 4 m.pc ++ leBytes 4 since ++ [BitVec.ofNat 8 m.lbl, BitVec.ofNat 8 m.res] ++
    leBytes 2 m.sumpend ++ leBytes 2 (slotMask s t) ++ [BitVec.ofNat 8 (pressOcc s t), BitVec.ofNat 8 (glazeOcc s t), BitVec.ofNat 8 (sieveOcc s t)]
  .next (traceRec (tileBrick t) 1 (srcTile t.val) t.val body (s.onMason t (fun m => { m with sampled := done })))

/-- Every counter of a tile cleared (R895); the instructions since the last PC sample stay known. -/
def clearCounters (t : Tile) (s : State) : State :=
  let done := s.reg (Reg.OBS_CNT t 48)
  let s := s.onMason t (fun m => { m with sampled := (m.sampled + 2 ^ 64 - done) % 2 ^ 64 })
  s.each (List.range 64) (fun s i => s.setReg (Reg.OBS_CNT t i) 0)

/-- COUNTER_CLEAR (R895): a write of CLR. -/
def execCounterClear (t : Tile) (s : State) : Host.Outcome State Fault Refusal := ended s <| .next (clearCounters t s)

end Sys2Proof.Machine
end

