-- ==== Sys2Proof/Machine/Manifest.lean ====
section
/-! DEFINITION. The retention manifest and the reattach handshake (R759 to R764, R830). -/
namespace Sys2Proof.Machine
open Sys2Proof

/-- The next item of an operation (R751, R760): its unit's, where a unit works for it. -/
def opNext (s : State) (o : HostOp) : Nat :=
  if unitWorks s o then (if o.opc = 0x22 then s.rd (Reg.PGC_SSTAT_NEXT o.stack) else s.rd (Reg.SLB_JSTAT_NEXT o.brick)) else o.next

/-- An operation's entry of the manifest (R760). The places of its fields within the 64 B are a DESIGN CHOICE (log entry 84). -/
def manifestOp (s : State) (r : HostRec) : Bytes :=
  let (st, status, result) := commandNow s r
  let o := s.hostOp (leNat (r.entry.take 8))
  let flags := match o with
    | some o => bit o.hostSusp + 2 * bit (!o.devSusp.isEmpty)
    | none => 0
  let next := match o with
    | some o => opNext s o
    | none => 0
  padTo 64 (r.entry.take 8 ++ [BitVec.ofNat 8 (entryOpc r.entry), BitVec.ofNat 8 r.ring, BitVec.ofNat 8 st, BitVec.ofNat 8 status,
    BitVec.ofNat 8 flags, 0, 0, 0] ++ leBytes 8 next ++ padTo 16 result)

/-- A preserved range's entry (R760, R761). -/
def manifestRange (r : PresRange) : Bytes := padTo 32 (leBytes 8 r.base ++ leBytes 8 r.length ++ leBytes 8 r.tag ++ leBytes 8 (bit r.intact))

/-- A yard's entry (R760). -/
def manifestYard (s : State) (b : Brick) : Bytes :=
  padTo 64 ([BitVec.ofNat 8 b.val, BitVec.ofNat 8 (s.rd (Reg.SLB_STATE_READY b))] ++ leBytes 2 (s.rd (Reg.SLB_STAT_EPOCH b)) ++
    leBytes 4 (s.rd (Reg.PFX_CTL_LGM1 b)) ++
    ([Reg.SLB_TBASE b, Reg.SLB_DBASE0 b, Reg.SLB_DBASE1 b, Reg.SLB_DCNT b, Reg.PFX_NBASE b, Reg.PFX_BBASE b, Reg.PFX_NCNT b].flatMap (fun r => leBytes 8 (s.reg r))))

/-- The manifest without its signature (R760). Yards are listed where their brick's uncore is ON. -/
def manifestBody (s : State) (frozen : Bool) : Bytes :=
  let h := s.host
  let ops := (h.listed.filterMap (fun id => s.recordOf id)).take 256
  let yards : List Brick := [0, 1, 2, 3].filter (fun (b : Brick) => s.isSet (Reg.SLB_CTL_EN b))
  let lost := h.lostSectors.take 16384
  let len := 256 + 64 * ops.length + 32 * h.ranges.length + 64 * yards.length + 8 * lost.length + 96
  let head := leBytes 4 0x4D445954 ++ leBytes 4 1 ++ leBytes 8 len ++ leBytes 8 h.seq ++ leBytes 8 h.detectedAt ++ leBytes 8 s.plumb.toNat ++
    [BitVec.ofNat 8 h.reason, BitVec.ofNat 8 (h.policy + 2 * bit frozen + 4 * bit (decide (16384 < h.lostSectors.length))), 0, 0] ++
    leBytes 4 (s.reg Reg.SEAT_OWN) ++ padTo 32 h.nonce ++ leBytes 8 (s.reg Reg.HST_RECBASE) ++ leBytes 2 ops.length ++
    [BitVec.ofNat 8 h.ranges.length, BitVec.ofNat 8 yards.length] ++ leBytes 2 lost.length ++ [0, 0] ++
    (List.finRange 128).map (fun t => BitVec.ofNat 8 (s.mason t).run.code)
  padTo 256 head ++ ops.flatMap (manifestOp s) ++ h.ranges.flatMap manifestRange ++ yards.flatMap (manifestYard s) ++ lost.flatMap (leBytes 8)

/-- A writing of the manifest (R759, R760): SEQ steps, AVAIL is set, event 0x4006. -/
def writeManifest (frozen : Bool) (s : State) : State :=
  let s := { s with host := { s.host with seq := s.host.seq + 1 } }
  let body := manifestBody s frozen
  let s := { s with host := { s.host with manifest := body ++ padTo 96 (Config.deviceSign (sha384 body)) } }
  ((s.wr Reg.HST_MANSTAT_SEQ s.host.seq).wr Reg.HST_MANSTAT_AVAIL 1).raise 0x4006 [s.host.seq]

/-- MANIFEST_WRITE (R759): the first writing after host loss, and one after each later state change of a listed operation, until FREEZE. -/
def execManifestWrite (s : State) : Host.Outcome State Fault Refusal := ended s <|
  .next (if s.isSet Reg.HST_STAT_HOSTLOST && !s.isSet Reg.HST_MANSTAT_FROZEN then writeManifest false s else s)

/-- FREEZE (R762, R830): the final manifest, with the nonce; ignored while no manifest is held. -/
def freezeManifest (s : State) : State :=
  if !s.isSet Reg.HST_MANSTAT_AVAIL then s else
  let nonce := (List.range 4).flatMap (fun i => leBytes 8 (s.reg (Reg.HST_NONCE i)))
  let s := { s with host := { s.host with nonce := nonce } }
  ((writeManifest true s).flag Reg.HST_MANSTAT_FROZEN).flag Reg.HST_MANSTAT_READY

/-- Whether a SEQ written with ATTACH or DISCARD matches (R762, R830). -/
def seqMatches (seq : Nat) (s : State) : Bool := seq = s.host.seq % 2 ^ 32

/-- ATTACH (R754, R762, R830): fetch starts, and queued operations may start. -/
def attachHost (seq : Nat) (s : State) : State :=
  if !seqMatches seq s then s.flag Reg.HST_ERR_RINGERR else
  ((s.wr Reg.HST_STAT_ATTACHED 1).wr Reg.HST_STAT_HOSTLOST 0).raise 0x4007 [s.host.seq]

/-- DISCARD (R762): as ATTACH, after every listed operation that is not final has been cancelled, to end with STATUS 0x09. -/
def discardListed (seq : Nat) (s : State) : State :=
  if !seqMatches seq s then s.flag Reg.HST_ERR_RINGERR else
  let ids := ((openLongOps s).map (fun o => o.id)).filter (fun i => s.host.listed.contains i)
  let s := s.each ids (fun s i => cancelOp i (s.onHostOp i (fun o => { o with discarded := true })))
  attachHost seq (s.raise 0x400A [ids.length])

/-- FREEZE. -/
def execFreeze (s : State) : Host.Outcome State Fault Refusal := ended s <| .next (freezeManifest s)

/-- ATTACH. -/
def execAttach (seq : BitVec 32) (s : State) : Host.Outcome State Fault Refusal := ended s <| .next (attachHost seq.toNat s)

/-- DISCARD. -/
def execDiscard (seq : BitVec 32) (s : State) : Host.Outcome State Fault Refusal := ended s <| .next (discardListed seq.toNat s)

end Sys2Proof.Machine
end

