-- ==== Sys2Proof/Machine/Seats.lean ====
section
/-! DEFINITION. The seat table: casts, direct writes, and the quarantine after a reset (R173 to R179, R183, R215, R939). -/
namespace Sys2Proof.Machine
open Sys2Proof

/-- The package that an entry names as its seat's holder; none while it is Vacant. -/
def entryHolder (e : Nat) : Option Nat := if entryState e = 0 then none else some (entryPid e)

/-- What a remap of seat `x` does to bonds and waits (R59, R265, R266): the waits of own tiles on its bonds end with status 0x3, its waits leave the bond
engines without a wake, and each bond that it armed is poisoned with cause 0x04. -/
def remapSeat (x : Nat) (s : State) : State :=
  let lost := fun (w : Slot) => w.st = .opened && w.registered && s.realSeat w.bond.toNat = x
  let slots := (List.finRange 128).flatMap (fun (t : Tile) =>
    if (s.tile t).slots.any lost then ((List.range 16).filter (fun k => lost (s.slot t k))).map (fun k => (t, k)) else [])
  let s := s.each slots (fun s e => loseWait e.1 e.2 s)
  s.each ([0, 1, 2, 3] : List Brick) (fun s b =>
    let s := s.each ((s.brick b).bonds.filter (fun e => e.2.waits.any (fun w => w.seat = x))) (fun s e =>
      s.onBond b e.1 (fun B => { B with waits := B.waits.filter (fun w => w.seat ≠ x) }))
    s.each ((s.brick b).bonds.filter (fun e => !e.2.poison && e.2.armed.any (fun a => a.seat = x))) (fun s e => poisonBond b e.1 4 none s))

/-- A seat-table entry written as it stands (R215), its reserved bits zero. An entry with STATE 0x3 leaves the table unchanged (R176). A write after which
another package, or none, holds a seat that had a holder remaps the seat (R49, R265; DEDUCED, log entry 211). -/
def writeSeat (seat entry : Nat) (s : State) : State :=
  if entryState entry = 3 || 0xFFFF ≤ seat then s else
  let was := entryHolder (s.seatEntry seat)
  let s := if was.isSome && was ≠ entryHolder entry then remapSeat seat s else s
  let before := s.seatsNamed
  let s := s.wr (Reg.SEAT_TBL_ENTRY seat) (entry / 64 * 64)
  if s.seatsNamed = before then s else s.seatConflict

/-- SEAT_TBL_WRITE (R176, R215): a direct write of an entry. -/
def execSeatTblWrite (seat : BitVec 16) (entry : BitVec 32) (s : State) : Host.Outcome State Fault Refusal := ended s <| .next (writeSeat seat.toNat entry.toNat s)

/-- The payload of a CAST (R177). -/
def castBytes (seat entry : Nat) : Bytes := leBytes 4 seat ++ leBytes 4 entry

/-- An entry applied under the generation rule (R177): counted, with event 0x1107. None where the cast is not newer. -/
def applyCast (seat entry : Nat) (s : State) : Option State :=
  let d := (entryGen entry + 256 - entryGen (s.seatEntry seat)) % 256
  if 1 ≤ d && d ≤ 127 then some (((writeSeat seat entry s).count Reg.SEAT_CSTAT_CASTS 1).raise 0x1107 [seat, entry]) else none

/-- The CAST of an entry (R177): without destination seat, flow or sequence number. Its SSEAT and SGEN are own seat and its GEN, or 0 while the package holds
none, so that 0xFFFF crosses no mortar link (R37); no rule gives the two fields of a CAST, and nothing reads them (DESIGN CHOICE, log entry 190). -/
def castPacket (s : State) (seat entry : Nat) : Packet :=
  { Packet.zero with
    size := 8, lbl := 14, ptype := BitVec.ofNat 4 ptCast, sseat := BitVec.ofNat 16 (s.ownSeat.getD 0), sgen := BitVec.ofNat 8 s.ownGen,
    payload := castBytes seat entry }

/-- A write of SEAT_CAST (R176, R177, R939): only a single 64-bit access casts. -/
def castEntry (v : Nat) (wide : Bool) (s : State) : State :=
  let seat := bitsOf v 47 32
  let entry := bitsOf v 31 0
  if !wide || entryState entry = 3 || seat = 0xFFFF then s else
  match applyCast seat entry s with
  | none => s
  | some s => flood (s.form (castPacket s seat entry)) none s

/-- SEAT_CAST (R177, R939). -/
def execSeatCast (v : Word) (wide : Bool) (s : State) : Host.Outcome State Fault Refusal := ended s <| .next (castEntry v.toNat wide s)

/-- CAST_RECEIVE (R163, R176, R177, R184): a cast that has come by a port, which its VIA names, is applied and forwarded on every other Active port, or discarded. -/
def execCastReceive (b : Brick) (p : Packet) (s : State) : Host.Outcome State Fault Refusal := ended s <|
  if !((s.brick b).arrived.contains p) || p.ptype.toNat ≠ ptCast then .next s else
  let s := s.takeArrived b p
  if !packetSound p || p.size ≠ 8 then .next (s.ecrcFail b p) else
  if s.tooOld b p then .next (s.agedOut b) else
  let seat := leNat (p.payload.take 2)
  let entry := leNat ((p.payload.drop 4).take 4)
  if entryState entry = 3 || seat = 0xFFFF then .next (s.raise 0x1109 [b.val]) else
  match applyCast seat entry s with
  | none => .next s
  | some s => .next (flood { p with via := 0 } (some p.via.toNat) s)

/-- INCARNATION_QUARANTINE_END (R183): PLIFE has passed since the reset, and the package performs requests and answers probes again. -/
def execIncarnationQuarantineEnd (s : State) : Host.Outcome State Fault Refusal := ended s <|
  .next (s.each ([0, 1, 2, 3] : List Brick) (fun s b => s.onBrick b (fun B => { B with quarantine := false })))

end Sys2Proof.Machine
end

