-- ==== Sys2Proof/Machine/Register.lean ====
section
/-! DEFINITION. Reads and writes of registers: what a read shows beside the stored value, what a write starts, and which writes are ignored
(R15, R16, R19 to R23, R42, R43, R139 to R153, R203, R204, R215, R296, R356, R723, R868, R869, R933). -/
namespace Sys2Proof.Machine
open Sys2Proof

/-! ### What answers at an offset -/

/-- Whether a stack register lies at an offset of a brick's block (R296, R355, R356, R359, R412), and of which local stack. -/
def stackRegAt (blk o : Nat) : Option Nat :=
  if blk = 2 then (if o < 0x20000 && o % 0x10000 ≠ 0x08 then some (o / 0x10000) else none)
  else if blk = 3 then (if 0x1000 ≤ o && o < 0x3000 then some (o / 0x1000 - 1) else none)
  else if blk = 4 || blk = 5 then (if o < 0x2000 then some (o / 0x1000) else none)
  else none

/-- Whether the register block of an offset answers now (R47, R292, R296, R356). The registers of a brick whose uncore is not ON do not answer
(DEDUCED, log entry 85). -/
def regAnswers (s : State) (off : Nat) : Bool :=
  let (sc, o) := regScope off
  !(scopeRegs sc).isEmpty && (match sc with
    | .pkg _ => true
    | .brick b blk => uncoreOn s (brickOf b) && (match stackRegAt blk o with
      | some j => stackOn s (stackOf (2 * b + j))
      | none => true)
    | .tile t _ => tileServes s (tileOf t)
    | .reserved => false)

/-! ### What a read shows -/

/-- A value with a field replaced. -/
def put (f : FieldRef) (x v : Nat) : Nat := withBits v f.hi f.lo x

/-- What the registers of package scope show beside the values stored. -/
def pkgView (s : State) (o : Nat) (v : Nat) : Nat :=
  if o = Reg.HST_STAT then put Reg.HST_STAT_OPS (openLongOps s).length v
  else if o = Reg.PLB_NOW then s.plumb.toNat
  else v

/-- What the registers of brick scope show. -/
def brickView (s : State) (b : Brick) (o : Nat) (v : Nat) : Nat :=
  let B := s.brick b
  if o = Reg.MRT_TOPEN b then put (Reg.MRT_TOPEN_DSTFLOWS b) B.dstFlows.length (put (Reg.MRT_TOPEN_SRCFLOWS b) B.srcFlows.length v)
  else if o = Reg.BND_STAT b then put (Reg.BND_STAT_ACTR b) B.acquire (put (Reg.BND_STAT_WAITERS b) (waitCount B) v)
  else if o = Reg.FOLD_STAT b then
    put (Reg.FOLD_STAT_OCC1 b) (s.stack (stackOf (2 * b.val + 1))).fold.length (put (Reg.FOLD_STAT_OCC0 b) (s.stack (stackOf (2 * b.val))).fold.length v)
  else if o = Reg.PFX_KSEL b then put (Reg.PFX_KSEL_KVALID b) (bit (nsKey s b (s.rd (Reg.PFX_KSEL_NS b))).isSome) v
  else v

/-- MSN_STAT (R535). -/
def masonStat (s : State) (t : Tile) : Nat :=
  let m := s.mason t
  slotMask s t * 2 ^ 48 + m.sumpend * 2 ^ 32 + m.lbl * 2 ^ 24 + bit m.trap * 2 ^ 23 + (if m.trap then 7 else m.cwin) * 2 ^ 20 + m.res * 2 ^ 16 +
    s.rd (Reg.MSN_OPERR_PEND t) * 32 + bit m.sreq * 16 + m.run.code

/-- SLOTK of GLZ_STAT (R623): two bits for each slot, 0 empty, 1 softmax, 2 norm. -/
def slotKinds (s : State) (t : Tile) : Nat :=
  (List.range 16).foldl (fun v k => v + (match tabFind (s.tile t).glaze.slots k with
    | some (.softmax ..) => 1
    | some (.norm ..) => 2
    | _ => 0) * 4 ^ k) 0

/-- What the registers of tile scope show. -/
def tileView (s : State) (t : Tile) (o : Nat) (v : Nat) : Nat :=
  let m := s.mason t
  if o = Reg.MSN_STAT t then masonStat s t
  else if o = Reg.MSN_SPILL t then m.nspill * 2 ^ 48 + m.ssp / 128 * 128
  else if o = Reg.MSN_TRAP t then m.xcause * 2 ^ 32 + m.xpc
  else if o = Reg.MSN_XVAL t then m.xval.toNat
  else if o = Reg.PRS_STAT t then put (Reg.PRS_STAT_BUSY t) (bit (s.tile t).press.run.isSome) (put (Reg.PRS_STAT_QOCC t) (pressOcc s t) v)
  else if o = Reg.GLZ_STAT t then
    put (Reg.GLZ_STAT_SLOTK t) (slotKinds s t) (put (Reg.GLZ_STAT_BUSY t) (bit (s.tile t).glaze.run.isSome) (put (Reg.GLZ_STAT_QOCC t) (glazeOcc s t) v))
  else if o = Reg.SVE_STAT t then put (Reg.SVE_STAT_QOCC t) (sieveOcc s t) v
  else v

/-- The value that the register starting at an offset shows now, WO fields as zero (R15, R19). -/
def regNow (s : State) (r : RegSpec) (st : Nat) : Nat :=
  let v := s.reg st
  r.readable (match (regScope st).1 with
    | .pkg _ => pkgView s st v
    | .brick b _ => brickView s (brickOf b) st v
    | .tile t _ => tileView s (tileOf t) st v
    | .reserved => v)

/-- 32 bits of the RAM log ring at an offset of the HOD_ block (R780). -/
def logWord (s : State) (o : Nat) : Nat := leNat (((tabGet [] s.hod.ram (o / 64)).drop (o % 64)).take 4)

/-- A read of 32 bits at an offset (R16, R19, R933): the RC bits it returns are cleared. -/
def readWord (off : Nat) (s : State) : Nat × State :=
  match regAt off with
  | none => (if Reg.HOD_STAT + 0x80000 ≤ off && off < Reg.HOD_STAT + 0x100000 then logWord s (off - Reg.HOD_STAT - 0x80000) else 0, s)
  | some (r, st) =>
    let half := if off = st then 0 else 1
    let v := regNow s r st
    (v / 2 ^ (32 * half) % 2 ^ 32, s.setReg st (r.afterRead (s.reg st) (0xFFFFFFFF * 2 ^ (32 * half))))

/-- A read of 4 or 8 bytes at an aligned offset (R23). -/
def readReg (off n : Nat) (s : State) : Nat × State :=
  if n = 4 then readWord off s else
  match regAt off with
  | some (r, st) =>
    if r.width = 64 then (regNow s r st, s.setReg st (r.afterRead (s.reg st) (2 ^ 64 - 1)))
    else
      let (a, s) := readWord off s
      let (b, s) := readWord (off + 4) s
      (a + b * 2 ^ 32, s)
  | none =>
    let (a, s) := readWord off s
    let (b, s) := readWord (off + 4) s
    (a + b * 2 ^ 32, s)

/-! ### Which bits a write may not change now -/

/-- Every bit of a register. -/
def allBits : Nat := 2 ^ 64 - 1

/-- Bits of a field. -/
def fieldBits (f : FieldRef) : Nat := 2 ^ (f.hi + 1) - 2 ^ f.lo

/-- Bits of a package-scope register that keep their value whatever is written, or that their own operation writes. -/
def pkgFixed (s : State) (src : RegSource) (blk o off : Nat) : Nat :=
  if blk = 1 then (if off = Reg.HST_RECBASE && (List.range 32).any (fun r => s.isSet (Reg.HST_CBASE_EN r)) then allBits else 0)
  else if blk = 2 then (if off = Reg.HOD_LOGRD then allBits else 0)
  else if blk = 3 then
    (if ([0, 1, 2, 3] : List Brick).any (fun b => off = Reg.PWR_DVFS b) then fieldBits (Reg.PWR_DVFS_FREQ 0)
     else if (List.range 144).any (fun d => off = Reg.PWR_DOM d) then fieldBits (Reg.PWR_DOM_REQ 0) else 0)
  else if blk = 4 then
    (if src = .request && s.isSet Reg.SAF_CTL_KLOCK then (if off = Reg.SAF_CTL then fieldBits Reg.SAF_CTL_KEYEN else if Reg.SAF_KEY 0 0 ≤ off then allBits else 0) else 0)
  else if blk = 5 && o < 0x4000 then
    (let b := brickOf (o / 0x1000)
     if off = Reg.OBS_SCONS b || off = Reg.OBS_TCONS b then allBits
     else if off = Reg.OBS_SBASE b then (if s.isSet (Reg.OBS_SMP_EN b) then allBits else 0)
     else if off = Reg.OBS_SRING b then (if s.isSet (Reg.OBS_SMP_EN b) then allBits else 0)
     else if off = Reg.OBS_TBASE b then (if s.isSet (Reg.OBS_TRC_EN b) then allBits else 0)
     else if off = Reg.OBS_TRC b then (if s.isSet (Reg.OBS_TRC_EN b) then fieldBits (Reg.OBS_TRC_LOG2SZ b) else 0)
     else 0)
  else 0

/-- Bits of a brick-scope register that keep their value, or that their own operation writes. `new`: what the register would hold. A strict range lies
below D (R406). -/
def brickFixed (s : State) (b : Brick) (blk o off new : Nat) : Nat :=
  if blk = 0 then (if o < 0x10000 && o % 0x1000 = 0 then 1 else 0)
  else if blk = 4 then
    (let d := winTop s (stackOf (2 * b.val + o / 0x1000))
     if o < 0x2000 && 0x40 ≤ o % 0x1000 && o % 0x1000 < 0x80 then
       (if d ≤ bitsOf new 23 0 then 2 ^ 24 - 1 else 0) + (if d ≤ bitsOf new 47 24 then 2 ^ 48 - 2 ^ 24 else 0)
     else 0)
  else if blk = 7 then
    (if off = Reg.SLB_CTL b then fieldBits (Reg.SLB_CTL_EN b)
     else if 0x008 ≤ o && o ≤ 0x020 && s.isSet (Reg.SLB_CTL_EN b) then allBits else 0)
  else if blk = 8 then
    (if off = Reg.PFX_CTL b then
      fieldBits (Reg.PFX_CTL_EN b) + (if s.isSet (Reg.PFX_CTL_EN b) then fieldBits (Reg.PFX_CTL_BBITS b) + fieldBits (Reg.PFX_CTL_LGM1 b) else 0)
     else if 0x008 ≤ o && o ≤ 0x018 && s.isSet (Reg.PFX_CTL_EN b) then allBits else 0)
  else if blk = 9 then (if off = Reg.SAF_BCTL b then fieldBits (Reg.SAF_BCTL_PAUSE b) else 0)
  else 0

/-- Bits of a tile-scope register that keep their value while the mason works (R535). -/
def tileFixed (s : State) (t : Tile) (off : Nat) : Nat :=
  if (s.mason t).run = .running || (s.mason t).run = .sleeping then
    (if off = Reg.MSN_CTL t then fieldBits (Reg.MSN_CTL_LBLINIT t)
     else if off = Reg.MSN_ENTRY t || off = Reg.MSN_VBASE t || off = Reg.MSN_SSPLO t || off = Reg.MSN_SSPHI t then allBits else 0)
  else 0

/-! ### What a write starts -/

/-- A change made where a written bit is 1. -/
def onBit (v n : Nat) (f : State → State) (s : State) : State := if bitOf v n then f s else s

/-- The end of a link is enabled, disabled, retrained or freed from Held by a write of MRT_PCTL (R146, R153). `v` holds the bits written as 1 and
`m` the bits written. -/
def writePctl (l : LinkId) (v m : Nat) (s : State) : State :=
  let en := match l with
    | .port p => s.isSet (Reg.MRT_PCTL_EN p)
    | .bridge b q => s.isSet (Reg.MRT_BCTL_EN b q)
  let s := if bitOf m 0 then (if bitOf v 0 then (if en then s else after (execPortEnable l) s) else if en then after (execPortDisable l) s else s) else s
  let s := onBit v 1 (after (execRetrain l)) s
  match l with
  | .port p => onBit v 2 (after (execHoldclr p)) s
  | .bridge _ _ => s

/-- A write of HST_MANCMD (R762): a reserved OP is refused with RINGERR (R17; DESIGN CHOICE, log entry 219). -/
def writeMancmd (v : Nat) (s : State) : State :=
  match bitsOf v 3 0 with
  | 1 => freezeManifest s
  | 2 => attachHost (bitsOf v 63 32) s
  | 3 => discardListed (bitsOf v 63 32) s
  | _ => s.flag Reg.HST_ERR_RINGERR

/-- A write of HOD_CMD (R812): a reserved OP is refused with Hod status 0x03 (R17; DESIGN CHOICE, log entry 219). -/
def writeHodCmd (v : Nat) (s : State) : State :=
  match bitsOf v 7 0 with
  | 1 => hodSeal s
  | 2 => hodBsload s
  | 3 => hodActivate s
  | 4 => hodRestart s
  | 5 => hodClrswap s
  | _ => hodCommand (hodRefuse 0x03) s

/-- What a write of a package-scope register does beside its fields. `old` is the value before, `v` the bits written as 1, `m` the bits written. -/
def pkgStart (src : RegSource) (blk o off old v m : Nat) (s : State) : State :=
  if blk = 1 then
    if off = Reg.HST_MANCMD then writeMancmd v s
    else if off = Reg.HST_EVCFG then
      (if s.isSet Reg.HST_EVCFG_EN && !bitOf old 8 then { s with host := { s.host with evPos := 0 } } else s)
    else if 0x1000 ≤ o && o < 0x1400 && o % 32 = 0 then
      (let r := (o - 0x1000) / 32
       if s.isSet (Reg.HST_CBASE_EN r) && !bitOf old 63 then enableRing r s else s)
    else s
  else if blk = 2 then
    if off = Reg.HOD_CMD then writeHodCmd v s
    else if off = Reg.HOD_LOGRD then (if bitsOf m 31 0 = 0 then s else after (execLogFetch (BitVec.ofNat 32 v)) s)
    else if off = Reg.HOD_PCAP && src = .tray && bitsOf m 31 16 ≠ 0 then
      (let cap := bitsOf v 31 16
       if 500 ≤ cap && cap ≤ 2500 then s.wr Reg.HOD_PCAP_TRAYCAP cap else s)
    else s
  else if blk = 3 then
    let s := s.each ([0, 1, 2, 3] : List Brick) (fun s b =>
      if off = Reg.PWR_DVFS b && bitsOf m 6 0 ≠ 0 then writeFreq b (bitsOf v 6 0) s
      else if off = Reg.PWR_SITEMAP b then writeRetire b s
      else s)
    (match (List.range 144).find? (fun d => off = Reg.PWR_DOM d) with
     | some d => if bitsOf m 1 0 = 0 then s else requestDomain d (bitsOf v 1 0) s
     | none => s)
  else if blk = 5 then
    if off = Reg.OBS_PGO then onBit v 0 startPull s
    else if 0x4000 ≤ o then s
    else
      let b := brickOf (o / 0x1000)
      let merged := fun (reg : Nat) => Nat.lor (Nat.land (s.reg reg) (allBits - m)) v
      if off = Reg.OBS_SCONS b then writeCons b false (merged off) s
      else if off = Reg.OBS_TCONS b then writeCons b true (merged off) s
      else if off = Reg.OBS_SMP b then onBit v 63 (enableObs b false) s
      else if off = Reg.OBS_TRC b then onBit v 63 (enableObs b true) s
      else s
  else if blk = 6 then (if off = Reg.PLB_CTL then plumbRole (bitOf old 63) (bitOf v 63) s else s)
  else s

/-- What a write of a brick-scope register does beside its fields. -/
def brickStart (b : Brick) (blk o off v m : Nat) (e : MemEnv) (s : State) : State :=
  match blk with
  | 0 =>
    if o < 0x6000 then (if o % 0x1000 = 0 then writePctl (.port (portOf (6 * b.val + o / 0x1000))) v m s else s)
    else if o < 0x9000 then (if o % 0x1000 = 0 then writePctl (.bridge b ⟨(o / 0x1000 - 6) % 3, Nat.mod_lt _ (by decide)⟩) v m s else s)
    else s
  | 3 =>
    if off = Reg.FOLD_CTL b then onBit v 1 (after (execDrain1 b e)) (onBit v 0 (after (execDrain0 b e)) s)
    else if off = Reg.FOLD_CHG b then after (execFoldChg b (BitVec.ofNat 64 v)) s
    else s
  | 4 =>
    let st := stackOf (2 * b.val + o / 0x1000)
    if off = Reg.PGC_CLR st then after (execPgcClr st (BitVec.ofNat 64 v)) s
    else if off = Reg.PGC_SCMD st then writeScmd st v s
    else s
  | 5 =>
    let st := stackOf (2 * b.val + o / 0x1000)
    if off = Reg.RMP_CMD st then writeRmpCmd st v e s else s
  | 7 =>
    if off = Reg.SLB_CTL b then
      let s := onBit v 2 (after (execYardFormat b)) s
      if !bitOf m 0 then s
      else if bitOf v 0 then (if s.isSet (Reg.SLB_CTL_EN b) then s else enableYard b e s)
      else if s.isSet (Reg.SLB_CTL_EN b) then disableYard b s else s
    else if off = Reg.SLB_JCMD b then
      (match bitsOf v 2 0 with
       | 1 => after (execJobStart b) s
       | 2 => suspendJob b false s
       | 3 => resumeJob b false s
       | 4 => cancelJob b s
       | _ => s.flag (Reg.SLB_ERR_JREF b))  -- a reserved OP (R17; DESIGN CHOICE, log entry 219)
    else s
  | 8 =>
    if off = Reg.PFX_CTL b then
      let s := onBit v 2 (after (execTreeFormat b)) s
      if !bitOf m 0 then s
      else if bitOf v 0 then (if s.isSet (Reg.PFX_CTL_EN b) then s else enableTree b e s)
      else if s.isSet (Reg.PFX_CTL_EN b) then disableTree b s else s
    else if off = Reg.PFX_KEY0 b then s.onYard b (fun Y => { Y with key0 := BitVec.ofNat 64 (Nat.lor (Nat.land Y.key0.toNat (allBits - m)) v) })
    else if off = Reg.PFX_KEY1 b then after (execKeyInstall b (BitVec.ofNat 64 v)) s
    else if off = Reg.PFX_KCLR b then after (execPfxKclr b (bitOf v 0)) s
    else s
  | 9 =>
    if off = Reg.SAF_BCTL b then
      let s := if bitOf m 0 then writePause b (bitOf v 0) s else s
      onBit v 4 (after (execBreset b)) s
    else if off = Reg.SAF_TCMD b then
      (match bitsOf v 63 56 with
       | 1 => fenceByCommand b (bitsOf v 4 0) s
       | 2 => unfenceTile b (bitsOf v 4 0) s
       | 3 => testByCommand b (bitsOf v 13 8) s
       | _ => s)  -- a reserved OP has no bit to set (R17; DESIGN CHOICE, log entry 219)
    else s
  | _ => s

/-- What a write of a tile-scope register does beside its fields. -/
def tileStart (t : Tile) (off v : Nat) (s : State) : State :=
  if off = Reg.MSN_CTL t then
    onBit v 2 (requestSuspend t) (onBit v 1 (resumeMason t) (onBit v 0 (startMason t) (onBit v 4 (after (execClrflt t)) (onBit v 3 (stopMason t) s))))
  else if off = Reg.PRS_CTL t then onBit v 8 (after (execRinj t)) (onBit v 0 (after (execPressClrq t)) s)
  else if off = Reg.GLZ_CTL t then onBit v 0 (after (execGlazeClrq t)) s
  else if off = Reg.SVE_CTL t then
    onBit v 2 (resumeSieve t) (onBit v 1 (suspendSieve t) (onBit v 3 (cancelSieve t) (onBit v 0 (after (execSieveClrq t)) s)))
  else if off = Reg.OBS_TILE t then onBit v 1 (clearCounters t) s
  else s

/-! ### Writes -/

/-- A write that R203 or R204 refuses leaves its register unchanged: the flag CFG and event 0x110C. -/
def nestingRefused (b : Brick) (s : State) : State := (s.flag (Reg.MRT_TERR_CFG b)).raise 0x110C [b.val]

/-- Whether MRT_TTMO and MRT_TFLOW would nest (R204). -/
def nestingOk (ttmo tflow : Nat) : Bool :=
  let plife := bitsOf ttmo 47 32
  decide (plife * 10 < 256 * bitsOf ttmo 19 0) && decide (plife ≤ bitsOf tflow 31 16)

/-- Number of the register block of an offset, as event 0x5007 carries it: scope and block (R22, R42). -/
def blockOf (off : Nat) : Nat := if off < 0x80000000 then off / 0x100000 else off / 0x10000

/-- The first write after a reset that would change a sealed field of a block recorded (R22). -/
def noteSealed (off : Nat) (s : State) : State :=
  if s.sealLogged.contains (blockOf off) then s else { s with sealLogged := s.sealLogged ++ [blockOf off] }.raise 0x5007 [blockOf off]

/-- A write to the register that starts at an offset: `v` under the mask `mask` of the bits that the access covers (R19, R22). -/
def writeAt (src : RegSource) (r : RegSpec) (st v mask : Nat) (e : MemEnv) (s : State) : State :=
  let (sc, o) := regScope st
  let old := s.reg st
  let v := Nat.land v mask
  let fixed := match sc with
    | .pkg blk => pkgFixed s src blk o st
    | .brick b blk => brickFixed s (brickOf b) blk o st (Nat.lor (Nat.land old (allBits - mask)) v)
    | .tile t _ => tileFixed s (tileOf t) st
    | .reserved => 0
  let s := if s.sealed && r.writesSealed old v (Nat.land mask (allBits - fixed)) then noteSealed st s else s
  let new := r.write s.sealed old v (Nat.land mask (allBits - fixed))
  let s := match pctlPoint st with
    | some pt => fillBuckets pt s
    | none => s
  match sc with
  | .pkg 0 => if Reg.SEAT_TBL 0 ≤ st then writeSeat ((st - Reg.SEAT_TBL 0) / 4) new s else s.setReg st new
  | .pkg blk => pkgStart src blk o st old v mask (s.setReg st new)
  | .brick b blk =>
    let b := brickOf b
    if st = Reg.MRT_TTMO b then (if te2eCovers s b (bitsOf new 19 0) && nestingOk new (s.reg (Reg.MRT_TFLOW b)) then s.setReg st new else nestingRefused b s)
    else if st = Reg.MRT_TFLOW b then (if nestingOk (s.reg (Reg.MRT_TTMO b)) new then s.setReg st new else nestingRefused b s)
    else brickStart b blk o st v mask e (s.setReg st new)
  | .tile t _ => tileStart (tileOf t) st v (s.setReg st new)
  | .reserved => s

/-- A write of 32 bits at an offset; one to a reserved address is ignored (R16). SEAT_CAST takes no 32-bit write (R939). -/
def writeWord (src : RegSource) (off v : Nat) (e : MemEnv) (s : State) : State :=
  match regAt off with
  | none => s
  | some (r, st) =>
    if st = Reg.SEAT_CAST then s
    else if off = st then writeAt src r st (v % 2 ^ 32) 0xFFFFFFFF e s
    else writeAt src r st (v % 2 ^ 32 * 2 ^ 32) (0xFFFFFFFF * 2 ^ 32) e s

/-- A write of 4 or 8 bytes at an aligned offset (R23). -/
def writeReg (src : RegSource) (off n v : Nat) (e : MemEnv) (s : State) : State :=
  if n = 4 then writeWord src off v e s else
  match regAt off with
  | some (r, st) =>
    if r.width = 64 then (if st = Reg.SEAT_CAST then castEntry v true s else writeAt src r st v allBits e s)
    else writeWord src (off + 4) (v / 2 ^ 32) e (writeWord src off (v % 2 ^ 32) e s)
  | none => writeWord src (off + 4) (v / 2 ^ 32) e (writeWord src off (v % 2 ^ 32) e s)

/-! ### Rights and commands (R723, R865 to R869) -/

/-- Whether an access of 4 or 8 bytes is aligned (R23). -/
def regAligned (off n : Nat) : Bool := (n = 4 || n = 8) && off % n = 0

/-- A W1C bit that the reports of a command set while its write clears the bit reads 1 afterwards (R20): `s` is the state before the reports. -/
def keepRaised (off : Nat) (e : MemEnv) (s t : State) : State :=
  match regAt off with
  | none => t
  | some (r, st) =>
    let raised := Nat.land r.w1cBits ((memReports e (s.setReg st (Nat.land (s.reg st) (allBits - r.w1cBits)))).reg st)
    if raised = 0 then t else t.setReg st (Nat.lor (t.reg st) raised)

/-- Whether a requester has every right that a register write needs (R866, R869): ST, and an administration right for a job start and for HOD_CMD
(R668, R812). -/
def regStoreRight (s : State) (w : Who) (off n : Nat) : Bool :=
  keyGrants s w rightST 0xA off n none

/-- The status of a register write that lacks its administration right (R668, R812): HOD_CMD 0x01, a job start 0x02. -/
def regAdmin (s : State) (w : Who) (off n v : Nat) : Nat :=
  match regAt off with
  | some (_, st) =>
    let low := off = st
    if st = Reg.HOD_CMD && low && !keyGrants s w rightHADM 0xA off n none then 0x01
    else if ([0, 1, 2, 3] : List Brick).any (fun b => st = Reg.SLB_JCMD b) && low && bitsOf v 2 0 = 1 && !keyGrants s w rightYADM 0xA off n none then 0x02
    else 0x00
  | none => 0x00

/-- A LOAD of region 0xA that its keys have let through: status, value, state (R16, R47, R161, R296). -/
def regLoad (off n : Nat) (s : State) : Nat × Nat × State :=
  if !regAligned off n || !regAnswers s off then (0x01, 0, s) else
  let (v, s) := readReg off n s
  (0x00, v, s)

/-- A STORE into region 0xA that its keys have let through. -/
def regStore (src : RegSource) (off n v : Nat) (e : MemEnv) (s : State) : Nat × State :=
  if !regAligned off n || !regAnswers s off then (0x01, s) else (0x00, writeReg src off n v e s)

/-- The host as requester through BAR0 (R723, R865). -/
def hostWho : Who := { host := true, seat := 0xFFFF, lbl := 14 }

/-- Whether an access reaches the registers: the host's while the link is in service, the tray controller's to the HOD_ block alone
while its bus works (R722, R809, R812). -/
def mayAccess (s : State) (src : RegSource) (o : Nat) : Bool :=
  match src with
  | .request => s.isSet Reg.HST_STAT_LINKUP
  | .hod => true
  | .tray => decide (Reg.HOD_STAT ≤ o ∧ o < Reg.PWR_STAT) && !s.hod.busFailed.contains 2

/-- REGISTER_WRITE (R19, R20, R22, R23, R722, R723, R812): a write of a register from the host through BAR0, from Hod or from the tray controller. An
access of another size or alignment completes as an unsupported request, with nothing written. -/
def execRegisterWrite (src : RegSource) (off : BitVec 32) (wide : Bool) (v : Word) (e : MemEnv) (s : State) : Host.Outcome State Fault Refusal := ended s <|
  let o := off.toNat
  let n := if wide then 8 else 4
  let s₀ := s
  let s := memReports e s
  if !mayAccess s src o then .next s else
  if src = .request && !regStoreRight s hostWho o n then .next ((keyViolation hostWho 0x02 (0xFFFF * 2 ^ 48 + 0xA * 2 ^ 44 + o) s).emit (.hostAnswer 0 0x02 [])) else
  let admin := if src = .request then regAdmin s hostWho o n v.toNat else 0
  if admin = 0x02 then .next ((keyViolation hostWho 0x02 (0xFFFF * 2 ^ 48 + 0xA * 2 ^ 44 + o) s).emit (.hostAnswer 0 0x02 []))
  else if admin ≠ 0 then .next (s.emit (.hostAnswer 0 admin [])) else
  let (status, s) := regStore src o n v.toNat e s
  .next (if status = 0 then keepRaised o e s₀ s else s.emit (.hostAnswer 0 status []))

/-- RC_FIELD_READ (R19, R933): a read of a register; the bits of RC fields that it returns are cleared. -/
def execRcFieldRead (src : RegSource) (off : BitVec 32) (wide : Bool) (s : State) : Host.Outcome State Fault Refusal := ended s <|
  let o := off.toNat
  let n := if wide then 8 else 4
  if !mayAccess s src o then .next s else
  if src = .request && !keyGrants s hostWho rightLD 0xA o n none then
    .next ((keyViolation hostWho 0x01 (0xFFFF * 2 ^ 48 + 0xA * 2 ^ 44 + o) s).emit (.hostAnswer 0 0x02 [])) else
  let (status, v, s) := regLoad o n s
  .next (if status = 0 then s.emit (.regRead o n v) else s.emit (.hostAnswer 0 status []))

/-- MRT_TTMO_WRITE (R203, R204, R213): a write of the transport timeouts of a brick. -/
def execMrtTtmoWrite (b : Brick) (v : Word) (s : State) : Host.Outcome State Fault Refusal := ended s <|
  .next (if uncoreOn s b then writeReg .hod (Reg.MRT_TTMO b) 8 v.toNat MemEnv.quiet s else s)

end Sys2Proof.Machine
end

