-- ==== Sys2Proof/Machine/Home.lean ====
section
/-! DEFINITION. The home of a request: its address checks, its keys, what holds it, the operation itself, and the answer that the flow keeps (R44 to
R48, R161, R185 steps 10 and 11, R186 to R188, R217, R229 to R253, R327 to R346, R351, R394, R626, R645, R646, R661, R734, R735, R863 to R868). -/
namespace Sys2Proof.Machine
open Sys2Proof

/-! ### Who asks (R865) -/

/-- The operation of a source flow of this package that a request packet carries. -/
def sourceOp (s : State) (p : Packet) : Option SrcOp :=
  if p.sseat.toNat = s.ownSeatNo || p.sseat.toNat = 0xFFFF then
    (s.flow (brickOf p.sbrk.toNat) (packetFlow p)).bind (fun f => f.opAt p.seq.toNat)
  else none

/-- The unit of this package that issued a request. -/
def sourceIssuer (s : State) (p : Packet) : Option Issuer := (sourceOp s p).map (fun o => o.issuer)

/-- The CXL.mem request of the host that a packet carries. -/
def sourceHdm (s : State) (p : Packet) : Option HdmReq :=
  match sourceIssuer s p with
  | some (.hdm tag) => s.host.hdm.find? (fun h => h.tag = tag)
  | _ => none

/-- The requester that the keys check; none for Hod, whose traffic they do not check (R772, R865). -/
def whoAsks (s : State) (p : Packet) : Option Who :=
  let own := p.sseat.toNat = s.ownSeatNo || p.sseat.toNat = 0xFFFF
  match sourceIssuer s p with
  | some .hod => none
  | some (.host _) | some (.drop _) | some (.hdm _) => some { host := true, seat := 0xFFFF, lbl := p.lbl.toNat }
  | _ => some (if own then s.own p.lbl.toNat else { host := false, seat := p.sseat.toNat, lbl := p.lbl.toNat })

/-- Whether a request is one that the device makes on its own authority, under label 14: a WCANCEL of a fence, or the unpin of an epoch (R655, R866). -/
def deviceOwn (p : Packet) : Bool := p.lbl.toNat = 14 && (p.opc.toNat = 0x37 || (p.opc.toNat = 0x56 && byteAt p.payload 0 = 3))

/-- The sender of a request as the bond engine sees it; the keys have let it through. -/
def requesterOf (s : State) (p : Packet) : Requester :=
  { seat := p.sseat.toNat, gen := p.sgen.toNat, brk := p.sbrk.toNat, lbl := p.lbl.toNat, fep := p.fep.toNat, seq := p.seq.toNat,
    tile := ((sourceIssuer s p).bind issuerTile).getD 0xFF, admin := true }

/-! ### Address and keys -/

/-- Bytes that a request addresses, for the keys (R863). -/
def keyBytes (p : Packet) : Nat :=
  match p.opc.toNat / 16 with
  | 0 => p.size.toNat
  | 1 | 2 => p.payload.length
  | _ => 1

/-- Whether a request's address, size and class name something that takes it (R44 to R47, R161, R231, R246, R247, R296, R626). -/
def addressOk (s : State) (b : Brick) (p : Packet) : Bool :=
  let a := p.addr.toNat
  let region := addrRegion a
  let off := addrOffset a
  let opc := p.opc.toNat
  let n := p.size.toNat
  destBrick a = some b &&
  (match opc / 16 with
   | 0 =>
     (opc = 1 || opc = 2) && decide (1 ≤ n ∧ n ≤ 512) && off / 512 == (off + n - 1) / 512 &&
     (match region with
      | 0x8 => populated s 8 off n
      | 0x9 => opc = 1 && n = 8 && off % 8 = 0 && populated s 9 off n
      | 0xA => regAligned off n && regAnswers s off
      | 0xB => p.sseat.toNat = s.ownSeatNo || p.sseat.toNat = 0xFFFF
      | 0xC => opc = 1 && stackOn s (stackOf (off / 2 ^ 40)) && populated s 0xC off n
      | r => decide (r ≤ 7) && stackOn s (stackOf r) && populated s r off n)
   | 1 | 2 => decide (region ≤ 7) && stackOn s (stackOf region) && populated s region off 1
   | 3 => region = 9 && off % 64 = 0 && populated s 9 off 64
   | 4 => opc = 0x41
   | 5 => bitsOf a 47 0 = yardAddr s b
   | 7 => opc = 0x71 && region = 9
   | _ => false)

/-- The status with which the keys refuse a request, or 0 (R863 to R868). -/
def keyRefusal (s : State) (w : Who) (p : Packet) : Nat :=
  let a := p.addr.toNat
  let region := addrRegion a
  let off := addrOffset a
  let opc := p.opc.toNat
  let ns := if opc = 0x58 || opc = 0x59 || opc = 0x5A then some (numAt p.payload 6 2) else none
  if deviceOwn p then 0
  else if !(rightsFor opc p.payload).all (fun r => keyGrants s w r region off (keyBytes p) ns) then 2
  else if opc = 0x02 && region = 0xA then regAdmin s w off p.size.toNat (leNat p.payload)
  else 0

/-! ### What holds a request at its home -/

/-- The sectors of a stack that `n` bytes from an offset touch, tested for an entry of the snoop filter. -/
def Snoop.within (x : Snoop) (region off n : Nat) : Bool :=
  x.stack == region && decide (off / 64 ≤ x.sector) && decide (x.sector ≤ (off + max 1 n - 1) / 64)

/-- The structures of a yard and its tree: region, offset and bytes (R625, R630, R656). -/
def yardStructures (s : State) (b : Brick) : List (Nat × Nat × Nat) :=
  let t := tableAt s b
  let n := nodesAt s b
  let k := bucketsAt s b
  [(t.1, t.2, 32 * (8 + s.rd (Reg.SLB_DCNT_N0 b) + s.rd (Reg.SLB_DCNT_N1 b)))] ++
  (if s.isSet (Reg.PFX_STAT_READY b) then [(n.1, n.2, 512 * s.rd (Reg.PFX_NCNT_NCOUNT b)), (k.1, k.2, 4 * 2 ^ s.rd (Reg.PFX_CTL_BBITS b))] else [])

/-- Set of the snoop filter that an entry lies in. -/
def Snoop.set (x : Snoop) (b : Brick) : Nat := Config.snoopSet b.val (x.stack % 2 * 2 ^ 30 + x.sector)

/-- The entries of the snoop filter that the host has to give up before a request is performed, with the snoop each needs: 1 BISnpData, 2 BISnpInv
(R735). A request of the host itself needs room for its own entry alone. -/
def recalls (s : State) (b : Brick) (p : Packet) (hdm : Option HdmReq) : List (Snoop × Nat) :=
  let F := (s.brick b).snoop
  let region := addrRegion p.addr.toNat
  let off := addrOffset p.addr.toNat
  let opc := p.opc.toNat
  if F.isEmpty then [] else
  match hdm with
  | some h =>
    let x : Snoop := { stack := region, sector := off / 64, em := false }
    if (h.write && !h.own) || F.length < 16 || F.any (fun y => y.within region off 1) then [] else
    let mates := F.filter (fun y => y.set b == x.set b)
    if 16 ≤ mates.length then (mates.take 1).map (fun y => (y, 2)) else []
  | none =>
    match opc / 16 with
    | 0 =>
      if 7 < region then [] else
      let hit := F.filter (fun x => x.within region off p.size.toNat)
      if opc = 1 then (hit.filter (fun x => x.em)).map (fun x => (x, 1)) else hit.map (fun x => (x, 2))
    | 1 | 2 => (F.filter (fun x => x.within region off p.payload.length)).map (fun x => (x, 2))
    | 5 => (F.filter (fun x => (yardStructures s b).any (fun t => x.within t.1 t.2.1 t.2.2))).map (fun x => (x, 2))
    | _ => []

/-- Snoops sent to the host for entries that were not asked so far (R735). -/
def snoopHost (b : Brick) (xs : List (Snoop × Nat)) (s : State) : State :=
  s.each xs (fun s x =>
    if x.2 ≤ x.1.asked then s else
    (s.onBrick b (fun B => { B with snoop := B.snoop.map (fun y => if y = x.1 then { y with asked := x.2 } else y) })).emit
      (.biSnoop (x.2 = 2) (x.1.stack * 2 ^ 44 + x.1.sector * 64)))

/-- Whether a structure of a yard lies where its controller holds accesses now (R346, R351, R394). -/
def structureHeld (s : State) (t : Nat × Nat × Nat) : Bool :=
  let S := s.stack (stackOf t.1)
  let meets := fun (m x : Nat) => decide (t.2.1 / m ≤ x) && decide (x ≤ (t.2.1 + max 1 t.2.2 - 1) / m)
  decide (t.1 ≤ 7) &&
  (S.phyLost || (match S.change with
    | some (g, _, _) => meets granuleSize g
    | none => false) ||
   (match S.install with
    | some (p, _, _) => meets 4096 p
    | none => false))

/-- The grout read that a request is, where it is one and only its controller holds it (R316, R317, R351, R394); it then waits in the grout path. -/
def groutOf (s : State) (p : Packet) : Option (Stack × GroutRead) :=
  let region := addrRegion p.addr.toNat
  let off := addrOffset p.addr.toNat
  let st := stackOf region
  if p.opc.toNat = 0x01 && decide (region ≤ 7) && takesGrout s st off p.size.toNat && !changeHeld s st off then
    some (st, groutRead s st off p.size.toNat (.request p)) else none

/-- Whether a request is held at its home now: by its stack (R346, R351, R394), or, of region 0xB, because the host link is down and the host not
lost. Yard requests to a slab that is being copied are held by the yard itself (R646). -/
def accessHeld (s : State) (b : Brick) (p : Packet) : Bool :=
  let region := addrRegion p.addr.toNat
  let off := addrOffset p.addr.toNat
  let opc := p.opc.toNat
  match opc / 16 with
  | 0 => decide (region ≤ 7) && homeHeld s (stackOf region) off opc p.size.toNat
  | 1 | 2 => homeHeld s (stackOf region) off opc p.payload.length
  | 5 => (yardStructures s b).any (structureHeld s)
  | _ => false

/-! ### The operation -/

/-- A reply as an answer. -/
def replied (r : Reply × State) : YardAnswer × State := (.reply r.1, r.2)

/-- A LOAD or STORE of host space (R729 to R733). -/
def hostSpaceOp (p : Packet) (s : State) : YardAnswer × State :=
  let load := p.opc.toNat = 1
  match hostAccess s load (addrOffset p.addr.toNat) p.size.toNat with
  | .answer st => (.reply (st, []), s)
  | .wait => (.held, s)
  | .go hpa =>
    let (tag, s) := takeTag (.request p) s
    (.started, s.emit (if load then .hostRead tag hpa p.size.toNat else .hostWrite tag hpa p.payload))

/-- A LOAD of a bond block (R245, R246): no acquire. -/
def bondLoad (b : Brick) (off : Nat) (s : State) : Reply × State :=
  ((0x00, leBytes 8 ((s.bond b (off / 64 % 16384)).read (off % 64))), s)

/-- A LOAD of a check-region view (R369): the bytes as stored. -/
def checkLoad (off n : Nat) (s : State) : Reply × State :=
  let st := stackOf (off / 2 ^ 40)
  ((0x00, s.bytes (stackKey st ((winTop s st + 64) * 4096 + off % 2 ^ 40)) n), s)

/-- A load of this package that is served on the grout path fills no copy (R220, R320). -/
def dropFill (p : Packet) (s : State) : State :=
  match sourceIssuer s p with
  | some (.masonLoad t n) => answerFill (tileOf t) n false s
  | _ => s

/-- A LOAD or STORE at its home, its address and keys checked. -/
def memoryOp (b : Brick) (p : Packet) (e : MemEnv) (s : State) : YardAnswer × State :=
  let region := addrRegion p.addr.toNat
  let off := addrOffset p.addr.toNat
  let n := p.size.toNat
  let load := p.opc.toNat = 1
  match region with
  | 0x8 =>
    let t := tileOf (off / 0x800000)
    let own := match sourceIssuer s p with
      | some (.masonPosted u) => u == t.val
      | _ => false
    replied (if load then slotLoad t (off % 0x800000) n e s else slotStore t (off % 0x800000) p.payload own s)
  | 0x9 => replied (bondLoad b off s)
  | 0xA =>
    if load then
      let (st, v, s) := regLoad off n s
      (.reply (st, if st = 0 then leBytes n v else []), s)
    else
      let (st, t) := regStore (if (whoAsks s p).isNone then .hod else .request) off n (leNat p.payload) e s
      (.reply (st, []), if st = 0 then keepRaised off e s t else t)
  | 0xB => hostSpaceOp p s
  | 0xC => replied (checkLoad off n s)
  | r =>
    let st := stackOf r
    if load then replied (homeLoad st off n e (if takesGrout s st off n then dropFill p s else s))
    else replied (homeStore st off p.payload e s)

/-- A class-0x5 request at its yard; a right it lacks is recorded (R649, R650, R866, R867). -/
def slabRequest (b : Brick) (p : Packet) (e : MemEnv) (s : State) : YardAnswer × State :=
  let off := addrOffset p.addr.toNat
  match whoAsks s p with
  | none => yardOp b (s.own p.lbl.toNat) true p e s
  | some w =>
    match yardOp b w (keyGrants s w rightYADM (addrRegion p.addr.toNat) off 1 none) p e s with
    | (.reply (0x02, d), s) => (.reply (0x02, d), keyViolation w p.opc.toNat p.addr.toNat s)
    | x => x

/-- A request that nothing refuses or holds, performed (R159, R217). -/
def operate (b : Brick) (p : Packet) (e : MemEnv) (s : State) : YardAnswer × State :=
  let off := addrOffset p.addr.toNat
  let st := stackOf (addrRegion p.addr.toNat)
  match p.opc.toNat / 16 with
  | 0 => memoryOp b p e s
  | 1 => replied (atomicOp st off p.opc.toNat p.aux.toNat p.payload e s)
  | 2 => replied (foldOp st off p.opc.toNat p.aux.toNat p.payload e s)
  | 3 => replied (bondOp b (off / 64 % 16384) (requesterOf s p) p.opc.toNat p.payload s)
  | 4 => (.reply (0x00, []), s)
  | 5 => slabRequest b p e s
  | _ => replied (wakeOp b off p.payload s)

/-- What a CXL.mem request leaves in the snoop filter of its home (R735). -/
def noteSnoop (b : Brick) (h : HdmReq) (st sector : Nat) (s : State) : State :=
  s.onBrick b (fun B =>
    let rest := B.snoop.filter (fun x => !(x.stack = st && x.sector = sector))
    { B with snoop := if h.write && !h.own then rest else rest ++ [{ stack := st, sector := sector, em := h.own }] })

/-- A request performed at its home, refused, or held there (R185 step 10, R867). -/
def perform (b : Brick) (p : Packet) (e : MemEnv) (s : State) : YardAnswer × State :=
  let a := p.addr.toNat
  if !addressOk s b p then (.reply (0x01, []), s) else
  let refusal := match whoAsks s p with
    | none => (0, s)
    | some w => let x := keyRefusal s w p
                (x, if x = 2 then keyViolation w p.opc.toNat a s else s)
  if refusal.1 ≠ 0 then (.reply (refusal.1, []), refusal.2) else
  let hdm := sourceHdm s p
  if hdm.isSome && foldMode s (stackOf (addrRegion a)) (addrOffset a / granuleSize) then (.reply (0x30, []), s) else
  let xs := recalls s b p hdm
  if !xs.isEmpty then (.held, snoopHost b xs s) else
  if accessHeld s b p then
    (match groutOf s p with
     | some (st, x) => if groutRoom s st then (.started, groutEnter st x s) else (.held, s)
     | none => (.held, s)) else
  match hdm, operate b p e s with
  | some h, (.reply r, s) => (.reply r, noteSnoop b h (addrRegion a) (addrOffset a / 64) s)
  | _, x => x

/-! ### The flow at its destination: NXT, the reorder store and the retained answers (R185 to R188) -/

/-- Whether a destination flow is the one of a packet, whatever its SGEN: R156 without the generation. -/
def DstFlow.sameFlow (f : DstFlow) (p : Packet) : Bool := f.sseat == p.sseat.toNat && f.sbrk == p.sbrk.toNat && f.lbl == p.lbl.toNat

/-- Whether a destination flow is the one of a packet. -/
def DstFlow.mine (f : DstFlow) (p : Packet) : Bool := f.sameFlow p && f.sgen == p.sgen.toNat

/-- The destination flow of a packet. -/
def State.dstFlow (s : State) (b : Brick) (p : Packet) : Option DstFlow := (s.brick b).dstFlows.find? (fun f => f.mine p)

/-- The state with the destination flow of a packet changed. -/
def State.onDst (s : State) (b : Brick) (p : Packet) (g : DstFlow → DstFlow) : State :=
  s.onBrick b (fun B => { B with dstFlows := B.dstFlows.map (fun f => if f.mine p then g f else f) })

/-- Most payload bytes that the RSP of a request can have (R161, R249, R330, R637): a request whose answer is not ready keeps that much of the retention
store (DEDUCED, log entry 189). -/
def rspMost (p : Packet) : Nat :=
  match p.opc.toNat with
  | 0x01 => p.size.toNat
  | 0x12 => p.payload.length / 2
  | 0x11 | 0x13 | 0x14 | 0x15 | 0x16 | 0x17 | 0x18 => p.payload.length
  | 0x31 | 0x32 | 0x33 | 0x35 => 8
  | 0x34 => 9
  | 0x52 | 0x53 | 0x55 | 0x56 => 3
  | 0x51 | 0x54 | 0x58 => 16
  | 0x59 => 24
  | _ => 0

/-- Bytes that the retained answers of a brick take, status and payload (R188), with what requests in performance keep for theirs. -/
def retentionUsed (B : BrickState) : Nat :=
  (B.dstFlows.map (fun f => (f.retained.map (fun r => 1 + r.data.length)).sum + (f.performing.map (fun q => 1 + rspMost q)).getD 0)).sum

/-- Bytes of the retention store (R188). -/
def retentionSize : Nat := 8 * 2 ^ 20

/-- Whether the retention store is full (R188): the answer that found it so does not fit yet. -/
def retentionFull (s : State) (b : Brick) : Bool :=
  let B := s.brick b
  B.retNeed != 0 && decide (retentionSize < retentionUsed B + B.retNeed)

/-- Whether a brick performs requests now: not while its incarnation is fresh (R183), nor in a safe state (R859). -/
def mayPerform (s : State) (b : Brick) : Bool := !(s.brick b).quarantine && !brickSafe s b

/-- The answer of the request that a flow is performing: kept, sent, and NXT moved on (R185, R187). A flow that was dropped meanwhile takes none. -/
def answerRequest (b : Brick) (p : Packet) (r : Reply) (s : State) : State :=
  match s.dstFlow b p with
  | some f =>
    if f.performing = some p then
      (s.onDst b p (fun f => { f with performing := none, nxt := f.nxt + 1, retained := f.retained ++ [{ seq := p.seq.toNat, status := r.1, data := r.2 }] })).answerFrom b
        (s.answer p ptRsp r.1 r.2)
    else s
  | none => s

/-- The request at NXT of a flow performed, where it is there, and then its held successors in order (R185 step 10, R186); `n` bounds them. A request whose
answer does not fit into the retention store is not performed, and the brick performs none until that answer fits (R188). -/
def runFlow (b : Brick) (key : Packet) (e : MemEnv) : Nat → State → State
  | 0, s => s
  | n + 1, s =>
    match s.dstFlow b key with
    | none => s
    | some f =>
      match f.held.find? (fun q => q.seq.toNat = f.nxt) with
      | none => s
      | some q =>
        if f.performing.isSome || !mayPerform s b || retentionFull s b then s else
        let begun := s.onDst b key (fun f => { f with held := f.held.erase q, performing := some q })
        let (answer, t) := perform b q e begun
        let need := 1 + (match answer with
          | .reply r => r.2.length
          | _ => rspMost q)
        if retentionSize < retentionUsed (s.brick b) + need then s.onBrick b (fun B => { B with retNeed := need }) else
        let t := t.onBrick b (fun B => { B with retNeed := 0 })
        match answer with
        | .reply r => runFlow b key e n (answerRequest b q r t)
        | .held => t.onBrick b (fun B => { B with held := B.held ++ [q] })
        | .started => t

/-- How many requests a flow could still perform. -/
def heldCount (s : State) (b : Brick) (p : Packet) : Nat := match s.dstFlow b p with
  | some f => f.held.length + 1
  | none => 0

/-- A request that an engine or the host has answered: its RSP, and its successors. -/
def finishRequest (b : Brick) (p : Packet) (r : Reply) (e : MemEnv) (s : State) : State :=
  let s := answerRequest b p r s
  runFlow b p e (heldCount s b p) s

/-- A request that was held tried again. -/
def retryOne (b : Brick) (e : MemEnv) (s : State) (p : Packet) : State :=
  match s.dstFlow b p with
  | none => s
  | some f =>
    if f.performing ≠ some p then s else
    match perform b p e s with
    | (.reply r, s) => finishRequest b p r e s
    | (.held, s) => s.onBrick b (fun B => { B with held := B.held ++ [p] })
    | (.started, s) => s

/-- A grout read performed (R320), or refused with 0x01 where its stack no longer serves it (R47, R296): its request, or the unit that made it, is
answered. -/
def serveGrout (st : Stack) (e : MemEnv) (s : State) (x : GroutRead) : State :=
  let (r, s) := if !stackOn s st || winTop s st * 4096 < x.off + x.n then (((0x01, []) : Reply), s) else homeLoad st x.off x.n e s
  match x.use with
  | .request p => finishRequest (stackBrick st) p r e s
  | .unit tag => s.emit (.outcome tag (if r.1 = 0x01 then 1 else 0) r.1 r.2)

/-- Whether a grout read has to go on waiting (R346, R351, R394). -/
def groutHeld (s : State) (st : Stack) (x : GroutRead) : Bool := stackOn s st && homeHeld s st x.off 0x01 x.n

/-- The grout path of a stack goes on (R317): the reads that nothing holds any more are performed, those of the queues first. -/
def runGrout (st : Stack) (e : MemEnv) (s : State) : State :=
  let S := s.stack st
  let xs := (S.groutQ ++ S.groutIn ++ S.groutWait).filter (fun x => !groutHeld s st x)
  let kept := (S.groutQ ++ S.groutIn).filter (groutHeld s st)
  let wait := S.groutWait.filter (groutHeld s st)
  if xs.isEmpty then s else
  let s := s.onStack st (fun S => { S with groutQ := [], groutIn := [], groutWait := wait })
  s.each kept (fun s x => groutEnter st x s) |>.each xs (serveGrout st e)

/-- What is held at a brick tried again, in arrival order: its stacks' grout reads, then its requests. -/
def retryHeld (b : Brick) (e : MemEnv) (s : State) : State :=
  if !mayPerform s b then s else
  let s := runGrout (stackOf (2 * b.val + 1)) e (runGrout (stackOf (2 * b.val)) e s)
  let ps := (s.brick b).held
  ps.foldl (retryOne b e) (s.onBrick b (fun B => { B with held := [] }))

/-- Every flow of a brick goes on where it can. -/
def resumeFlows (b : Brick) (e : MemEnv) (s : State) : State :=
  s.each ((s.brick b).dstFlows.flatMap (fun f => f.held.filter (fun q => q.seq.toNat = f.nxt))) (fun s q => runFlow b q e (heldCount s b q) s)

/-- RETENTION_STORE_RESUME (R188): acknowledgements have freed room, and the requests that waited for it are performed. -/
def execRetentionStoreResume (b : Brick) (e : MemEnv) (s : State) : Host.Outcome State Fault Refusal := ended s <|
  .next (resumeFlows b e (memReports e s))

/-! ### Reads that a unit makes, and copies -/

/-- GROUT_READ (R47, R296, R316, R317, R320, R346): a small read at its home that a unit of the package makes by itself; one that the bed cache can
serve, or that lies in more than one 32 B block, takes the streaming path, and one that its home or its controller holds waits. The bytes leave as the
outcome of the read's tag. A read outside the window, or of a controller that is not ON, is rejected with 0x01. -/
def execGroutRead (st : Stack) (off : BitVec 44) (n : Fin 33) (tag : Nat) (e : MemEnv) (s : State) : Host.Outcome State Fault Refusal := ended s <|
  let s := memReports e s
  let x := groutRead s st off.toNat n.val (.unit tag)
  if n.val = 0 || !groutHeld s st x then .next (if n.val = 0 then s.emit (.outcome tag 1 0x01 []) else serveGrout st e s x)
  else if changeHeld s st off.toNat || !groutRoom s st then .next (s.onStack st (fun S => { S with groutWait := S.groutWait ++ [x] }))
  else .next (groutEnter st x s)

/-- The 128 B of a line of this package as its home gives them now, where nothing holds them and no part of the line reads poisoned (R224, R943). -/
def lineAtHome (a : Nat) (e : MemEnv) (s : State) : Option Bytes × State :=
  let region := addrRegion a
  let off := addrOffset a
  let st := stackOf region
  let (r, s) :=
    if region = 8 then slotLoad (tileOf (off / 0x800000)) (off % 0x800000) 128 e s
    else if stackOn s st && populated s region off 128 && !homeHeld s st off 0x01 128 &&
        !(s.brick (stackBrick st)).snoop.any (fun y => y.em && y.within region off 128) then homeLoad st off 128 e s
    else ((0x01, []), s)
  (if r.1 = 0x00 then some r.2 else none, s)

/-- COPY_FILL (R223, R224, R324, R943): the line of a load that was answered with status 0x00 has come. Where its home is in this package, the bytes are
those of the home; `data` and `poisoned` are what another package sent. A fill that a store of the brick or a flush has overtaken, or of which any part
read poisoned, is discarded; otherwise a mirror line of the tile and a remote-copy line of the brick may be installed, as the device likes (R942). REMWAYS
0 installs no remote copy (R324). -/
def execCopyFill (t : Tile) (addr : Word) (data : Bytes) (poisoned mirror remote : Bool) (e : MemEnv) (s : State) :
    Host.Outcome State Fault Refusal := ended s <|
  let b := tileBrick t
  let line := lineOf (s.canon addr.toNat)
  match (s.brick b).fills.find? (fun f => f.tile = t.val && f.line = line && f.ready) with
  | none => .next s
  | some f =>
    let s := s.onBrick b (fun B => { B with fills := B.fills.erase f })
    if f.stale then .next s else
    let s := memReports e s
    let (got, s) := if addrSeat (line * 128) = 0xFFFF then lineAtHome (line * 128) e s else (if poisoned then none else some (padTo 128 data), s)
    match got with
    | none => .next s
    | some d =>
      let c : CopyLine := { line := line, stamp := f.stamp, data := d }
      let s := if mirror && decide ((s.tile t).stamp ≤ f.stamp) then
          s.onTile t (fun T => { T with mirror := c :: T.mirror.filter (fun x => x.line ≠ line) }) else s
      if !remote || s.rd (Reg.STK_BEDCTL_REMWAYS b) = 0 then .next s else
      let s := s.onBrick b (fun B => { B with copies := B.copies.filter (fun x => x.line ≠ line) })
      let set := bedSet line
      let (w, s) := takeWay b set true e s
      .next (touchWay b set w (s.onBrick b (fun B => { B with copies := { c with way := w } :: B.copies })))

/-! ### Stacks and yards give requests free -/

/-- GRANULE_CHANGE_DONE (R345, R346, R348): the granule of a FOLD_CHG in progress has changed; after the last one DONE is set and event 0x2007
raised. The requests held for it are performed in the new mode. -/
def execGranuleChangeDone (st : Stack) (e : MemEnv) (s : State) : Host.Outcome State Fault Refusal := ended s <|
  let b := stackBrick st
  match (s.stack st).change with
  | none => .next s
  | some (g, last, mode) =>
    if (s.stack st).phyLost then .next s else
    let s := (changeGranule st g mode e (memReports e s)).wr (Reg.FOLD_CHGST_NEXT b) (g + 1)
    let s := if g + 1 < last then s.onStack st (fun S => { S with change := some (g + 1, last, mode) })
      else
        let first := (s.stack st).changeFrom
        let s := s.onStack st (fun S => { S with change := none })
        ((s.wr (Reg.FOLD_CHGST_BUSY b) 0).flag (Reg.FOLD_CHGST_DONE b)).raise 0x2007 [st.val, first, last - first]
    .next (retryHeld b e s)

/-- PAGE_CLEAR_DONE (R389, R413, R824): a page clear has ended: DONE. A stack cleared with ALL while the package starts is remembered for event 0x5101. -/
def execPageClearDone (st : Stack) (s : State) : Host.Outcome State Fault Refusal := ended s <|
  match (s.stack st).clearing with
  | none => .next s
  | some (first, count, all) =>
    if (s.stack st).phyLost then .next s else
    let s := (clearRange st first count all s).onStack st (fun S => { S with clearing := none })
    let s := if all && decide (4 ≤ s.start.phase ∧ s.start.phase ≤ 5) then { s with start := { s.start with cleared := s.start.cleared ++ [st.val] } } else s
    let s := s.wr (Reg.PGC_CLRST_NEXT st) (if all then winTop s st else first + count)
    .next ((s.wr (Reg.PGC_CLRST_BUSY st) 0).flag (Reg.PGC_CLRST_DONE st))

/-- REMAP_INSTALL_DONE (R394): an install has ended, and the requests held for its page are performed. -/
def execRemapInstallDone (st : Stack) (e : MemEnv) (s : State) : Host.Outcome State Fault Refusal := ended s <|
  if (s.stack st).install.isNone || (s.stack st).phyLost then .next s else
  .next (retryHeld (stackBrick st) e (finishInstall st e (memReports e s)))

/-- PASS_END (R403 to R405): a pass whose last page is done, or that is cancelling, ends and writes its record. Hod starts its next default pass as
the last one ends; on a stack that has no pass, Hod starts one (the moment is a DESIGN CHOICE, log entry 215). -/
def execPassEnd (st : Stack) (s : State) : Host.Outcome State Fault Refusal := ended s <|
  match (s.stack st).pass with
  | none => .next (startHodPass st s)
  | some x =>
    if x.finished || x.count = 0 then .next ((endPass st x 0 true s).when x.byHod (startHodPass st))
    else if s.rd (Reg.PGC_SSTAT_STATE st) = psCancelling then .next (endPass st x 1 true s)
    else .next s

/-- SCOW_COPY_DONE (R645 to R648): the oldest copy of a yard has been made: its request is answered, and the requests held for its source are
performed. -/
def execScowCopyDone (b : Brick) (e : MemEnv) (s : State) : Host.Outcome State Fault Refusal := ended s <|
  match (s.brick b).yard.copies with
  | [] => .next s
  | c :: _ =>
    let gone := fun (s : State) => s.onBrick b (fun B => { B with yard := { B.yard with copies := B.yard.copies.erase c } })
    let finish := fun (r : Reply) (s : State) => Host.Outcome.next (retryHeld b e (finishRequest b c.pkt r e (gone s)))
    match runYard b e (do let x ← getDesc c.src
                          let y ← getDesc c.dst
                          return (x.sloc, y.sloc)) (memReports e s) with
    | (.error r, s) => finish (r.1, []) s
    | (.ok (src, dst), s) =>
      if !slabOn s b src || !slabOn s b dst then finish (0x01, []) s else
      if [src, dst].any (fun x => match ownStack b (slocAt x).1 with
          | some st => (s.stack st).phyLost
          | none => false) then .next s else
      let (bad, s) := copySlabData b src dst e s
      match runYard b e (yFinishCopy c bad) s with
      | (.ok d, s) => finish (0x00, d) s
      | (.error r, s) => finish (r.1, []) s

/-- PHY_TRAINING_LOSS (R351): a stack that is ON loses PHY training; its requests are held while it retrains once. -/
def execPhyTrainingLoss (st : Stack) (s : State) : Host.Outcome State Fault Refusal := ended s <|
  if !stackOn s st then .next s else .next (s.onStack st (fun S => { S with phyLost := true }))

/-- A stack that fails in service is fenced (R862): its controller goes OFF and what it held is lost. -/
def fenceStack (st : Stack) (s : State) : State :=
  let d := 136 + st.val
  (setDomain d 0 (dropRequests d (stackLost st (stackDown st s)))).raise 0x600E [st.val]

/-- STACK_PHY_RETRAIN_DONE (R351, R862): the one retrain has ended; the held requests go on, or find the stack fenced. -/
def execStackPhyRetrainDone (st : Stack) (ok : Bool) (e : MemEnv) (s : State) : Host.Outcome State Fault Refusal := ended s <|
  if !(s.stack st).phyLost then .next s else
  let s := s.onStack st (fun S => { S with phyLost := false })
  let s := if ok then s else fenceStack st (s.raise 0x2009 [st.val])
  .next (retryHeld (stackBrick st) e (memReports e s))

/-! ### Prefix walks (R653, R661 to R663) -/

/-- The state with a walk of a yard changed. -/
def onWalk (b : Brick) (id : Nat) (f : Walk → Walk) (s : State) : State :=
  s.onBrick b (fun B => { B with yard := { B.yard with walks := B.yard.walks.map (fun w => if w.id = id then f w else w) } })

/-- A walk ends with an answer: its pin is returned (R655, R661). -/
def leaveWalk (b : Brick) (w : Walk) (r : Reply) (e : MemEnv) (s : State) : State :=
  let s := s.onBrick b (fun B => { B with yard := { B.yard with walks := B.yard.walks.filter (fun x => x.id ≠ w.id) } })
  finishRequest b w.pkt r e (unpin b false w.epoch 1 s)

/-- A walk stops (R637, R663). -/
def stopWalk (b : Brick) (w : Walk) (code bucket : Nat) (e : MemEnv) (s : State) : State :=
  let s := if code = 1 then s.count (Reg.PFX_CNT0_MISSES b) 1 else s
  let s := if code = 3 then (s.flag (Reg.PFX_ERR_CHAIN b)).raise 0x2306 [b.val, bucket] else s
  let d := leBytes 1 w.block ++ leBytes 1 code ++ [0, 0] ++ leBytes 4 w.node ++ leBytes 2 w.ver ++ List.replicate 6 0 ++ leBytes 8 w.hash
  leaveWalk b w (0x00, d) e s

/-- The next block of a walk: its token IDs are loaded, or every block has matched. -/
def nextBlock (b : Brick) (w : Walk) (e : MemEnv) (s : State) : State :=
  let w := { w with phase := .tokens, taken := [] }
  let s := onWalk b w.id (fun _ => w) s
  if w.block < numAt w.pkt.payload 8 1 then walkLoad b w s else stopWalk b w 0 0 e s

/-- The token IDs of a walk's block have come (R661). -/
def walkTokens (b : Brick) (w : Walk) (tokens : Bytes) (e : MemEnv) (s : State) : State :=
  let d := w.pkt.payload
  let lg := layerGroups s b
  let take := bitOf (numAt d 9 1) 0
  match runYard b e (yWalkBlock (numAt d 6 2) w.node w.ver w.hash take tokens) s with
  | (.error r, s) => leaveWalk b w (r.1, []) e s
  | (.ok (.stop code bucket), s) => stopWalk b w code bucket e s
  | (.ok .wait, s) => walkLoad b w s
  | (.ok (.hit i n), s) =>
    let ops := storesOf w.pkt.lbl.toNat (numAt d 24 8 + entrySize lg * w.block) (resultEntry i n take)
    let s := onWalk b w.id (fun w => { w with found := i, foundVer := n.ver, foundHash := n.hash, phase := .writes ops.length false,
                                              taken := if take then n.slabs else [] }) s
    s.each ops (fun s op => issueOp b (.walk b.val w.id) op s)

/-- The outcome of one load or store of a walk taken. -/
def walkTakes (b : Brick) (w : Walk) (r : Result) (e : MemEnv) (s : State) : State :=
  let good := r.kind = .completed && (r.status = 0 || r.status = 0x40)
  match w.phase with
  | .tokens => if good then walkTokens b w r.data e s else stopWalk b w 5 0 e s
  | .writes left bad =>
    let bad := bad || !good
    if 1 < left then onWalk b w.id (fun w => { w with phase := .writes (left - 1) bad }) s
    else if bad then
      match runYard b e (dropEach w.taken) s with
      | (_, s) => stopWalk b w 6 0 e s
    else nextBlock b { w with block := w.block + 1, node := w.found, ver := w.foundVer, hash := w.foundHash } e s

/-- The walks of a brick's yard take what has come for them; one whose outcome is only in doubt goes on waiting. -/
def advanceWalks (b : Brick) (e : MemEnv) (s : State) : State :=
  let s := s.each (s.brick b).yard.walks (fun s w =>
    match takeResult (fun i => i == .walk b.val w.id) s with
    | none => s
    | some (r, s) => if r.kind = .inDoubt then s else walkTakes b w r e s)
  { s with results := s.results.filter (fun r => match r.issuer with
      | .walk k id => !(k = b.val && (s.brick b).yard.walks.all (fun w => w.id ≠ id))
      | _ => true) }

/-! ### Host-managed device memory (R734, R735) -/

/-- A CXL.mem request refused (R735): event 0x4009; a read is answered with poison, and a write is discarded. -/
def refuseHdm (h : HdmReq) (addr : Nat) (s : State) : State :=
  let s := (s.flag Reg.HST_ERR_HDMREF).raise 0x4009 [h.decoder, addr]
  if h.write then s.emit (.hostAnswer h.tag 0x00 []) else
  let (free, s) := s.freeBytes 64
  s.emit (.hostAnswer h.tag 0x41 free)

/-- A CXL.mem request of one 64 B line of decoder `n`, `off` bytes into its range (R734): it enters brick 0 under the decoder's label. -/
def hdmRequest (h : HdmReq) (off : Nat) (data : Bytes) (s : State) : State :=
  let n := h.decoder
  let region := s.rd (Reg.HST_HDM_REGION n)
  let o := s.rd (Reg.HST_HDM_OFFSET n) * 2 ^ 28 + off / 64 * 64
  let addr := region * 2 ^ 44 + o
  if !s.isSet Reg.HST_STAT_LINKUP || !s.isSet Reg.HST_STAT_CXLM then s
  else if !s.isSet (Reg.HST_HDM_EN n) || decide (s.rd (Reg.HST_HDMSZ_SIZE n) * 2 ^ 28 ≤ off) || decide (7 < region) || !populated s region o 64 ||
    foldMode s (stackOf region) (o / granuleSize) then refuseHdm h addr s
  else
    issueOp 0 (.hdm h.tag) { addr := BitVec.ofNat 64 (0xFFFF * 2 ^ 48 + addr), opc := if h.write then 0x02 else 0x01, aux := 0,
                             lbl := labelOf (s.rd (Reg.HST_HDM_LABEL n)), size := 64, payload := data }
      { s with host := { s.host with hdm := s.host.hdm ++ [h] } }

/-- HDM_MEMRD (R734, R735): the host reads a line, to share it or to own it. -/
def execHdmMemrd (tag : Nat) (n : Fin 8) (off : BitVec 44) (own : Bool) (s : State) : Host.Outcome State Fault Refusal := ended s <|
  .next (hdmRequest { tag := tag, decoder := n.val, write := false, own := own } off.toNat [] s)

/-- HDM_MEMWR (R734, R735): the host writes a line, and keeps it or gives it up. -/
def execHdmMemwr (tag : Nat) (n : Fin 8) (off : BitVec 44) (data : Bytes) (keep : Bool) (s : State) : Host.Outcome State Fault Refusal := ended s <|
  .next (hdmRequest { tag := tag, decoder := n.val, write := true, own := keep } off.toNat (padTo 64 data) s)

/-- The outcome of a CXL.mem request goes back to the host (R735); one that its home rejected, for a key or for a granule's mode, is refused. -/
def answerHdm (h : HdmReq) (r : Result) (s : State) : State :=
  let s := { s with host := { s.host with hdm := s.host.hdm.erase h } }
  let addr := bitsOf r.op.addr.toNat 47 0
  if r.kind = .rejected then refuseHdm h addr s
  else if h.write then s.emit (.hostAnswer h.tag 0x00 [])
  else if r.kind = .completed && r.status = 0 then s.emit (.hostAnswer h.tag 0x00 r.data)
  else
    let (free, s) := s.freeBytes 64
    (s.emit (.hostAnswer h.tag 0x41 free)).emit (.mediaEvent addr)

/-- The outcomes of CXL.mem requests taken. -/
def takeHdm (s : State) : State :=
  let mine := s.results.filterMap (fun r => match r.issuer with
    | .hdm tag => if r.kind = .inDoubt then none else (s.host.hdm.find? (fun h => h.tag = tag)).map (fun h => (h, r))
    | _ => none)
  let s := { s with results := s.results.filter (fun r => match r.issuer with
    | .hdm _ => false
    | _ => true) }
  s.each mine (fun s x => answerHdm x.1 x.2 s)

/-- BISNP_RESPONSE (R735): the host answers a back-invalidate snoop of a sector, with what it had modified: it is written at the home, the entry goes,
or after a BISnpData becomes Shared, and the requests that waited for it go on. -/
def execBisnpResponse (st : Stack) (sector : BitVec 30) (wb : Option Bytes) (e : MemEnv) (s : State) : Host.Outcome State Fault Refusal := ended s <|
  let b := stackBrick st
  match (s.brick b).snoop.find? (fun x => x.stack = st.val && x.sector = sector.toNat && x.asked ≠ 0) with
  | none => .next s
  | some x =>
    let s := memReports e s
    let s := match wb with
      | some d => if x.em then (homeWrite st (x.sector * 64) (padTo 64 d) e s).2 else s
      | none => s
    let left := (s.brick b).snoop
    let left := if x.asked = 1 then left.map (fun y => if y = x then { y with em := false, asked := 0 } else y) else left.erase x
    .next (retryHeld b e (s.onBrick b (fun B => { B with snoop := left })))

/-- HOST_CACHE_RESPONSE (R725, R730, R731): the host answers an access of the device: a region 0xB request completes, a completion or an event record
is observed and may raise its vector. -/
def execHostCacheResponse (tag : Nat) (poisoned : Bool) (data : Bytes) (e : MemEnv) (s : State) : Host.Outcome State Fault Refusal := ended s <|
  match s.host.accs.find? (fun a => a.tag = tag) with
  | none => .next s
  | some a =>
    let s := { s with host := { s.host with accs := s.host.accs.erase a } }
    match a.use with
    | .request p =>
      if p.opc.toNat = 2 then .next (finishRequest 0 p (0x00, []) e s)
      else if poisoned then
        (let (free, s) := s.freeBytes p.size.toNat
         .next (finishRequest 0 p (0x41, free) e s))
      else .next (finishRequest 0 p (0x00, padTo p.size.toNat data) e s)
    | .completion r noint => .next (if noint then s else vectorDue r s)
    | .event noint => .next (if noint then s else vectorDue 32 s)

end Sys2Proof.Machine
end

