-- ==== Sys2Proof/Machine/Dest.lean ====
section
/-! DEFINITION. The destination side of transport: requests, probes, acknowledgements, and the closing and reset of flows (R163, R182 to R190, R194, R201,
R859, R935 to R937). -/
namespace Sys2Proof.Machine
open Sys2Proof

/-! ### Checks that every packet passes -/

/-- Whether a packet stays in the package and so skips the seat checks: it is from no seat, and addresses none (R50, R936). -/
def staysInside (p : Packet) : Bool := p.sseat.toNat = 0xFFFF && addrSeat p.addr.toNat = 0xFFFF

/-- Whether the package holds the seat a packet addresses (R174). -/
def holdsSeat (s : State) (p : Packet) : Bool := staysInside p || s.ownSeat = some (addrSeat p.addr.toNat)

/-- Whether a packet's GEN is the one of own seat (R185). -/
def genCurrent (s : State) (p : Packet) : Bool := staysInside p || p.gen.toNat = s.ownGen

/-- Whether a packet's GEN is older than the one of own seat (R177, R190, R194). -/
def genOld (s : State) (p : Packet) : Bool := !staysInside p && newerGen s.ownGen p.gen.toNat

/-- Whether SGEN is the one of a Live entry for SSEAT (R185). -/
def sourceCurrent (s : State) (p : Packet) : Bool :=
  let e := s.seatEntry p.sseat.toNat
  staysInside p || (entryState e = 1 && entryGen e = p.sgen.toNat)

/-- Whether INC names this incarnation, or none (R185). -/
def incCurrent (s : State) (p : Packet) : Bool := p.inc = 0 || p.inc.toNat = s.ownInc

/-- A packet answered with a class-1 packet (R935). -/
def reply (b : Brick) (p : Packet) (ptype status : Nat) (data : Bytes) (s : State) : State := s.answerFrom b (s.answer p ptype status data)

/-- Wrong seat answered (R69, R185): event 0x1105. -/
def wrongSeat (b : Brick) (p : Packet) (ptype : Nat) (s : State) : State :=
  reply b p ptype 0x80 [] ((s.flag (Reg.MRT_TERR_WRONGSEAT b)).raise 0x1105 [addrSeat p.addr.toNat, p.sseat.toNat])

/-- Stale source or stale incarnation answered (R185): event 0x1106. -/
def staleSource (b : Brick) (p : Packet) (ptype status : Nat) (s : State) : State :=
  reply b p ptype status [] ((s.flag (Reg.MRT_TERR_STALE b)).raise 0x1106 [b.val])

/-- A packet that has come for a brick, taken: none where its ECRC, its length or its age discards it (R163, R184). -/
def takePacket (b : Brick) (p : Packet) (s : State) : Bool × State :=
  let s := s.takeArrived b p
  if !packetSound p then (false, s.ecrcFail b p) else if s.tooOld b p then (false, s.agedOut b) else (true, s)

/-! ### Flow state -/

/-- ACKS of a packet taken by a flow: ACKD rises, and the answers it passes are freed (R180, R187). -/
def takeAcks (b : Brick) (p : Packet) (s : State) : State :=
  s.onDst b p (fun f =>
    let a := max f.ackd p.acks.toNat
    { f with ackd := a, retained := f.retained.filter (fun r => decide (a ≤ r.seq)) })

/-- Bytes that a brick's reorder store holds (R186). -/
def reorderUsed (B : BrickState) : Nat := (B.dstFlows.map (fun f => (f.held.map (fun q => 8 * q.len.toNat)).sum)).sum

/-- A packet kept in the reorder store, which holds 2 MiB; a full store discards it (R185 step 11, R186). -/
def holdPacket (b : Brick) (p : Packet) (s : State) : State :=
  if 2 * 2 ^ 20 < reorderUsed (s.brick b) + 8 * p.len.toNat then (s.flag (Reg.MRT_TERR_REORDFULL b)).raise 0x110A [b.val]
  else s.onDst b p (fun f => { f with held := f.held ++ [p] })

/-- Steps 8 to 12 of R185, and the duplicates of R937. -/
def takeInFlow (b : Brick) (p : Packet) (e : MemEnv) (s : State) : State :=
  let s := takeAcks b p s
  match s.dstFlow b p with
  | none => s
  | some f =>
    let seq := p.seq.toNat
    if seq < f.nxt then
      let s := s.count (Reg.MRT_TCNT1_DUPS b) 1
      match f.retained.find? (fun r => r.seq = seq) with
      | some r => reply b p ptRsp r.status r.data s
      | none => s
    else if f.performing.any (fun q => q.seq = p.seq) || f.held.any (fun q => q.seq = p.seq) then s
    else if p.att.toNat ≠ f.attMin then s.count (Reg.MRT_TCNT1_DUPS b) 1
    else if f.nxt + 4096 ≤ seq then s.raise 0x1109 [b.val]
    else if seq = f.nxt && mayPerform s b && !retentionFull s b then
      runFlow b p e (f.held.length + 1) (s.onDst b p (fun f => { f with held := f.held ++ [p] }))
    else holdPacket b p s

/-- A flow opened by a request with OPN, replacing any state under another SGEN (R185 step 6). -/
def openFlow (b : Brick) (p : Packet) (s : State) : State :=
  let f : DstFlow := { sseat := p.sseat.toNat, sgen := p.sgen.toNat, sbrk := p.sbrk.toNat, lbl := p.lbl.toNat, fep := p.fep.toNat, attMin := p.att.toNat }
  s.onBrick b (fun B => { B with dstFlows := B.dstFlows.filter (fun g => !g.sameFlow p) ++ [f] })

/-! ### Commands -/

/-- REQ_RECEIVE (R183, R185): the destination takes a request by the first row of R185 that applies. While the incarnation is fresh nothing is
performed, and the request is discarded where it would have been taken into a flow. -/
def execReqReceive (b : Brick) (p : Packet) (e : MemEnv) (s : State) : Host.Outcome State Fault Refusal := ended s <|
  if p.ptype.toNat ≠ ptReq then .next s else
  match takePacket b p s with
  | (false, s) => .next s
  | (true, s) =>
    let s := memReports e s
    if !holdsSeat s p || !genCurrent s p then .next (wrongSeat b p ptRsp s)
    else if !sourceCurrent s p then .next (staleSource b p ptRsp 0x81 s)
    else if !incCurrent s p then .next (staleSource b p ptRsp 0x82 s)
    else match s.dstFlow b p with
      | some f => .next (if f.fep ≠ p.fep.toNat || (s.brick b).quarantine then s else takeInFlow b p e s)
      | none =>
        if !p.opn then .next (reply b p ptRsp 0x83 [] s)
        else if (s.brick b).quarantine then .next s
        else if 65536 ≤ (s.brick b).dstFlows.length && (s.brick b).dstFlows.all (fun g => !g.sameFlow p) then .next (reply b p ptRsp 0x84 [] s)
        else .next (takeInFlow b p e (openFlow b p s))

/-- The sequence number after the last that a flow has begun to perform. -/
def DstFlow.begun (f : DstFlow) : Nat := f.nxt + bit f.performing.isSome

/-- PRB_RECEIVE (R155, R183, R194): the destination answers a probe by the first row that applies; every PRA carries NXT in ACKS, 0 where the flow has no
state. A probe of the request being performed is not answered
(DEDUCED, log entry 87); its source asks again. -/
def execPrbReceive (b : Brick) (p : Packet) (s : State) : Host.Outcome State Fault Refusal := ended s <|
  if p.ptype.toNat ≠ ptPrb then .next s else
  match takePacket b p s with
  | (false, s) => .next s
  | (true, s) =>
    if (s.brick b).quarantine then .next s else
    if !holdsSeat s p then .next (wrongSeat b p ptRsp s) else
    let nxt := (s.dstFlow b p).elim 0 (fun f => f.begun)
    let lost := s.answerFrom b ((s.answer p ptPra 0x92 []).map (fun q => { q with acks := BitVec.ofNat 32 nxt }))
    if genOld s p || !incCurrent s p then .next lost else
    match s.dstFlow b p with
    | none => .next lost
    | some f =>
      if f.fep ≠ p.fep.toNat then .next lost else
      let seq := p.seq.toNat
      if f.begun ≤ seq then
        let att := (f.attMin + 1) % 256
        let s := s.onDst b p (fun f => { f with attMin := att, held := [] })
        .next (s.answerFrom b ((s.answer p ptPra 0x91 []).map (fun q => { q with acks := BitVec.ofNat 32 f.begun, att := BitVec.ofNat 8 att })))
      else match f.retained.find? (fun r => r.seq = seq) with
        | some r => .next (s.answerFrom b ((s.answer p ptPra 0x90 r.data).map (fun q => { q with acks := BitVec.ofNat 32 f.begun, att := BitVec.ofNat 8 r.status })))
        | none => .next s

/-- FACK_RECEIVE (R187, R189): ACKS alone. -/
def execFackReceive (b : Brick) (p : Packet) (s : State) : Host.Outcome State Fault Refusal := ended s <|
  if p.ptype.toNat ≠ ptFack then .next s else
  match takePacket b p s with
  | (false, s) => .next s
  | (true, s) =>
    match s.dstFlow b p with
    | some f => .next (if f.fep = p.fep.toNat then takeAcks b p s else s)
    | none => .next s

/-- The state without the flow of a packet. -/
def dropFlow (b : Brick) (p : Packet) (s : State) : State := s.onBrick b (fun B => { B with dstFlows := B.dstFlows.filter (fun f => !f.mine p) })

/-- FCLS_RECEIVE (R190): a flow whose FEP and NXT match is deleted; FCA is the answer in every case. -/
def execFclsReceive (b : Brick) (p : Packet) (s : State) : Host.Outcome State Fault Refusal := ended s <|
  if p.ptype.toNat ≠ ptFcls then .next s else
  match takePacket b p s with
  | (false, s) => .next s
  | (true, s) =>
    if !holdsSeat s p || genOld s p then .next (wrongSeat b p ptFca s) else
    match s.dstFlow b p with
    | some f => .next (reply b p ptFca 0x00 [] (if f.fep = p.fep.toNat && f.nxt = p.acks.toNat then dropFlow b p s else s))
    | none => .next (reply b p ptFca 0x00 [] s)

/-- FRST_RECEIVE (R201): a flow all of whose requests are performed and acknowledged begins the next epoch; one already there is answered again; any
other state of the flow is deleted, with STATUS 0x92. -/
def execFrstReceive (b : Brick) (p : Packet) (s : State) : Host.Outcome State Fault Refusal := ended s <|
  if p.ptype.toNat ≠ ptFrst then .next s else
  match takePacket b p s with
  | (false, s) => .next s
  | (true, s) =>
    if !holdsSeat s p then .next (wrongSeat b p ptFra s)
    else if !sourceCurrent s p then .next (staleSource b p ptFra 0x81 s)
    else if !incCurrent s p then .next (staleSource b p ptFra 0x82 s)
    else
      let fep := (p.fep.toNat + 1) % 256
      let done := fun (s : State) => s.answerFrom b ((s.answer p ptFra 0x00 []).map (fun q => { q with fep := BitVec.ofNat 8 fep }))
      match (s.dstFlow b p) with
      | none => .next (reply b p ptFra 0x92 [] s)
      | some f =>
        if f.fep = fep then .next (done s)
        else if f.fep = p.fep.toNat && f.nxt = p.seq.toNat + 1 && max f.ackd p.acks.toNat = f.nxt then
          .next (done (s.onDst b p (fun f => { f with fep := fep, nxt := 0, ackd := 0, attMin := 0, held := [], retained := [], performing := none })))
        else .next (reply b p ptFra 0x92 [] (dropFlow b p s))

end Sys2Proof.Machine
end

