-- ==== Sys2Proof/Machine/Road.lean ====
section
/-! DEFINITION. Host loss, the host link, and the reference clocks (R304, R655, R721, R753 to R756, R764, R809, R813). -/
namespace Sys2Proof.Machine
open Sys2Proof

/-! ### Host loss (R753 to R756) -/

/-- Steps 2 and 3 of R754: every ring and every drop window disabled, and every host line dropped. Commands that are accepted stay in the record;
completions that wait for a ring are dropped with it. -/
def dropRoad (s : State) : State :=
  let s := s.each (List.range 32) (fun s r => s.wr (Reg.HST_CBASE_EN r) 0)
  let s := s.each (List.range 16) (fun s n => s.wr (Reg.HST_DROP_EN n) 0)
  { s with host := { s.host with rings := [], doorbells := [], lines := [], msiDue := [], hdm := [] } }

/-- Step 4 of R754: the accesses to host space that are unanswered end with status 0x42, those held included. -/
def settleHostSpace (e : MemEnv) (s : State) : State :=
  let ps := s.host.accs.filterMap (fun a => match a.use with
    | .request p => some p
    | _ => none)
  let s := { s with host := { s.host with accs := [] } }
  retryHeld 0 e (s.each ps (fun s p => finishRequest 0 p (0x42, []) e s))

/-- The hold policy (R755): long operations are held, and every mason and sieve not under a RUN is asked to suspend. -/
def holdForHost (s : State) : State :=
  let busy := (s.host.ops.filter runGoing).flatMap runTiles
  let s := s.each (openLongOps s) (fun s o => suspendOp o.id s)
  s.each (List.finRange 128) (fun s t => if busy.contains t then s else holdTile t s)

/-- Host loss detected (R753 to R755, R655, R764), with its reason: 1 PERST#, 2 the link down, 3 a hot reset or a link disable, 4 a function-level
reset. All but the second reset the host-link controller (R813). -/
def hostLoss (reason : Nat) (e : MemEnv) (s : State) : State :=
  let policy := s.rd Reg.HST_CTL_HLPOL
  let ids := (openLongOps s).map (fun (o : HostOp) => o.id)
  let s := { s with host := { s.host with perst := s.host.perst || reason == 1, reason := reason, detectedAt := s.plumb.toNat, policy := policy,
                                          nonce := List.replicate 32 0, listed := ids, settleDue := true } }
  let s := (s.wr Reg.HST_STAT_HOSTLOST 1).wr Reg.HST_STAT_ATTACHED 0
  let s := (s.wr Reg.HST_MANSTAT_FROZEN 0).wr Reg.HST_MANSTAT_READY 0
  let s := if reason = 4 then s else s.wr Reg.HST_STAT_LINKUP 0
  let s := settleHostSpace e (dropRoad s)
  let s := s.each ([0, 1, 2, 3] : List Brick) (fun s b => (s.wr (Reg.SLB_HPINS_HPINS0 b) 0).wr (Reg.SLB_HPINS_HPINS1 b) 0)
  let s := if policy = 1 then holdForHost s else s
  let s := if reason = 2 then s else noteReset [kindHost, reason] s
  s.raise 0x4002 [reason]

/-- HOST_LOSS (R753, R754): PERST#, a hot reset or link disable, a function-level reset, or the end of the debounce. -/
def execHostLoss (reason : Fin 4) (e : MemEnv) (s : State) : Host.Outcome State Fault Refusal := ended s <| .next (hostLoss (reason.val + 1) e (memReports e s))

/-- HLDEB_EXPIRY (R753): the data link has stayed down for longer than HLDEB. -/
def execHldebExpiry (e : MemEnv) (s : State) : Host.Outcome State Fault Refusal := ended s <| .next (hostLoss 2 e (memReports e s))

/-- A sector that the lost host may have modified (R756): poisoned in the bed cache, into which it is read where it is not held. -/
def loseSector (b : Brick) (x : Snoop) (e : MemEnv) (s : State) : State :=
  let st := stackOf x.stack
  let off := x.sector * 64
  let s := s.onBrick b (fun B => { B with snoop := B.snoop.erase x })
  if !x.em then s else
  let s := { s with host := { s.host with lostSectors := s.host.lostSectors ++ [x.stack * 2 ^ 44 + off] } }
  if !stackOn s st then s else
  let s := allocHome st off e s
  let s := if sectorHeld s st off then s else fillSector st off e s
  poisonSector st off s

/-- SNOOP_FILTER_SETTLE (R756): after host loss every entry of every snoop filter goes, and event 0x4008 counts the sectors that are lost. The
requests that waited for the host go on. -/
def execSnoopFilterSettle (e : MemEnv) (s : State) : Host.Outcome State Fault Refusal := ended s <|
  if !s.host.settleDue then .next s else
  let bs : List Brick := [0, 1, 2, 3]
  let lost := (bs.map (fun (b : Brick) => ((s.brick b).snoop.filter (fun x => x.em)).length)).sum
  let s := memReports e { s with host := { s.host with settleDue := false } }
  let s := s.each bs (fun s b => s.each (s.brick b).snoop (fun s x => loseSector b x e s))
  .next (s.raise 0x4008 [lost] |>.each bs (fun s b => retryHeld b e s))

/-- HOST_LINK_UP (R720, R721): the link has trained, to a width of 4, 8 or 16 lanes (code 1 to 3) at 16, 32 or 64 GT/s in FLIT mode (code 1 to 3), or
it has reached less than it must, and does not enter service. The requests that waited for it go on. -/
def execHostLinkUp (width rate : Fin 4) (cache mem : Bool) (e : MemEnv) (s : State) : Host.Outcome State Fault Refusal := ended s <|
  if s.host.perst || !s.isSet Reg.PWR_STAT_HREFOK || !uncoreOn s 0 then .next s
  else if width.val = 0 || rate.val = 0 then .next (s.raise 0x4001 [0, rate.val, 0, 0])
  else
    let s := (((s.wr Reg.HST_STAT_WIDTH width.val).wr Reg.HST_STAT_RATE rate.val).wr Reg.HST_STAT_CXLC (bit cache)).wr Reg.HST_STAT_CXLM (bit mem)
    .next (retryHeld 0 e ((s.wr Reg.HST_STAT_LINKUP 1).raise 0x4001 [width.val, rate.val, bit cache, bit mem]))

/-! ### Reference clocks (R304, R809) -/

/-- Every port that trains or works goes down for want of MREF (R138, R809), to retrain once it is back. -/
def portsLose (s : State) : State :=
  s.each (List.finRange 24) (fun s p =>
    if 1 ≤ s.portState p && s.portState p ≤ 8 then holdOr p id ((settleDown (.port p) 2 s).toPortState p 9) else s)

/-- The tile clocks of the package at their lowest point while they run from AON_CLK (R809). -/
def slowClocks (s : State) : State :=
  s.each ([0, 1, 2, 3] : List Brick) (fun s b => if uncoreOn s b then (setFmax b 0x30 s).wr (Reg.PWR_DVFS_FCUR b) 0x30 else s)

/-- REFERENCE_CLOCK_LOSS (R304, R809): MREF (0), HREF (1) or AON_CLK (2) is lost. -/
def execReferenceClockLoss (clk : Fin 3) (e : MemEnv) (s : State) : Host.Outcome State Fault Refusal := ended s <|
  let lock := if clk = 0 then Reg.PWR_STAT_MREFOK else if clk = 1 then Reg.PWR_STAT_HREFOK else Reg.PWR_STAT_AONLOCK
  if !s.isSet lock then .next s else
  let s := ((memReports e s).wr lock 0).flag Reg.PWR_ERR_CLKLOSS
  let s :=
    if clk = 0 then slowClocks (portsLose (s.wr Reg.PWR_STAT_TPLL 0))
    else if clk = 1 then hostLoss 2 e s
    else loseAlignment 2 (enterPackageSafe 1 e s)
  .next (s.raise 0x5052 [clk.val])

/-- REFERENCE_CLOCK_RESTORED (R809): MREF has been stable for 10 ms: the tile and mortar clocks switch back and the ports train. HREF comes back
without an event, and its link trains when the host does. AON_CLK comes back only with a cold reset. -/
def execReferenceClockRestored (clk : Fin 3) (s : State) : Host.Outcome State Fault Refusal := ended s <|
  if clk = 0 then
    if s.isSet Reg.PWR_STAT_MREFOK || !s.start.aon || s.start.rstLow then .next s else
    let s := s.wr Reg.PWR_STAT_MREFOK 1
    let s := s.wr Reg.PWR_STAT_TPLL (s.rd Reg.PWR_STAT_UNCON)
    let s := s.each (List.finRange 24) (fun s p =>
      if s.portState p = 9 && !(s.link (.port p)).training.failed then startTraining p (s.isSet (Reg.MRT_PCTL_FASTOK p)) s else s)
    .next (s.raise 0x5053 [0])
  else if clk = 1 then
    .next (if s.start.aon && !s.start.rstLow then s.wr Reg.PWR_STAT_HREFOK 1 else s)
  else .next s

end Sys2Proof.Machine
end

