-- ==== Sys2Proof/Machine/Spdm.lean ====
section
/-! DEFINITION. Hod's answers to SPDM 1.3 over DOE (R796 to R799). The spec names the messages, algorithms and limits; the layout of the messages is that
of SPDM 1.3 itself (PRESUMED, log entry 76). -/
namespace Sys2Proof.Machine
open Sys2Proof

/-- An answer of Hod to the requester. -/
def spdmSend (x : Bytes) (s : State) : State := s.emit (.sideband "DOE" x)

/-- Bytes from numbers. -/
def bytesOf (xs : List Nat) : Bytes := xs.map (BitVec.ofNat 8)

/-- An ERROR answer with a code: 0x01 invalid request, 0x04 unexpected request. -/
def spdmError (code : Nat) (s : State) : State := spdmSend (bytesOf [0x13, 0x7F, code, 0]) s

/-- What a requester and Hod have agreed, changed. -/
def onSpdm (f : SpdmState → SpdmState) (s : State) : State := { s with hod := { s.hod with spdm := f s.hod.spdm } }

/-- A nonce from the random number generator (R771): 32 free bytes. -/
def spdmNonce (s : State) : Bytes × State := s.freeBytes 32

/-- The digest of the certificate chain. -/
def chainDigest : Bytes := sha384 Config.certChain

/-- The measurement blocks of R796: index, DMTF form, raw digest. -/
def measurementBlock (s : State) (i : Nat) : Bytes :=
  leBytes 1 i ++ leBytes 1 1 ++ leBytes 2 51 ++ leBytes 1 0x80 ++ leBytes 2 48 ++ padTo 48 (s.hod.meas.getD (i - 1) [])

/-- A signature over what two sides have exchanged, its digest prefixed as SPDM 1.3 asks. -/
def spdmSign (context : String) (transcript : Bytes) : Bytes :=
  let text := fun (x : String) => x.toList.map (fun c => BitVec.ofNat 8 c.toNat)
  let pre := (List.replicate 4 (text "dmtf-spdm-v1.3.*")).flatten
  padTo 96 (Config.deviceSign (sha384 (pre ++ (List.replicate (36 - context.length) (0 : Byte)) ++ text context ++ sha384 transcript)))

/-- GET_VERSION (R798): SPDM 1.3 alone. It begins an exchange anew. -/
def execGetVersion (req : Bytes) (s : State) : Host.Outcome State Fault Refusal := ended s <|
  if !hodActs s then .next s
  else if numAt req 1 1 ≠ 0x84 then .next (spdmError 0x01 s) else
  let rsp := bytesOf [0x10, 0x04, 0, 0, 0, 1, 0x00, 0x13]
  .next (spdmSend rsp (onSpdm (fun _ => { version := true, vca := req ++ rsp }) s))

/-- GET_CAPABILITIES (R798): certificates, challenge and signed measurements; a data transfer size of 4,096 B. -/
def execGetCapabilities (req : Bytes) (s : State) : Host.Outcome State Fault Refusal := ended s <|
  if !hodActs s then .next s
  else if numAt req 1 1 ≠ 0xE1 || numAt req 0 1 ≠ 0x13 then .next (spdmError 0x01 s)
  else if !s.hod.spdm.version || s.hod.spdm.caps then .next (spdmError 0x04 s) else
  let rsp := bytesOf [0x13, 0x61, 0, 0, 0, 0, 0, 0] ++ leBytes 4 0x16 ++ leBytes 4 4096 ++ leBytes 4 4096
  .next (spdmSend rsp (onSpdm (fun x => { x with caps := true, vca := x.vca ++ req ++ rsp }) s))

/-- NEGOTIATE_ALGORITHMS (R798): ECDSA P-384 and SHA-384 only. -/
def execNegotiateAlgorithms (req : Bytes) (s : State) : Host.Outcome State Fault Refusal := ended s <|
  if !hodActs s then .next s
  else if numAt req 1 1 ≠ 0xE3 || numAt req 0 1 ≠ 0x13 || !bitOf (numAt req 8 4) 7 || !bitOf (numAt req 12 4) 1 then .next (spdmError 0x01 s)
  else if !s.hod.spdm.caps || s.hod.spdm.algs then .next (spdmError 0x04 s) else
  let rsp := bytesOf [0x13, 0x63, 0, 0] ++ leBytes 2 36 ++ bytesOf [1, 0] ++ leBytes 4 2 ++ leBytes 4 0x80 ++ leBytes 4 2 ++ List.replicate 16 0
  .next (spdmSend rsp (onSpdm (fun x => { x with algs := true, vca := x.vca ++ req ++ rsp }) s))

/-- GET_DIGESTS (R798): slot 0 is the only slot. -/
def execGetDigests (req : Bytes) (s : State) : Host.Outcome State Fault Refusal := ended s <|
  if !hodActs s then .next s
  else if numAt req 1 1 ≠ 0x81 || numAt req 0 1 ≠ 0x13 then .next (spdmError 0x01 s)
  else if !s.hod.spdm.algs then .next (spdmError 0x04 s) else
  let rsp := bytesOf [0x13, 0x01, 1, 1] ++ chainDigest
  .next (spdmSend rsp (onSpdm (fun x => { x with certs := x.certs ++ req ++ rsp }) s))

/-- GET_CERTIFICATE (R798, R799): a portion of the slot 0 chain: offset and length in the request. -/
def execGetCertificate (req : Bytes) (s : State) : Host.Outcome State Fault Refusal := ended s <|
  if !hodActs s then .next s
  else if numAt req 1 1 ≠ 0x82 || numAt req 0 1 ≠ 0x13 || numAt req 2 1 ≠ 0 || Config.certChain.length < numAt req 4 2 then .next (spdmError 0x01 s)
  else if !s.hod.spdm.algs then .next (spdmError 0x04 s) else
  let left := Config.certChain.length - numAt req 4 2
  let n := min (min (numAt req 6 2) left) 4088
  let rsp := bytesOf [0x13, 0x02, 0, 0] ++ leBytes 2 n ++ leBytes 2 (left - n) ++ (Config.certChain.drop (numAt req 4 2)).take n
  .next (spdmSend rsp (onSpdm (fun x => { x with certs := x.certs ++ req ++ rsp }) s))

/-- CHALLENGE (R798, R799): a signature over the exchange by the device attestation key. -/
def execChallenge (req : Bytes) (s : State) : Host.Outcome State Fault Refusal := ended s <|
  if !hodActs s then .next s
  else if numAt req 1 1 ≠ 0x83 || numAt req 0 1 ≠ 0x13 || numAt req 2 1 ≠ 0 then .next (spdmError 0x01 s)
  else if !s.hod.spdm.algs then .next (spdmError 0x04 s) else
  let (nonce, s) := spdmNonce s
  let all := (List.range 6).flatMap (fun i => padTo 48 (s.hod.meas.getD i []))
  let summary := if numAt req 3 1 = 0xFF then sha384 all else if numAt req 3 1 = 1 then sha384 (padTo 48 (s.hod.meas.getD 0 [])) else []
  let body := bytesOf [0x13, 0x03, 0, 1] ++ chainDigest ++ nonce ++ summary ++ leBytes 2 0 ++ (req.drop 36).take 8
  let x := s.hod.spdm
  .next (spdmSend (body ++ spdmSign "responder-challenge_auth signing" (x.vca ++ x.certs ++ req ++ body)) s)

/-- GET_MEASUREMENTS (R796, R798): the number of blocks, one block or all; signed on request. -/
def execGetMeasurements (req : Bytes) (s : State) : Host.Outcome State Fault Refusal := ended s <|
  if !hodActs s then .next s
  else if numAt req 1 1 ≠ 0xE0 || numAt req 0 1 ≠ 0x13 || (6 < numAt req 3 1 && numAt req 3 1 ≠ 0xFF) then .next (spdmError 0x01 s)
  else if !s.hod.spdm.algs then .next (spdmError 0x04 s) else
  let (nonce, s) := spdmNonce s
  let which := numAt req 3 1
  let blocks := if which = 0 then [] else if which = 0xFF then [1, 2, 3, 4, 5, 6] else [which]
  let data := blocks.flatMap (measurementBlock s)
  let body := bytesOf [0x13, 0x60, if which = 0 then 6 else 0, 0, blocks.length] ++ leBytes 3 data.length ++ data ++ nonce ++ leBytes 2 0 ++
    (if bitOf (numAt req 2 1) 0 then (req.drop 37).take 8 else (req.drop 4).take 8)
  let x := s.hod.spdm
  if bitOf (numAt req 2 1) 0 then
    .next (spdmSend (body ++ spdmSign "responder-measurements signing" (x.vca ++ x.measured ++ req ++ body)) (onSpdm (fun x => { x with measured := [] }) s))
  else .next (spdmSend body (onSpdm (fun x => { x with measured := x.measured ++ req ++ body }) s))

end Sys2Proof.Machine
end

