-- ==== Sys2Proof/Machine/Dispatch.lean ====
section
/-! DEFINITION. Every command and its meaning: one arm per constructor of Instr, one direct call each. -/
namespace Sys2Proof.Machine
open Sys2Proof

/-- The effect of a command on everything but the queue of commands that wait. -/
def exec (i : Instr) (s : State) : Host.Outcome State Fault Refusal :=
  match i with
  | .registerWrite src off wide v e => Sys2Proof.Machine.execRegisterWrite src off wide v e s
  | .rcFieldRead src off wide => Sys2Proof.Machine.execRcFieldRead src off wide s
  | .operationIssue b issuer op => Sys2Proof.Machine.execOperationIssue b issuer op s
  | .flowEntryFreedSend b => Sys2Proof.Machine.execFlowEntryFreedSend b s
  | .outmaxRelease b fl => Sys2Proof.Machine.execOutmaxRelease b fl s
  | .heldOperationSend b => Sys2Proof.Machine.execHeldOperationSend b s
  | .heldOperationUnreachable b routed k => Sys2Proof.Machine.execHeldOperationUnreachable b routed k s
  | .packetRoute b p draw => Sys2Proof.Machine.execPacketRoute b p draw s
  | .waitingPacketSend b => Sys2Proof.Machine.execWaitingPacketSend b s
  | .waitingPacketAgeOut b => Sys2Proof.Machine.execWaitingPacketAgeOut b s
  | .reqReceive b p e => Sys2Proof.Machine.execReqReceive b p e s
  | .retentionStoreResume b e => Sys2Proof.Machine.execRetentionStoreResume b e s
  | .rspReceive b p => Sys2Proof.Machine.execRspReceive b p s
  | .te2eExpiry b fl seq => Sys2Proof.Machine.execTe2eExpiry b fl seq s
  | .probeResend b fl => Sys2Proof.Machine.execProbeResend b fl s
  | .prbReceive b p => Sys2Proof.Machine.execPrbReceive b p s
  | .praReceive b p => Sys2Proof.Machine.execPraReceive b p s
  | .staleSourceResend b fl seq => Sys2Proof.Machine.execStaleSourceResend b fl seq s
  | .flowReopen b fl => Sys2Proof.Machine.execFlowReopen b fl s
  | .wrongSeatCastWaitExpiry b fl seq => Sys2Proof.Machine.execWrongSeatCastWaitExpiry b fl seq s
  | .fackSend b fl => Sys2Proof.Machine.execFackSend b fl s
  | .fackReceive b p => Sys2Proof.Machine.execFackReceive b p s
  | .flowClose b fl => Sys2Proof.Machine.execFlowClose b fl s
  | .fclsReceive b p => Sys2Proof.Machine.execFclsReceive b p s
  | .fcaReceive b p => Sys2Proof.Machine.execFcaReceive b p s
  | .fclsRepeat b fl => Sys2Proof.Machine.execFclsRepeat b fl s
  | .flowResetStart b fl => Sys2Proof.Machine.execFlowResetStart b fl s
  | .frstSend b fl => Sys2Proof.Machine.execFrstSend b fl s
  | .frstReceive b p => Sys2Proof.Machine.execFrstReceive b p s
  | .fraReceive b p => Sys2Proof.Machine.execFraReceive b p s
  | .frstRepeat b fl => Sys2Proof.Machine.execFrstRepeat b fl s
  | .seatCast v wide => Sys2Proof.Machine.execSeatCast v wide s
  | .seatTblWrite seat entry => Sys2Proof.Machine.execSeatTblWrite seat entry s
  | .castReceive b p => Sys2Proof.Machine.execCastReceive b p s
  | .incarnationQuarantineEnd => Sys2Proof.Machine.execIncarnationQuarantineEnd s
  | .mrtTtmoWrite b v => Sys2Proof.Machine.execMrtTtmoWrite b v s
  | .flitReceive l a => Sys2Proof.Machine.execFlitReceive l a s
  | .nakReceive l => Sys2Proof.Machine.execNakReceive l s
  | .acktmrExpiry l => Sys2Proof.Machine.execAcktmrExpiry l s
  | .tlimitExpiry l => Sys2Proof.Machine.execTlimitExpiry l s
  | .fastRetrainTimeout p => Sys2Proof.Machine.execFastRetrainTimeout p s
  | .downReceive l => Sys2Proof.Machine.execDownReceive l s
  | .lossOfLock p lanes => Sys2Proof.Machine.execLossOfLock p lanes s
  | .portEnable l => Sys2Proof.Machine.execPortEnable l s
  | .portDisable l => Sys2Proof.Machine.execPortDisable l s
  | .retrain l => Sys2Proof.Machine.execRetrain l s
  | .holdclr p => Sys2Proof.Machine.execHoldclr p s
  | .trainingWordReceive p lane word => Sys2Proof.Machine.execTrainingWordReceive p lane word s
  | .trainingStateAdvance p t => Sys2Proof.Machine.execTrainingStateAdvance p t s
  | .trainingTimeout p => Sys2Proof.Machine.execTrainingTimeout p s
  | .trainingRetry p => Sys2Proof.Machine.execTrainingRetry p s
  | .detectRepeat p => Sys2Proof.Machine.execDetectRepeat p s
  | .neighbourAbsent p => Sys2Proof.Machine.execNeighbourAbsent p s
  | .credinitReceive l => Sys2Proof.Machine.execCredinitReceive l s
  | .tsreqReceive l => Sys2Proof.Machine.execTsreqReceive l s
  | .tsrspReceive p => Sys2Proof.Machine.execTsrspReceive p s
  | .modulePresenceChange p present readable faulty m int => Sys2Proof.Machine.execModulePresenceChange p present readable faulty m int s
  | .correctedRateHigh p lane => Sys2Proof.Machine.execCorrectedRateHigh p lane s
  | .laneDriverFault p lane => Sys2Proof.Machine.execLaneDriverFault p lane s
  | .bridgeLinkUp b q brick modules fast => Sys2Proof.Machine.execBridgeLinkUp b q brick modules fast s
  | .bridgeModuleRemove b q m => Sys2Proof.Machine.execBridgeModuleRemove b q m s
  | .copyFill t addr data poisoned mirror remote e => Sys2Proof.Machine.execCopyFill t addr data poisoned mirror remote e s
  | .copyEvict t addr mirror => Sys2Proof.Machine.execCopyEvict t addr mirror s
  | .wake b => Sys2Proof.Machine.execWake b s
  | .waitTimeout b k seat tile slot => Sys2Proof.Machine.execWaitTimeout b k seat tile slot s
  | .wchkSend b => Sys2Proof.Machine.execWchkSend b s
  | .releaseSend t => Sys2Proof.Machine.execReleaseSend t s
  | .domainRequest d v => Sys2Proof.Machine.execDomainRequest d v s
  | .domainTransitionStart => Sys2Proof.Machine.execDomainTransitionStart s
  | .domainTransitionDone d slow held e => Sys2Proof.Machine.execDomainTransitionDone d slow held e s
  | .domainFault d e => Sys2Proof.Machine.execDomainFault d e s
  | .freqWrite b f => Sys2Proof.Machine.execFreqWrite b f s
  | .tileClockSwitchDone b => Sys2Proof.Machine.execTileClockSwitchDone b s
  | .referenceClockLoss clk e => Sys2Proof.Machine.execReferenceClockLoss clk e s
  | .groutRead st off n tag e => Sys2Proof.Machine.execGroutRead st off n tag e s
  | .foldEntryEvict st sector e => Sys2Proof.Machine.execFoldEntryEvict st sector e s
  | .bedLineEvict st off e => Sys2Proof.Machine.execBedLineEvict st off e s
  | .foldChg b v => Sys2Proof.Machine.execFoldChg b v s
  | .granuleChangeDone st e => Sys2Proof.Machine.execGranuleChangeDone st e s
  | .drain0 b e => Sys2Proof.Machine.execDrain0 b e s
  | .drain1 b e => Sys2Proof.Machine.execDrain1 b e s
  | .temperatureBandChange st band => Sys2Proof.Machine.execTemperatureBandChange st band s
  | .phyTrainingLoss st => Sys2Proof.Machine.execPhyTrainingLoss st s
  | .pgcClr st v => Sys2Proof.Machine.execPgcClr st v s
  | .pageClearDone st => Sys2Proof.Machine.execPageClearDone st s
  | .remapInstall st page => Sys2Proof.Machine.execRemapInstall st page s
  | .remapInstallDone st e => Sys2Proof.Machine.execRemapInstallDone st e s
  | .remapRelease st entry e => Sys2Proof.Machine.execRemapRelease st entry e s
  | .passStart st => Sys2Proof.Machine.execPassStart st s
  | .passSuspend st => Sys2Proof.Machine.execPassSuspend st s
  | .passResume st => Sys2Proof.Machine.execPassResume st s
  | .passCancel st => Sys2Proof.Machine.execPassCancel st s
  | .passPage st e => Sys2Proof.Machine.execPassPage st e s
  | .passEnd st => Sys2Proof.Machine.execPassEnd st s
  | .softRepair st off e => Sys2Proof.Machine.execSoftRepair st off e s
  | .labelGrant pt rs rivals => Sys2Proof.Machine.execLabelGrant pt rs rivals s
  | .labelWindowStart pt => Sys2Proof.Machine.execLabelWindowStart pt s
  | .aluAdd t e => Sys2Proof.Machine.execAluAdd t e s
  | .aluSub t e => Sys2Proof.Machine.execAluSub t e s
  | .aluAnd t e => Sys2Proof.Machine.execAluAnd t e s
  | .aluOr t e => Sys2Proof.Machine.execAluOr t e s
  | .aluXor t e => Sys2Proof.Machine.execAluXor t e s
  | .aluAndn t e => Sys2Proof.Machine.execAluAndn t e s
  | .aluSll t e => Sys2Proof.Machine.execAluSll t e s
  | .aluSrl t e => Sys2Proof.Machine.execAluSrl t e s
  | .aluSra t e => Sys2Proof.Machine.execAluSra t e s
  | .aluMul t e => Sys2Proof.Machine.execAluMul t e s
  | .aluMulh t e => Sys2Proof.Machine.execAluMulh t e s
  | .aluMulhu t e => Sys2Proof.Machine.execAluMulhu t e s
  | .aluDiv t e => Sys2Proof.Machine.execAluDiv t e s
  | .aluDivu t e => Sys2Proof.Machine.execAluDivu t e s
  | .aluRem t e => Sys2Proof.Machine.execAluRem t e s
  | .aluRemu t e => Sys2Proof.Machine.execAluRemu t e s
  | .aluCmpeq t e => Sys2Proof.Machine.execAluCmpeq t e s
  | .aluCmplt t e => Sys2Proof.Machine.execAluCmplt t e s
  | .aluCmpltu t e => Sys2Proof.Machine.execAluCmpltu t e s
  | .aluMin t e => Sys2Proof.Machine.execAluMin t e s
  | .aluMax t e => Sys2Proof.Machine.execAluMax t e s
  | .aluMinu t e => Sys2Proof.Machine.execAluMinu t e s
  | .aluMaxu t e => Sys2Proof.Machine.execAluMaxu t e s
  | .aluClz t e => Sys2Proof.Machine.execAluClz t e s
  | .aluCtz t e => Sys2Proof.Machine.execAluCtz t e s
  | .aluPopc t e => Sys2Proof.Machine.execAluPopc t e s
  | .aluAddw t e => Sys2Proof.Machine.execAluAddw t e s
  | .aluSubw t e => Sys2Proof.Machine.execAluSubw t e s
  | .addi t e => Sys2Proof.Machine.execAddi t e s
  | .andi t e => Sys2Proof.Machine.execAndi t e s
  | .ori t e => Sys2Proof.Machine.execOri t e s
  | .xori t e => Sys2Proof.Machine.execXori t e s
  | .shiSll t e => Sys2Proof.Machine.execShiSll t e s
  | .shiSrl t e => Sys2Proof.Machine.execShiSrl t e s
  | .shiSra t e => Sys2Proof.Machine.execShiSra t e s
  | .movw t e => Sys2Proof.Machine.execMovw t e s
  | .movk t e => Sys2Proof.Machine.execMovk t e s
  | .ld t e => Sys2Proof.Machine.execLd t e s
  | .st t e => Sys2Proof.Machine.execSt t e s
  | .masonLoadReturn t => Sys2Proof.Machine.execMasonLoadReturn t s
  | .postedOutcome t => Sys2Proof.Machine.execPostedOutcome t s
  | .atom t e => Sys2Proof.Machine.execAtom t e s
  | .bopSigadd t e => Sys2Proof.Machine.execBopSigadd t e s
  | .bopWaitge t e => Sys2Proof.Machine.execBopWaitge t e s
  | .bopWaiteq t e => Sys2Proof.Machine.execBopWaiteq t e s
  | .bopTest t e => Sys2Proof.Machine.execBopTest t e s
  | .bopReset t e => Sys2Proof.Machine.execBopReset t e s
  | .bopArmto t e => Sys2Proof.Machine.execBopArmto t e s
  | .bopWcancel t e => Sys2Proof.Machine.execBopWcancel t e s
  | .bopArmsig t e => Sys2Proof.Machine.execBopArmsig t e s
  | .bopDisarm t e => Sys2Proof.Machine.execBopDisarm t e s
  | .bopPoison t e => Sys2Proof.Machine.execBopPoison t e s
  | .cfence t e => Sys2Proof.Machine.execCfence t e s
  | .rel t e => Sys2Proof.Machine.execRel t e s
  | .acq t e => Sys2Proof.Machine.execAcq t e s
  | .acqf t e => Sys2Proof.Machine.execAcqf t e s
  | .twait t e => Sys2Proof.Machine.execTwait t e s
  | .drain t e => Sys2Proof.Machine.execDrain t e s
  | .wsl t e => Sys2Proof.Machine.execWsl t e s
  | .tcmd t e => Sys2Proof.Machine.execTcmd t e s
  | .rds t e => Sys2Proof.Machine.execRds t e s
  | .br t e => Sys2Proof.Machine.execBr t e s
  | .brs t e => Sys2Proof.Machine.execBrs t e s
  | .call t e => Sys2Proof.Machine.execCall t e s
  | .jlnk t e => Sys2Proof.Machine.execJlnk t e s
  | .enter t e => Sys2Proof.Machine.execEnter t e s
  | .leave t e => Sys2Proof.Machine.execLeave t e s
  | .nop t e => Sys2Proof.Machine.execNop t e s
  | .yld t e => Sys2Proof.Machine.execYld t e s
  | .brk t e => Sys2Proof.Machine.execBrk t e s
  | .halt t e => Sys2Proof.Machine.execHalt t e s
  | .srd t e => Sys2Proof.Machine.execSrd t e s
  | .swr t e => Sys2Proof.Machine.execSwr t e s
  | .xret t e => Sys2Proof.Machine.execXret t e s
  | .susp t e => Sys2Proof.Machine.execSusp t e s
  | .spillw t e => Sys2Proof.Machine.execSpillw t e s
  | .fillw t e => Sys2Proof.Machine.execFillw t e s
  | .masonStart t => Sys2Proof.Machine.execMasonStart t s
  | .masonStop t => Sys2Proof.Machine.execMasonStop t s
  | .suspreq t => Sys2Proof.Machine.execSuspreq t s
  | .masonResume t => Sys2Proof.Machine.execMasonResume t s
  | .clrflt t => Sys2Proof.Machine.execClrflt t s
  | .mma t fault e => Sys2Proof.Machine.execMma t fault e s
  | .pmode t => Sys2Proof.Machine.execPmode t s
  | .pressCommandComplete t => Sys2Proof.Machine.execPressCommandComplete t s
  | .pressClrq t => Sys2Proof.Machine.execPressClrq t s
  | .rinj t => Sys2Proof.Machine.execRinj t s
  | .vld t e => Sys2Proof.Machine.execVld t e s
  | .vst t e => Sys2Proof.Machine.execVst t e s
  | .vbc t e => Sys2Proof.Machine.execVbc t e s
  | .glzAdd t e => Sys2Proof.Machine.execGlzAdd t e s
  | .glzSub t e => Sys2Proof.Machine.execGlzSub t e s
  | .glzMul t e => Sys2Proof.Machine.execGlzMul t e s
  | .fma t e => Sys2Proof.Machine.execFma t e s
  | .glzMin t e => Sys2Proof.Machine.execGlzMin t e s
  | .glzMax t e => Sys2Proof.Machine.execGlzMax t e s
  | .abs t e => Sys2Proof.Machine.execAbs t e s
  | .neg t e => Sys2Proof.Machine.execNeg t e s
  | .glzAnd t e => Sys2Proof.Machine.execGlzAnd t e s
  | .glzOr t e => Sys2Proof.Machine.execGlzOr t e s
  | .glzXor t e => Sys2Proof.Machine.execGlzXor t e s
  | .glzAndn t e => Sys2Proof.Machine.execGlzAndn t e s
  | .cmp t e => Sys2Proof.Machine.execCmp t e s
  | .sel t e => Sys2Proof.Machine.execSel t e s
  | .cvt t e => Sys2Proof.Machine.execCvt t e s
  | .qnt t e => Sys2Proof.Machine.execQnt t e s
  | .redSum t e => Sys2Proof.Machine.execRedSum t e s
  | .redMax t e => Sys2Proof.Machine.execRedMax t e s
  | .redMin t e => Sys2Proof.Machine.execRedMin t e s
  | .redArgmax t e => Sys2Proof.Machine.execRedArgmax t e s
  | .redCount t e => Sys2Proof.Machine.execRedCount t e s
  | .sfnExp t e => Sys2Proof.Machine.execSfnExp t e s
  | .sfnExp2 t e => Sys2Proof.Machine.execSfnExp2 t e s
  | .sfnLog t e => Sys2Proof.Machine.execSfnLog t e s
  | .sfnRec t e => Sys2Proof.Machine.execSfnRec t e s
  | .sfnRsq t e => Sys2Proof.Machine.execSfnRsq t e s
  | .sfnTanh t e => Sys2Proof.Machine.execSfnTanh t e s
  | .sfnSigmoid t e => Sys2Proof.Machine.execSfnSigmoid t e s
  | .sfnErf t e => Sys2Proof.Machine.execSfnErf t e s
  | .clrs t e => Sys2Proof.Machine.execClrs t e s
  | .clrn t e => Sys2Proof.Machine.execClrn t e s
  | .smx t e => Sys2Proof.Machine.execSmx t e s
  | .nacc t e => Sys2Proof.Machine.execNacc t e s
  | .mrg t e => Sys2Proof.Machine.execMrg t e s
  | .rstatRd t e => Sys2Proof.Machine.execRstatRd t e s
  | .glazeCommandComplete t => Sys2Proof.Machine.execGlazeCommandComplete t s
  | .glazeClrq t => Sys2Proof.Machine.execGlazeClrq t s
  | .gather t e => Sys2Proof.Machine.execGather t e s
  | .sieveYard t e => Sys2Proof.Machine.execSieveYard t e s
  | .dispatch t e => Sys2Proof.Machine.execDispatch t e s
  | .combine t e => Sys2Proof.Machine.execCombine t e s
  | .points t e => Sys2Proof.Machine.execPoints t e s
  | .sieveCommandComplete t => Sys2Proof.Machine.execSieveCommandComplete t s
  | .sieveSusp t => Sys2Proof.Machine.execSieveSusp t s
  | .sieveSuspensionPoint t => Sys2Proof.Machine.execSieveSuspensionPoint t s
  | .sieveResume t => Sys2Proof.Machine.execSieveResume t s
  | .sieveCancel t => Sys2Proof.Machine.execSieveCancel t s
  | .sieveClrq t => Sys2Proof.Machine.execSieveClrq t s
  | .scowCopyDone b e => Sys2Proof.Machine.execScowCopyDone b e s
  | .epochAutoAdvance b e => Sys2Proof.Machine.execEpochAutoAdvance b e s
  | .yardFormat b => Sys2Proof.Machine.execYardFormat b s
  | .yardFormatDone b e => Sys2Proof.Machine.execYardFormatDone b e s
  | .yardEnable b e => Sys2Proof.Machine.execYardEnable b e s
  | .enableScanDone b e => Sys2Proof.Machine.execEnableScanDone b e s
  | .treeFormat b => Sys2Proof.Machine.execTreeFormat b s
  | .treeEnable b e => Sys2Proof.Machine.execTreeEnable b e s
  | .keyInstall b v => Sys2Proof.Machine.execKeyInstall b v s
  | .pfxKclr b clr => Sys2Proof.Machine.execPfxKclr b clr s
  | .jobStart b => Sys2Proof.Machine.execJobStart b s
  | .jobSuspend b => Sys2Proof.Machine.execJobSuspend b s
  | .jobResume b => Sys2Proof.Machine.execJobResume b s
  | .jobCancel b => Sys2Proof.Machine.execJobCancel b s
  | .jobItem b e => Sys2Proof.Machine.execJobItem b e s
  | .jobEnd b => Sys2Proof.Machine.execJobEnd b s
  | .doorbell r tail => Sys2Proof.Machine.execDoorbell r tail s
  | .completionHead r head => Sys2Proof.Machine.execCompletionHead r head s
  | .dropWrite off data => Sys2Proof.Machine.execDropWrite off data s
  | .hdmMemrd tag n off own => Sys2Proof.Machine.execHdmMemrd tag n off own s
  | .hdmMemwr tag n off data keep => Sys2Proof.Machine.execHdmMemwr tag n off data keep s
  | .bisnpResponse st sector wb e => Sys2Proof.Machine.execBisnpResponse st sector wb e s
  | .h2dSnoop hpa => Sys2Proof.Machine.execH2dSnoop hpa s
  | .commandFetch r data poisoned => Sys2Proof.Machine.execCommandFetch r data poisoned s
  | .cmdNop => Sys2Proof.Machine.execCmdNop s
  | .cmdSuspend => Sys2Proof.Machine.execCmdSuspend s
  | .cmdResume => Sys2Proof.Machine.execCmdResume s
  | .cmdCancel => Sys2Proof.Machine.execCmdCancel s
  | .cmdPolicy => Sys2Proof.Machine.execCmdPolicy s
  | .cmdYard => Sys2Proof.Machine.execCmdYard s
  | .cmdRun => Sys2Proof.Machine.execCmdRun s
  | .cmdCopy => Sys2Proof.Machine.execCmdCopy s
  | .cmdScrub => Sys2Proof.Machine.execCmdScrub s
  | .cmdPfxjob => Sys2Proof.Machine.execCmdPfxjob s
  | .cmdSlabjob => Sys2Proof.Machine.execCmdSlabjob s
  | .cmdMemtest => Sys2Proof.Machine.execCmdMemtest s
  | .cmdFwstage => Sys2Proof.Machine.execCmdFwstage s
  | .longOpStart => Sys2Proof.Machine.execLongOpStart s
  | .longOpSuspensionPoint id e => Sys2Proof.Machine.execLongOpSuspensionPoint id e s
  | .longOpEnd id => Sys2Proof.Machine.execLongOpEnd id s
  | .interimCompletion id => Sys2Proof.Machine.execInterimCompletion id s
  | .completionRingRoom r => Sys2Proof.Machine.execCompletionRingRoom r s
  | .msixSignal v => Sys2Proof.Machine.execMsixSignal v s
  | .hostLoss reason e => Sys2Proof.Machine.execHostLoss reason e s
  | .hldebExpiry e => Sys2Proof.Machine.execHldebExpiry e s
  | .snoopFilterSettle e => Sys2Proof.Machine.execSnoopFilterSettle e s
  | .manifestWrite => Sys2Proof.Machine.execManifestWrite s
  | .freeze => Sys2Proof.Machine.execFreeze s
  | .attach seq => Sys2Proof.Machine.execAttach seq s
  | .discard seq => Sys2Proof.Machine.execDiscard seq s
  | .hostLinkUp width rate cache mem e => Sys2Proof.Machine.execHostLinkUp width rate cache mem e s
  | .seal => Sys2Proof.Machine.execSeal s
  | .bsload => Sys2Proof.Machine.execBsload s
  | .activate => Sys2Proof.Machine.execActivate s
  | .restart => Sys2Proof.Machine.execRestart s
  | .clrswap => Sys2Proof.Machine.execClrswap s
  | .watchdogExpiry => Sys2Proof.Machine.execWatchdogExpiry s
  | .trialTimeout => Sys2Proof.Machine.execTrialTimeout s
  | .imageCommit => Sys2Proof.Machine.execImageCommit s
  | .bootRom recov m bad => Sys2Proof.Machine.execBootRom recov m bad s
  | .recovery img => Sys2Proof.Machine.execRecovery img s
  | .sensorSample reads suspect => Sys2Proof.Machine.execSensorSample reads suspect s
  | .stackTempRead st t e => Sys2Proof.Machine.execStackTempRead st t e s
  | .coolantRead inlet outlet => Sys2Proof.Machine.execCoolantRead inlet outlet s
  | .leak => Sys2Proof.Machine.execLeak s
  | .voltageOutOfWindow d mv e => Sys2Proof.Machine.execVoltageOutOfWindow d mv e s
  | .overcurrent g amps e => Sys2Proof.Machine.execOvercurrent g amps e s
  | .overcurrentClockRestart b => Sys2Proof.Machine.execOvercurrentClockRestart b s
  | .pmbAlert g status phase output e => Sys2Proof.Machine.execPmbAlert g status phase output e s
  | .telemetryPoll g vout iout => Sys2Proof.Machine.execTelemetryPoll g vout iout s
  | .grantCompute meas other => Sys2Proof.Machine.execGrantCompute meas other s
  | .eventLog => Sys2Proof.Machine.execEventLog s
  | .logPersist ok => Sys2Proof.Machine.execLogPersist ok s
  | .logDropReport => Sys2Proof.Machine.execLogDropReport s
  | .logFetch seq => Sys2Proof.Machine.execLogFetch seq s
  | .busRecovery bus how => Sys2Proof.Machine.execBusRecovery bus how s
  | .busRetry bus ok => Sys2Proof.Machine.execBusRetry bus ok s
  | .getVersion req => Sys2Proof.Machine.execGetVersion req s
  | .getCapabilities req => Sys2Proof.Machine.execGetCapabilities req s
  | .negotiateAlgorithms req => Sys2Proof.Machine.execNegotiateAlgorithms req s
  | .getDigests req => Sys2Proof.Machine.execGetDigests req s
  | .getCertificate req => Sys2Proof.Machine.execGetCertificate req s
  | .challenge req => Sys2Proof.Machine.execChallenge req s
  | .getMeasurements req => Sys2Proof.Machine.execGetMeasurements req s
  | .powerOn f => Sys2Proof.Machine.execPowerOn f s
  | .coldReset => Sys2Proof.Machine.execColdReset s
  | .coldResetRelease => Sys2Proof.Machine.execColdResetRelease s
  | .mainPowerLoss => Sys2Proof.Machine.execMainPowerLoss s
  | .mainPwrgdRise bad => Sys2Proof.Machine.execMainPwrgdRise bad s
  | .mainPwrgdTimeout => Sys2Proof.Machine.execMainPwrgdTimeout s
  | .fabricReady => Sys2Proof.Machine.execFabricReady s
  | .perstDeassert => Sys2Proof.Machine.execPerstDeassert s
  | .breset b => Sys2Proof.Machine.execBreset b s
  | .brickWarmReset b e => Sys2Proof.Machine.execBrickWarmReset b e s
  | .brickPowerCycle b => Sys2Proof.Machine.execBrickPowerCycle b s
  | .shadowVisitEnd b => Sys2Proof.Machine.execShadowVisitEnd b s
  | .shadowJoin b unit => Sys2Proof.Machine.execShadowJoin b unit s
  | .shadowMismatch b unit => Sys2Proof.Machine.execShadowMismatch b unit s
  | .fence b k => Sys2Proof.Machine.execFence b k s
  | .unfence b k => Sys2Proof.Machine.execUnfence b k s
  | .stest b site => Sys2Proof.Machine.execStest b site s
  | .siteTestDone b fail => Sys2Proof.Machine.execSiteTestDone b fail s
  | .autotestStart b => Sys2Proof.Machine.execAutotestStart b s
  | .rotationPause b pause => Sys2Proof.Machine.execRotationPause b pause s
  | .brickSafeState b cause e => Sys2Proof.Machine.execBrickSafeState b cause e s
  | .autoBrickReset b e => Sys2Proof.Machine.execAutoBrickReset b e s
  | .brickSafeEscalate b e => Sys2Proof.Machine.execBrickSafeEscalate b e s
  | .packageSafeState cause e => Sys2Proof.Machine.execPackageSafeState cause e s
  | .syncInterval => Sys2Proof.Machine.execSyncInterval s
  | .holdoverLimit => Sys2Proof.Machine.execHoldoverLimit s
  | .samplerInstant b => Sys2Proof.Machine.execSamplerInstant b s
  | .ringRecordWrite b => Sys2Proof.Machine.execRingRecordWrite b s
  | .ringEnable b trace => Sys2Proof.Machine.execRingEnable b trace s
  | .consWrite b trace v => Sys2Proof.Machine.execConsWrite b trace v s
  | .pull => Sys2Proof.Machine.execPull s
  | .pullDone => Sys2Proof.Machine.execPullDone s
  | .pcSample t switching => Sys2Proof.Machine.execPcSample t switching s
  | .lossMarker b => Sys2Proof.Machine.execLossMarker b s
  | .dropEventReport b trace => Sys2Proof.Machine.execDropEventReport b trace s
  | .counterClear t => Sys2Proof.Machine.execCounterClear t s
  | .referenceClockRestored clk => Sys2Proof.Machine.execReferenceClockRestored clk s
  | .hodRestartComplete => Sys2Proof.Machine.execHodRestartComplete s
  | .treeFormatDone b e => Sys2Proof.Machine.execTreeFormatDone b e s
  | .stackPhyRetrainDone st ok e => Sys2Proof.Machine.execStackPhyRetrainDone st ok e s
  | .hostCacheResponse tag poisoned data e => Sys2Proof.Machine.execHostCacheResponse tag poisoned data e s

end Sys2Proof.Machine
end

