-- ==== Sys2Proof/Machine/Tick.lean ====
section
/-! DEFINITION. What happens by itself when 1 ns passes with no command waiting (DESIGN CHOICE, log entry 1): time, the plumb counter, the cycle
counters, and the engines that take the outcome of a request and send the next one. -/
namespace Sys2Proof.Machine
open Sys2Proof

/-- The plumb counter's next count (R886): one a nanosecond while AON_CLK is locked, with one more, or one withheld, at the evenly spaced moments of
the slew in progress. -/
def countPlumb (s : State) : State :=
  if !s.isSet Reg.PWR_STAT_AONLOCK then s else
  let o := s.observe
  let due := fun (k : Nat) => Int.fdiv (o.slew * (k : Int)) (max 1 o.slewLen : Nat)
  if o.slewPos < o.slewLen then
    let n := 1 + due (o.slewPos + 1) - due o.slewPos
    { s with plumb := s.plumb + BitVec.ofInt 64 n, observe := { o with slewPos := o.slewPos + 1 } }
  else { s with plumb := s.plumb + 1 }

/-- `n` tile-clock cycles of a tile counted (R487, R577, R894, R895). A cycle of a Running mason counts as stalled while the mason has a stall reason. -/
def countTile (n : Nat) (s : State) (t : Tile) : State :=
  if !tileRuns s t then s else
  let T := s.tile t
  let quarter := s.isSet (Reg.PRS_STAT_QCUR t)
  let s := s.when T.press.run.isSome (fun s => tally t 9 n (s.when quarter (tally t 10 n)))
  let s := s.when quarter (fun s =>
    let q := T.press.quarterTc + n
    (s.onTile t (fun T => { T with press := { T.press with quarterTc := q % 1024 } })).count (Reg.PRS_CNT1_QKTC t) (q / 1024))
  let s := s.when T.glaze.run.isSome (tally t 23 n)
  let s := s.when T.sieve.run.isSome (tally t 47 n)
  let s := s.when (T.mason.run ≠ .idle) (fun s => s.onMason t (fun m => { m with tccnt := m.tccnt + BitVec.ofNat 64 n }))
  let s := s.when (T.mason.run = .running) (fun s => tally t 49 n (s.when (stallReason T.mason ≠ stallNone) (tally t 51 n)))
  s.when (T.mason.run = .sleeping) (tally t 50 n)

/-- A nanosecond of a brick's tile clock, which runs at FCUR × 12.5 MHz while its uncore is ON and the clock is not stopped (R11, R308, R809). -/
def countCycles (s : State) (b : Brick) : State :=
  if !uncoreOn s b || s.power.stopped.contains b.val then s else
  let c := (s.brick b).clock + s.rd (Reg.PWR_DVFS_FCUR b)
  let s := s.onBrick b (fun B => { B with clock := c % 80 })
  if c / 80 = 0 then s else s.each (brickTiles b) (countTile (c / 80))

/-- The engines of a brick go on: walks, the observation rings, and the requests held at their home. -/
def turnBrick (s : State) (b : Brick) : State :=
  let s := advanceWalks b MemEnv.quiet s
  let s := s.when (s.brick b).ringStore.isSome (advanceRing b)
  s.when (!(s.brick b).held.isEmpty) (retryHeld b MemEnv.quiet)

/-- A port from Lock to Identify goes on sending its training words (R101). -/
def turnPort (s : State) (p : Port) : State := s.when (decide (2 ≤ s.portState p ∧ s.portState p ≤ 6)) (sendWords p)

/-- One nanosecond with no command waiting. -/
def tick (s : State) : State :=
  let bs : List Brick := [0, 1, 2, 3]
  let s := countPlumb { s with now := s.now + 1 }
  let s := ((s.each bs countCycles).each bs turnBrick).each (List.finRange 24) turnPort
  takeHdm (takeDrops (advancePull (advanceHod (advanceOps s))))

end Sys2Proof.Machine
end

