-- ==== Sys2Proof/Safety.lean ====
section
/-! DEFINITION. What a safe run keeps: the terms of the model's invariants. -/
namespace Sys2Proof.Machine
open Sys2Proof

/-- SEAT_OWN shows the seat that the seat table gives this package (R174, R215). -/
abbrev seatOwnShown (s : State) : Prop := s.reg Reg.SEAT_OWN = ownField s

/-- The package's memory is in its canonical form. -/
abbrev memoryCanonical (s : State) : Prop := Memory.wf s.mem = true

/-- Command `i` is carried out in state `s`, and its effect leaves `t`: `exec` answers a next state, which is `t` brought to its end (SEAT_OWN up to
date, the commands that waited still waiting). -/
abbrev Does (i : Instr) (s t : State) : Prop := exec i s = .next (s.done t)

/-- The mason of tile `t` reaches an instruction in state `s`: it executes `op`, the instruction of word `w`, on state `s'`, which is `s` with what
the memories reported of the fetch (R487, R516). -/
abbrev MasonAt (t : Tile) (e : MemEnv) (s : State) (op : MOp) (w : Nat) (s' : State) : Prop := boundary t e s = (some (op, w), s')

/-- The value of a mason's register as a word. -/
abbrev regWord (s : State) (t : Tile) (r : Nat) : Word := BitVec.ofNat 64 (s.mreg t r)

/-- Command `i` executes the mason instruction `op` of tile `t`: wherever the mason reaches an instruction of that kind, with word `w` and in state
`s'`, the command leaves `f w s'`. -/
abbrev Executes (t : Tile) (e : MemEnv) (op : MOp) (i : Instr) (f : Nat → State → State) : Prop :=
  ∀ (s s' : State) (w : Nat), MasonAt t e s op w s' → Does i s (f w s')

/-- A command that puts a function of RA and RB into rd. -/
abbrev RegisterForm (t : Tile) (e : MemEnv) (op : MOp) (i : Instr) (f : Word → Word → Word) : Prop :=
  Executes t e op i (fun w s => completeWith t (iRd w) (f (regWord s t (iRa w)) (regWord s t (iRb w))).toNat s)

/-- A command that puts a function of RA and IMM16 into rd. -/
abbrev ImmediateForm (t : Tile) (e : MemEnv) (op : MOp) (i : Instr) (f : Word → BitVec 16 → Word) : Prop :=
  Executes t e op i (fun w s => completeWith t (iRd w) (f (regWord s t (iRa w)) (BitVec.ofNat 16 (iImm w))).toNat s)

/-- Command `i` completes in state `s`, and leaves a state of which `P` holds. -/
abbrev Leaves (i : Instr) (s : State) (P : State → Prop) : Prop := ∃ t, exec i s = .next t ∧ P t

/-- Operation `op` belongs to flow `i` of its source: it goes to own seat, or to another seat whose entry is Live while this package holds one (R37, R67,
R175). -/
abbrev GoesToFlow (s : State) (op : Op) (i : FlowId) : Prop :=
  ∃ d, destBrick op.addr.toNat = some d ∧
    ((s.realSeat op.addr.toNat = s.ownSeatNo ∧ i = flowOf s s.ownSeatNo s.ownGen d op.lbl) ∨
     (s.realSeat op.addr.toNat ≠ s.ownSeatNo ∧ addrRegion op.addr.toNat ≠ 0xB ∧ s.ownSeat.isSome = true ∧
      entryState (s.seatEntry (s.realSeat op.addr.toNat)) = 1 ∧
      i = flowOf s (s.realSeat op.addr.toNat) (entryGen (s.seatEntry (s.realSeat op.addr.toNat))) d op.lbl))

/-- In `u` flow `i` of brick `b`, whose next SEQ was `n` with `ops` operations unsettled, has taken one more: its next SEQ and its unsettled operations are
one up, the request has gone to the router, and no memory and no port has changed. -/
abbrev FlowTook (s u : State) (b : Brick) (i : FlowId) (n ops : Nat) : Prop :=
  (u.flow b i).map (fun f => (f.next, f.ops.length)) = some (n + 1, ops + 1) ∧
  (∃ q, (u.brick b).routeQ = (s.brick b).routeQ ++ [q] ∧ q.ptype.toNat = ptReq) ∧ u.mem = s.mem ∧ u.ports = s.ports

/-- The event most recently raised has this code and these arguments. -/
abbrev lastEvent (s : State) (code : Nat) (args : List Nat) : Prop := (s.events.getLast?.map (fun e => (e.code, e.args))) = some (code, args)

/-- The glaze of tile `t` can start `cmd`, the head of its queue. -/
abbrev GlazeNext (s : State) (t : Tile) (cmd : TileCmd) (rest : List TileCmd) : Prop :=
  (s.tile t).glaze.queue = cmd :: rest ∧ (s.tile t).glaze.run = none ∧ mayStart s t cmd = true

/-- Command `i` starts `cmd` on the glaze of tile `t` and writes `n` elements of `w` bytes to VD: `f k` at the element `ix k`. No other byte of a
register, no row slot, no byte of memory, no brick, link or other tile changes, and no other unit of the tile. -/
abbrev GlazeWrites (i : Instr) (s : State) (t : Tile) (cmd : TileCmd) (rest : List TileCmd) (w n : Nat) (ix f : Nat → Nat) : Prop :=
  Leaves i s (fun u =>
    (u.tile t).glaze.queue = rest ∧ (u.tile t).glaze.run.map (fun r => r.cmd) = some cmd ∧
    (∀ k, k < n → gregElem (u.tile t).glaze (gVd cmd.word) w (ix k) = f k % 256 ^ w) ∧
    (∀ v b, b < 512 → (v ≠ gVd cmd.word ∨ ∀ k, k < n → b / w ≠ ix k) → gregByte (u.tile t).glaze v b = gregByte (s.tile t).glaze v b) ∧
    (u.tile t).glaze.slots = (s.tile t).glaze.slots ∧ (u.tile t).press = (s.tile t).press ∧ (u.tile t).sieve = (s.tile t).sieve ∧
    (u.tile t).mason = (s.tile t).mason ∧ u.mem = s.mem ∧ u.bricks = s.bricks ∧ u.ports = s.ports ∧ u.bridges = s.bridges)

end Sys2Proof.Machine
end

