-- ==== Sys2Proof/Certificates/Slice0/Obligations.lean ====
section
/-! DEFINITION. The statements for the provers, each citing in OBLIGATIONS.json what it rests on: what a step does, what each family of commands does to
the state, what the codecs keep, and the invariants. -/
open Sys2Proof Sys2Proof.Machine

/-- With a command at the front of the queue a step is that command on the state whose queue is the rest. That an empty queue lets a nanosecond pass is
the model's choice (log entry 1); then the queue stays empty and time moves by 1 ns. -/
def Obligations.StepTakesFrontCommand : Prop :=
  (∀ (c : Instr) (rest : List Instr) (s : State), step { s with pending := c :: rest } = exec c { s with pending := rest }) ∧
  (∀ s : State, s.pending = [] → ∃ t, step s = .next t ∧ t.pending = [] ∧ t.now = s.now + 1)

/-- No command stops the block: in every state each one is answered with a next state, and the commands that waited wait still, in their order. -/
def Obligations.EveryCommandEnds : Prop :=
  ∀ (c : Instr) (s : State), ∃ t, exec c s = .next t ∧ t.pending = s.pending

/-- SEAT_OWN is the field that the seat table and the provisioned ID give: whatever state a step starts from, the state it leaves shows it. -/
def Obligations.SeatOwnInvariant : Prop :=
  ∀ (s t : State), step s = .next t → seatOwnShown s → seatOwnShown t

/-- Reset leaves no command waiting, memory with nothing listed, every register at its reset value, SEAT_OWN showing no seat, and no tile at work. -/
def Obligations.ResetState : Prop :=
  State.reset.pending = [] ∧ memoryCanonical State.reset ∧ State.reset.mem = [] ∧ seatOwnShown State.reset ∧ State.reset.events = [] ∧
  (∀ off, State.reset.reg off = (regResetAt off).toNat) ∧
  (∀ (t : Tile), (State.reset.mason t).run = .idle ∧ (State.reset.tile t).press.queue = [] ∧ (State.reset.tile t).glaze.queue = [] ∧ (State.reset.tile t).sieve.queue = []) ∧
  (∀ r, State.reset.mreg 0 r = 0)

/-- In every state, register 0 of the mason of every tile reads as zero, and a write to it leaves the state as it was. -/
def Obligations.RegisterK0 : Prop :=
  ∀ (s : State) (t : Tile) (v : Nat), s.mreg t 0 = 0 ∧ s.putReg t 0 v = s

/-- A packet whose payload has SIZE bytes, or none for a LOAD request, whose payload and padding fit in LEN words, and whose padding lists no zero byte at
its end, is the packet that its bytes spell: every field of the header is at the bits R155 gives it, reserved bits among them, with none dropped. -/
def Obligations.PacketRoundTrip : Prop :=
  ∀ p : Packet, p.payload.length = (if p.ptype.toNat = ptReq && p.opc.toNat = 0x01 then 0 else p.size.toNat) →
    p.payload.length + p.pad.length ≤ 8 * (p.len.toNat - 5) → p.pad.getLast? ≠ some 0 → packetOf (packetBytes p) = p

/-- A flit of 232 area bytes is the flit that its 256 bytes spell: every header field, the reserved bits, the credit words, the area and the CRC. -/
def Obligations.FlitRoundTrip : Prop :=
  ∀ f : Flit, f.area.length = 232 → flitOf (flitBytes f) = f ∧ (flitBytes f).length = 256

/-- What a lane sends comes back: the stripes of a block spell it, the levels of bytes spell them, and a lane that starts with the sender's scrambler and marker count
takes out the markers and gives back the bytes, with the same scrambler and count after them. -/
def Obligations.LaneRoundTrip : Prop :=
  (∀ (w : Nat) (block : Bytes), 0 < w → unstripe block.length ((List.range w).map (fun l => stripeOf w l block)) = block) ∧
  (∀ bs : Bytes, bytesOfLevels (levelsOf bs) = bs) ∧
  (∀ (lane r n : Nat) (bs : Bytes), laneIn bs.length r n (laneOut lane r n bs).2.2 = ((laneOut lane r n bs).1, (laneOut lane r n bs).2.1, bs))

/-- What is stored is what is loaded, low byte first, no other byte changes, and memory stays in its canonical form. -/
def Obligations.MemoryBytes : Prop :=
  ∀ (s : State) (a : Nat) (bs : Bytes),
    (∀ i, i < bs.length → memByte (s.store a bs).mem (a + i) = bs.getD i 0) ∧
    (∀ x, (x < a ∨ a + bs.length ≤ x) → memByte (s.store a bs).mem x = memByte s.mem x) ∧
    (memoryCanonical s → memoryCanonical (s.store a bs)) ∧
    (s.store a bs).bytes a bs.length = bs ∧ (∀ n v, leNat (leBytes n v) = v % 256 ^ n)

/-- A read of a register that answers, aligned and 4 or 8 bytes wide, gives the register's value and clears the RC bits it returns; a write that reaches
the registers is carried out, a W1C bit that its reports set staying set; one that does not answer is told so, and one the host has no right to is a key
violation. -/
def Obligations.RegisterAccess : Prop :=
  ∀ (off : BitVec 32) (wide : Bool) (v : Word) (e : MemEnv) (s : State) (src : RegSource),
    let o := off.toNat
    let n := if wide then 8 else 4
    let m := memReports e s
    (mayAccess s src o = true → (src = .request → keyGrants s hostWho rightLD 0xA o n none = true) → regAligned o n = true → regAnswers s o = true →
      Does (.rcFieldRead src off wide) s ((readReg o n s).2.emit (.regRead o n (readReg o n s).1))) ∧
    (mayAccess m src o = true → (src = .request → regStoreRight m hostWho o n = true ∧ regAdmin m hostWho o n v.toNat = 0) → regAligned o n = true →
      regAnswers m o = true → Does (.registerWrite src off wide v e) s (keepRaised o e s (writeReg src o n v.toNat e m)) ∧
      (regAt o = none → keepRaised o e s (writeReg src o n v.toNat e m) = writeReg src o n v.toNat e m)) ∧
    (src ≠ .request → mayAccess m src o = true → (regAligned o n = false ∨ regAnswers m o = false) →
      Does (.registerWrite src off wide v e) s (m.emit (.hostAnswer 0 0x01 []))) ∧
    (mayAccess m .request o = true → regStoreRight m hostWho o n = false →
      Does (.registerWrite .request off wide v e) s
        ((keyViolation hostWho 0x02 (0xFFFF * 2 ^ 48 + 0xA * 2 ^ 44 + o) m).emit (.hostAnswer 0 0x02 [])))

/-- For every register of the map and every field of it: a write leaves an RO, RC or WO field as it was, gives an RW field the value written and an RWS
field too unless the package is sealed, and clears the bits of a W1C field that it carries as 1; a read shows every field but a WO one, which reads as
zero, and clears an RC field. -/
def Obligations.RegisterFields : Prop :=
  ∀ (off st : Nat) (r : RegSpec) (f : FieldSpec) (closed : Bool) (old v : Nat), regAt off = some (r, st) → f ∈ r.fields → old < 2 ^ 64 → v < 2 ^ 64 →
    let was := bitsOf old f.hi f.lo
    let now := bitsOf (r.write closed old v (2 ^ 64 - 1)) f.hi f.lo
    (f.acc = .ro ∨ f.acc = .rc ∨ f.acc = .wo → now = was) ∧
    (f.acc = .rw → f.rule = .any → now = bitsOf v f.hi f.lo) ∧
    (f.acc = .rws → f.rule = .any → now = if closed then was else bitsOf v f.hi f.lo) ∧
    (f.acc = .w1c → ∀ i, now.testBit i = (was.testBit i && !(bitsOf v f.hi f.lo).testBit i)) ∧
    bitsOf (r.readable old) f.hi f.lo = (if f.acc = .wo then 0 else was) ∧
    bitsOf (r.afterRead old (2 ^ 64 - 1)) f.hi f.lo = (if f.acc = .rc then 0 else was) ∧
    r.write closed old v 0 = old ∧ r.afterRead old 0 = old

/-- A read of an offset that no register covers, outside the log ring that the HOD_ block shows, returns zero and changes nothing; a write to it changes
nothing. -/
def Obligations.ReservedAddress : Prop :=
  ∀ (off v : Nat) (src : RegSource) (e : MemEnv) (s : State), regAt off = none → ¬ (Reg.HOD_STAT + 0x80000 ≤ off ∧ off < Reg.HOD_STAT + 0x100000) →
    readReg off 4 s = (0, s) ∧ writeReg src off 4 v e s = s ∧
    (regAt (off + 4) = none → ¬ (Reg.HOD_STAT + 0x80000 ≤ off + 4 ∧ off + 4 < Reg.HOD_STAT + 0x100000) →
      readReg off 8 s = (0, s) ∧ writeReg src off 8 v e s = s)

/-- A cast whose entry has STATE 0x3, or that names seat 0xFFFF, only raises event 0x1109; a write of SEAT_CAST with such an entry or seat, and a direct
write of an entry with STATE 0x3, change nothing. -/
def Obligations.NobodysSeatEntries : Prop :=
  ∀ (s : State) (v : Word) (wide : Bool) (seat : BitVec 16) (entry : BitVec 32) (b : Brick) (p : Packet),
    (bitsOf v.toNat 7 6 = 3 ∨ bitsOf v.toNat 47 32 = 0xFFFF → Does (.seatCast v wide) s s) ∧
    (bitsOf entry.toNat 7 6 = 3 → Does (.seatTblWrite seat entry) s s) ∧
    ((s.brick b).arrived.contains p = true → p.ptype.toNat = ptCast → packetSound p = true → p.size = 8 → s.tooOld b p = false →
      (bitsOf (leNat ((p.payload.drop 4).take 4)) 7 6 = 3 ∨ leNat (p.payload.take 2) = 0xFFFF) →
      Does (.castReceive b p) s ((s.takeArrived b p).raise 0x1109 [b.val]))

/-- A direct write sets an entry without a generation check, and where it gives the seat no other holder nothing else changes. A single 64-bit write of
SEAT_CAST, or a received cast, applies an entry that is newer by 1 to 127, counts it, raises event 0x1107 and forwards it, and does nothing more with
any other. The quarantine ends on every brick. A MRT_TTMO write in range that keeps its budgets sets the register's fields, and one that breaks a budget
leaves the register as it was, with event 0x110C. -/
def Obligations.SeatCommands : Prop :=
  ∀ (s : State) (b : Brick),
    (∀ seat entry, seat ≠ 0xFFFF → bitsOf entry.toNat 7 6 ≠ 3 →
      Leaves (.seatTblWrite seat entry) s (fun u => u.seatEntry seat.toNat = entry.toNat / 64 * 64 ∧
        (entryHolder (s.seatEntry seat.toNat) = none ∨ entryHolder (s.seatEntry seat.toNat) = entryHolder entry.toNat →
          (∀ x, x < 65535 → x ≠ seat.toNat → u.seatEntry x = s.seatEntry x) ∧ u.mem = s.mem ∧ u.ports = s.ports ∧ u.bricks = s.bricks ∧ u.tiles = s.tiles))) ∧
    (∀ (v : Word) t, bitsOf v.toNat 7 6 ≠ 3 → bitsOf v.toNat 47 32 ≠ 0xFFFF → applyCast (bitsOf v.toNat 47 32) (bitsOf v.toNat 31 0) s = some t →
      Does (.seatCast v true) s (flood (t.form (castPacket t (bitsOf v.toNat 47 32) (bitsOf v.toNat 31 0))) none t)) ∧
    (∀ seat entry, let c := castPacket s seat entry
      c.size = 8 ∧ c.lbl = 14 ∧ c.ptype.toNat = ptCast ∧ c.seq = 0 ∧ c.payload = castBytes seat entry ∧ c.opn = false) ∧
    (∀ seat entry, (seat < 0xFFFF → bitsOf entry 7 6 ≠ 3 →
      let d := (bitsOf entry 15 8 + 256 - entryGen (s.seatEntry seat)) % 256
      applyCast seat entry s = if 1 ≤ d ∧ d ≤ 127 then some (((writeSeat seat entry s).count Reg.SEAT_CSTAT_CASTS 1).raise 0x1107 [seat, entry]) else none)) ∧
    (∀ p t, (s.brick b).arrived.contains p = true → p.ptype.toNat = ptCast → packetSound p = true → p.size = 8 → s.tooOld b p = false →
      bitsOf (leNat ((p.payload.drop 4).take 4)) 7 6 ≠ 3 → leNat (p.payload.take 2) ≠ 0xFFFF →
      applyCast (leNat (p.payload.take 2)) (leNat ((p.payload.drop 4).take 4)) (s.takeArrived b p) = some t →
      Does (.castReceive b p) s (flood { p with via := 0 } (some p.via.toNat) t)) ∧
    Leaves .incarnationQuarantineEnd s (fun u => (∀ d : Brick, (u.brick d).quarantine = false ∧ { u.brick d with quarantine := true } =
      { s.brick d with quarantine := true }) ∧ u.ports = s.ports ∧ u.tiles = s.tiles ∧ u.mem = s.mem ∧ u.events = s.events) ∧
    (∀ v : Word, uncoreOn s b = true →
      let te2e := bitsOf v.toNat 19 0
      let most := bitsOf v.toNat 31 28
      let plife := bitsOf v.toNat 47 32
      0x28 ≤ te2e → te2e ≤ 0x186A0 → 1 ≤ most → 100 ≤ plife → plife ≤ 8000 →
      (te2eCovers s b te2e = true → plife * 10 < 256 * te2e → plife ≤ s.rd (Reg.MRT_TFLOW_FIDLE b) → Leaves (.mrtTtmoWrite b v) s (fun u =>
        u.rd (Reg.MRT_TTMO_TE2E b) = te2e ∧ u.rd (Reg.MRT_TTMO_PROBEMAX b) = most ∧ u.rd (Reg.MRT_TTMO_PLIFE b) = plife ∧ u.events = s.events ∧
        u.mem = s.mem ∧ u.bricks = s.bricks ∧ u.ports = s.ports)) ∧
      (te2eCovers s b te2e = false ∨ 256 * te2e ≤ plife * 10 ∨ s.rd (Reg.MRT_TFLOW_FIDLE b) < plife → Leaves (.mrtTtmoWrite b v) s (fun u =>
        u.reg (Reg.MRT_TTMO b) = s.reg (Reg.MRT_TTMO b) ∧ lastEvent u 0x110C [b.val] ∧ u.mem = s.mem ∧ u.bricks = s.bricks ∧ u.ports = s.ports)))

/-- A new operation addressed to no brick, or to the host of another seat, is Rejected with status 0x01; toward a Vacant seat it is Rejected with 0x85;
while the package holds no seat another's is unreachable (log entry 187: the model's inference); under a Held entry it waits; and toward a Live seat, or
own seat, it goes to its flow, which gives it the next sequence number and sends it where nothing waits before it. An operation of a tile takes the
tile's next number. A request that waits for a flow entry, for OUTMAX or under a Held entry is taken by its flow once it may be; one that has waited too
long under a Held entry, or for a port without having left, ends Seat unreachable. -/
def Obligations.OperationsAtSource : Prop :=
  (∀ (s : State) (b : Brick) (issuer : Issuer) (op : Op) (t : Nat),
     let a := op.addr.toNat
     let seat := s.realSeat a
     let e := s.seatEntry seat
     let rejected := fun (status : Nat) => deliver { issuer := issuer, kind := .rejected, status := status, data := [], op := op } s
     (issuerTile issuer = none →
       (destBrick a = none → Does (.operationIssue b issuer op) s (rejected 0x01)) ∧
       (∀ d, destBrick a = some d → seat ≠ s.ownSeatNo →
         (addrRegion a = 0xB → Does (.operationIssue b issuer op) s (rejected 0x01)) ∧
         (addrRegion a ≠ 0xB → entryState e = 0 → Does (.operationIssue b issuer op) s (rejected 0x85)) ∧
         (addrRegion a ≠ 0xB → entryState e = 1 → s.ownSeat = none → Does (.operationIssue b issuer op) s (unreachableNow issuer 0 op s)) ∧
         (addrRegion a ≠ 0xB → entryState e = 2 → s.ownSeat.isSome = true → Does (.operationIssue b issuer op) s (s.onBrick b (fun B =>
           { B with waitOps := B.waitOps ++ [{ op := op, no := 0, issuer := issuer, why := .held, readyAt := s.now }] })))) ∧
       (∀ i f, GoesToFlow s op i → s.flow b i = some f → flowWait s b f = none → (s.brick b).waitOps = [] →
         Does (.operationIssue b issuer op) s (assignSeq b i issuer 0 op s) ∧
         Leaves (.operationIssue b issuer op) s (fun u => FlowTook s u b i f.next f.ops.length)) ∧
       (∀ i, GoesToFlow s op i → s.flow b i = none → (s.brick b).srcFlows.length < 65536 → (s.brick b).waitOps = [] →
         Leaves (.operationIssue b issuer op) s (fun u => FlowTook s u b i 0 0))) ∧
     (issuerTile issuer = some t →
       let T := tileOf t
       let x := s.onTile T (fun x => { x with opNo := x.opNo + 1 })
       Does (.operationIssue b issuer op) s (issueNumbered b issuer (s.tile T).opNo op
         (tally T (if seat = s.ownSeatNo then 59 else 60) 1 (if op.opc = 0x02 then storeCopies T (s.canon a) op.payload x else x))))) ∧
  (∀ (s : State) (b : Brick) (w : WaitOp) (i : FlowId), GoesToFlow s w.op i → (s.brick b).waitOps = [w] →
     (s.flow b i = none → (s.brick b).srcFlows.length < 65536 → w.why = .entry →
       Leaves (.flowEntryFreedSend b) s (fun u => FlowTook s u b i 0 0 ∧ (u.brick b).waitOps = [] ∧ (u.brick b).tableFull = false)) ∧
     (∀ f, s.flow b i = some f → flowWait s b f = none →
       Leaves (.outmaxRelease b i) s (fun u => FlowTook s u b i f.next f.ops.length ∧ (u.brick b).waitOps = [])) ∧
     (∀ f, s.flow b i = some f → flowWait s b f = none → w.why = .held → entryState (s.seatEntry (addrSeat w.op.addr.toNat)) = 1 →
       Leaves (.heldOperationSend b) s (fun u => FlowTook s u b i f.next f.ops.length ∧ (u.brick b).waitOps = []))) ∧
  (∀ (s : State) (b : Brick) (k : Nat),
     (∀ w, ((s.brick b).waitOps.filter (fun w => w.why = .held))[k]? = some w → entryState (s.seatEntry (addrSeat w.op.addr.toNat)) = 2 →
       Does (.heldOperationUnreachable b false k) s (deliver { issuer := w.issuer, kind := .unreachable, status := 0, data := [], op := w.op }
         ((noteFailure w.issuer w.no w.op (s.onBrick b (fun B => { B with waitOps := B.waitOps.erase w }))).raise 0x1104 [addrSeat w.op.addr.toNat]))) ∧
     (∀ p f o, (s.brick b).waitPkts[k]? = some p → p.ptype.toNat = ptReq → p.hops = 0 → p.sbrk.toNat = b.val → s.flow b (packetFlow p) = some f →
       f.opAt p.seq.toNat = some o → o.left = false →
       Does (.heldOperationUnreachable b true k) s (giveUp b (packetFlow p) o (endOp b (packetFlow p) o .unreachable 0 []
         (s.onBrick b (fun B => { B with waitPkts := B.waitPkts.erase p }))))))

/-- A request whose timer expires goes in doubt, is counted, and its flow's oldest in-doubt operation is probed; an unanswered probe is sent again, and
after PROBEMAX probes the operation is reported; after RSP 0x81 the operation is sent again, until PROBEMAX refusals end it Seat unreachable; a flow to
be reopened is opened anew; a wait for a cast that none ended makes an operation never in doubt Seat unreachable. FACK carries ACKS of a flow that owes
it; an idle settled flow sends FCLS and waits for FCA, and repeats it; a flow to be reset stops taking sequence numbers, sends FRST once nothing is
unsettled, and repeats it. -/
def Obligations.SourceFlows : Prop :=
  (∀ (s : State) (b : Brick) (i : FlowId) (f : SrcFlow) (o : SrcOp) (seq : Nat), s.flow b i = some f →
     (f.opAt seq = some o → o.inDoubt = false → o.waitStale = false → o.waitCast = false → o.left = true → issuerTile o.issuer = none →
       Does (.te2eExpiry b i seq) s (probeNext b i (((s.onOp b i seq (fun o => { o with inDoubt := true, everDoubt := true, refused := false })).flag
         (Reg.MRT_TERR_INDOUBT b)).count (Reg.MRT_TCNT0_DOUBTS b) 1))) ∧
     (f.probe.bind f.opAt = some o → f.probeLeft = true → o.reported = false → o.probes < s.rd (Reg.MRT_TTMO_PROBEMAX b) →
       Does (.probeResend b i) s (probeNext b i (s.onFlow b i (fun f => { f with probe := none })))) ∧
     (f.probe.bind f.opAt = some o → f.probeLeft = true → o.reported = false → s.rd (Reg.MRT_TTMO_PROBEMAX b) ≤ o.probes →
       Does (.probeResend b i) s (probeNext b i ((deliver { issuer := o.issuer, kind := .inDoubt, status := 0, data := [], op := o.op }
         ((s.onOp b i o.seq (fun o => { o with reported := true })).raise 0x1102 [f.dseat, o.seq])).onFlow b i (fun f => { f with probe := none })))) ∧
     (f.probe = none → f.ops.find? (fun o => o.inDoubt) = some o → (f.sseat = 0xFFFF ∨ f.dseat = s.ownSeatNo ∨ entryState (s.seatEntry f.dseat) = 1) →
       let t := s.onFlow b i (fun f => { f with probe := some o.seq, probeLeft := false, lastSent := s.now })
       probeNext b i s = t.sendFrom b (flowPacket t b f ptPrb 0 o.seq o.att o.op.addr.toNat)) ∧
     (f.opAt seq = some o → o.waitStale = true → o.refused = true → s.rd (Reg.MRT_TTMO_PROBEMAX b) ≤ o.refusals →
       Does (.staleSourceResend b i seq) s (giveUp b i o (endOp b i o .unreachable 0x81 [] s))) ∧
     (f.opAt seq = some o → o.waitStale = true → o.refusals < s.rd (Reg.MRT_TTMO_PROBEMAX b) → (f.sseat ≠ 0xFFFF ∨ s.ownSeat = none) →
       Does (.staleSourceResend b i seq) s (sendOp b i seq s)) ∧
     (f.opAt seq = some o → ∃ q, ((sendOp b i seq s).brick b).routeQ = (s.brick b).routeQ ++ [q] ∧ q.ptype.toNat = ptReq ∧ q.seq = BitVec.ofNat 32 o.seq ∧
       q.att = BitVec.ofNat 8 f.attMin ∧ q.opc = o.op.opc ∧ q.payload = o.op.payload) ∧
     (f.phase = .reopening → Does (.flowReopen b i) s (releaseWaiting b .reset (openAnew b i f.fep s))) ∧
     (f.opAt seq = some o → o.waitCast = true → newerGen (entryGen (s.seatEntry f.dseat)) f.dgen = false → o.everDoubt = false →
       Does (.wrongSeatCastWaitExpiry b i seq) s (giveUp b i o (endOp b i o .unreachable 0x80 [] s)))) ∧
  (∀ (s : State) (b : Brick) (i : FlowId) (f : SrcFlow), s.flow b i = some f →
     let addr := brickAddr f.dbrk
     (f.owesFack = true → Does (.fackSend b i) s ((s.sendFrom b (flowPacket s b f ptFack f.acks 0 0 addr)).onFlow b i (fun f =>
       { f with acksSent := f.acks, owesFack := false, lastSent := s.now }))) ∧
     (f.owesFack = false → Does (.fackSend b i) s s) ∧
     (f.ops = [] → f.acksSent = f.acksNow → f.phase = .active → (s.brick b).waitOps = [] → f.lastSent + s.rd (Reg.MRT_TFLOW_FIDLE b) * 1000 ≤ s.now →
       let t := s.onFlow b i (fun f => { f with phase := .awaitFca, lastSent := s.now })
       Does (.flowClose b i) s (t.sendFrom b (flowPacket t b f ptFcls f.acksNow 0 0 addr))) ∧
     (f.phase = .awaitFca → Does (.fclsRepeat b i) s (s.sendFrom b (flowPacket s b f ptFcls f.acksNow 0 0 addr))) ∧
     (f.phase = .active → Leaves (.flowResetStart b i) s (fun u => u.flow b i = some { f with phase := .draining } ∧ u.mem = s.mem ∧ u.events = s.events ∧
       u.ports = s.ports ∧ u.tiles = s.tiles)) ∧
     (f.phase = .draining → f.ops = [] →
       Does (.frstSend b i) s ((s.sendFrom b (frstPacket s b f)).onFlow b i (fun f => { f with phase := .awaitFra, lastSent := s.now }))) ∧
     (f.phase = .awaitFra → Does (.frstRepeat b i) s (s.sendFrom b (frstPacket s b f))) ∧
     ((frstPacket s b f).acks = BitVec.ofNat 32 f.next ∧ (frstPacket s b f).seq = BitVec.ofNat 32 (f.next - 1) ∧ (frstPacket s b f).fep = BitVec.ofNat 8 f.fep))

/-- A response with status 0x00 to 0x7F, and a probe answer 0x90, give the operation its outcome, Completed or Rejected as its status says, and it leaves
its flow; a probe answer 0x92 ends it Unsettled; 0x91 sends every unsettled operation from NXT on again under the new ATTMIN; an answer of no outstanding
probe is discarded; FCA frees the flow; FRA with status 0 starts the next epoch. -/
def Obligations.SourceAnswers : Prop :=
  (∀ (s : State) (b : Brick) (p : Packet) (f : SrcFlow) (o : SrcOp), packetSound p = true → s.tooOld b p = false →
    let i := packetFlow p
    let s1 := s.takeArrived b p
    let took := s1.onFlow b i (fun f => { f with owesFack := true, answered := true, probe := none })
    s.flow b i = some f →
    (p.ptype.toNat = ptRsp → f.fep = p.fep.toNat → f.opAt p.seq.toNat = some o → p.aux.toNat ≤ 0x7F →
      Does (.rspReceive b p) s (probeNext b i (endOp b i o (if statusCompletes o.op.opc.toNat p.aux.toNat then .completed else .rejected) p.aux.toNat p.payload
        (flowShown b i p.inc.toNat (s1.onFlow b i (fun f => { f with owesFack := true })))))) ∧
    (p.ptype.toNat = ptPra → f.fep = p.fep.toNat → f.opAt p.seq.toNat = some o →
      (f.probe ≠ some p.seq.toNat → Does (.praReceive b p) s s1) ∧
      (f.probe = some p.seq.toNat →
        (p.aux.toNat = 0x90 → Does (.praReceive b p) s (probeNext b i (endOp b i o (if statusCompletes o.op.opc.toNat p.att.toNat then .completed else .rejected)
          p.att.toNat p.payload (flowShown b i p.inc.toNat took)))) ∧
        (p.aux.toNat = 0x92 → Does (.praReceive b p) s (probeNext b i (endOp b i o .unsettled 0x92 [] took))) ∧
        (p.aux.toNat = 0x91 → Does (.praReceive b p) s (probeNext b i (goBack b i p.acks.toNat (((flowShown b i p.inc.toNat took).onFlow b i (fun f =>
          { f with attMin := p.att.toNat })).count (Reg.MRT_TCNT1_GOBACKS b) 1)))))) ∧
    (p.ptype.toNat = ptFca → f.phase = .awaitFca → f.fep = p.fep.toNat →
      Does (.fcaReceive b p) s (releaseWaiting b .reset (s1.onBrick b (fun B => { B with srcFlows := B.srcFlows.filter (fun g => !g.named i) })))) ∧
    (p.ptype.toNat = ptFra → f.phase = .awaitFra → p.aux = 0 →
      Does (.fraReceive b p) s (releaseWaiting b .reset (s1.onFlow b i (fun g =>
        { g with fep := (f.fep + 1) % 256, next := 0, acks := 0, acksSent := 0, attMin := 0, opens := false, phase := .active }))))) ∧
  (∀ (s : State) (b : Brick) (i : FlowId) (o : SrcOp) (kind : Outcome57) (status : Nat) (data : Bytes),
    ((endOp b i o kind status data s).flow b i).bind (fun g => g.opAt o.seq) = none ∧
    (kind = .completed → issuerTile o.issuer = none → (∀ n, o.issuer ≠ .outside n) → (∀ n, o.issuer ≠ .engine n) → (∀ n, o.issuer ≠ .wake n) →
      (endOp b i o kind status data s).results = s.results ++ [⟨o.issuer, kind, status, data, o.op⟩]))

/-- A sound, fresh REQ for a seat not held, or of another generation, is answered 0x80; one of a stale source 0x81, of a stale incarnation 0x82, and one
that opens nothing where no flow is known 0x83, each with its event; one that opens a flow is taken into it. FACK frees the retained answers below
ACKS; a probe of an unknown flow is answered 0x92, one of a request not performed 0x91 with NXT and a new attempt number, and one of a retained answer 0x90
with it; FCLS and FRST that match delete or reset the flow and answer; a full retention store resumes. -/
def Obligations.DestinationAnswers : Prop :=
  ∀ (s : State) (b : Brick) (p : Packet) (e : MemEnv), packetSound p = true → s.tooOld b p = false →
    let s1 := s.takeArrived b p
    let m := memReports e s1
    (p.ptype.toNat = ptReq → holdsSeat m p = false → Does (.reqReceive b p e) s (wrongSeat b p ptRsp m)) ∧
    (p.ptype.toNat = ptReq → holdsSeat m p = true → genCurrent m p = true → sourceCurrent m p = false →
      Does (.reqReceive b p e) s (staleSource b p ptRsp 0x81 m)) ∧
    (p.ptype.toNat = ptReq → holdsSeat m p = true → genCurrent m p = true → sourceCurrent m p = true → incCurrent m p = false →
      Does (.reqReceive b p e) s (staleSource b p ptRsp 0x82 m)) ∧
    (p.ptype.toNat = ptReq → holdsSeat m p = true → genCurrent m p = true → sourceCurrent m p = true → incCurrent m p = true → m.dstFlow b p = none →
      (p.opn = false → Does (.reqReceive b p e) s (reply b p ptRsp 0x83 [] m)) ∧
      (p.opn = true → (m.brick b).quarantine = false → (m.brick b).dstFlows.length < 65536 → Does (.reqReceive b p e) s (takeInFlow b p e (openFlow b p m)))) ∧
    (∀ f, p.ptype.toNat = ptReq → holdsSeat m p = true → genCurrent m p = true → sourceCurrent m p = true → incCurrent m p = true →
      m.dstFlow b p = some f → f.fep = p.fep.toNat → (m.brick b).quarantine = false → Does (.reqReceive b p e) s (takeInFlow b p e m)) ∧
    (∀ f, (takeAcks b p m).dstFlow b p = some f →
      (∀ r, p.seq.toNat < f.nxt → f.retained.find? (fun r => r.seq = p.seq.toNat) = some r →
        takeInFlow b p e m = reply b p ptRsp r.status r.data ((takeAcks b p m).count (Reg.MRT_TCNT1_DUPS b) 1)) ∧
      (p.seq.toNat = f.nxt → f.performing = none → f.held = [] → p.att.toNat = f.attMin → mayPerform (takeAcks b p m) b = true →
        retentionFull (takeAcks b p m) b = false →
        takeInFlow b p e m = runFlow b p e 1 ((takeAcks b p m).onDst b p (fun f => { f with held := f.held ++ [p] })))) ∧
    (∀ f, p.ptype.toNat = ptFack → s1.dstFlow b p = some f → f.fep = p.fep.toNat → Does (.fackReceive b p) s (takeAcks b p s1)) ∧
    (p.ptype.toNat = ptPrb → (s1.brick b).quarantine = false → holdsSeat s1 p = true → s1.dstFlow b p = none →
      Does (.prbReceive b p) s (reply b p ptPra 0x92 [] s1)) ∧
    (∀ f, p.ptype.toNat = ptPrb → (s1.brick b).quarantine = false → holdsSeat s1 p = true → genOld s1 p = false → incCurrent s1 p = true →
      s1.dstFlow b p = some f → f.fep = p.fep.toNat →
      (f.begun ≤ p.seq.toNat →
        let att := (f.attMin + 1) % 256
        let u := s1.onDst b p (fun f => { f with attMin := att, held := [] })
        Does (.prbReceive b p) s (u.answerFrom b ((u.answer p ptPra 0x91 []).map (fun q => { q with acks := BitVec.ofNat 32 f.begun, att := BitVec.ofNat 8 att })))) ∧
      (∀ r, p.seq.toNat < f.begun → f.retained.find? (fun r => r.seq = p.seq.toNat) = some r →
        Does (.prbReceive b p) s (s1.answerFrom b ((s1.answer p ptPra 0x90 r.data).map (fun q =>
          { q with acks := BitVec.ofNat 32 f.begun, att := BitVec.ofNat 8 r.status }))))) ∧
    (∀ f, p.ptype.toNat = ptFcls → holdsSeat s1 p = true → genOld s1 p = false → s1.dstFlow b p = some f →
      Does (.fclsReceive b p) s (reply b p ptFca 0x00 [] (if f.fep = p.fep.toNat ∧ f.nxt = p.acks.toNat then dropFlow b p s1 else s1))) ∧
    (∀ f, p.ptype.toNat = ptFrst → holdsSeat s1 p = true → sourceCurrent s1 p = true → incCurrent s1 p = true → s1.dstFlow b p = some f →
      f.fep = p.fep.toNat → f.nxt = p.seq.toNat + 1 → max f.ackd p.acks.toNat = f.nxt →
      let fep := (p.fep.toNat + 1) % 256
      let u := s1.onDst b p (fun f => { f with fep := fep, nxt := 0, ackd := 0, attMin := 0, held := [], retained := [], performing := none })
      Does (.frstReceive b p) s (u.answerFrom b ((u.answer p ptFra 0x00 []).map (fun q => { q with fep := BitVec.ofNat 8 fep })))) ∧
    Does (.retentionStoreResume b e) s (resumeFlows b e (memReports e s)) ∧
    (∀ f q r t, ((memReports e s).brick b).dstFlows = [f] → f.mine q = true → f.held = [q] → q.seq.toNat = f.nxt → f.performing = none →
      mayPerform (memReports e s) b = true → retentionFull (memReports e s) b = false →
      perform b q e ((memReports e s).onDst b q (fun f => { f with held := [], performing := some q })) = (.reply r, t) →
      t.dstFlow b q = some { f with held := [], performing := some q } → retentionUsed ((memReports e s).brick b) + (1 + r.2.length) ≤ retentionSize →
      Leaves (.retentionStoreResume b e) s (fun u => u.dstFlow b q = some { f with
        held := [], performing := none, nxt := f.nxt + 1, retained := f.retained ++ [{ seq := q.seq.toNat, status := r.1, data := r.2 }] }))

/-- A packet goes where the routing tables decide: into the transmit queue of the port chosen, at the brick that owns it; one that waits goes once it can;
and one that waits at a brick other than its source's is discarded with event 0x1108 once it is too old. -/
def Obligations.RoutingCommands : Prop :=
  ∀ (s : State) (b : Brick) (p : Packet) (draw : Nat),
    let s1 := s.onBrick b (fun B => { B with routeQ := B.routeQ.erase p })
    (p.ptype.toNat ≠ 0 → p.ptype.toNat < ptCast → (p.hops.toNat = 7 → p.dpid.toNat = s1.ownPid) → (p.hops = 0 ∨ s1.tooOld b p = false) →
      Does (.packetRoute b p draw) s (carryOut b p (decideRoute s1 b p draw (decide (p.hops = 0))) s1)) ∧
    (p.hops ≠ 0 → s1.tooOld b p = true → Does (.packetRoute b p draw) s (s1.agedOut b)) ∧
    (∀ q : Port, portBrick q = b → p.nm = false → p.ph ≠ 3 →
      carryOut b p (.send q.val false none) s =
        markLeft b p (enqueue (.port q) p (s.onBrick b (fun B => { B with noRoute := B.noRoute.erase p.dpid.toNat })))) ∧
    ((s.brick b).waitPkts = [p] → p.ptype.toNat ≠ ptCast → canGo s b p = true →
      Does (.waitingPacketSend b) s (carryOut b p (decideRoute s b p 0 false) (s.onBrick b (fun B => { B with waitPkts := [] })))) ∧
    ((s.brick b).waitPkts.find? (fun p => !ownUnsent b p && s.tooOld b p) = some p →
      Does (.waitingPacketAgeOut b) s ((s.onBrick b (fun B => { B with waitPkts := B.waitPkts.erase p })).agedOut b))

/-- A sound flit is taken, whether a bridge's module or the lanes of a port bring it; one whose CRC or FEC fails is counted, and its link asks for a replay;
in order it is accepted. A NAK, or a flit that waited too long, starts a replay of the flits kept; a replay episode open too long, a DOWN message, and the
loss of all lanes take the link down with reasons 0x1, 0x3 and 0x2. -/
def Obligations.FlitsAndReplay : Prop :=
  ∀ (l : LinkId) (s : State) (f : Flit),
    (∀ b q (m : Fin 18) flit, l = .bridge b q → (s.link l).bridgeUp = true → (goodModules s b q).contains m.val = true → flitOf (padTo 256 flit) = f →
      (f = flitSeal f → Does (.flitReceive l (.module m flit)) s (takeFlit l f s)) ∧
      (f ≠ flitSeal f → f.typ = 1 →
        let t := (s.flag (perrCrc l)).count (pcntFailed l) 1
        Does (.flitReceive l (.module m flit)) s (askReplay l (decide (f.fsn.toNat = (t.link l).expected)) t))) ∧
    (∀ p levels, l = .port p → 7 ≤ s.portState p → s.portState p ≤ 8 →
      let r := takeBlock p levels s
      (∀ bs fixed, fecDecode r.1 = some (bs, fixed) → flitOf bs = flitSeal (flitOf bs) →
        Does (.flitReceive l (.lanes levels)) s (takeFlit l (flitOf bs) (countLanes p fixed (r.2.count (pcntCorr l) fixed.length)))) ∧
      (fecDecode r.1 = none → (flitOf r.1).typ = 1 →
        let t := (r.2.flag (perrFec l)).count (pcntFailed l) 1
        Does (.flitReceive l (.lanes levels)) s (askReplay l (decide ((flitOf r.1).fsn.toNat = (t.link l).expected)) t))) ∧
    (f.typ = 1 → f.av = false → f.nak = false → f.fsn.toNat = (s.link l).expected → takeFlit l f s = acceptAhead l (spread s l) (acceptFlit l f s)) ∧
    ((s.link l).nakGot = true → Does (.nakReceive l) s (replayAll l (s.onLink l (fun L => { L with nakGot := false })))) ∧
    Does (.acktmrExpiry l) s (replayAll l (s.onLink l (fun L => { L with nakOut := false }))) ∧
    (∀ fs e, (s.link l).replay = f :: fs → (s.link l).episode.getD { oldest := f.fsn.toNat, replays := 0 } = e → e.replays < (s.link l).maxReplay →
      replayAll l s = (((s.onLink l (fun L => { L with episode := some { e with replays := e.replays + 1 }, nakGot := false })).flag (perrReplay l)).count
        (pcntReplays l) 1).each (f :: fs) (fun s f => putWire l f s)) ∧
    ((s.link l).episode.isSome = true → Does (.tlimitExpiry l) s (linkDown l 1 s)) ∧
    (∀ reason, (linkDown l reason s).isSet (perrDown l) = true ∧ ∃ x ∈ (linkDown l reason s).events, x.code = 0x1002 ∧ x.args = [linkNo l, reason]) ∧
    (∀ m t, takeMessage l 4 s = some (m, t) → Does (.downReceive l) s (linkDown l 3 t)) ∧
    (∀ p lanes, 2 ≤ s.portState p → s.portState p ≤ 8 → s.rd (Reg.MRT_PSTAT_RXLIVE p) ≠ 0 →
      Nat.land (s.rd (Reg.MRT_PSTAT_RXLIVE p)) lanes.toNat = s.rd (Reg.MRT_PSTAT_RXLIVE p) → Does (.lossOfLock p lanes) s (linkDown (.port p) 2 s))

/-- CREDINIT sets the transmit credits of the eight channels; TSREQ is answered with a TSRSP that carries the request's t1, the time of arrival and the
time of sending; TSRSP leaves the round trip and the offset, the smallest round trip so far deciding. A grant at a link's point sends the packet of
the highest level, or a null flit where nothing may go; at another point it moves the averages of the label granted. A window's start zeroes WORST and
MISSES of every label. -/
def Obligations.LinkMessagesAndArbitration : Prop :=
  (∀ (l : LinkId) (s t : State) (m : Nat × Bytes),
     (takeMessage l 3 s = some (m, t) → Does (.credinitReceive l) s (t.onLink l (fun L => { L with
       credits := (List.range 8).map (fun v => leNat ((m.2.drop (8 + 2 * v)).take 2)), training := { L.training with credGot := true } }))) ∧
     (takeMessage l 1 s = some (m, t) → replayFull s l = false → Does (.tsreqReceive l) s
       (sendControl l 3 ([0x02] ++ List.replicate 7 0 ++ (m.2.drop 8).take 8 ++ leBytes 8 m.1 ++ leBytes 8 t.plumb.toNat) t)) ∧
     (∀ p t1 t2 t3, takeMessage (.port p) 2 s = some (m, t) → leNat ((m.2.drop 8).take 8) = t1 → leNat ((m.2.drop 16).take 8) = t2 →
       leNat ((m.2.drop 24).take 8) = t3 → t1 ≤ m.1 → t2 ≤ t3 → t3 - t2 ≤ m.1 - t1 → (t.link (.port p)).training.exchanges = 0 → t.portState p = 8 →
       Does (.tsrspReceive p) s (t.onLink (.port p) (fun L => { L with training := { L.training with
         exchanges := 1, rtt := (m.1 - t1) - (t3 - t2), theta := half (((t2 : Int) - t1) - ((m.1 : Int) - t3)) } })))) ∧
  (∀ (pt : Fin 58) (s : State),
     let t := rollWindow pt (fillBuckets pt s)
     (∀ l rs rivals, pointLink pt = some l → pointStill s pt = false → Does (.labelGrant pt rs rivals) s (grantLink pt l t)) ∧
     (∀ l, (s.link l).queue = [] → grantLink pt l s = sendNull l false s) ∧
     (∀ l c n x, let rank := rankAll s pt (fun _ => none) ((linkCandidates s l).map (fun e => e.2))
       bestLabel rank (tieOrder s.points[pt].last) = some (c, n) → (linkCandidates s l).find? (fun e => e.2 = c) = some x →
       grantLink pt l s = transmit l x.1 (onGrant pt c.lbl c.age c.size (writeSteps pt rank s))) ∧
     (∀ r : LabelReq, pointLink pt = none → pointStack pt = none → pointStill s pt = false →
       (r.lbl.val ≠ 13 ∨ pointBytes pt r.size * 10 ^ 12 ≤ t.points[pt].bucket13) →
       Leaves (.labelGrant pt [r] []) s (fun u => u.points[pt].last = r.lbl.val ∧ u.mem = s.mem ∧ u.tiles = s.tiles ∧ u.bricks = s.bricks ∧
         u.rd (Reg.LBL_MEAS_EWMA pt r.lbl.val) = wrapNat 32 ((t.rd (Reg.LBL_MEAS_EWMA pt r.lbl.val) : Int) +
           sextInt 32 (r.age * 16 % 2 ^ 32 + 2 ^ 32 - t.rd (Reg.LBL_MEAS_EWMA pt r.lbl.val)) / (2 : Int) ^ t.rd (Reg.LBL_PCTL_WSHIFT pt)))) ∧
     ((56 ≤ pt.val → s.isSet Reg.HST_STAT_LINKUP = true) → windowNow s pt ≠ s.points[pt].window →
       Leaves (.labelWindowStart pt) s (fun u => (∀ k, k < 16 → u.rd (Reg.LBL_MEAS_WORST pt k) = 0 ∧ u.rd (Reg.LBL_MEAS_MISSES pt k) = 0 ∧
         u.rd (Reg.LBL_MEAS_EWMA pt k) = s.rd (Reg.LBL_MEAS_EWMA pt k)) ∧ u.points[pt].reported = 0 ∧ u.points[pt].window = windowNow s pt ∧ u.mem = s.mem ∧
         u.events = s.events ∧ u.bricks = s.bricks)))

/-- EN starts a full training of a port with an allowed module, out of its safe state, which puts it in Detect, and rejects one without, which raises MODREJ and event 0x1009 and leaves
a Disabled port so, shown as STATE 0xC (R122, R147: that 0xC is Disabled with a rejected module is log entry 225); clearing EN takes an Active port down with reason 0x6 to Disabled; RETRAIN takes it down
and trains again, and HOLDCLR trains a Held port; a failed training is tried again; a fast retrain falls back to full training; Detect is repeated;
and the events of an absent neighbour, of a high corrected rate and of a lane driver are raised. An intact training word is taken: its lane locks, and
what it shows of the partner is kept; Detect with a lane present goes to Lock, and each later state takes its step once the
partner is heard there; a training that is too slow fails with reason 0x7; a cable module's
identity is kept; a bridge whose ends name each other comes up with its modules and sends CREDINIT, and one that names another brick stays down with
event 0x100D; a module removed leaves the rest. -/
def Obligations.PortsAndTraining : Prop :=
  (∀ (p : Port) (s : State) (lane : Fin 8),
     let l := LinkId.port p
     (s.portOff p = true → s.moduleOk p = true →
       Does (.portEnable l) s (startTraining p false (((withModule p (powerModule p) s).onLink l (fun L =>
         { L with enAt := s.now, absentRaised := false, backoffMs := 10 })).wr (Reg.MRT_PCTL_EN p) 1))) ∧
     (s.portOff p = true → s.moduleOk p = false → Does (.portEnable l) s (rejectModule p (withModule p id s))) ∧
     (let r := (s.flag (Reg.MRT_PERR_MODREJ p))
      (s.portOff p = true → rejectModule p s = (r.toPortState p 0xC).raise 0x1009 [p.val]) ∧
      (s.portOff p = false → rejectModule p s = r.raise 0x1009 [p.val])) ∧
     (brickSafe s (portBrick p) = false →
       (startTraining p false s).portState p = 1 ∧ (startTraining p true s).portState p = 2 ∧
       ((startTraining p false s).link l).training = { portRec := s.sheetRec p, txPresent := 0xFF } ∧ ((startTraining p true s).link l).training.fast = true) ∧
     (s.portState p = 8 →
       Does (.portDisable l) s (((settleDown l 6 (s.wr (Reg.MRT_PCTL_EN p) 0)).onLink l (fun L => { L with training := {} })).toPortState p 0)) ∧
     (s.portState p = 8 → Does (.retrain l) s (startTraining p false (settleDown l 6 s))) ∧
     (s.portState p = 0xA → Does (.holdclr p) s (startTraining p false (s.onLink l (fun L => { L with downs := [] })))) ∧
     ((s.link l).training.failed = true → Does (.trainingRetry p) s (startTraining p false s)) ∧
     ((s.link l).training.fast = true → 2 ≤ s.portState p → s.portState p ≤ 7 → Does (.fastRetrainTimeout p) s (startTraining p false s)) ∧
     (s.portState p = 1 → Does (.detectRepeat p) s (startTraining p false s)) ∧
     (∀ r, s.isSet (Reg.MRT_PCTL_EN p) = true → s.portState p = 1 → s.sheetRec p = some r → recRole r ≠ 0 → (s.link l).absentRaised = false →
       Does (.neighbourAbsent p) s ((s.onLink l (fun L => { L with absentRaised := true })).raise 0x1010 [p.val])) ∧
     (s.portActive p = true → Does (.correctedRateHigh p lane) s (s.raise 0x100E [p.val, lane.val])) ∧
     (s.portActive p = true → Does (.laneDriverFault p lane) s (s.raise 0x100F [p.val, lane.val]))) ∧
  (∀ (p : Port) (s : State),
     let l := LinkId.port p
     (∀ (lane : Fin 8) (levels : List Level), let word := padTo 32 (bytesOfLevels levels)
       wordIntact word = true → 2 ≤ s.portState p → s.portState p ≤ 6 → bitOf (s.link l).training.excludedOwn lane.val = false →
       Leaves (.trainingWordReceive p lane levels) s (fun u =>
         let T := (u.link l).training
         bitOf T.rxLocked lane.val = true ∧ T.ident = some (leNat ((word.drop 8).take 2), (word.getD 10 0).toNat % 32, leNat ((word.drop 12).take 4)) ∧
         T.laneNo = (s.link l).training.laneNo.set lane.val ((word.getD 4 0).toNat % 8) ∧
         T.eqIn = (s.link l).training.eqIn.set lane.val (leNat ((word.drop 16).take 4) % 4096) ∧
         T.partnerLive = (word.getD 6 0).toNat ∧ T.partnerMinW = (word.getD 7 0).toNat % 4 ∧ T.partnerAccepted = bitOf (word.getD 7 0).toNat 3 ∧
         T.words = (s.link l).training.words + (if s.portState p ≤ (word.getD 5 0).toNat + 1 then 1 else 0) ∧
         T.rxInverted = (s.link l).training.rxInverted ∧ u.mem = s.mem ∧ u.events = s.events ∧ u.bricks = s.bricks ∧ u.tiles = s.tiles)) ∧
     (∀ t : LaneTest, s.portState p = 1 → (s.link l).laneFault = 0 → t.openTx = 0 → t.shortTx = 0 →
       Does (.trainingStateAdvance p t) s (enterState p 2 (s.onLink l (fun L => { L with training := { L.training with txPresent := 0xFF } })))) ∧
     (∀ t : LaneTest, 16 ≤ (s.link l).training.words →
       (s.portState p = 2 → Does (.trainingStateAdvance p t) s (stepLock p s)) ∧ (s.portState p = 3 → Does (.trainingStateAdvance p t) s (stepAlign p s)) ∧
       (s.portState p = 5 → Does (.trainingStateAdvance p t) s (stepWidth p s)) ∧ (s.portState p = 6 → Does (.trainingStateAdvance p t) s (stepIdentify p s))) ∧
     (∀ t : LaneTest, s.portState p = 7 → (s.link l).training.verified = true → (s.link l).training.credGot = true →
       Does (.trainingStateAdvance p t) s (becomeActive p s)) ∧
     (2 ≤ s.portState p → s.portState p ≤ 7 → s.portState p ≠ 6 → Does (.trainingTimeout p) s (failTraining p 7 s)) ∧
     (∀ present readable faulty (m : CableModule) int, s.sheetRec p = none → s.portState p ≠ 0xB → s.hod.busFailed.contains (moduleBus p) = false →
       let read := present && readable
       let s1 := { s with hod := { s.hod with modInt := withBits s.hod.modInt (p.val / 6) (p.val / 6) (bit int) } }
       let t := measureIdents ((if present then withModule p id s1 else s1).onLink l (fun L => { L with
         modulePresent := present, moduleReadable := read, moduleClass := if read then m.cls.val else 0,
         moduleLower := if read then padTo 18 m.lower else [], laneFault := if read then faulty.toNat else 0, moduleId := if read then m.ident else [] }))
       Does (.modulePresenceChange p present readable faulty m int) s (if read then (if s.portOff p then t.toPortState p 0 else t) else rejectModule p t)) ∧
     (∀ (b : Brick) (q : Fin 3) (modules : BitVec 18) (fast : Bool), s.isSet (Reg.MRT_BCTL_EN b q) = true → (s.link (.bridge b q)).bridgeUp = false → modules ≠ 0 →
       uncoreOn s b = true → uncoreOn s (bridgePeer b q) = true → brickSafe s b = false → brickSafe s (bridgePeer b q) = false →
       (∀ brick, brick ≠ (bridgePeer b q).val → Does (.bridgeLinkUp b q brick modules fast) s (s.raise 0x100D [b.val, q.val, 1])) ∧
       Does (.bridgeLinkUp b q (bridgePeer b q).val modules fast) s (sendCredinit (.bridge b q) (((fillBuckets (pointOf (.bridge b q))
         (loadSettings (.bridge b q) (s.onLink (.bridge b q) (fun L => { L.fresh with bridgeUp := true, training := {} })))).wr
           (Reg.MRT_BSTAT_MODGOOD b q) modules.toNat).wr (Reg.MRT_BSTAT_SPEED b q) (if fast then 2 else 1)))) ∧
     (∀ (b : Brick) (q : Fin 3) (m : Fin 18), bitOf (s.rd (Reg.MRT_BSTAT_MODGOOD b q)) m.val = true → s.rd (Reg.MRT_BSTAT_MODGOOD b q) ≠ 2 ^ m.val →
       Does (.bridgeModuleRemove b q m) s (((fillBuckets (pointOf (.bridge b q)) s).wr (Reg.MRT_BSTAT_MODGOOD b q) (s.rd (Reg.MRT_BSTAT_MODGOOD b q) - 2 ^ m.val)).raise 0x100D
         [b.val, q.val, 0, m.val])))

/-- A fill whose load was answered and that nothing overtook installs a mirror line with its stamp: the bytes another package sent, or those of the line's
home in this one; one that a store overtook is dropped. An eviction drops the line. A wake takes its open slot, which is Done with the wake's status and
count; an armed timeout that has come removes the wait and wakes it with status 0x1; a release whose drain is over leaves, or completes with 0x16 where
an operation of its scope failed; every WCHKINT each registered remote wait is checked, and none without one. -/
def Obligations.CopiesAndWakes : Prop :=
  ∀ (t : Tile) (s : State) (addr : Word) (data : Bytes) (e : MemEnv),
    let b := tileBrick t
    let line := lineOf (s.canon addr.toNat)
    let int := fun (c : Brick) => s.rd (Reg.BND_CTL_WCHKINT c) * 1000
    (∀ f : Fill, (s.brick b).fills = [f] → f.tile = t.val → f.line = line → f.ready = true → f.stale = false →
      let m := memReports e (s.onBrick b (fun B => { B with fills := [] }))
      let put := fun (d : Bytes) (x : State) => x.onTile t (fun T =>
        { T with mirror := { line := line, stamp := f.stamp, data := d } :: T.mirror.filter (fun x => x.line ≠ line) })
      (addrSeat (line * 128) ≠ 0xFFFF → (m.tile t).stamp ≤ f.stamp → Does (.copyFill t addr data false true false e) s (put (padTo 128 data) m)) ∧
      (∀ d x poisoned, addrSeat (line * 128) = 0xFFFF → lineAtHome (line * 128) e m = (some d, x) → (x.tile t).stamp ≤ f.stamp →
        Does (.copyFill t addr data poisoned true false e) s (put d x))) ∧
    (∀ f poisoned mirror remote, (s.brick b).fills = [f] → f.tile = t.val → f.line = line → f.ready = true → f.stale = true →
      Does (.copyFill t addr data poisoned mirror remote e) s (s.onBrick b (fun B => { B with fills := [] }))) ∧
    Does (.copyEvict t addr true) s (s.onTile t (fun T => { T with mirror := T.mirror.filter (fun c => c.line ≠ line) })) ∧
    Does (.copyEvict t addr false) s (s.onBrick b (fun B => { B with copies := B.copies.filter (fun c => c.line ≠ line) })) ∧
    (∀ c w ws, (s.brick c).wakes = w :: ws → w.slot < 16 →
      let k := s.slot (tileOf w.tile) w.slot
      k.st = .opened → s.realSeat k.bond.toNat = s.realSeat w.bond.toNat → bitsOf k.bond.toNat 47 0 = bitsOf w.bond.toNat 47 0 →
      Leaves (.wake c) s (fun u => u.slot (tileOf w.tile) w.slot = { k with st := .done, status := w.status, count := w.count, registered := false } ∧
        u.mem = s.mem ∧ u.ports = s.ports ∧ u.events = s.events)) ∧
    (∀ (c : Brick) (k : Fin 16384) (seat : BitVec 16) (slot : Fin 16) (w : BondWait), (s.bond c k).waits.find? (fun w => w.seat = seat.toNat && w.tile = t.val && w.slot = slot.val) = some w → w.timeout ≠ 0 →
      w.since + w.timeout * 1000 ≤ s.plumb.toNat →
      Does (.waitTimeout c k seat t slot) s (issueWake c k w 1 none (((s.onBond c k (fun B => { B with waits := B.waits.erase w })).flag
        (Reg.BND_ERR_TIMEOUT c)).count (Reg.BND_CNT1_TIMEOUTS c) 1)) ∧
      (w.brk = c.val → w.seat = 0xFFFF ∨ w.seat = s.ownSeatNo → Leaves (.waitTimeout c k seat t slot) s (fun u =>
        (u.brick c).wakes = (s.brick c).wakes ++ [⟨w.tile, w.slot, 1, (s.bond c k).count, BitVec.ofNat 64 (bondAddr s.ownSeatNo c k)⟩] ∧
        u.bond c k = { s.bond c k with waits := (s.bond c k).waits.erase w } ∧ u.isSet (Reg.BND_ERR_TIMEOUT c) = true ∧ u.mem = s.mem ∧ u.tiles = s.tiles))) ∧
    (∀ c : Brick, s.rd (Reg.BND_CTL_WCHKINT c) = 0 → Does (.wchkSend c) s s) ∧
    (∀ c : Brick, s.rd (Reg.BND_CTL_WCHKINT c) ≠ 0 → Does (.wchkSend c) s ((brickTiles c).foldl (fun s u => (List.range 16).foldl (fun s k =>
      if (s.slot u k).st = .opened ∧ (s.slot u k).registered = true ∧ max (s.slot u k).openedAt (s.slot u k).checkedAt + int c ≤ s.now ∧
          ¬(s.realSeat (s.slot u k).bond.toNat = s.ownSeatNo ∧ destBrick (s.slot u k).bond.toNat = some c)
      then
        let w := s.slot u k
        issueOp c (.wchk u k) { addr := w.bond, opc := 0x3B, aux := 0, lbl := labelOf w.lbl, size := 10,
                                payload := List.replicate 8 0 ++ [BitVec.ofNat 8 u.val, BitVec.ofNat 8 k] } (s.onSlot u k (fun w => { w with checkedAt := s.now }))
      else s) s) s)) ∧
    (∀ (c : Brick) (v : Tile) k, s.rd (Reg.BND_CTL_WCHKINT c) ≠ 0 → v ∈ brickTiles c → k < 16 → (s.slot v k).st = .opened → (s.slot v k).registered = true →
      max (s.slot v k).openedAt (s.slot v k).checkedAt + int c ≤ s.now → s.realSeat (s.slot v k).bond.toNat ≠ s.ownSeatNo →
      Leaves (.wchkSend c) s (fun u => (u.slot v k).checkedAt = s.now ∧ (u.tile v).opNo > (s.tile v).opNo)) ∧
    (∀ rel, (s.tile t).releases.find? (fun rel => drained s t rel) = some rel →
      let u := s.onTile t (fun T => { T with releases := T.releases.erase rel, failed := T.failed.filter (fun f => !rel.covers f) })
      (scopeFailed s t rel = false → rel.range = false → Does (.releaseSend t) s (issueOp b rel.issuer rel.op u) ∧
        Leaves (.releaseSend t) s (fun v => (v.tile t).releases = (s.tile t).releases.erase rel ∧ v.mem = s.mem)) ∧
      (scopeFailed s t rel = false → rel.range = true →
        Does (.releaseSend t) s { u with results := u.results ++ [⟨rel.issuer, .completed, 0, [], rel.op⟩] }) ∧
      (scopeFailed s t rel = true → Does (.releaseSend t) s
        { u.flag (Reg.BND_ERR_DRAINF b) with results := u.results ++ [⟨rel.issuer, .rejected, 0x16, [], rel.op⟩] }))

/-- Each of these ALU instructions puts the function of RA and RB that R492 gives it into rd, completes, and changes nothing else: shifts take the count
from RB[5:0], and ADDW and SUBW sign-extend a 32-bit result. Comparisons write 1 or 0, and MIN, MAX, MINU and MAXU write one of RA and RB, by signed
or unsigned order; each completes and changes nothing else. -/
def Obligations.AluRegisterForms : Prop :=
  (∀ (t : Tile) (e : MemEnv),
     RegisterForm t e .aluAdd (.aluAdd t e) (fun a b => a + b) ∧ RegisterForm t e .aluSub (.aluSub t e) (fun a b => a - b) ∧
     RegisterForm t e .aluAnd (.aluAnd t e) (fun a b => a &&& b) ∧ RegisterForm t e .aluOr (.aluOr t e) (fun a b => a ||| b) ∧
     RegisterForm t e .aluXor (.aluXor t e) (fun a b => a ^^^ b) ∧ RegisterForm t e .aluAndn (.aluAndn t e) (fun a b => a &&& ~~~b) ∧
     RegisterForm t e .aluSll (.aluSll t e) (fun a b => a <<< (b.toNat % 64)) ∧ RegisterForm t e .aluSrl (.aluSrl t e) (fun a b => a >>> (b.toNat % 64)) ∧
     RegisterForm t e .aluSra (.aluSra t e) (fun a b => a.sshiftRight (b.toNat % 64)) ∧ RegisterForm t e .aluMul (.aluMul t e) (fun a b => a * b) ∧
     RegisterForm t e .aluAddw (.aluAddw t e) (fun a b => ((a + b).setWidth 32).signExtend 64) ∧
     RegisterForm t e .aluSubw (.aluSubw t e) (fun a b => ((a - b).setWidth 32).signExtend 64)) ∧
  (∀ (t : Tile) (e : MemEnv),
     RegisterForm t e .aluCmpeq (.aluCmpeq t e) (fun a b => if a = b then 1 else 0) ∧
     RegisterForm t e .aluCmplt (.aluCmplt t e) (fun a b => if a.slt b then 1 else 0) ∧
     RegisterForm t e .aluCmpltu (.aluCmpltu t e) (fun a b => if a.ult b then 1 else 0) ∧
     RegisterForm t e .aluMin (.aluMin t e) (fun a b => if a.sle b then a else b) ∧ RegisterForm t e .aluMax (.aluMax t e) (fun a b => if a.sle b then b else a) ∧
     RegisterForm t e .aluMinu (.aluMinu t e) (fun a b => if a.ule b then a else b) ∧ RegisterForm t e .aluMaxu (.aluMaxu t e) (fun a b => if a.ule b then b else a))

/-- MULH and MULHU give the high half of the product; division never traps and gives all ones, or RA as the remainder, for a divisor of zero; CLZ and CTZ
of zero give 64. Each completes with its result in rd and changes nothing else. -/
def Obligations.DivisionAndCounts : Prop :=
  ∀ (t : Tile) (e : MemEnv),
    RegisterForm t e .aluMulh (.aluMulh t e) (fun a b => (a.signExtend 128 * b.signExtend 128).extractLsb' 64 64) ∧
    RegisterForm t e .aluMulhu (.aluMulhu t e) (fun a b => (a.setWidth 128 * b.setWidth 128).extractLsb' 64 64) ∧
    RegisterForm t e .aluDiv (.aluDiv t e) (fun a b => if b = 0 then BitVec.allOnes 64 else a.sdiv b) ∧
    RegisterForm t e .aluDivu (.aluDivu t e) (fun a b => if b = 0 then BitVec.allOnes 64 else a / b) ∧
    RegisterForm t e .aluRem (.aluRem t e) (fun a b => if b = 0 then a else a.srem b) ∧
    RegisterForm t e .aluRemu (.aluRemu t e) (fun a b => if b = 0 then a else a % b) ∧
    RegisterForm t e .aluPopc (.aluPopc t e) (fun a _ => BitVec.ofNat 64 ((List.range 64).countP (fun i => a.getLsbD i))) ∧
    RegisterForm t e .aluClz (.aluClz t e) (fun a _ => BitVec.ofNat 64 ((List.range 64).takeWhile (fun i => !a.getMsbD i)).length) ∧
    RegisterForm t e .aluCtz (.aluCtz t e) (fun a _ => BitVec.ofNat 64 ((List.range 64).takeWhile (fun i => !a.getLsbD i)).length) ∧
    (BitVec.intMin 64).sdiv (-1) = BitVec.intMin 64 ∧ (BitVec.intMin 64).srem (-1) = 0

/-- ADDI sign-extends IMM16 and ANDI, ORI and XORI zero-extend it; SHI shifts by IMM[5:0]; MOVW puts IMM16 into halfword H and clears the rest, and MOVK
keeps the rest of rd. Each completes and changes nothing else. -/
def Obligations.ImmediateResults : Prop :=
  ∀ (t : Tile) (e : MemEnv),
    ImmediateForm t e .addi (.addi t e) (fun a i => a + i.signExtend 64) ∧ ImmediateForm t e .andi (.andi t e) (fun a i => a &&& i.setWidth 64) ∧
    ImmediateForm t e .ori (.ori t e) (fun a i => a ||| i.setWidth 64) ∧ ImmediateForm t e .xori (.xori t e) (fun a i => a ^^^ i.setWidth 64) ∧
    ImmediateForm t e .shiSll (.shiSll t e) (fun a i => a <<< (i.toNat % 64)) ∧ ImmediateForm t e .shiSrl (.shiSrl t e) (fun a i => a >>> (i.toNat % 64)) ∧
    ImmediateForm t e .shiSra (.shiSra t e) (fun a i => a.sshiftRight (i.toNat % 64)) ∧
    Executes t e .movw (.movw t e) (fun w s => completeWith t (iRd w) (iImm w * 2 ^ (16 * (iRa w % 4))) s) ∧
    Executes t e .movk (.movk t e) (fun w s =>
      completeWith t (iRd w) ((regWord s t (iRd w) &&& ~~~(0xFFFF#64 <<< (16 * (iRa w % 4)))) ||| BitVec.ofNat 64 (iImm w * 2 ^ (16 * (iRa w % 4)))).toNat s)

/-- The frame of every mason instruction that completes with a result: rd takes the result unless it is k0, which reads zero; every other register, the
windows, the special state and the summary registers are unchanged; the PC moves on by 4 and the mason runs; the instruction counts; and no other
tile, no brick, link, stack, byte of memory, event or output changes. -/
def Obligations.CompletionFrame : Prop :=
  ∀ (t : Tile) (rd v : Nat) (s u : State), u = completeWith t rd v s →
    (rd < 32 → u.mreg t rd = if rd = 0 then 0 else v % 2 ^ 64) ∧
    (∀ r, rd < 32 → r < 32 → r ≠ rd → u.mreg t r = s.mreg t r) ∧
    (∃ regs, u.mason t = { s.mason t with regs := regs, pc := (s.mason t).pc + 4, run := .running, blocked := none, stall := stallNone }) ∧
    (∀ x : Tile, x ≠ t → u.tile x = s.tile x) ∧ (u.tile t).slots = (s.tile t).slots ∧ (u.tile t).press = (s.tile t).press ∧
    (u.tile t).glaze = (s.tile t).glaze ∧ (u.tile t).sieve = (s.tile t).sieve ∧ (u.tile t).marks = (s.tile t).marks ∧
    u.bricks = s.bricks ∧ u.ports = s.ports ∧ u.bridges = s.bridges ∧ u.hbm = s.hbm ∧ u.host = s.host ∧ u.hod = s.hod ∧ u.mem = s.mem ∧
    u.events = s.events ∧ u.results = s.results ∧ u.out = s.out ∧ u.now = s.now

/-- BR goes to PC + 4 × IMM16 where its condition on RA holds and to PC + 4 otherwise; BRS does the same on the word of its summary register and waits
while a command that will write it is pending; CALL leaves PC + 4 in h0; JLNK leaves PC + 4 in rd and goes to RA + IMM16. -/
def Obligations.Branches : Prop :=
  ∀ (t : Tile) (e : MemEnv),
    let by16 := fun (s : State) (w : Nat) => (BitVec.ofNat 64 (s.mason t).pc + ((BitVec.ofNat 16 (iImm w)).signExtend 64 <<< 2)).toNat
    Executes t e .br (.br t e) (fun w s =>
      let a := regWord s t (iRa w)
      let taken := match iRd w with
        | 0 => a == 0
        | 1 => a != 0
        | 2 => a.slt 0
        | 3 => !a.slt 0
        | 4 => a.sle 0
        | 5 => !a.sle 0
        | c => c == 6
      completeAt t (if taken then by16 s w else (s.mason t).pc + 4) s) ∧
    Executes t e .brs (.brs t e) (fun w s =>
      let k := iRa w % 16
      if 0 < (s.mason t).pending k then stallMason t stallSummary s
      else completeAt t (if sumCond (iRd w) (tabGet 0 (s.mason t).sums k).toNat then by16 s w else (s.mason t).pc + 4) s) ∧
    Executes t e .call (.call t e) (fun w s =>
      completeAt t (BitVec.ofNat 64 (s.mason t).pc + ((BitVec.ofNat 26 w).signExtend 64 <<< 2)).toNat (s.putReg t 24 ((s.mason t).pc + 4))) ∧
    Executes t e .jlnk (.jlnk t e) (fun w s =>
      completeAt t ((regWord s t (iRa w) + (BitVec.ofNat 16 (iImm w)).signExtend 64) >>> 2 <<< 2).toNat (s.putReg t (iRd w) ((s.mason t).pc + 4)))

/-- ENTER and LEAVE move the current window and put RA + IMM16, computed in the old window, into rd of the new one; SPILLW and FILLW move the oldest
resident frame to the spill stack and back. ENTER with six frames resident and LEAVE with one trap instead. -/
def Obligations.RegisterWindows : Prop :=
  ∀ (t : Tile) (e : MemEnv),
    let value := fun (s : State) (w : Nat) => (regWord s t (iRa w) + (BitVec.ofNat 16 (iImm w)).signExtend 64).toNat
    (∀ s s' w, MasonAt t e s .enter w s' → (s'.mason t).res ≠ 6 → Does (.enter t e) s (completeWith t (iRd w) (value s' w)
      (s'.onMason t (fun m => { m with cwin := (m.cwin + 1) % 7, res := m.res + 1 })))) ∧
    (∀ s s' w, MasonAt t e s .enter w s' → (s'.mason t).res = 6 → Does (.enter t e) s (takeTrap t causeOverflow 0 0 (s'.mason t).pc 0 s')) ∧
    (∀ s s' w, MasonAt t e s .leave w s' → (s'.mason t).res ≠ 1 → Does (.leave t e) s (completeWith t (iRd w) (value s' w)
      (s'.onMason t (fun m => { m with cwin := (m.cwin + 6) % 7, res := m.res - 1 })))) ∧
    (∀ s s' w, MasonAt t e s .leave w s' → (s'.mason t).res = 1 → 0 < (s'.mason t).nspill →
      Does (.leave t e) s (takeTrap t causeUnderflow 0 0 (s'.mason t).pc 0 s')) ∧
    (∀ s s' w, MasonAt t e s .spillw w s' → (s'.mason t).res ≠ 1 → (s'.mason t).ssp + 128 ≤ s'.rd (Reg.MSN_SSPHI_HI t) * 128 →
      let f := (savedWindow (s'.mason t) + 8 - (s'.mason t).res) % 7
      Does (.spillw t e) s (complete t ((storePut t (s'.mason t).ssp
        ((List.range 16).flatMap (fun i => leBytes 8 (tabGet 0 (s'.mason t).regs (frameIndex f i)).toNat)) false s').onMason t
          (fun m => { m with ssp := m.ssp + 128, nspill := m.nspill + 1, res := m.res - 1 })))) ∧
    (∀ s s' w, MasonAt t e s .fillw w s' → (s'.mason t).res ≠ 6 → (s'.mason t).nspill ≠ 0 →
      s'.rd (Reg.MSN_SSPLO_LO t) * 128 + 128 ≤ (s'.mason t).ssp → e.storeUnc = [] → storeMarked s' t ((s'.mason t).ssp - 128) 128 = false →
      let f := (savedWindow (s'.mason t) + 14 - (s'.mason t).res) % 7
      let frame := storeBytes s' t ((s'.mason t).ssp - 128) 128
      Does (.fillw t e) s (complete t (s'.onMason t (fun m => { m with
        ssp := m.ssp - 128, nspill := m.nspill - 1, res := m.res + 1,
        regs := (List.range 16).foldl (fun r i => tabSet 0 r (frameIndex f i) (BitVec.ofNat 64 (leNat ((frame.drop (8 * i)).take 8)))) m.regs }))))

/-- NOP only goes on; YLD takes a pending suspend request outside a trap handler; BRK traps with its code; HALT and SUSP stop the mason after themselves;
SRD reads and SWR writes a special register; XRET returns to XPC with the saved window and label. -/
def Obligations.SystemInstructions : Prop :=
  ∀ (t : Tile) (e : MemEnv),
    Executes t e .nop (.nop t e) (fun _ s => complete t s) ∧
    Executes t e .yld (.yld t e) (fun _ s =>
      if (s.mason t).sreq && !(s.mason t).trap then takeSuspend t ((s.mason t).pc + 4) (complete t s) else complete t s) ∧
    Executes t e .brk (.brk t e) (fun w s => takeTrap t causeBreak 0 0 (s.mason t).pc (iRd w) s) ∧
    Executes t e .halt (.halt t e) (fun _ s => (complete t s).onMason t (fun m => { m with run := .halted, stall := 0xD })) ∧
    Executes t e .susp (.susp t e) (fun _ s => (complete t s).onMason t (fun m => { m with run := .suspended, stall := 0xC })) ∧
    Executes t e .srd (.srd t e) (fun w s => completeWith t (iRd w) (specialGet s t (iRa w)) s) ∧
    Executes t e .swr (.swr t e) (fun w s => complete t (specialPut t (iRd w) (s.mreg t (iRa w)) s)) ∧
    Executes t e .xret (.xret t e) (fun _ s => completeAt t (s.mason t).xpc
      (s.onMason t (fun m => { m with cwin := savedWindow m % 7, lbl := bitsOf m.xstate 7 4, trap := false })))

/-- A trap taken outside a handler saves the PC, the window, the label, the cause and the value, enters the trap window and goes to the vector of its
cause; a second trap is a window double fault, which stops the mason Faulted, records both causes and poisons the bonds of the armed list. -/
def Obligations.TrapEntry : Prop :=
  ∀ (t : Tile) (cause sub status xpc xval : Nat) (s u : State), u = takeTrap t cause sub status xpc xval s →
    ((s.mason t).trap = false →
      (u.mason t).trap = true ∧ (u.mason t).pc = vbase s t + 0x80 * cause ∧ (u.mason t).xpc = xpc ∧
      (u.mason t).xcause = cause + 256 * sub + 65536 * status ∧ (u.mason t).xval = BitVec.ofNat 64 xval ∧
      (u.mason t).xstate = (s.mason t).cwin + 16 * (s.mason t).lbl ∧ (u.mason t).run = .running ∧ (u.mason t).regs = (s.mason t).regs ∧
      u.mem = s.mem ∧ u.events = s.events ∧ u.bricks = s.bricks) ∧
    ((s.mason t).trap = true → ∃ x, u = tileFault t 0x7 (poisonBonds t 0x02 (s.tile t).armedBonds x) ∧ (x.mason t).run = .faulted ∧
      x.isSet (Reg.MSN_ERR_DFAULT t) = true ∧ (cause < 256 → x.rd (Reg.MSN_DFLT_CAUSE2 t) = cause) ∧
      x.rd (Reg.MSN_DFLT_CAUSE1 t) = bitsOf (s.mason t).xcause 7 0 ∧ x.rd (Reg.MSN_DFLT_VALID t) = 1 ∧ x.mem = s.mem ∧ x.bricks = s.bricks)

/-- An aligned LD of the tile's own slot puts the bytes, extended as MOD says, into rd; any other load goes out and the mason waits for it. An ST into the
own slot writes RD's low bytes at RA + OFF12, and any other goes out as a posted operation. A class-0x1 ATOM goes out and waits, and a class-0x2 ATOM
goes out posted. -/
def Obligations.MasonMemoryAccess : Prop :=
  ∀ (t : Tile) (e : MemEnv) (s s' : State) (w off a bytes : Nat), labelPermitted s' t = true →
    a = (regWord s' t (iRa w) + (BitVec.ofNat 12 w).signExtend 64).toNat →
    (MasonAt t e s .ld w s' → bytes = 2 ^ (iMod w / 4) → a % bytes = 0 →
      ownOffset s' t a = some off → ownKey t rightLD 0x01 a bytes s' = (true, s') → off + bytes ≤ tileStoreSize → e.storeUnc = [] →
      storeMarked s' t off bytes = false →
      Does (.ld t e) s (tally t 53 bytes (completeWith t (iRd w)
        (loadedValue bytes (iMod w / 2 % 2 == 0 && decide (iMod w / 2 < 6)) (s'.bytes (tileStoreKey t off) bytes)) s'))) ∧
    (MasonAt t e s .ld w s' → bytes = 2 ^ (iMod w / 4) → a % bytes = 0 → ownOffset s' t a = none → iMod w % 2 = 1 → queueFull s' t = false →
      Does (.ld t e) s (issueOp (tileBrick t) (.masonLoad t.val (s'.mason t).blockNo) { masonOp s' t a 0x01 0 [] with size := bytes }
        (block t stallLoad (fun n => .load n (iRd w) bytes (iMod w / 2 % 2 == 0 && decide (iMod w / 2 < 6)) a) s').2)) ∧
    (MasonAt t e s .st w s' → bytes = 2 ^ (iMod w / 4) → a % bytes = 0 → ownOffset s' t a = some off →
      ownKey t rightST 0x02 a bytes s' = (true, s') → off + bytes ≤ tileStoreSize → storeMarked (storePut t off (leBytes bytes (s'.mreg t (iRd w))) false s') t off bytes = false →
      Does (.st t e) s (tally t 54 bytes (complete t (storePut t off (leBytes bytes (s'.mreg t (iRd w))) false s')))) ∧
    (MasonAt t e s .st w s' → bytes = 2 ^ (iMod w / 4) → a % bytes = 0 → ownOffset s' t a = none → queueFull s' t = false →
      Does (.st t e) s (tally t 54 bytes (complete t (issueOp (tileBrick t) (.masonPosted t.val) (masonOp s' t a 0x02 0 (leBytes bytes (s'.mreg t (iRd w)))) s')))) ∧
    (MasonAt t e s .atom w s' → s'.mreg t (iRa w) % ((fmtWidth (bitsOf w 5 3)).getD 8) = 0 → ownOffset s' t (s'.mreg t (iRa w)) = none → queueFull s' t = false →
      let at' := s'.mreg t (iRa w)
      let wd := (fmtWidth (bitsOf w 5 3)).getD 8
      let v := leBytes wd (s'.mreg t (iRb w))
      let d := if atomOpc w = 0x12 then leBytes wd (s'.mreg t (iRd w)) ++ v else v
      let u := tally t 55 1 s'
      (atomOpc w < 0x20 → Does (.atom t e) s (issueOp (tileBrick t) (.masonLoad t.val (u.mason t).blockNo) (masonOp u t at' (atomOpc w) (bitsOf w 5 3) d)
        (block t stallAnswer (fun n => .atom n (iRd w) wd at') u).2)) ∧
      (0x20 ≤ atomOpc w → Does (.atom t e) s (complete t (issueOp (tileBrick t) (.masonPosted t.val) (masonOp u t at' (atomOpc w) (bitsOf w 5 3) d) u))))

/-- A bond instruction sends the bond operation of its BOP to the address in RA. A wait takes its free slot and blocks; TEST blocks; the other operations
block where rd is not k0 and are posted otherwise; SIGADD and RESET leave as releases, and SIGADD enters the bond in the signal log. CFENCE, TWAIT and
DRAIN go on once what they wait for is done; REL blocks on a release of its range; ACQ and ACQF discard copies; WSL collects a Done slot, leaving its
count in rd and its status in BSTAT and freeing it, and sleeps on an Open one; RDS reads a summary register that is not pending; TCMD puts its command
in the queue of its unit and counts it as a pending writer of its summary register. -/
def Obligations.SignalAndOrderInstructions : Prop :=
  (∀ (t : Tile) (e : MemEnv) (s s' : State) (w : Nat), labelPermitted s' t = true → queueFull s' t = false →
     let a := s'.mreg t (iRa w)
     let slot := bitsOf w 6 3
     let op := fun (opc : Nat) => masonOp s' t a opc 0 (bondPayload t opc (s'.mreg t (iRb w)) slot (bitsOf w 2 0) (s'.mason t).wto)
     let u := tally t 56 1 s'
     let n := (s'.mason t).blockNo
     let bl := fun (opc : Nat) (x : State) => (block t stallAnswer (fun n => .bond n (iRd w) opc slot (bitsOf w 2 0) a) x).2
     let wait := fun (opc : Nat) => issueOp (tileBrick t) (.masonWait t.val slot n) (op opc)
       (bl opc (u.onSlot t slot (fun _ => { st := .opened, bond := (op opc).addr, lbl := (op opc).lbl.val })))
     let either := fun (opc : Nat) => if iRd w = 0 then issueOp (tileBrick t) (.masonPosted t.val) (op opc) (complete t u)
       else issueOp (tileBrick t) (.masonLoad t.val n) (op opc) (bl opc u)
     let release := fun (opc : Nat) (x : State) => if iRd w = 0 then beginRelease t (op opc) false [] (.masonPosted t.val) (complete t x)
       else beginRelease t (op opc) false [] (.masonLoad t.val n) (bl opc x)
     (MasonAt t e s .bopWaitge w s' → (s'.slot t slot).st = .free → Does (.bopWaitge t e) s (wait 0x32)) ∧
     (MasonAt t e s .bopWaiteq w s' → (s'.slot t slot).st = .free → Does (.bopWaiteq t e) s (wait 0x33)) ∧
     (MasonAt t e s .bopTest w s' → Does (.bopTest t e) s (issueOp (tileBrick t) (.masonLoad t.val n) (op 0x34) (bl 0x34 u))) ∧
     (MasonAt t e s .bopArmto w s' → Does (.bopArmto t e) s (either 0x36)) ∧
     (MasonAt t e s .bopWcancel w s' → Does (.bopWcancel t e) s (either 0x37)) ∧
     (MasonAt t e s .bopArmsig w s' → (armedOrAsked s' t).length < 16 → Does (.bopArmsig t e) s (either 0x38)) ∧
     (MasonAt t e s .bopDisarm w s' → Does (.bopDisarm t e) s (either 0x39)) ∧
     (MasonAt t e s .bopPoison w s' → Does (.bopPoison t e) s (either 0x3A)) ∧
     (MasonAt t e s .bopSigadd w s' → unitsIdle s' t 4 = true → Does (.bopSigadd t e) s (release 0x31 (logSignal t (op 0x31).addr u))) ∧
     (MasonAt t e s .bopReset w s' → unitsIdle s' t 4 = true → Does (.bopReset t e) s (release 0x35 u))) ∧
  (∀ (t : Tile) (e : MemEnv) (s s' : State) (w : Nat),
     let a := s'.mreg t (iRa w)
     let n := s'.mreg t (iRb w)
     (MasonAt t e s .cfence w s' → unitsIdle s' t 4 = true → Does (.cfence t e) s (complete t s')) ∧
     (MasonAt t e s .twait w s' → unitsIdle s' t (bitsOf w 5 3) = true → Does (.twait t e) s (complete t s')) ∧
     (MasonAt t e s .drain w s' → masonOutstanding s' t = false → Does (.drain t e) s (complete t s')) ∧
     (MasonAt t e s .rel w s' → labelPermitted s' t = true → rangeOk a n = true → unitsIdle s' t 4 = true →
       Does (.rel t e) s (beginRelease t (masonOp s' t a 0x41 0 []) true (homesOfRange s' a n) (.masonLoad t.val (s'.mason t).blockNo)
         (block t stallOrd (fun k => .rel k a) s').2)) ∧
     (MasonAt t e s .acq w s' → rangeOk a n = true →
       Does (.acq t e) s (complete t (if n = 0 then s' else rangeAcquire t (s'.canon a) n s'))) ∧
     (MasonAt t e s .acqf w s' → Does (.acqf t e) s (complete t (fullAcquire t s'))) ∧
     (MasonAt t e s .rds w s' → (s'.mason t).pending (iFn w % 16) = 0 →
       Does (.rds t e) s (completeWith t (iRd w) (tabGet 0 (s'.mason t).sums (iFn w % 16)).toNat s')) ∧
     (MasonAt t e s .wsl w s' → bitOf w 5 = false → bitOf w 4 = true → (s'.slot t (iFn w % 16)).st = .done →
       let slot := s'.slot t (iFn w % 16)
       Does (.wsl t e) s (completeWith t (iRd w) slot.count.toNat
         ((s'.onSlot t (iFn w % 16) (fun _ => {})).onMason t (fun m => { m with bstat := slot.status })))) ∧
     (MasonAt t e s .wsl w s' → bitOf w 5 = false → (s'.slot t (iFn w % 16)).st = .opened → (s'.mason t).sreq = false →
       Does (.wsl t e) s (s'.onMason t (fun m => { m with run := .sleeping, stall := stallSleep }))) ∧
     (MasonAt t e s .tcmd w s' → labelPermitted s' t = true → iFn w % 4 = 0 → commandOk (a + n * 2 ^ 64) 0 = true →
       (s'.tile t).press.queue.length < 32 → cSumen (a + n * 2 ^ 64) = false →
       Does (.tcmd t e) s (complete t (s'.onTile t (fun T =>
         { T with press := { T.press with queue := T.press.queue ++ [captureCommand s' t (a + n * 2 ^ 64)] } })))) ∧
     (MasonAt t e s .tcmd w s' → labelPermitted s' t = true → iFn w % 4 = 1 → commandOk (a + n * 2 ^ 64) 1 = true →
       (s'.tile t).glaze.queue.length < 32 → cSumen (a + n * 2 ^ 64) = true → (s'.mason t).pending (cSreg (a + n * 2 ^ 64)) < 255 →
       let u := s'.onMason t (fun m => { m with pend := tabSet 0 m.pend (cSreg (a + n * 2 ^ 64)) (m.pending (cSreg (a + n * 2 ^ 64)) + 1) })
       Does (.tcmd t e) s (complete t (u.onTile t (fun T =>
         { T with glaze := { T.glaze with queue := T.glaze.queue ++ [captureCommand s' t (a + n * 2 ^ 64)] } })))) ∧
     (MasonAt t e s .tcmd w s' → labelPermitted s' t = true → iFn w % 4 = 2 → commandOk (a + n * 2 ^ 64) 2 = true →
       (s'.tile t).sieve.queue.length < 16 → cSumen (a + n * 2 ^ 64) = false →
       Does (.tcmd t e) s (complete t (s'.onTile t (fun T =>
         { T with sieve := { T.sieve with queue := T.sieve.queue ++ [captureCommand s' t (a + n * 2 ^ 64)] } })))))

/-- The result of a load that a mason waits for goes into the load's rd and lets the mason go on, and a result that is a fault traps it with the subcause
of its kind; a posted operation that failed is recorded in MSN_OPERR, or counts as lost where one is recorded already. START puts an Idle mason at its
entry PC in window 0 and runs it; STOP at a boundary halts a running one; SUSPREQ sets its suspend request; RESUME runs a Suspended one; CLRFLT makes
a Faulted one Halted and clears MSN_DFLT. -/
def Obligations.MasonOutcomesAndControl : Prop :=
  (∀ (t : Tile) (s s' : State) (r : Result) (n rd bytes a : Nat) (sg : Bool),
     ((s.mason t).blocked = some (.load n rd bytes sg a) → takeResult (isBlocking t n) s = some (r, s') → r.kind = .completed → r.status = 0 →
       (s'.mason t).stopReq = false →
       Does (.masonLoadReturn t) s (tally t 53 bytes (completeWith t rd (loadedValue bytes sg r.data) (s'.onMason t (fun m => { m with blocked := none }))))) ∧
     ((s.mason t).blocked = some (.load n rd bytes sg a) → takeResult (isBlocking t n) s = some (r, s') → r.kind = .unreachable →
       (s'.mason t).stopReq = false → (s'.mason t).trap = false →
       Does (.masonLoadReturn t) s (trapEntry t causeMemory 0x06 r.status (s'.mason t).pc a (s'.onMason t (fun m => { m with blocked := none })))) ∧
     (takeResult (fun i => decide (i = .masonPosted t.val)) s = some (r, s') → tileFenced s' t = false → r.op.opc.toNat / 16 ≠ 3 →
       r.kind = .rejected → r.status ≠ 0 → (s'.mason t).run = .running →
       Does (.postedOutcome t) s (if s'.isSet (Reg.MSN_OPERR_PEND t) then ((s'.flag (Reg.MSN_OPERR_LOST t)).flag (Reg.MSN_ERR_LOST t)).raise 0x3003 [t.val, r.op.addr.toNat]
         else ((((s'.wr (Reg.MSN_OPERR_PEND t) 1).wr (Reg.MSN_OPERR_STATUS t) r.status).wr (Reg.MSN_OPERR_OPC t) r.op.opc.toNat).wr (Reg.MSN_OPERR_SUB t) 0x04).wr
           (Reg.MSN_OPADDR_ADDR t) r.op.addr.toNat))) ∧
  (∀ (t : Tile) (s : State), tileServes s t = true → tileFenced s t = false →
     ((s.mason t).run = .idle → Does (.masonStart t) s (fullAcquire t ((s.onMason t (fun m => { m with
       cwin := 0, res := 1, nspill := 0, ssp := s.rd (Reg.MSN_SSPLO_LO t) * 128, trap := false, lbl := s.rd (Reg.MSN_CTL_LBLINIT t),
       pc := s.rd (Reg.MSN_ENTRY_PC t) * 4, run := .running, stopReq := false, tccnt := 0, stall := stallNone })).wr (Reg.MSN_OPERR_PEND t) 0))) ∧
     ((s.mason t).run = .running → (s.mason t).blocked = none → slotsIn s t .opened = [] → slotsIn s t .done = [] →
       Does (.masonStop t) s (((s.onMason t (fun m => { m with run := .halted, stopReq := false, stall := 0xD })).flag (Reg.MSN_ERR_STOPPED t)).raise 0x3004
         [t.val, (s.mason t).pc])) ∧
     ((s.mason t).run = .running → Does (.suspreq t) s (s.onMason t (fun m => { m with sreq := true }))) ∧
     ((s.mason t).run = .suspended → Does (.masonResume t) s (s.onMason t (fun m => { m with run := .running, stall := stallNone }))) ∧
     ((s.mason t).run = .faulted → Does (.clrflt t) s ((s.onMason t (fun m => { m with run := .halted })).setReg (Reg.MSN_DFLT t) 0)))

/-- An MMA whose checks pass and that no residue mismatch meets leaves every element of D at its place in the tile store, converted to D's format, unless
NOD; the press has taken the command from its queue and runs it; and no byte of memory outside the rows of D changes. -/
def Obligations.PressResult : Prop :=
  ∀ (t : Tile) (e : MemEnv) (s : State) (cmd : TileCmd) (rest : List TileCmd), (s.tile t).press.queue = cmd :: rest → (s.tile t).press.run = none →
    (s.tile t).press.inject = false → mayStart s t cmd = true → cOp cmd.word = 0x01 → bitsOf cmd.word 127 57 = 0 → bitsOf cmd.word 39 32 = 0 →
    let desc := bitsOf cmd.word 56 40 * 64
    let raw := storeBytes s t desc 64
    let d := pressDesc raw cmd.word
    desc + 64 ≤ tileStoreSize → storeMarked (tileReports { e with masonUnc := [], masonCorr := [] } (settleQuarter t s)) t desc 64 = false →
    pressRefusal d raw (cSumen cmd.word) = none → pressOverlap d desc = false →
    Leaves (.mma t none e) s (fun u =>
      (u.tile t).press.queue = rest ∧ (u.tile t).press.run.map (fun r => r.cmd) = some cmd ∧
      (d.nod = false → ∀ m n, m < d.m → n < d.n → storeNumAt u t (d.offD m n) d.wd = (pressConv cmd d.fmtD (pressResult s t d m n).1).code % 256 ^ d.wd) ∧
      (∀ a, (∀ x, x ∈ d.rangesD → a < tileStoreKey t x.1 ∨ tileStoreKey t x.1 + x.2 ≤ a) → memByte u.mem a = memByte s.mem a) ∧
      u.bricks = s.bricks ∧ u.ports = s.ports ∧ (u.tile t).mason = (s.tile t).mason ∧ (u.tile t).glaze = (s.tile t).glaze)

/-- An integer element of D without scales is C, or zero, plus the sum over k of (A − zero point) × (B − zero point), wrapped to 32 bits; a floating
element starts at C, or at −0, and adds one rounded group sum after another. -/
def Obligations.PressArithmetic : Prop :=
  ∀ (s : State) (t : Tile) (d : PressDesc) (m n : Nat),
    (d.accInt = true → d.outScaled = false →
      let za := if d.zma = 0 then 0 else intElem d.fmtA (storeNumAt s t (d.offZA m) 1)
      let zb := if d.zmb = 0 then 0 else intElem d.fmtB (storeNumAt s t (d.offZB n) 1)
      (pressResult s t d m n).1 = wrapNat 32 ((List.range d.k).foldl (fun acc k =>
          acc + (intElem d.fmtA (storeNumAt s t (d.offA m k) 1) - za) * (intElem d.fmtB (storeNumAt s t (d.offB k n) 1) - zb))
        (if d.loadc then sextInt 32 (storeNumAt s t (d.offC m n) 4) else 0))) ∧
    (d.accInt = false → d.isInt = false → d.blocked = false → d.outScaled = false →
      (pressResult s t d m n).1 = (List.range d.groups).foldl (fun acc g => f32add acc (groupFloat s t d m n g))
        (if d.loadc then storeNumAt s t (d.offC m n) 4 else 0x80000000))

/-- PMODE asks for its quarter-array mode; a press command that completes writes its summary and frees the press; CLRQ drops the queue and leaves the
command in progress; RINJ arms an injected residue mismatch; and an operation that no row names is refused with reason 0x1. A glaze command that
completes writes its summary and frees the glaze; CLRQ drops a queue. A sieve command whose checks pass is taken from the queue and runs with its
descriptor, STATE Running and its OP; its completion writes its summary and makes the sieve idle; SUSP, the suspension point, RESUME and CANCEL move
STATE as the rules say. -/
def Obligations.UnitCommands : Prop :=
  (∀ (t : Tile) (s : State),
     (∀ cmd rest, (s.tile t).press.queue = cmd :: rest → (s.tile t).press.run = none → mayStart s t cmd = true → cOp cmd.word = 0x10 →
       bitsOf cmd.word 127 33 = 0 → bitsOf cmd.word 31 10 = 0 →
       Does (.pmode t) s ((s.wr (Reg.PRS_STAT_QREQ t) (bitsOf cmd.word 32 32)).onTile t (fun T =>
         { T with press := { T.press with queue := rest, run := some { cmd := cmd } } }))) ∧
     (∀ r, (s.tile t).press.run = some r → tileGoes s t = true →
       Does (.pressCommandComplete t) s (settleQuarter t (tally t 7 1 ((finishSummary t r.cmd r.sum
         (s.onTile t (fun T => { T with press := { T.press with run := none } }))).count (Reg.PRS_CNT0_CMDS t) 1)))) ∧
     (mayClear s t = true → Leaves (.pressClrq t) s (fun u => (u.tile t).press.queue = [] ∧ (u.tile t).press.run = (s.tile t).press.run ∧ u.mem = s.mem ∧
       u.events = s.events ∧ ((s.tile t).press.queue ≠ [] → u.isSet (Reg.PRS_ERR_REFUSED t) = true))) ∧
     (s.isSet (Reg.PRS_CTL_RINJEN t) = true → tileServes s t = true →
       Does (.rinj t) s (s.onTile t (fun T => { T with press := { T.press with inject := true } }))) ∧
     (∀ cmd rest e, (s.tile t).press.queue = cmd :: rest → (s.tile t).press.run = none → mayStart s t cmd = true → cOp cmd.word ≠ 0x01 →
       cOp cmd.word ≠ 0x10 → Does (.mma t none e) s (refusePress t cmd 0x1 (settleQuarter t s)))) ∧
  (∀ (t : Tile) (e : MemEnv) (s : State),
     let starts := fun (i : Instr) (op : Nat) (refusal : Nat → (Nat → Nat → Nat) → Option Nat) => ∀ cmd rest,
       (s.sieve t).queue = cmd :: rest → (s.sieve t).run = none → mayStart s t cmd = true → sieveState s t = 0 → cOp cmd.word = op →
       sieveHeaderOk cmd.word = true → bitsOf cmd.word 127 57 = 0 → bitsOf cmd.word 39 32 = 0 →
       let off := bitsOf cmd.word 56 40 * 64
       let size := sieveDescSize op
       let s1 := tileReports { e with masonUnc := [], masonCorr := [] } s
       let d := storeBytes s t off size
       inStore off size = true → (size = 64 ∨ off % 128 = 0) → storeMarked s1 t off size = false → refusal cmd.word (fun i n => leNat ((d.drop i).take n)) = none →
       Leaves i s (fun u => (u.sieve t).queue = rest ∧ (u.sieve t).run.map (fun r => (r.cmd, r.desc)) = some (cmd, d) ∧ sieveState u t = svRunning ∧
         u.rd (Reg.SVE_STAT_OP t) = op ∧ u.mem = s.mem ∧ u.bricks = s.bricks)
     starts (.gather t e) 1 (fun _ => gatherRefusal) ∧ starts (.sieveYard t e) 2 (fun _ => yardRefusal) ∧
     starts (.dispatch t e) 3 (fun _ => expertRefusal false 0) ∧ starts (.combine t e) 4 (fun c => expertRefusal true (elemWidth (cFmtD c))) ∧
     starts (.points t e) 5 (fun _ => pointsRefusal (tileReports { e with masonUnc := [], masonCorr := [] } s) (tileBrick t)) ∧
     (∀ r v, (s.sieve t).run = some r → r.done = some v → tileGoes s t = true → Leaves (.sieveCommandComplete t) s (fun u => (u.sieve t).run = none ∧
       sieveState u t = (if sieveState s t = svSuspending then svSuspended else 0) ∧ u.rd (Reg.SVE_STAT_OP t) = 0 ∧
       (cSumen r.cmd.word = true → tabGet 0 (u.mason t).sums (cSreg r.cmd.word) = v) ∧ u.mem = s.mem ∧ u.bricks = s.bricks)) ∧
     (tileServes s t = true → tileFenced s t = false → sieveState s t = svRunning → Does (.sieveSusp t) s (s.wr (Reg.SVE_STAT_STATE t) svSuspending)) ∧
     (∀ r, (s.sieve t).run = some r → tileGoes s t = true → sieveState s t = svSuspending → atSuspension r = true →
       Does (.sieveSuspensionPoint t) s (s.wr (Reg.SVE_STAT_STATE t) svSuspended)) ∧
     (∀ r, tileServes s t = true → tileFenced s t = false → sieveState s t = svSuspended → (s.sieve t).run = some r →
       Does (.sieveResume t) s (s.wr (Reg.SVE_STAT_STATE t) svRunning)) ∧
     (∀ r, tileServes s t = true → tileFenced s t = false → sieveState s t = svRunning → (s.sieve t).run = some r → (s.sieve t).queue = [] →
       Does (.sieveCancel t) s ((s.onSieve t (fun S => { S with queue := [] })).wr (Reg.SVE_STAT_STATE t) svCancelling)) ∧
     (mayClear s t = true → Leaves (.sieveClrq t) s (fun u => (u.sieve t).queue = [] ∧ (u.sieve t).run = (s.sieve t).run ∧ u.events = s.events ∧ u.mem = s.mem ∧
       ((s.sieve t).queue ≠ [] → u.isSet (Reg.SVE_ERR_REFUSED t) = true))) ∧
     (mayClear s t = true → Leaves (.glazeClrq t) s (fun u => (u.tile t).glaze.queue = [] ∧ (u.tile t).glaze.run = (s.tile t).glaze.run ∧ u.events = s.events ∧
       u.mem = s.mem ∧ ((s.tile t).glaze.queue ≠ [] → u.isSet (Reg.GLZ_ERR_REFUSED t) = true))) ∧
     (∀ r, (s.tile t).glaze.run = some r → tileGoes s t = true → Does (.glazeCommandComplete t) s (tally t 21 1 ((finishSummary t r.cmd r.sum
       (s.onGlaze t (fun G => { G with run := none }))).count (Reg.GLZ_CNT0_CMDS t) 1))))

/-- Each element-wise arithmetic operation writes, for every active element, the operation on the elements of VA and VB (or IMM): exact arithmetic modulo
2^32 in INT32, and the exact result rounded once in FP32 or BF16; MIN and MAX order −0 below +0. -/
def Obligations.GlazeArithmetic : Prop :=
  ∀ (t : Tile) (e : MemEnv) (s : State) (cmd : TileCmd) (rest : List TileCmd), GlazeNext s t cmd rest →
    let c := cmd.word
    let f := cFmtA c
    let w := elemWidth f
    let n := active c (lanes w)
    let G := (s.tile t).glaze
    let F := glazeFmt f
    let a := fun k => gregElem G (gVa c) w k
    let b := fun k => (operandB G c w k).1
    let two := (elementCheck [3, 2, 6] true false (bitsOf (gSub c) 6 0 == 0) false c).why c = none
    let one := (elementCheck [3, 2, 6] false false (gSub c == 0) false c).why c = none
    let writes := fun (i : Instr) (g : Nat → Nat) => GlazeWrites i s t cmd rest w n (fun k => k) g
    let rounded := fun (x : Fv) => (glazeRound f cmd.rtz x).code
    (cOp c = 0x10 → two → writes (.glzAdd t e) (fun k => if f = 6 then a k + b k else rounded ((F.dec (a k)).add (F.dec (b k))))) ∧
    (cOp c = 0x11 → two → writes (.glzSub t e) (fun k => if f = 6 then a k + 2 ^ 32 - b k else rounded ((F.dec (a k)).add (F.dec (b k)).neg))) ∧
    (cOp c = 0x12 → two → writes (.glzMul t e) (fun k => if f = 6 then a k * b k else rounded ((F.dec (a k)).mul (F.dec (b k))))) ∧
    (cOp c = 0x13 → (elementCheck [3, 2] true true (bitsOf (gSub c) 6 0 == 0) false c).why c = none →
      writes (.fma t e) (fun k => rounded (((F.dec (a k)).mul (F.dec (b k))).add (F.dec (gregElem G (gVc c) w k))))) ∧
    (cOp c = 0x14 → two → writes (.glzMin t e) (fun k => if f = 6 then (if sextInt 32 (b k) < sextInt 32 (a k) then b k else a k) else F.minCode (a k) (b k))) ∧
    (cOp c = 0x15 → two → writes (.glzMax t e) (fun k => if f = 6 then (if sextInt 32 (a k) < sextInt 32 (b k) then b k else a k) else F.maxOf (a k) (b k))) ∧
    (cOp c = 0x16 → one → writes (.abs t e) (fun k => if f = 6 then (if sextInt 32 (a k) < 0 then 2 ^ 32 - a k else a k)
      else if (F.dec (a k)).isNan then F.nanCode else a k % 2 ^ (F.eb + F.mb))) ∧
    (cOp c = 0x17 → one → writes (.neg t e) (fun k => if f = 6 then 2 ^ 32 - a k
      else if (F.dec (a k)).isNan then F.nanCode else (a k + 2 ^ (F.eb + F.mb)) % 2 ^ (1 + F.eb + F.mb)))

/-- Bitwise operations combine the elements' bits; CMP writes all ones where its predicate holds and zero where it does not; SEL takes VA where VC is not
zero and VB where it is; CVT converts each element, and QNT quantises it where its zero point is in range, into the part of VD that SUB names. -/
def Obligations.GlazeBitsAndConversions : Prop :=
  ∀ (t : Tile) (e : MemEnv) (s : State) (cmd : TileCmd) (rest : List TileCmd), GlazeNext s t cmd rest →
    let c := cmd.word
    let f := cFmtA c
    let w := elemWidth f
    let wd := elemWidth (cFmtD c)
    let n := active c (lanes w)
    let G := (s.tile t).glaze
    let a := fun k => gregElem G (gVa c) w k
    let b := fun k => (operandB G c w k).1
    let bits := (elementCheck [0, 1, 2, 3, 4, 5, 6, 7] true false (bitsOf (gSub c) 6 0 == 0 && !(gBimm c && w == 1)) false c).why c = none
    let writes := fun (i : Instr) (g : Nat → Nat) => GlazeWrites i s t cmd rest w n (fun k => k) g
    (cOp c = 0x18 → bits → writes (.glzAnd t e) (fun k => Nat.land (a k) (b k))) ∧ (cOp c = 0x19 → bits → writes (.glzOr t e) (fun k => Nat.lor (a k) (b k))) ∧
    (cOp c = 0x1A → bits → writes (.glzXor t e) (fun k => Nat.xor (a k) (b k))) ∧
    (cOp c = 0x1B → bits → writes (.glzAndn t e) (fun k => Nat.land (a k) (2 ^ 32 - 1 - b k))) ∧
    (cOp c = 0x20 → (elementCheck [3, 2, 6] true false (bitsOf (gSub c) 6 3 == 0 && bitsOf (gSub c) 2 0 != 7) true c).why c = none →
      writes (.cmp t e) (fun k => if cmpHolds f (bitsOf (gSub c) 2 0) (a k) (b k) then 256 ^ w - 1 else 0)) ∧
    (cOp c = 0x21 → fmtListed f = true → cFmtD c = f → cFmtB c = f → gSub c = 0 → n ≤ lanes w → cSumen c = false →
      unusedZero { fa := true, fb := true, fd := true, vd := true, va := true, vb := true, vc := true } c = true →
      writes (.sel t e) (fun k => if gregElem G (gVc c) w k ≠ 0 then a k else gregElem G (gVb c) w k)) ∧
    (cOp c = 0x30 → cvtOk f (cFmtD c) = true → gSub c < widthRatio w wd → active c (lanes (max w wd)) ≤ lanes (max w wd) → cSumen c = false →
      unusedZero { fa := true, fd := true, vd := true, va := true } c = true →
      GlazeWrites (.cvt t e) s t cmd rest wd (active c (lanes (max w wd))) (fun k => if wd < w then partIndex (gSub c) (lanes (max w wd)) k else k)
        (fun k => (cvtElem cmd f (cFmtD c) (gregElem G (gVa c) w (if w < wd then partIndex (gSub c) (lanes (max w wd)) k else k))).code)) ∧
    (cOp c = 0x31 → f = 3 → cFmtB c = 3 → (cFmtD c = 4 ∨ cFmtD c = 5) → bitsOf (gSub c) 6 2 = 0 → active c 128 ≤ 128 → cSumen c = false →
      unusedZero { fa := true, fb := true, fd := true, vd := true, va := true, vb := !gBimm c, vc := true, imm := gBimm c } c = true →
      (∀ k, k < active c 128 → if cFmtD c = 4 then -128 ≤ sextInt 32 (gregElem G (gVc c) 4 k) ∧ sextInt 32 (gregElem G (gVc c) 4 k) ≤ 127
        else 0 ≤ sextInt 32 (gregElem G (gVc c) 4 k) ∧ sextInt 32 (gregElem G (gVc c) 4 k) ≤ 255) →
      ∃ free : Nat → Nat, GlazeWrites (.qnt t e) s t cmd rest 1 (active c 128) (fun k => partIndex (bitsOf (gSub c) 1 0) 128 k)
        (fun k => (quantise (cFmtD c == 4) cmd.rtz (a k) (b k) (sextInt 32 (gregElem G (gVc c) 4 k)) (free k)).code))

/-- VLD loads elements of the tile store, VBC broadcasts IMM, and VST stores VA's active elements at IMM. A reduction leaves its result in element 0 of VD
and zeros in the others. A special function between equal widths leaves its value of each element. -/
def Obligations.GlazeMovesAndReductions : Prop :=
  ∀ (t : Tile) (e : MemEnv) (s : State) (cmd : TileCmd) (rest : List TileCmd), GlazeNext s t cmd rest →
    let c := cmd.word
    let f := cFmtA c
    let w := elemWidth f
    let wd := elemWidth (cFmtD c)
    let n := active c (lanes w)
    let G := (s.tile t).glaze
    let vs := (List.range n).map (fun k => redElem f (gregElem G (gVa c) w k))
    let red := fun (i : Instr) (r : Nat) (v : Nat) =>
      cOp c = 0x40 → gSub c = r → redFmtOk r f (cFmtD c) = true → n ≤ lanes w → (cSumen c = true → r ≠ 3) →
      unusedZero { fa := true, fd := true, vd := true, va := true, imm := true } c = true →
      GlazeWrites i s t cmd rest 4 128 (fun k => k) (fun k => if k = 0 then v else 0)
    let sfn := fun (i : Instr) (g : Nat) =>
      cOp c = 0x50 → gSub c = g → (f = 3 ∨ f = 2) → cFmtD c = f → n ≤ lanes w → cSumen c = false →
      unusedZero { fa := true, fd := true, vd := true, va := true } c = true →
      GlazeWrites i s t cmd rest w n (fun k => k) (fun k => (sfEval cmd (gIter c) g (redElem f (gregElem G (gVa c) w k)) (f == 2)).code)
    (cOp c = 0x01 → fmtListed (cFmtD c) = true → gSub c = 0 → active c (lanes wd) ≤ lanes wd → moveAddrOk c (active c (lanes wd) * wd) = true → cSumen c = false →
      unusedZero { fd := true, vd := true, imm := true } c = true →
      GlazeWrites (.vld t e) s t cmd rest wd (active c (lanes wd)) (fun k => k) (fun k => storeNumAt s t (gImm c + wd * k) wd)) ∧
    (cOp c = 0x03 → fmtListed (cFmtD c) = true → gSub c = 0 → active c (lanes wd) ≤ lanes wd → cSumen c = false →
      unusedZero { fd := true, vd := true, imm := true } c = true →
      GlazeWrites (.vbc t e) s t cmd rest wd (active c (lanes wd)) (fun k => k) (fun _ => gImm c)) ∧
    (cOp c = 0x02 → fmtListed f = true → gSub c = 0 → n ≤ lanes w → moveAddrOk c (n * w) = true → cSumen c = false →
      unusedZero { fa := true, va := true, imm := true } c = true →
      Leaves (.vst t e) s (fun u => (u.tile t).glaze.queue = rest ∧ u.mem = memWrite s.mem (tileStoreKey t (gImm c)) ((List.range (n * w)).map (gregByte G (gVa c))) ∧
        (u.tile t).glaze.regs = G.regs ∧ u.bricks = s.bricks)) ∧
    red (.redSum t e) 1 (if f = 6 then vs.foldl (fun x v => x + v) 0 % 2 ^ 32 else treeSum (if f = 2 then 256 else 128) vs) ∧
    red (.redMax t e) 2 (reduce 2 f (redElem f (gImm c % 256 ^ w)) vs).1 ∧ red (.redMin t e) 3 (reduce 3 f (redElem f (gImm c % 256 ^ w)) vs).1 ∧
    red (.redArgmax t e) 4 (((argMax (f == 6) vs).map (fun x => x.1)).getD 0xFFFFFFFF) ∧
    red (.redCount t e) 5 (vs.filter (fun v => resLess (f == 6) (redElem f (gImm c % 256 ^ w)) v)).length ∧
    sfn (.sfnExp t e) 0 ∧ sfn (.sfnExp2 t e) 1 ∧ sfn (.sfnLog t e) 2 ∧ sfn (.sfnRec t e) 3 ∧ sfn (.sfnRsq t e) 4 ∧ sfn (.sfnTanh t e) 5 ∧
    sfn (.sfnSigmoid t e) 6 ∧ sfn (.sfnErf t e) 7

/-- Where the exact values do not fix a special function, its result is one of the FP32 codes that the bound of R603 allows: of the window of codes it lies in, or −0
where zero is one of them; beyond the largest finite value it is the infinity. Which of the codes is free (log entries 14 and 217). -/
def Obligations.SpecialFunctionBound : Prop :=
  ∀ (f iter x : Nat) (neg : Bool) (m : Nat) (e : Int), fmtFP32.dec x = .fin neg m e →
    let w := sfWindow f iter neg m e
    (-(fmtFP32.maxCode : Int) < w.1 → w.1 ≤ w.2 → w.2 < (fmtFP32.maxCode : Int) →
      (∃ k : Int, w.1 ≤ k ∧ k ≤ w.2 ∧ sfBounded f iter x = keyCode k) ∨ (w.1 ≤ 0 ∧ 0 ≤ w.2 ∧ sfBounded f iter x = 2 ^ 31)) ∧
    ((fmtFP32.maxCode : Int) < w.1 → sfBounded f iter x = fmtFP32.infCode) ∧
    (w.1 ≤ (fmtFP32.maxCode : Int) → (fmtFP32.maxCode : Int) ≤ w.2 → sfBounded f iter x = fmtFP32.maxCode ∨ sfBounded f iter x = fmtFP32.infCode) ∧
    (w.1 ≤ w.2 → w.2 < -(fmtFP32.maxCode : Int) → sfBounded f iter x = 2 ^ 31 + fmtFP32.infCode)

/-- CLRS and CLRN start a softmax or a normalisation slot; SMX raises the running maximum and rescales the running sum; NACC adds the count, the sum and
the sum of squares of the elements less K; MRG merges the slot with VA's (m, l); RD writes the slot's values to VD and keeps the slot. -/
def Obligations.RowStatistics : Prop :=
  ∀ (t : Tile) (e : MemEnv) (s : State) (cmd : TileCmd) (rest : List TileCmd), GlazeNext s t cmd rest → cOp cmd.word = 0x60 →
    let c := cmd.word
    let k := gSlot c
    let f := cFmtA c
    let w := elemWidth f
    let n := active c (lanes w)
    let G := (s.tile t).glaze
    let x := fun i => redElem f (gregElem G (gVa c) w i)
    let row := fun (i : Instr) (r : RowSlot) => Leaves i s (fun u => (u.tile t).glaze.queue = rest ∧ rowSlot (u.tile t).glaze k = r ∧
      (∀ j, j ≠ k → rowSlot (u.tile t).glaze j = rowSlot G j) ∧ u.mem = s.mem ∧ u.bricks = s.bricks ∧ (u.tile t).mason = (s.tile t).mason)
    (gSub c = 1 → unusedZero {} c = true → cSumen c = false → row (.clrs t e) (.softmax f32ninf 0 f32unit)) ∧
    (gSub c = 2 → unusedZero { imm := true } c = true → cSumen c = false → row (.clrn t e) (.norm 0 (gImm c) 0 0)) ∧
    (∀ m l r, gSub c = 3 → rowSlot G k = .softmax m l r → (f = 3 ∨ f = 2) → cFmtD c = f → n ≤ lanes w →
      unusedZero { fa := true, fd := true, vd := true, va := true, imm := true } c = true →
      let ys := (List.range n).map (fun i => f32mul (x i) (gImm c))
      let mn := fmtFP32.maxOf m (ys.foldl fmtFP32.maxOf f32ninf)
      mn ≠ f32ninf →
      row (.smx t e) (.softmax mn (f32add (f32mul l (expDiff cmd m mn).1) (treeSum (lanes w) (ys.map (fun y => (expDiff cmd y mn).1)))) (expDiff cmd m mn).1)) ∧
    (∀ m K s1 s2, gSub c = 4 → rowSlot G k = .norm m K s1 s2 → (f = 3 ∨ f = 2) → n ≤ lanes w → cSumen c = false →
      unusedZero { fa := true, va := true } c = true →
      let ys := (List.range n).map (fun i => f32sub (x i) K)
      row (.nacc t e) (.norm (satNat 32 (m + n)) K (f32add s1 (treeSum (lanes w) ys)) (f32add s2 (treeSum (lanes w) (ys.map (fun y => f32mul y y)))))) ∧
    (∀ m l r, gSub c = 5 → rowSlot G k = .softmax m l r → f = 3 → unusedZero { fa := true, va := true } c = true →
      let m2 := gregElem G (gVa c) 4 0
      let l2 := gregElem G (gVa c) 4 1
      let mn := fmtFP32.maxOf m m2
      mn ≠ f32ninf →
      row (.mrg t e) (.softmax mn (f32add (f32mul l (expDiff cmd m mn).1) (f32mul l2 (expDiff cmd m2 mn).1)) (expDiff cmd m mn).1)) ∧
    (∀ m l r, gSub c = 6 → rowSlot G k = .softmax m l r → cFmtD c = 3 → gVl c = 0 → unusedZero { fd := true, vd := true } c = true →
      row (.rstatRd t e) (.softmax m l r) ∧
      Leaves (.rstatRd t e) s (fun u => (List.range 5).map (gregElem (u.tile t).glaze (gVd c) 4) = [m % 2 ^ 32, l % 2 ^ 32, r % 2 ^ 32, f32div f32unit l % 2 ^ 32, 0]))

/-- A grout read that nothing holds answers with the bytes of its place, or free bytes with status 0x41 where they are poisoned; one that its home holds
waits in its pseudo-channel's queue, and one outside the window or of a stack that is not ON is answered 0x01. An eviction takes a line out of the bed
cache after writing it back; a fold entry's eviction, DRAIN0 and DRAIN1 merge the buffered folds, and none of them stays. FOLD_CHG starts a change over its granules, and is refused with CHGREF where one is in
progress; each granule changes in its turn, and the last sets DONE and raises event 0x2007. -/
def Obligations.StackReadsAndFolds : Prop :=
  ∀ (st : Stack) (s : State) (e : MemEnv),
    let m := memReports e s
    let b := stackBrick st
    (∀ (off : BitVec 44) (n : Fin 33) tag, 0 < n.val →
      let x := groutRead m st off.toNat n.val (.unit tag)
      (stackOn m st = true → homeHeld m st off.toNat 0x01 n.val = false → off.toNat + n.val ≤ winTop m st * 4096 →
        (homeLoad st off.toNat n.val e m).1.1 ≠ 0x01 →
        Does (.groutRead st off n tag e) s ((homeLoad st off.toNat n.val e m).2.emit (.outcome tag 0 (homeLoad st off.toNat n.val e m).1.1
          (homeLoad st off.toNat n.val e m).1.2))) ∧
      (stackOn m st = true → homeHeld m st off.toNat 0x01 n.val = true → changeHeld m st off.toNat = false → (m.stack st).groutIn = [] →
        ((m.stack st).groutQ.filter (fun z => z.pc = x.pc)).length < 8 →
        Does (.groutRead st off n tag e) s (m.onStack st (fun S => { S with groutQ := S.groutQ ++ [x] }))) ∧
      (stackOn m st = false → Does (.groutRead st off n tag e) s (m.emit (.outcome tag 1 0x01 [])))) ∧
    (∀ sector : BitVec 30, Does (.foldEntryEvict st sector e) s (mergeRange st sector.toNat (sector.toNat + 1) e m) ∧
      Leaves (.foldEntryEvict st sector e) s (fun u => foldEntryOf u st sector.toNat = none ∧
        ∀ k, k ≠ sector.toNat → foldEntryOf u st k = foldEntryOf m st k)) ∧
    (∀ off : BitVec 44, Does (.bedLineEvict st off e) s (evictHome (bedKey st (off.toNat % 2 ^ 36)) e m) ∧
      Leaves (.bedLineEvict st off e) s (fun u => tabFind (u.brick b).bed (bedKey st (off.toNat % 2 ^ 36)) = none)) ∧
    (∀ c : Brick, Does (.drain0 c e) s (drainFolds (stackOf (2 * c.val)) e m) ∧ Does (.drain1 c e) s (drainFolds (stackOf (2 * c.val + 1)) e m) ∧
      Leaves (.drain0 c e) s (fun u => ∀ k, k < 2 ^ 30 → foldEntryOf u (stackOf (2 * c.val)) k = none) ∧
      Leaves (.drain1 c e) s (fun u => ∀ k, k < 2 ^ 30 → foldEntryOf u (stackOf (2 * c.val + 1)) k = none)) ∧
    (∀ (c : Brick) (v : Word),
      let x := stackOf (2 * c.val + bitsOf v.toNat 49 49)
      let first := bitsOf v.toNat 14 0
      let count := bitsOf v.toNat 47 32
      (s.isSet (Reg.FOLD_CHGST_BUSY c) = true → Does (.foldChg c v) s (s.flag (Reg.FOLD_ERR_CHGREF c))) ∧
      (s.isSet (Reg.FOLD_CHGST_BUSY c) = false → stackOn s x = true → count ≠ 0 → first + count ≤ ceilDiv (winTop s x * 4096) granuleSize →
        Does (.foldChg c v) s (((s.onStack x (fun S => { S with change := some (first, first + count, bitOf v.toNat 48), changeFrom := first })).wr
          (Reg.FOLD_CHGST_BUSY c) 1).wr (Reg.FOLD_CHGST_NEXT c) first))) ∧
    (∀ g last mode, (s.stack st).change = some (g, last, mode) → (s.stack st).phyLost = false →
      let u := (changeGranule st g mode e m).wr (Reg.FOLD_CHGST_NEXT b) (g + 1)
      (g + 1 < last → Does (.granuleChangeDone st e) s (retryHeld b e (u.onStack st (fun S => { S with change := some (g + 1, last, mode) })))) ∧
      (last ≤ g + 1 → Does (.granuleChangeDone st e) s (retryHeld b e (((((u.onStack st (fun S => { S with change := none })).wr (Reg.FOLD_CHGST_BUSY b) 0).flag
        (Reg.FOLD_CHGST_DONE b)).raise 0x2007 [st.val, (u.stack st).changeFrom, last - (u.stack st).changeFrom])))))

/-- A temperature above 85 °C, or above 95 °C, puts a stack into another temperature band: the change is recorded, flagged where the stack grew hotter, and raised as event 0x2008; a stack that loses PHY training holds its
operations until its one retrain has ended, and is fenced with events 0x2009 and 0x600E where it failed; a page clear starts over its pages, and its
end clears them and sets DONE. -/
def Obligations.StackService : Prop :=
  ∀ (st : Stack) (s : State) (e : MemEnv),
    (∀ t : BitVec 16,
      let band := if t.toInt < 85 * 16 then 0 else if t.toInt ≤ 95 * 16 then 1 else 2
      (s.rd (Reg.STK_STAT_TEMPBAND st) < band →
        Does (.temperatureBandChange st t) s (((s.wr (Reg.STK_STAT_TEMPBAND st) band).flag (Reg.STK_ERR_HOT st)).raise 0x2008 [st.val, band])) ∧
      (band < s.rd (Reg.STK_STAT_TEMPBAND st) →
        Does (.temperatureBandChange st t) s ((s.wr (Reg.STK_STAT_TEMPBAND st) band).raise 0x2008 [st.val, band]))) ∧
    (stackOn s st = true → Does (.phyTrainingLoss st) s (s.onStack st (fun S => { S with phyLost := true }))) ∧
    ((s.stack st).phyLost = true →
      let u := s.onStack st (fun S => { S with phyLost := false })
      Does (.stackPhyRetrainDone st true e) s (retryHeld (stackBrick st) e (memReports e u)) ∧
      Does (.stackPhyRetrainDone st false e) s (retryHeld (stackBrick st) e (memReports e (fenceStack st (u.raise 0x2009 [st.val]))))) ∧
    (∀ v : Word, stackOn s st = true →
      (s.isSet (Reg.PGC_CLRST_BUSY st) = true → Does (.pgcClr st v) s (s.flag (Reg.PGC_ERR_REFUSED st))) ∧
      (s.isSet (Reg.PGC_CLRST_BUSY st) = false → bitOf v.toNat 63 = false → bitsOf v.toNat 47 24 ≠ 0 → bitsOf v.toNat 23 0 + bitsOf v.toNat 47 24 ≤ winTop s st →
        Does (.pgcClr st v) s (((s.onStack st (fun S => { S with clearing := some (bitsOf v.toNat 23 0, bitsOf v.toNat 47 24, false) })).wr
          (Reg.PGC_CLRST_BUSY st) 1).wr (Reg.PGC_CLRST_NEXT st) (bitsOf v.toNat 23 0)))) ∧
    (∀ first count, (s.stack st).clearing = some (first, count, false) → (s.stack st).phyLost = false →
      Does (.pageClearDone st) s (((((clearRange st first count false s).onStack st (fun S => { S with clearing := none })).wr (Reg.PGC_CLRST_NEXT st)
        (first + count)).wr (Reg.PGC_CLRST_BUSY st) 0).flag (Reg.PGC_CLRST_DONE st)))

/-- An install takes the lowest free entry and spare and holds its page, or is refused with its reason and event 0x2106; when it is done the held requests
are performed. A release copies the page back and frees its entry, and one of an entry that is not valid fails with WHY 0x5. Soft repair of a row
whose pages are all remapped is recorded and releases their entries. A pass with a valid descriptor starts Running at FIRST; SUSPEND asks a running
pass to finish its page, RESUME runs a suspended one that nothing else holds, and CANCEL makes it cancelling; a page in the window is read and NEXT
moves on; the pass ends after its last page, or cancelled, and where a stack has none Hod starts its default pass of the whole stack under label 15
(R405; the moment is the model's choice, log entry 215). -/
def Obligations.RemappingAndRepointing : Prop :=
  (∀ (st : Stack) (s : State) (e : MemEnv),
     (∀ page : BitVec 24, stackOn s st = true → s.isSet (Reg.RMP_CSTAT_BUSY st) = false →
       (∀ entry i, installPlan s st page.toNat = (0, entry, i) →
         Does (.remapInstall st page) s (((s.onStack st (fun S => { S with install := some (page.toNat, i, entry) })).wr (Reg.RMP_CSTAT_BUSY st) 1).wr
           (Reg.RMP_CSTAT_WHY st) 0)) ∧
       (∀ why x, installPlan s st page.toNat = (why, x) → why ≠ 0 →
         Does (.remapInstall st page) s (((s.raise 0x2106 [st.val, page.toNat, why]).flag (Reg.RMP_CSTAT_FAIL st)).wr (Reg.RMP_CSTAT_WHY st) why))) ∧
     (∀ x, (s.stack st).install = some x → (s.stack st).phyLost = false →
       Does (.remapInstallDone st e) s (retryHeld (stackBrick st) e (finishInstall st e (memReports e s)))) ∧
     (∀ entry : Fin 32, stackOn s st = true → s.isSet (Reg.RMP_CSTAT_BUSY st) = false →
       let m := memReports e s
       (entry.val < 16 → m.isSet (Reg.RMP_ENT_VALID st entry.val) = true →
         Does (.remapRelease st entry e) s (((releaseEntry st entry.val e m).flag (Reg.RMP_CSTAT_DONE st)).wr (Reg.RMP_CSTAT_WHY st) 0)) ∧
       (16 ≤ entry.val → Does (.remapRelease st entry e) s ((m.flag (Reg.RMP_CSTAT_FAIL st)).wr (Reg.RMP_CSTAT_WHY st) 5))) ∧
     (∀ (off : BitVec 36) x y, hodActs s = true → stackOn s st = true → withBits off.toNat 15 15 1 / 4096 < winTop s st → withBits off.toNat 15 15 0 / 4096 < winTop s st →
       remapEntry s st (withBits off.toNat 15 15 0 / 4096) = some x → remapEntry s st (withBits off.toNat 15 15 1 / 4096) = some y →
       Does (.softRepair st off e) s (releaseEntry st y e (releaseEntry st x e ((s.onStack st (fun S =>
         { S with repairs := S.repairs ++ [(pseudoChannel off.toNat, channelAddr off.toNat / 1024)],
                  repaired := S.repaired ++ [(pseudoChannel off.toNat, channelAddr off.toNat / 1024)] })).raise 0x210C
           [st.val, pseudoChannel off.toNat, bitsOf (channelAddr off.toNat) 29 16]))))) ∧
  (∀ (st : Stack) (s : State) (e : MemEnv),
     (stackOn s st = true → passBusy s st = false → passDescOk s st (sdescBytes s st) = true →
       let d := sdescBytes s st
       Leaves (.passStart st) s (fun u => u.rd (Reg.PGC_SSTAT_STATE st) = psRunning ∧ u.rd (Reg.PGC_SSTAT_NEXT st) = leNat (d.take 4) ∧
         (u.stack st).pass.map (fun p => (p.first, p.count, p.interval)) = some (leNat (d.take 4),
           (if leNat ((d.drop 4).take 4) = 0 then winTop s st - leNat (d.take 4) else leNat ((d.drop 4).take 4)), leNat ((d.drop 8).take 4)) ∧
         u.mem = s.mem ∧ u.events = s.events ∧ u.bricks = s.bricks)) ∧
     (∀ p, (s.stack st).pass = some p → s.rd (Reg.PGC_SSTAT_STATE st) = psRunning →
       Does (.passSuspend st) s ((s.onStack st (fun S => { S with pass := some { p with hostSusp := true } })).wr (Reg.PGC_SSTAT_STATE st) psSuspending)) ∧
     (∀ p, (s.stack st).pass = some p → p.devSusp = false → s.rd (Reg.PGC_SSTAT_STATE st) = psSuspended →
       Does (.passResume st) s ((s.onStack st (fun S => { S with pass := some { p with hostSusp := false } })).wr (Reg.PGC_SSTAT_STATE st) psRunning)) ∧
     (s.rd (Reg.PGC_SSTAT_STATE st) = psRunning → Does (.passCancel st) s (s.wr (Reg.PGC_SSTAT_STATE st) psCancelling)) ∧
     (∀ x, (s.stack st).pass = some x → s.rd (Reg.PGC_SSTAT_STATE st) = psRunning → x.pageAt = none → x.finished = false → x.count ≠ 0 →
       s.rd (Reg.PGC_SSTAT_NEXT st) < winTop s st → winTop (memReports e s) st = winTop s st →
       let p := s.rd (Reg.PGC_SSTAT_NEXT st)
       let u := passWindowPage st x p (pagePoisoned s st p) e (memReports e s)
       Does (.passPage st e) s ((onPass st (fun x' => { x' with pageAt := some u.plumb.toNat, finished := (passNext u st x p).isNone }) u).wr
         (Reg.PGC_SSTAT_NEXT st) ((passNext u st x p).getD (p + 1)))) ∧
     (∀ x, (s.stack st).pass = some x → x.finished = true → x.byHod = false → Does (.passEnd st) s (endPass st x 0 true s)) ∧
     ((s.stack st).pass = none → hodActs s = true → stackOn s st = true → passBusy s st = false → (s.stack st).clearing = none →
       Leaves (.passEnd st) s (fun u => u.rd (Reg.PGC_SSTAT_STATE st) = psRunning ∧ u.rd (Reg.PGC_SSTAT_NEXT st) = 0 ∧
         (u.stack st).pass.map (fun p => (p.first, p.count, p.interval, p.lbl, p.remap && p.spares && p.byHod)) =
           some (0, winTop s st, 86400000000 / (winTop s st + 64), 15, true) ∧ u.mem = s.mem ∧ u.events = s.events ∧ u.bricks = s.bricks)) ∧
     (∀ x, (s.stack st).pass = some x → x.finished = false → x.count ≠ 0 → s.rd (Reg.PGC_SSTAT_STATE st) = psCancelling →
       Does (.passEnd st) s (endPass st x 1 true s)))

/-- A format waits BUSY and its end raises event 0x2301; EN with valid areas starts the enable scan, whose end makes the yard READY; the tree likewise; an
invalid area sets BADCFG. An epoch advance moves the epoch, or counts EBUSY while readers of the previous one work. KEY1 installs the namespace's key
and CLR makes it invalid. A job with a valid descriptor starts Running and pins the epoch, and any other sets JREF; SUSPEND, RESUME and CANCEL move
its STATE; an item done counts and moves NEXT; the job ends after its last item, or cancelled, with event 0x2307. A copy that is made is answered and
its source's held requests go on. -/
def Obligations.YardAndTree : Prop :=
  (∀ (b : Brick) (s : State) (e : MemEnv),
     let m := memReports e s
     (s.isSet (Reg.SLB_CTL_EN b) = false → s.isSet (Reg.SLB_STATE_BUSY b) = false → Does (.yardFormat b) s (s.wr (Reg.SLB_STATE_BUSY b) 1)) ∧
     (s.isSet (Reg.SLB_STATE_BUSY b) = true → s.isSet (Reg.SLB_CTL_EN b) = false →
       (∀ u t, runYard b e yFormat m = (.ok u, t) → Does (.yardFormatDone b e) s ((t.wr (Reg.SLB_STATE_BUSY b) 0).raise 0x2301 [b.val, 0])) ∧
       (∀ u t, runYard b e yFormat m = (.error u, t) → Does (.yardFormatDone b e) s (t.wr (Reg.SLB_STATE_BUSY b) 0))) ∧
     (m.isSet (Reg.SLB_CTL_EN b) = false → m.isSet (Reg.SLB_STATE_BUSY b) = false →
       (∀ u t, runYard b e yCheck m = (.ok u, t) → Does (.yardEnable b e) s ((t.wr (Reg.SLB_CTL_EN b) 1).wr (Reg.SLB_STATE_BUSY b) 1)) ∧
       (∀ u t, runYard b e yCheck m = (.error u, t) → Does (.yardEnable b e) s (t.flag (Reg.SLB_ERR_BADCFG b)))) ∧
     (s.isSet (Reg.SLB_STATE_BUSY b) = true → s.isSet (Reg.SLB_CTL_EN b) = true →
       Does (.enableScanDone b e) s (((m.each (List.range (m.rd (Reg.SLB_DCNT_N0 b) + m.rd (Reg.SLB_DCNT_N1 b)))
         (fun s k => (runYard b e (yScan (8 + k)) s).2)).wr (Reg.SLB_STATE_BUSY b) 0).wr (Reg.SLB_STATE_READY b) 1)) ∧
     (s.isSet (Reg.PFX_CTL_EN b) = false → Does (.treeFormat b) s (s.wr (Reg.PFX_STAT_BUSY b) 1)) ∧
     (∀ u t, s.isSet (Reg.PFX_STAT_BUSY b) = true → runYard b e yTreeFormat m = (.ok u, t) →
       Does (.treeFormatDone b e) s ((t.wr (Reg.PFX_STAT_BUSY b) 0).raise 0x2301 [b.val, 1])) ∧
     (m.isSet (Reg.PFX_CTL_EN b) = false →
       (m.isSet (Reg.SLB_STATE_READY b) = false → Does (.treeEnable b e) s (m.flag (Reg.PFX_ERR_BADCFG b))) ∧
       (∀ u t, m.isSet (Reg.SLB_STATE_READY b) = true → m.isSet (Reg.PFX_STAT_BUSY b) = false → runYard b e yTreeCheck m = (.ok u, t) →
         Does (.treeEnable b e) s ((t.wr (Reg.PFX_CTL_EN b) 1).wr (Reg.PFX_STAT_READY b) 1))) ∧
     (s.isSet (Reg.SLB_STATE_READY b) = true → s.rd (Reg.SLB_CTL_EPINT b) ≠ 0 →
       (∀ h t, runYard b e advanceEpoch m = (.ok h, t) → Does (.epochAutoAdvance b e) s t) ∧
       (∀ a t, runYard b e advanceEpoch m = (.error (0x5E, a), t) → Does (.epochAutoAdvance b e) s (t.count (Reg.SLB_CNT1_EBUSY b) 1))) ∧
     (∀ v, Leaves (.keyInstall b v) s (fun u => tabFind (u.brick b).yard.keys (s.rd (Reg.PFX_KSEL_NS b)) = some (v ++ (s.brick b).yard.key0) ∧
       (∀ n, n ≠ s.rd (Reg.PFX_KSEL_NS b) → tabFind (u.brick b).yard.keys n = tabFind (s.brick b).yard.keys n) ∧ u.mem = s.mem ∧ u.events = s.events)) ∧
     Leaves (.pfxKclr b true) s (fun u => tabFind (u.brick b).yard.keys (s.rd (Reg.PFX_KSEL_NS b)) = none ∧
       (∀ n, n ≠ s.rd (Reg.PFX_KSEL_NS b) → tabFind (u.brick b).yard.keys n = tabFind (s.brick b).yard.keys n) ∧ u.mem = s.mem ∧ u.events = s.events) ∧
     Does (.pfxKclr b false) s s) ∧
  (∀ (b : Brick) (s : State) (e : MemEnv) (j : YardJob),
     let m := memReports e s
     let slabs : SlabCopy → YM (Nat × Nat) := fun c => getDesc c.src >>= fun x => getDesc c.dst >>= fun y => pure (x.sloc, y.sloc)
     ((s.brick b).yard.job = none → jobDescOk (jdescBytes s b) = true → Does (.jobStart b) s (startJob b (jdescBytes s b) none s)) ∧
     ((s.brick b).yard.job = some j → Does (.jobStart b) s (s.flag (Reg.SLB_ERR_JREF b))) ∧
     ((s.brick b).yard.job = some j → s.rd (Reg.SLB_JSTAT_STATE b) = psRunning →
       Does (.jobSuspend b) s ((s.onYard b (fun Y => { Y with job := some { j with hostSusp := true } })).wr (Reg.SLB_JSTAT_STATE b) psSuspending)) ∧
     ((s.brick b).yard.job = some j → j.devSusp = false → s.rd (Reg.SLB_JSTAT_STATE b) = psSuspended →
       Does (.jobResume b) s ((s.onYard b (fun Y => { Y with job := some { j with hostSusp := false } })).wr (Reg.SLB_JSTAT_STATE b) psRunning)) ∧
     (s.rd (Reg.SLB_JSTAT_STATE b) = psRunning → Does (.jobCancel b) s (s.wr (Reg.SLB_JSTAT_STATE b) psCancelling)) ∧
     (∀ del ret mov fen ski t p k, (s.brick b).yard.job = some j → s.rd (Reg.SLB_JSTAT_STATE b) = psRunning → j.finished = false →
       yardStacksOn s b (numAt j.desc 0 1) = true →
       runYard b e (yItem j (s.rd (Reg.SLB_JSTAT_PHASE b)) (s.rd (Reg.SLB_JSTAT_NEXT b)) >>= fun x => get >>= fun y => pure (x, y.retired)) m =
         (.ok (.did del mov fen ski, ret), t) →
       jobNext t b (numAt j.desc 0 1) (s.rd (Reg.SLB_JSTAT_PHASE b)) (s.rd (Reg.SLB_JSTAT_NEXT b)) = some (p, k) →
       Does (.jobItem b e) s (((onJob b (fun j => { j with
         visited := j.visited + 1, deleted := j.deleted + del, retired := j.retired + ret, moved := j.moved + mov,
         fenced := j.fenced + fen, skipped := j.skipped + ski, finished := false }) t).wr (Reg.SLB_JSTAT_PHASE b) p).wr (Reg.SLB_JSTAT_NEXT b) k)) ∧
     ((s.brick b).yard.job = some j → j.finished = true → Does (.jobEnd b) s (endJob b j 0 true s)) ∧
     ((s.brick b).yard.job = some j → j.finished = false → s.rd (Reg.SLB_JSTAT_STATE b) = psCancelling → Does (.jobEnd b) s (endJob b j 1 true s)) ∧
     (∀ c cs r t, (s.brick b).yard.copies = c :: cs → runYard b e (slabs c) m = (.error r, t) →
       Does (.scowCopyDone b e) s (retryHeld b e (finishRequest b c.pkt (r.1, []) e (t.onBrick b (fun B =>
         { B with yard := { B.yard with copies := B.yard.copies.erase c } }))))) ∧
     (∀ c cs src dst t, (s.brick b).yard.copies = c :: cs → runYard b e (slabs c) m = (.ok (src, dst), t) →
       slabOn t b src = true → slabOn t b dst = true → (∀ st : Stack, (t.stack st).phyLost = false) →
       let f := copySlabData b src dst e t
       let g := runYard b e (yFinishCopy c f.1) f.2
       let r : Reply := match g.1 with | .ok d => (0x00, d) | .error r => (r.1, [])
       Does (.scowCopyDone b e) s (retryHeld b e (finishRequest b c.pkt r e (g.2.onBrick b (fun B =>
         { B with yard := { B.yard with copies := B.yard.copies.erase c } }))))))

/-- While the CXL.mem link is up and the decoder is enabled, an access of the host becomes an operation of the device under the decoder's label; a snoop
that the host answers gives its entry up, or downgrades it, with the data it wrote back; a host-memory read that comes back finishes the request that
made it. -/
def Obligations.HostMemoryAccess : Prop :=
  ∀ (s : State) (e : MemEnv),
    (∀ tag (n : Fin 8) (off : BitVec 44) own, s.isSet Reg.HST_STAT_LINKUP = true → s.isSet Reg.HST_STAT_CXLM = true → s.isSet (Reg.HST_HDM_EN n) = true →
      off.toNat < s.rd (Reg.HST_HDMSZ_SIZE n) * 2 ^ 28 → s.rd (Reg.HST_HDM_REGION n) ≤ 7 →
      let region := s.rd (Reg.HST_HDM_REGION n)
      let o := s.rd (Reg.HST_HDM_OFFSET n) * 2 ^ 28 + off.toNat / 64 * 64
      populated s region o 64 = true → foldMode s (stackOf region) (o / granuleSize) = false →
      let asked := fun (write : Bool) => { s with host := { s.host with hdm := s.host.hdm ++ [{ tag := tag, decoder := n.val, write := write, own := own }] } }
      let op := fun (opc : BitVec 8) (data : Bytes) => ({ addr := BitVec.ofNat 64 (0xFFFF * 2 ^ 48 + (region * 2 ^ 44 + o)), opc := opc, aux := 0,
                                                          lbl := labelOf (s.rd (Reg.HST_HDM_LABEL n)), size := 64, payload := data } : Op)
      Does (.hdmMemrd tag n off own) s (issueOp 0 (.hdm tag) (op 0x01 []) (asked false)) ∧
      (∀ data, Does (.hdmMemwr tag n off data own) s (issueOp 0 (.hdm tag) (op 0x02 (padTo 64 data)) (asked true)))) ∧
    (∀ (st : Stack) (sector : BitVec 30) x, (s.brick (stackBrick st)).snoop = [x] → x.stack = st.val → x.sector = sector.toNat →
      let b := stackBrick st
      (x.asked = 2 → ((memReports e s).brick b).snoop = [x] →
        Does (.bisnpResponse st sector none e) s (retryHeld b e ((memReports e s).onBrick b (fun B => { B with snoop := [] })))) ∧
      (∀ d, x.asked = 1 → x.em = true → ((homeWrite st (x.sector * 64) (padTo 64 d) e (memReports e s)).2.brick b).snoop = [x] →
        Does (.bisnpResponse st sector (some d) e) s (retryHeld b e ((homeWrite st (x.sector * 64) (padTo 64 d) e (memReports e s)).2.onBrick b
          (fun B => { B with snoop := [{ x with em := false, asked := 0 }] }))))) ∧
    (∀ a data, s.host.accs.find? (fun x => x.tag = a.tag) = some a →
      let u := { s with host := { s.host with accs := s.host.accs.erase a } }
      (∀ p, a.use = .request p → p.opc.toNat = 1 → Does (.hostCacheResponse a.tag false data e) s (finishRequest 0 p (0x00, padTo p.size.toNat data) e u)) ∧
      (∀ r, a.use = .completion r false → Does (.hostCacheResponse a.tag false data e) s (vectorDue r u)) ∧
      (a.use = .event false → Does (.hostCacheResponse a.tag false data e) s (vectorDue 32 u)) ∧
      (a.use = .event true → Does (.hostCacheResponse a.tag false data e) s u))

/-- A doorbell within its ring becomes visible after the drop stores before it; a completion head frees slots; a drop write in an enabled window becomes
STOREs; a snooped line goes; an entry fetched is answered or accepted; a command that is still due gets an interim completion; a vector due is
signalled once. -/
def Obligations.HostRings : Prop :=
  ∀ (s : State) (r : Fin 32),
    (s.isSet Reg.HST_STAT_LINKUP = true → s.isSet (Reg.HST_CBASE_EN r.val) = true → ∀ v : Word,
      (cmdSlots s r.val ≤ v.toNat → Does (.doorbell r v) s (s.flag Reg.HST_ERR_RINGERR)) ∧
      (v.toNat < cmdSlots s r.val →
        let t := s.wr (Reg.HST_RSTAT_TAIL r.val) v.toNat
        let u := { t with host := { t.host with doorbells := t.host.doorbells ++ [{ ring := r.val, tail := v.toNat, before := t.host.dropNo }] } }
        Does (.doorbell r v) s (releaseDoorbells u.host.doorbells.length u) ∧
        (s.host.doorbells = [] → dropsOut s s.host.dropNo = false → Does (.doorbell r v) s (t.onRing r.val (fun R => { R with visible := v.toNat })))) ∧
      (let n := complSlots s r.val
       v.toNat < n → Does (.completionHead r v) s (drainRing r.val ((s.wr (Reg.HST_RSTAT_CHEAD r.val) v.toNat).onRing r.val (fun R =>
        { R with inUse := R.inUse - (v.toNat + n - s.rd (Reg.HST_RSTAT_CHEAD r.val) % n) % n }))))) ∧
    Does (.completionRingRoom r) s (drainRing r.val s) ∧
    (∀ c, ringWorks s r.val = true → (s.ring r.val).due = [c] → (s.ring r.val).inUse + 1 < complSlots s r.val →
      Does (.completionRingRoom r) s ((writeCompletion r.val c (s.onRing r.val (fun R => { R with due := [] }))).onRing r.val (fun R => { R with full := false })) ∧
      Leaves (.completionRingRoom r) s (fun u => u.out = s.out ++ [.hostWrite s.host.nextTag
        (s.rd (Reg.HST_QBASE_HPA r.val) * 4096 + 32 * s.rd (Reg.HST_RSTAT_CTAIL r.val)) (completionBytes r.val (s.ring r.val).phase c)] ∧
        u.mem = s.mem ∧ u.events = s.events)) ∧
    (∀ (off : BitVec 34) (data : Bytes), s.isSet Reg.HST_STAT_LINKUP = true → data ≠ [] →
      let n := off.toNat / 2 ^ 30
      let w := off.toNat % 2 ^ 30
      let region := s.rd (Reg.HST_DROP_REGION n)
      let o := s.rd (Reg.HST_DROP_OFFSET n) * 65536 + w
      (s.isSet (Reg.HST_DROP_EN n) = false → Does (.dropWrite off data) s (dropFailed n w 0x01 s)) ∧
      (s.isSet (Reg.HST_DROP_EN n) = true → w + data.length ≤ 2 ^ 30 → region ≤ 8 → populated s region o data.length = true →
        let ops := storesOf (s.rd (Reg.HST_DROP_LABEL n)) (0xFFFF * 2 ^ 48 + region * 2 ^ 44 + o) data
        Does (.dropWrite off data) s (noteSplit s.host.dropNo ops.length (ops.foldl
          (fun s op => issueOp 0 (.drop (n + 16 * s.host.dropNo)) op { s with host := { s.host with dropNo := s.host.dropNo + 1 } }) s)) ∧
        Leaves (.dropWrite off data) s (fun u => u.host.dropNo = s.host.dropNo +
          ops.length))) ∧
    (∀ a : BitVec 52, Does (.h2dSnoop a) s { s with host := { s.host with lines := s.host.lines.filter (fun l => l.1 ≠ a.toNat / 64) } }) ∧
    (s.host.doorbells = [] → mayFetch s r.val = true → ∀ data,
      let head := s.rd (Reg.HST_RSTAT_HEAD r.val)
      let line := (s.rd (Reg.HST_CBASE_HPA r.val) * 4096 + 64 * head) / 64
      s.host.lines.find? (fun l => l.1 = line) = none →
      let rest := s.host.lines.filter (fun l => l.1 ≠ line)
      let t := { s with host := { s.host with lines := rest.drop (rest.length - 1023) ++ [(line, padTo 64 data)] } }
      Does (.commandFetch r data false) s (takeEntry r.val (padTo 64 data)
        ((t.wr (Reg.HST_RSTAT_HEAD r.val) ((head + 1) % cmdSlots t r.val)).count Reg.HST_CNT0_FETCHED 1)) ∧
      Does (.commandFetch r data true) s (((s.flag Reg.HST_ERR_RINGERR).raise 0x4004 [r.val, head]).onRing r.val (fun R => { R with visible := head }))) ∧
    (∀ (id : Word) (c : HostRec) st status result, s.recordOf id.toNat = some c → commandNow s c = (st, status, result) → st < 5 →
      (s.ring c.ring).firsts.any (fun x => x.1 = id.toNat && x.2.isNone) = true →
      Does (.interimCompletion id) s (postCompletion c.ring { id := id.toNat, state := st, status := status, flags := 4, result := result,
                                                              noint := bitOf (entryNum c.entry 9 1) 1 } s)) ∧
    (∀ v : Fin 64, attached s = true → s.host.msiDue.contains v.val = true → tabFind s.host.msiAt v.val = none →
      Does (.msixSignal v) s ({ s with host := { s.host with
        msiDue := s.host.msiDue.filter (fun x => x ≠ v.val), msiAt := tabPut s.host.msiAt v.val s.now } }.emit (.msix v.val)))

/-- The first accepted command ends with the status its fields and rights give, or takes effect: NOP ends Done; SUSPEND, RESUME and CANCEL steer a long
operation and tell its state; POLICY sets the host-loss policy; YARD becomes a slab-yard request; a long command whose fields pass is queued with an
interim completion. -/
def Obligations.HostCommands : Prop :=
  ∀ (s : State) (r : HostRec) (t : State),
    let id := leNat (r.entry.take 8)
    let lbl := t.rd (Reg.HST_CBASE_LABEL r.ring)
    let queued := postCompletion r.ring { id := id, state := loQueued, status := 0x00, flags := 4, result := List.replicate 16 0,
                                          noint := bitOf (entryNum r.entry 9 1) 1 }
                    { t with host := { t.host with ops := t.host.ops ++ [{ id := id, ring := r.ring, entry := r.entry }] } }
    let long := fun (i : Instr) (opc : Nat) (check : Bytes → Nat → State → Option Nat) => takeCommand opc s = some (r, t) →
      (check r.entry lbl t = none → Does i s queued) ∧ (∀ st, check r.entry lbl t = some st → Does i s (endCommand r st [] t))
    let steer := fun (i : Instr) (opc : Nat) (f : Nat → State → State) => takeCommand opc s = some (r, t) → entryFormed r.entry false [(16, 24)] = true →
      let aim := entryNum r.entry 16 8
      (t.hostOp aim = none → Does i s (endCommand r 0x06 [] t)) ∧
      (∀ o o', t.hostOp aim = some o → o.final = false → o.long = true → (f aim t).hostOp aim = some o' →
        Does i s (endCommand r 0x00 (leBytes 1 (opState (f aim t) o')) (f aim t)))
    (takeCommand 0x01 s = some (r, t) → Does .cmdNop s (endCommand r (if entryFormed r.entry false [] then 0 else 0x02) [] t)) ∧
    steer .cmdSuspend 0x03 suspendOp ∧ steer .cmdResume 0x04 resumeOp ∧ steer .cmdCancel 0x05 cancelOp ∧
    (takeCommand 0x07 s = some (r, t) → entryFormed r.entry false [(24, 26), (32, 56)] = true → entryNum r.entry 24 1 ≤ 1 → entryNum r.entry 25 1 = 0 →
      let u := t.wr Reg.HST_CTL_HLPOL (entryNum r.entry 24 1)
      Does .cmdPolicy s (endCommand r 0x00 (leBytes 1 u.host.ranges.length) u)) ∧
    (takeCommand 0x08 s = some (r, t) → entryFormed r.entry false [(16, 28), (32, 64)] = true → entryNum r.entry 24 1 ≤ 3 →
      0x51 ≤ entryNum r.entry 25 1 → entryNum r.entry 25 1 ≤ 0x5A → entryNum r.entry 26 2 ≤ 24 → entryNum r.entry 16 8 = 0 →
      (r.entry.drop (40 + entryNum r.entry 26 2)).all (fun b => b = 0) = true → entryNum r.entry 32 8 = 0 →
      let b := brickOf (entryNum r.entry 24 1)
      hostMay t lbl rightSLAB (localAddr 0 (yardAddr t b)) 1 = true → t.isSet (Reg.SLB_STATE_READY b) = true →
      let o : HostOp := { id := id, ring := r.ring, entry := r.entry, started := true, step := .desc }
      let u := { t with host := { t.host with ops := t.host.ops ++ [o] } }
      Does .cmdYard s (askHost id .yard [hostYardRequest o ((r.entry.drop 40).take (entryNum r.entry 26 2)) u] u)) ∧
    long .cmdRun 0x20 checkRun ∧ long .cmdCopy 0x21 checkCopy ∧ long .cmdScrub 0x22 checkScrub ∧ long .cmdPfxjob 0x23 checkJob ∧
    long .cmdSlabjob 0x24 checkJob ∧ long .cmdMemtest 0x25 checkMemtest ∧ long .cmdFwstage 0x26 checkStage

/-- While a driver is attached the first long operation that may start does; it goes on from one suspension point to the next, and its end is a final
completion. Host loss and the end of the debounce do what R753 to R755 say, and the snoop filters are settled after it; the manifest is written,
frozen, attached or discarded; a link that trains enters service. -/
def Obligations.HostOperationsAndLoss : Prop :=
  ∀ (s : State) (e : MemEnv),
    (∀ o, s.isSet Reg.HST_STAT_ATTACHED = true → s.isSet Reg.HST_STAT_HOSTLOST = false → nextStart s [] s.host.ops = some o → Does .longOpStart s (beginOp o s)) ∧
    (∀ o, s.isSet Reg.HST_STAT_ATTACHED = true → s.isSet Reg.HST_STAT_HOSTLOST = false → s.host.ops = [o] → o.opc = 0x21 → o.started = false → o.ended = none →
      o.held = false → fenceOk s o = true → Leaves .longOpStart s (fun u => u.host.ops = [{ o with started := true, step := .work }] ∧ u.mem = s.mem ∧
        u.events = s.events ∧ u.bricks = s.bricks ∧ u.tiles = s.tiles)) ∧
    (∀ id : Word, Does (.longOpSuspensionPoint id e) s (advanceOp id.toNat e true (memReports e s))) ∧
    (∀ (id : Word) o, s.host.ops = [o] → o.id = id.toNat → s.results = [] → o.opc = 0x21 → o.started = true → o.ended = none → o.waiting = false → o.pieces = [] →
      o.fail = none → o.step = .work → o.cancelling = false →
      (o.num 40 8 ≤ o.next * 65536 → Leaves (.longOpSuspensionPoint id e) s (fun u => u.host.ops = [{ o with ended := some (true, 0x00), result := padTo 16 o.result }])) ∧
      (o.next * 65536 < o.num 40 8 → o.held = true → Leaves (.longOpSuspensionPoint id e) s (fun u => u.host.ops = [{ o with paused := true }])) ∧
      (o.next * 65536 < o.num 40 8 → o.held = false → Leaves (.longOpSuspensionPoint id e) s (fun u => u.host.ops = [{ o with
        paused := false, step := .load, got := [], pieces := loadsOf (opLabel s o) (o.num 24 8 + o.next * 65536) (min 65536 (o.num 40 8 - o.next * 65536)) }]))) ∧
    (∀ (id : Word) o ok st, s.hostOp id.toNat = some o → o.long = true → o.ended = some (ok, st) → hostWritesOut s o ok = false →
      Does (.longOpEnd id) s (finishCommand o.id o.ring (if ok then loDone else loFailed) (if o.discarded && st = 0x08 then 0x09 else st) o.result
        (bitOf (o.num 9 1) 1) { s with host := { s.host with ops := s.host.ops.filter (fun x => x.id ≠ o.id) } })) ∧
    (∀ r : Fin 4, Does (.hostLoss r e) s (hostLoss (r.val + 1) e (memReports e s))) ∧
    Does (.hldebExpiry e) s (hostLoss 2 e (memReports e s)) ∧
    (∀ n : Nat, let u := hostLoss n e (memReports e s)
      u.isSet Reg.HST_STAT_HOSTLOST = true ∧ u.isSet Reg.HST_STAT_ATTACHED = false ∧ lastEvent u 0x4002 [n] ∧ u.host.rings = [] ∧ u.host.doorbells = [] ∧
      u.host.reason = n ∧ u.host.listed = (openLongOps s).map (fun o => o.id) ∧ u.host.settleDue = true) ∧
    (s.host.settleDue = true → (∀ b : Brick, (s.brick b).snoop = []) → ((memReports e { s with host := { s.host with settleDue := false } }).bricks = s.bricks) →
      Does (.snoopFilterSettle e) s ((((memReports e { s with host := { s.host with settleDue := false } }).raise 0x4008 [0])).each ([0, 1, 2, 3] : List Brick)
        (fun s b => retryHeld b e s))) ∧
    (s.isSet Reg.HST_STAT_HOSTLOST = true → s.isSet Reg.HST_MANSTAT_FROZEN = false → Does .manifestWrite s (writeManifest false s)) ∧
    (s.isSet Reg.HST_MANSTAT_AVAIL = true →
      let nonce := (List.range 4).flatMap (fun i => leBytes 8 (s.reg (Reg.HST_NONCE i)))
      Does .freeze s (((writeManifest true { s with host := { s.host with nonce := nonce } }).flag Reg.HST_MANSTAT_FROZEN).flag Reg.HST_MANSTAT_READY)) ∧
    (s.isSet Reg.HST_MANSTAT_AVAIL = false → Does .freeze s s) ∧
    (∀ seq : BitVec 32,
      (seqMatches seq.toNat s = true → Does (.attach seq) s (((s.wr Reg.HST_STAT_ATTACHED 1).wr Reg.HST_STAT_HOSTLOST 0).raise 0x4007 [s.host.seq])) ∧
      (seqMatches seq.toNat s = false → Does (.attach seq) s (s.flag Reg.HST_ERR_RINGERR) ∧ Does (.discard seq) s (s.flag Reg.HST_ERR_RINGERR)) ∧
      (seqMatches seq.toNat s = true → openLongOps s = [] → Does (.discard seq) s
        ((((s.raise 0x400A [0]).wr Reg.HST_STAT_ATTACHED 1).wr Reg.HST_STAT_HOSTLOST 0).raise 0x4007 [s.host.seq]))) ∧
    (∀ (w r : Fin 4) c m, s.host.perst = false → s.isSet Reg.PWR_STAT_HREFOK = true → uncoreOn s 0 = true → w.val ≠ 0 → r.val ≠ 0 →
      let t := (((s.wr Reg.HST_STAT_WIDTH w.val).wr Reg.HST_STAT_RATE r.val).wr Reg.HST_STAT_CXLC (bit c)).wr Reg.HST_STAT_CXLM (bit m)
      Does (.hostLinkUp w r c m e) s (retryHeld 0 e ((t.wr Reg.HST_STAT_LINKUP 1).raise 0x4001 [w.val, r.val, bit c, bit m])))

/-- A write of REQ is judged: refused with WHY and REFUSED, or queued. Hod starts the first queued transition that may start, and what works on a stack that
leaves ON is suspended; its end brings the domain to the state asked for, and a domain that does not get there is left OFF with event 0x5011. A domain that
may no longer go OFF when it would get there is refused then (the model's choice, log entry 212). A write of FREQ within its range starts a change of the
tile clock, whose end shows FCUR and, while the PMBus works, sets the supply. -/
def Obligations.DomainsAndClocks : Prop :=
  ∀ (s : State) (d : Fin 144) (b : Brick) (e : MemEnv),
    (∀ v : BitVec 2, domMoving s d.val = false → s.power.queue.any (fun x => x.1 = d.val) = false → inLockstep s d.val = false →
      (judge s d.val v.toNat ≠ 0 → Does (.domainRequest d v) s (refuseDomain d.val (judge s d.val v.toNat) s)) ∧
      (judge s d.val v.toNat = 0 → v.toNat ≠ domCur s d.val →
        Does (.domainRequest d v) s { s.wr (Reg.PWR_DOM_REQ d.val) v.toNat with
          power := { s.power with queue := s.power.queue ++ [(d.val, v.toNat)] } })) ∧
    (∀ k v rest, s.power.queue = (k, v) :: rest → mayMove s k = true →
      let q := { s with power := { s.power with queue := rest } }
      (judge q k v ≠ 0 → Does .domainTransitionStart s (refuseDomain k (judge q k v) q)) ∧
      (judge q k v = 0 → v ≠ domCur q k →
        let t := { q with power := { q.power with moving := q.power.moving ++ [(k, v)] } }.wr (Reg.PWR_DOM_BUSY k) 1
        Does .domainTransitionStart s (match domKind k with
          | .stack st => if domCur t k = 3 then holdFor st t else t
          | _ => t) ∧
        Leaves .domainTransitionStart s (fun u => u.power.moving = s.power.moving ++ [(k, v)] ∧ u.power.queue = rest ∧ u.rd (Reg.PWR_DOM_BUSY k) = 1))) ∧
    (∀ v k slow held, s.power.moving.find? (fun x => x.1 = d.val) = some (d.val, v) → (v = 0 ∨ railsUp s d.val = true) →
      let go := fun (s : State) => { s with power := { s.power with moving := s.power.moving.filter (fun x => x.1 ≠ d.val) } }
      let why := if v = 0 then judge (go s) d.val 0 else 0
      (why ≠ 0 → Does (.domainTransitionDone d slow held e) s (startSequence 0 (refuseDomain d.val why (go s)))) ∧
      (why = 0 → domKind d.val = .site b k → Does (.domainTransitionDone d slow held e) s (siteArrives b k v held (go s)) ∧
        (v < 4 → Leaves (.domainTransitionDone d slow held e) s (fun u => domCur u d.val = v ∧ domMoving u d.val = false))) ∧
      (why = 0 → domKind d.val = .uncore b → Does (.domainTransitionDone d slow held e) s (startSequence 0 (if v = 0 then uncoreLeaves b (go s) else
        (if s.start.phase = 3 then uncoreArrives b (go s) else noteReset [kindCycle, 0, b.val] (uncoreArrives b (go s)))))) ∧
      (why = 0 → ∀ st : Stack, domKind d.val = .stack st → (domCur s d.val = 3 → stackQuiet s st = true) →
        Does (.domainTransitionDone d slow held e) s (startSequence 0 (stackArrives st v slow held e (go (memReports e s)))))) ∧
    (domMoving s d.val = true → s.start.phase ≠ 3 → s.start.phase ≠ 4 → Does (.domainFault d e) s (startSequence 0 (faultDomain d.val e s)) ∧
      Leaves (.domainFault d e) s (fun u => u.isSet Reg.PWR_ERR_DOMFLT = true ∧ ∃ x ∈ u.events, x.code = 0x5011 ∧ x.args = [d.val])) ∧
    (∀ f : BitVec 7, 0x30 ≤ f.toNat → f.toNat ≤ 0x78 → Does (.freqWrite b f) s (seekClock b (s.wr (Reg.PWR_DVFS_FREQ b) f.toNat))) ∧
    (∀ f : BitVec 7, (f.toNat < 0x30 ∨ 0x78 < f.toNat) → Does (.freqWrite b f) s s) ∧
    (s.isSet (Reg.PWR_DVFS_CHG b) = true →
      let t := (s.wr (Reg.PWR_DVFS_FCUR b) (clockWanted s b)).wr (Reg.PWR_DVFS_CHG b) 0
      (s.hod.busFailed.contains 0 = true → Does (.tileClockSwitchDone b) s t) ∧
      (s.hod.busFailed.contains 0 = false →
        let mv := Config.vfVolt b.val (clockWanted s b)
        Does (.tileClockSwitchDone b) s (pmbusWrite b.val 0x21 (leBytes 2 mv) { t with hod := { t.hod with vset := t.hod.vset.set b.val mv } })))

/-- Each reset leaves the state its rule gives and raises event 0x5102 with its kind; a supply or a reference clock that is lost or comes back does what
its rule says. -/
def Obligations.ResetsAndSupplies : Prop :=
  ∀ (s : State) (b : Brick) (e : MemEnv),
    Does (.powerOn none) s ({ coldState false s with now := 0, plumb := 0 }.raise 0x5102 [kindPowerOn, 0]) ∧
    (∀ f : Factory, Leaves (.powerOn (some f)) s (fun u => u.hod.sheet = f.sheet ∧ u.hod.bankA = f.bankA ∧ u.hod.bankB = f.bankB ∧ u.hod.fuses = f.fuses ∧
      u.hod.boot = f.boot ∧ u.hod.running = false ∧ u.now = 0 ∧ u.plumb = 0 ∧ u.sealed = false ∧ lastEvent u 0x5102 [kindPowerOn, 0])) ∧
    (s.start.rstLow = false → s.isSet Reg.PLB_STAT_ALIGNED = false → Does .coldReset s ((coldState true (lowerRails s)).raise 0x5102 [kindCold, 0])) ∧
    (s.start.rstLow = false → s.isSet Reg.PLB_STAT_ALIGNED = true →
      Does .coldReset s (((coldState true (lowerRails s)).raise 0x7004 [3]).raise 0x5102 [kindCold, 0])) ∧
    (s.start.aon = true → s.start.rstLow = true →
      Does .coldResetRelease s (((({ s with start := { s.start with rstLow := false, releasedAt := s.now, phase := 1 } }).wr
        Reg.PWR_STAT_AONLOCK 1).wr Reg.PWR_STAT_HREFOK 1).wr Reg.PWR_STAT_MREFOK 1)) ∧
    (s.start.mainGood = true → Leaves .mainPowerLoss s (fun t => lastEvent t 0x5102 [kindMainLoss, 0] ∧ t.start.mainGood = false ∧ t.start.mainLost = true)) ∧
    (∀ bad, Does (.mainPwrgdRise bad) s (startSequence bad { s with start := { s.start with mainGood := true } }) ∧
      Leaves (.mainPwrgdRise bad) s (fun u => u.start.mainGood = true)) ∧
    (s.start.phase = 2 → s.start.mainGood = false → Does .mainPwrgdTimeout s (s.raise 0x5103 [7, 0])) ∧
    Does .perstDeassert s { s with host := { s.host with perst := false } } ∧
    (s.safety.resets.contains b.val = false → Does (.breset b) s { s with safety := { s.safety with resets := s.safety.resets ++ [b.val] } }) ∧
    (∀ rest, s.safety.resets.filter (fun x => uncoreOn s (brickOf x)) = b.val :: rest → hodActs s = true → s.isSet Reg.SAF_STAT_PSAFE = false →
      Does (.brickWarmReset b e) s (warmReset b 0 e (memReports e { s with safety := { s.safety with resets := rest } })) ∧
      Leaves (.brickWarmReset b e) s (fun u => lastEvent u 0x5102 [kindWarm, 0, b.val])) ∧
    (s.power.moving.contains (132 + b.val, 3) = true → s.start.phase ≠ 3 → railsUp s (132 + b.val) = true →
      let u := uncoreArrives b { s with power := { s.power with moving := s.power.moving.filter (fun x => x.1 ≠ 132 + b.val) } }
      Does (.brickPowerCycle b) s ({ u with sealLogged := [] }.raise 0x5102 [kindCycle, 0, b.val])) ∧
    (s.isSet Reg.PWR_STAT_MREFOK = true → Does (.referenceClockLoss 0 e) s
      ((slowClocks (portsLose ((((memReports e s).wr Reg.PWR_STAT_MREFOK 0).flag Reg.PWR_ERR_CLKLOSS).wr Reg.PWR_STAT_TPLL 0))).raise 0x5052 [0])) ∧
    (s.isSet Reg.PWR_STAT_HREFOK = true → Does (.referenceClockLoss 1 e) s
      ((hostLoss 2 e (((memReports e s).wr Reg.PWR_STAT_HREFOK 0).flag Reg.PWR_ERR_CLKLOSS)).raise 0x5052 [1])) ∧
    (s.isSet Reg.PWR_STAT_AONLOCK = true → Does (.referenceClockLoss 2 e) s
      ((loseAlignment 2 (enterPackageSafe 1 e (((memReports e s).wr Reg.PWR_STAT_AONLOCK 0).flag Reg.PWR_ERR_CLKLOSS))).raise 0x5052 [2])) ∧
    (s.isSet Reg.PWR_STAT_MREFOK = false → s.start.aon = true → s.start.rstLow = false →
      let t := s.wr Reg.PWR_STAT_MREFOK 1
      let u := t.wr Reg.PWR_STAT_TPLL (t.rd Reg.PWR_STAT_UNCON)
      Does (.referenceClockRestored 0) s ((u.each (List.finRange 24) (fun s p =>
        if s.portState p = 9 && !(s.link (.port p)).training.failed then startTraining p (s.isSet (Reg.MRT_PCTL_FASTOK p)) s else s)).raise 0x5053 [0])) ∧
    (s.start.aon = true → s.start.rstLow = false → Does (.referenceClockRestored 1) s (s.wr Reg.PWR_STAT_HREFOK 1))

/-- With RECOV_N low, or with no valid bank, the boot ROM enters recovery; otherwise it runs the image, whose first work is the persistent state, the
modules and the power-on sequence. Fabric ready follows once every used port has resolved. -/
def Obligations.BootAndReady : Prop :=
  ∀ (s : State) (m : Modules) (bad : BitVec 8),
    (s.start.phase = 1 → s.start.rstLow = false → s.start.aon = true → s.start.recovery = false →
      Does (.bootRom true m bad) s (enterRecovery s) ∧
      Leaves (.bootRom true m bad) s (fun u => u.start.recovery = true ∧ u.rd Reg.HOD_STAT_RECOV = 1 ∧ u.out = s.out ++ [.pin "TRAY_INT_N" 0]) ∧
      Does (.bootRom false m bad) s (match bootImage s with
        | none => enterRecovery s
        | some t =>
          let u := readModules m (loadPersistent { t with hod := { t.hod with logSeq := max t.hod.logSeq (nextLogSeq t.hod.norLog) } })
          startSequence bad { u with start := { u.start with phase := 2 } })) ∧
    (∀ img, s.start.recovery = true → Does (.recovery img) s (if imageStatus s img = 0 then { s with hod := { s.hod with bankA := img } } else s)) ∧
    (∀ img, imageStatus s img ≠ 0 → Does (.recovery img) s s) ∧
    (let used := (List.finRange 24).filter (fun (p : Port) => match s.sheetRec p with
      | some r => recRole r ≠ 0
      | none => false)
     s.start.phase = 5 → (∀ p ∈ used, portResolved s p = true) →
      let active := (used.filter (fun p => s.portState p = 8)).length
      Leaves .fabricReady s (fun t => t.start.phase = 6 ∧ t.mem = s.mem ∧
        ∃ u : State, Does .fabricReady s (u.raise 0x5101 [s.start.cleared.foldl (fun m n => Nat.lor m (2 ^ n)) 0, u.rd Reg.PWR_STAT_UNCON,
          s.start.failed.foldl (fun m n => Nat.lor m (2 ^ n)) 0]) ∧ lastEvent u 0x1301 [active, used.length - active, s.now - s.start.releasedAt]))

/-- A visit that has lasted its time ends with the verified point of its tile and the next begins; a unit joins it, and a mismatch of a joined unit ends it:
it fences the tile, poisons the bonds suspected and raises event 0x6001. FENCE, UNFENCE and STEST act while no test runs; a test that ends shows its result, and
a site that failed is kept failed and retired: RETIRE takes it where it holds none, and event 0x5055 reports another one there. -/
def Obligations.ShadowAndTests : Prop :=
  ∀ (s : State) (b : Brick),
    (visiting s b = true →
      (visitRuns s b = false → Does (.shadowVisitEnd b) s (rotation b (endVisit b s))) ∧
      (∀ u : Fin 4, Does (.shadowJoin b u) s
        (({ s with safety := { s.safety with joined := tabPut s.safety.joined b.val (Nat.lor (joinedUnits s b) (2 ^ u.val)) } }).wr (Reg.SAF_BSTAT_SHON b) 1)) ∧
      (∀ u : Fin 5, u.val ≠ 4 → bitOf (joinedUnits s b) u.val = true →
        let t := visited s b
        let m := (s.count (Reg.SAF_CNT0_MISMATCH b) 1).raise 0x6001 [b.val, t.val, siteOf s t, shadowSite s b, u.val, s.rd (Reg.SAF_VP_VP b (t.val % 32))]
        Does (.shadowMismatch b u) s (rotation b (leaveVisit b (askTest (siteDom b (siteOf m t)) true (fenceTile t 0x1 (poisonBonds t 0x03 (suspectBonds m t) m)))))) ∧
      (∀ u : Fin 5, bitOf (joinedUnits s b) u.val = false → u.val ≠ 4 → Does (.shadowMismatch b u) s s)) ∧
    (∀ p, Does (.rotationPause b p) s (writePause b p s)) ∧
    (testing s b = false →
      (∀ k : Fin 32, visiting s b = false → Does (.fence b k) s (fenceTile (brickTile b k.val) 0x6 s)) ∧
      (∀ k : Fin 32, siteState s (brickTile b k.val) = 0 → s.safety.failed.contains (siteDomain s (brickTile b k.val)) = false →
        Does (.unfence b k) s (s.wr (Reg.SAF_FENCED_FENCED b) (withBits (s.rd (Reg.SAF_FENCED_FENCED b)) (k.val % 32) (k.val % 32) 0))) ∧
      (∀ site : Fin 64, site.val ≤ 32 → domCur s (siteDom b site.val) = 0 → domMoving s (siteDom b site.val) = false →
        s.rd (Reg.PWR_SITEMAP_RETIRE b) ≠ site.val → Does (.stest b site) s (beginTest b site.val s)) ∧
      (∀ d, s.safety.toTest.find? (fun x => x.1 / 33 = b.val) = some (d, false) → domMoving s d = false → domCur s d = 0 →
        Does (.autotestStart b) s (beginTest b (d % 33) { s with safety := { s.safety with toTest := s.safety.toTest.filter (fun x => x.1 ≠ d) } }))) ∧
    (testing s b = true →
      (∀ (k : Fin 32) (site : Fin 64), Does (.fence b k) s s ∧ Does (.unfence b k) s s ∧ Does (.stest b site) s s) ∧
      (∀ f : BitVec 5, f ≠ 0 → siteTile s b (s.rd (Reg.SAF_STRES_SITE b)) = none →
        let site := s.rd (Reg.SAF_STRES_SITE b)
        let t := ((((s.wr (Reg.SAF_STRES_BUSY b) 0).flag (Reg.SAF_STRES_DONE b)).wr (Reg.SAF_STRES_PASS b) 0).wr (Reg.SAF_STRES_FAIL b) f.toNat).raise
          0x6003 [b.val, site, 0, f.toNat]
        let u := { t with safety := { t.safety with auto := t.safety.auto.filter (fun x => x ≠ b.val), failed := insertNum t.safety.failed (siteDom b site) } }
        siteTile u b site = none →
        (u.rd (Reg.PWR_SITEMAP_RETIRE b) = 0x3F → Does (.siteTestDone b f) s (rotation b
          ((({ u with hod := { u.hod with retire := u.hod.retire.set b.val site } }.wr (Reg.PWR_SITEMAP_RETIRE b) site).flag Reg.PWR_ERR_RETIRE).raise
            0x600D [b.val, site]))) ∧
        (u.rd (Reg.PWR_SITEMAP_RETIRE b) = site → u.rd (Reg.PWR_SITEMAP_RETIRE b) ≠ 0x3F → Does (.siteTestDone b f) s (rotation b u)) ∧
        (u.rd (Reg.PWR_SITEMAP_RETIRE b) ≠ 0x3F → u.rd (Reg.PWR_SITEMAP_RETIRE b) ≠ site →
          Does (.siteTestDone b f) s (rotation b (u.raise 0x5055 [b.val, site])))) ∧
      (let site := s.rd (Reg.SAF_STRES_SITE b)
       let t := ((((s.wr (Reg.SAF_STRES_BUSY b) 0).flag (Reg.SAF_STRES_DONE b)).wr (Reg.SAF_STRES_PASS b) 1).wr (Reg.SAF_STRES_FAIL b) 0).raise
        0x6003 [b.val, site, 1, 0]
       let u := { t with safety := { t.safety with auto := t.safety.auto.filter (fun x => x ≠ b.val) } }
       t.safety.auto.contains b.val = false → site ≠ shadowSite u b → Does (.siteTestDone b 0) s (rotation b u)))

/-- A brick that is not in a safe state, with its uncore ON, enters its safe state: links down, tiles fenced, BSAFE and event 0x6007; a second one brings
the package's, with PSAFE, TRAY_INT_N and event 0x6009. With AUTOBR and the cause over Hod warm-resets the brick; a cause that lasts 1 s escalates. -/
def Obligations.SafeStates : Prop :=
  ∀ (s : State) (b : Brick) (e : MemEnv),
    (∀ c : Fin 5, Does (.brickSafeState b c e) s (enterBrickSafe b (c.val + 1) e (memReports e s))) ∧
    (∀ c : Fin 4, Does (.packageSafeState c e) s (enterPackageSafe (c.val + 1) e (memReports e s))) ∧
    (s.isSet (Reg.SAF_BSTAT_SAFE b) = true → s.isSet Reg.SAF_STAT_PSAFE = false → s.isSet Reg.SAF_CTL_AUTOBR = true → causeCleared s b = true → hodActs s = true →
      Does (.autoBrickReset b e) s ((warmReset b 1 e (memReports e s)).raise 0x6008 [b.val])) ∧
    (s.isSet (Reg.SAF_BSTAT_SAFE b) = true → causeCleared s b = false → tabGet 0 s.safety.safeAt b.val + 1000000000 ≤ s.now →
      Does (.brickSafeEscalate b e) s (enterPackageSafe 4 e (memReports e s))) ∧
    (∀ c, brickSafe s b = false → uncoreOn s b = true →
      (enterBrickSafe b c e s).isSet (Reg.SAF_BSTAT_SAFE b) = true ∧ (enterBrickSafe b c e s).isSet Reg.SAF_ERR_BSAFE = true ∧
      ∃ x ∈ (enterBrickSafe b c e s).events, x.code = 0x6007 ∧ x.args = [b.val, c]) ∧
    (∀ c, s.isSet Reg.SAF_STAT_PSAFE = true → enterBrickSafe b c e s = s ∧ enterPackageSafe c e s = s) ∧
    (∀ c, s.isSet Reg.SAF_STAT_PSAFE = false →
      lastEvent (enterPackageSafe c e s) 0x6009 [c] ∧ (enterPackageSafe c e s).isSet Reg.SAF_STAT_PSAFE = true ∧
      (enterPackageSafe c e s).out.getLast? = some (.pin "TRAY_INT_N" 0))

/-- Hod takes up a command while an image runs, no restart is in progress and no command runs; each does what its rule gives, and any is refused with
BUSY. A watchdog or an activation restarts Hod, and the restart ends with the image that the boot ROM chooses. -/
def Obligations.HodCommands : Prop :=
  ∀ (s : State), hodActs s = true →
    (s.isSet Reg.HOD_CSTAT_BUSY = false →
      Does .seal s (hodDone (sealPackage s)) ∧
      Does .restart s (hodDone { s with hod := { s.hod with restart := some 0 } }) ∧
      Does .clrswap s (hodDone { s with hod := { s.hod with swap := false, swapSince := none } }) ∧
      Does .activate s (if activateStatus s = 0 then (hodDone { s with hod := { s.hod with
        boot := { bank := 1 - s.hod.boot.bank, trial := true, tries := 0 }, restart := some 2 } }).wr Reg.HOD_STAT_STAGED 0
        else hodRefuse (activateStatus s) s) ∧
      (s.sealed = true → Does .bsload s ((hodRefuse 0x02 s).raise 0x5008 [0, 0x02])) ∧
      (let a := s.rd Reg.HOD_CARG_ADDR
       s.sealed = false → addrSeat a = 0xFFFF → addrRegion a ≤ 8 → Does .bsload s (({ s with hod := { s.hod with
        bsBusy := true, bsPieces := loadsOf 15 a 1216, bsWaiting := false, bsGot := [], bsFail := false } }).wr Reg.HOD_CSTAT_BUSY 1))) ∧
    (s.isSet Reg.HOD_CSTAT_BUSY = true →
      Does .seal s (hodRefuse 0x08 s) ∧ Does .restart s (hodRefuse 0x08 s) ∧ Does .clrswap s (hodRefuse 0x08 s) ∧ Does .activate s (hodRefuse 0x08 s) ∧
      Does .bsload s (hodRefuse 0x08 s)) ∧
    (s.hod.boot.trial = false → Does .watchdogExpiry s { s with hod := { s.hod with restart := some 1 } }) ∧
    (s.hod.boot.trial = true →
      Does .watchdogExpiry s { trialFails s with hod := { (trialFails s).hod with restart := some 1 } } ∧
      Does .trialTimeout s { trialFails s with hod := { (trialFails s).hod with restart := some 2 } } ∧
      (let img := bankImage s s.hod.boot.bank
       let t := ({ s with hod := { s.hod with boot := { s.hod.boot with trial := false, tries := 0 } } }.wr Reg.HOD_STAT_TRIAL 0).raise 0x5003 [imageVersion img]
       (imageSvn img ≤ s.hod.fuses.counter → Does .imageCommit s t) ∧
       (s.hod.fuses.counter < imageSvn img → Does .imageCommit s
        (({ t with hod := { t.hod with fuses := { t.hod.fuses with counter := imageSvn img } } }.wr Reg.HOD_STAT_FUSECTR (imageSvn img)).raise 0x5005 [imageSvn img])))) ∧
    (∀ c (r : State), r.hod.restart = some c →
      let t := hodCoreReset { r with hod := { r.hod with restart := none } }
      Does .hodRestartComplete r (match bootImage t with
        | some u => startSequence 0 (let v := noteReset [kindHod, c] u
          if c = 1 then v.raise 0x5054 [] else v)
        | none => enterRecovery { t with hod := { t.hod with running := false } }))

/-- The oldest event raised becomes a record of the RAM ring, and is queued for the NOR where its class is persisted and the bucket lets it; a persisted
record is written in its place of the NOR ring; drops are reported once a second; a fetch shows a record, VALID where the NOR still holds it. -/
def Obligations.HodLog : Prop :=
  ∀ (s : State), hodActs s = true →
    (∀ (x : Event) rest, s.events = x :: rest →
      let t := fillBucket (eventToHost x.code x.time.toNat ((argBytes x.code x.args).take 16) x.quiet { s with events := rest })
      (persists t x.code = false → Does .eventLog s (ramRecord (logRecord x t.hod.logSeq false) t)) ∧
      (persists t x.code = true → 10 ^ 9 ≤ t.hod.bucket → t.hod.norFail = false →
        let r := logRecord x t.hod.logSeq true
        let u := ramRecord r t
        Does .eventLog s { u with hod := { u.hod with bucket := u.hod.bucket - 10 ^ 9, persistQ := u.hod.persistQ ++ [r] } })) ∧
    (∀ x rest, s.hod.persistQ = x :: rest →
      Does (.logPersist true) s (({ s with hod := { s.hod with
        norFail := false, persistQ := rest, norLog := tabPut s.hod.norLog (numAt x 8 4 % 524288) x } }).wr Reg.HOD_LOGSTAT_NORSEQ (numAt x 8 4)) ∧
      Does (.logPersist false) s (({ s with hod := { s.hod with norFail := true } }).flag Reg.HOD_ERR_NORFAIL)) ∧
    ((∃ n ∈ s.hod.dropped, n ≠ 0) → s.hod.dropRepAt = 0 →
      let r := logRecord { code := 0x5010, args := s.hod.dropped, time := s.plumb, aligned := s.isSet Reg.PLB_STAT_ALIGNED } s.hod.logSeq true
      let u := ramRecord r (eventToHost 0x5010 s.plumb.toNat ((argBytes 0x5010 s.hod.dropped).take 16) false s)
      Does .logDropReport s { u with hod := { u.hod with dropped := List.replicate 16 0, dropRepAt := u.now, persistQ := u.hod.persistQ ++ [r] } }) ∧
    (∀ seq : BitVec 32,
      (tabFind s.hod.norLog (seq.toNat % 524288) = none → Does (.logFetch seq) s ((s.wr Reg.HOD_LOGRD_SEQ seq.toNat).wr Reg.HOD_LOGRD_VALID 0)) ∧
      (∀ x, tabFind s.hod.norLog (seq.toNat % 524288) = some x → numAt x 8 4 = seq.toNat → crc32c (x.take 60) = numAt x 60 4 →
        Does (.logFetch seq) s (((s.wr Reg.HOD_LOGRD_SEQ seq.toNat).wr Reg.HOD_LOGRD_VALID 1).each (List.range 8)
          (fun s i => s.wr (Reg.HOD_LOGREC_DATA i) (numAt x (8 * i) 8)))))

/-- A sensor's sample is shown and judged; a stack above 105 °C slows its brick and one above 110 °C for 1 ms takes it to its safe state; a leak asserts
THERMTRIP_N; an overcurrent stops clocks until Hod restarts them; a regulator that fails brings its domains down. Every millisecond Hod shows the
package's power and its grant, which is the least of the caps, of what the cold plate carries and of what the inlet temperature allows; the bricks'
grants are shown too, and an OFF brick has none. -/
def Obligations.SensorsAndGrant : Prop :=
  (∀ (s : State) (e : MemEnv),
     (∀ i (x : BitVec 16), i < 212 → sensorPowered s i = true → implausible x.toInt = false → s.rd (Reg.HOD_TEMP_STATE i) = 0 → s.hod.alerts = [] → s.hod.warm = [] →
       s.hod.trips = [] → Leaves (.sensorSample [(i, x)] []) s (fun t =>
         t.rd (Reg.HOD_TEMP_T i) = x.toNat ∧ t.rd (Reg.HOD_TEMP_STATE i) = 0 ∧ t.hod.alerts = [] ∧ t.hod.trips = (if 1840 ≤ x.toInt then [i] else []) ∧
         t.hod.warm = (if 1600 ≤ x.toInt then [i] else []) ∧ t.events = s.events ∧ t.out = s.out ∧ t.mem = s.mem ∧ t.bricks = s.bricks ∧ t.tiles = s.tiles)) ∧
     (∀ (st : Stack) (x : BitVec 16), hodActs s = true → domCur s (136 + st.val) ≠ 0 → 1680 < x.toInt → x.toInt ≤ 1760 → s.hod.hotStacks.contains st.val = false →
       let r := if stackOn s st then reportBand st x s else s
       let t := setFmax (stackBrick st) 0x30 (({ r with hod := { r.hod with hotStacks := insertNum r.hod.hotStacks st.val } }).raise
         0x5033 [st.val, wrapNat 16 x.toInt])
       Does (.stackTempRead st x e) s { t with hod := { t.hod with stackHot := tabErase t.hod.stackHot st.val } }) ∧
     (∀ (st : Stack) (x : BitVec 16) since, hodActs s = true → domCur s (136 + st.val) = 3 → 1760 < x.toInt → s.hod.hotStacks.contains st.val = true →
       tabFind s.hod.stackHot st.val = some since → since + 10 ^ 6 ≤ s.now →
       let r := reportBand st x s
       Does (.stackTempRead st x e) s (enterBrickSafe (stackBrick st) 4 e (requestDomain (136 + st.val) 1
         { r with hod := { r.hod with stackHot := tabPut r.hod.stackHot st.val since } }))) ∧
     (∀ i o : BitVec 16, hodActs s = true → s.hod.busFailed.contains 1 = false → s.hod.swap = false → i.toInt ≤ 720 → i.toInt ≤ o.toInt →
       let t := (s.wr Reg.HOD_THERM_TIN i.toNat).wr Reg.HOD_THERM_TOUT o.toNat
       Does (.coolantRead (some i) (some o)) s { t with hod := { t.hod with coolantBad := false, coolantRead := true, swapSince := none } }) ∧
     Does .leak s (((s.flag Reg.HOD_ERR_LEAK).emit (.pin "THERMTRIP_N" 0)).raise 0x5036 []) ∧
     (∀ (d : Fin 145) (mv : BitVec 16) (b : Brick), domKind d.val = .uncore b → Does (.voltageOutOfWindow d mv e) s (enterBrickSafe b 1 e
       ((((s.wr (Reg.HOD_VMON_OUT d) 1).wr (Reg.HOD_VMON_MV d) mv.toNat).flag Reg.HOD_ERR_VMON).raise 0x5043 [d.val, mv.toNat]))) ∧
     (∀ (g : Fin 8) (a : BitVec 16), 4 ≤ g.val → Leaves (.overcurrent g a e) s (fun t => ∀ b : Brick, t.power.stopped.contains b.val = true ∧ t.rd (Reg.PWR_DVFS_FMAX b) = 0x30)) ∧
     (∀ b : Brick, hodActs s = true → (tabFind s.hod.ocAt b.val).isSome = true → Does (.overcurrentClockRestart b) s
       { s with hod := { s.hod with ocAt := tabErase s.hod.ocAt b.val }, power := { s.power with stopped := s.power.stopped.filter (fun x => x ≠ b.val) } }) ∧
     (∀ (g : Fin 8), hodActs s = true → s.hod.busFailed.contains 0 = false →
       (∀ st : BitVec 16,
         let t := (s.wr (Reg.HOD_RAIL_STATUS g) st.toNat).raise 0x5041 [g.val, st.toNat]
         Does (.pmbAlert g st none false e) s (pmbusWrite g.val 0x03 [] t) ∧
         Does (.pmbAlert g st none true e) s (pmbusWrite g.val 0x03 [] (regulatorFault g.val e t)) ∧
         ∀ p, let n := t.rd (Reg.HOD_RAIL_PHOK g) - 1
           let u := pmbusWrite g.val (numAt (railRecord t g.val) 3 1) (leBytes 1 p) t
           Does (.pmbAlert g st (some p) false e) s (pmbusWrite g.val 0x03 []
             (((u.wr (Reg.HOD_RAIL_PHOK g) n).flag Reg.HOD_ERR_PHASE).raise 0x5042 [g.val, p, n]))) ∧
       (∀ v i : BitVec 16, Does (.telemetryPoll g v i) s ((s.wr (Reg.HOD_RAIL_VOUT g) v.toNat).wr (Reg.HOD_RAIL_IOUT g) i.toNat)))) ∧
  (∀ (s : State) (meas : List (BitVec 16)) (other : BitVec 16), hodActs s = true →
     let m := fun b => (meas.getD b 0).toNat
     let total := m 0 + m 1 + m 2 + m 3 + other.toNat
     let p := packageGrant (min (s.rd Reg.HOD_PCAP_PCAP) (s.rd Reg.HOD_PCAP_TRAYCAP)) s.hod.coldPlateOk (grantTin s)
     Leaves (.grantCompute meas other) s (fun t =>
       t.rd Reg.PWR_PKG_MEAS = total % 2 ^ (Reg.PWR_PKG_MEAS.hi + 1 - Reg.PWR_PKG_MEAS.lo) ∧
       t.rd Reg.PWR_PKG_GRANT = watts p % 2 ^ (Reg.PWR_PKG_GRANT.hi + 1 - Reg.PWR_PKG_GRANT.lo) ∧
       (∀ b : Brick, uncoreOn s b = false → t.rd (grantField b) = 0) ∧ t.mem = s.mem ∧ t.hod.boot = s.hod.boot))

/-- A bus that is pulsed free works again with event 0x5050; one whose SCL is held low, or that stays stuck, has failed with event 0x5051 until a retry succeeds,
and a module bus that stays stuck has MOD_RST_N pulsed first. Hod answers each SPDM request in its order with the
fields R798 gives: the version begins an exchange, capabilities and algorithms follow, then digests, certificates, a challenge and measurements. -/
def Obligations.SidebandAndSpdm : Prop :=
  ∀ (s : State) (req : Bytes) (bus : Fin 7), hodActs s = true →
    (let free := fun (s : State) => { s with hod := { s.hod with busFailed := s.hod.busFailed.filter (fun x => x ≠ bus.val) } }
     let fail := fun (s : State) => (({ s with hod := { s.hod with busFailed := insertNum s.hod.busFailed bus.val } }).flag Reg.HOD_ERR_BUSFAIL).raise 0x5051 [bus.val]
     let faults := fun (s : State) => s.each ((List.finRange 24).filter (fun p => moduleBus p = bus.val)) (fun s p => s.onLink (.port p) (fun L => { L with laneFault := 0 }))
     let pulse := fun (s : State) => (s.emit (.pin ("MOD_RST_N" ++ toString (bus.val - 3)) 0)).emit (.pin ("MOD_RST_N" ++ toString (bus.val - 3)) 1)
     ((bus.val ≠ 0 ∨ s.hod.busFailed.contains 0 = false) → Does (.busRecovery bus .pulses) s ((free s).raise 0x5050 [bus.val])) ∧
     (bus.val = 0 → s.hod.busFailed.contains 0 = true → Does (.busRecovery bus .pulses) s ((resumeVolts (free s)).raise 0x5050 [0]) ∧
       Does (.busRetry bus true) s (resumeVolts (free s))) ∧
     Does (.busRecovery bus .sclLow) s (fail (faults s)) ∧
     (bus.val < 3 → Does (.busRecovery bus .stuck) s (fail (faults s)) ∧ Does (.busRecovery bus .moduleReset) s (fail (faults s))) ∧
     (3 ≤ bus.val → Does (.busRecovery bus .moduleReset) s ((free (pulse s)).raise 0x5050 [bus.val]) ∧ Does (.busRecovery bus .stuck) s (fail (faults (pulse s)))) ∧
     (bus.val ≠ 0 → s.hod.busFailed.contains bus.val = true → Does (.busRetry bus true) s (free s))) ∧
    (numAt req 1 1 = 0x84 → ∃ rsp, numAt rsp 1 1 = 0x04 ∧ numAt rsp 6 2 = 0x1300 ∧
      Does (.getVersion req) s (spdmSend rsp { s with hod := { s.hod with spdm := { version := true, vca := req ++ rsp } } })) ∧
    (numAt req 0 1 = 0x13 →
      (numAt req 1 1 = 0xE1 → s.hod.spdm.version = true → s.hod.spdm.caps = false → ∃ rsp, numAt rsp 1 1 = 0x61 ∧ numAt rsp 12 4 = 4096 ∧
        Does (.getCapabilities req) s (spdmSend rsp { s with hod := { s.hod with spdm := { s.hod.spdm with caps := true, vca := s.hod.spdm.vca ++ req ++ rsp } } })) ∧
      (numAt req 1 1 = 0xE3 → bitOf (numAt req 8 4) 7 = true → bitOf (numAt req 12 4) 1 = true → s.hod.spdm.caps = true → s.hod.spdm.algs = false →
        ∃ rsp, numAt rsp 1 1 = 0x63 ∧ numAt rsp 12 4 = 0x80 ∧ numAt rsp 16 4 = 2 ∧
        Does (.negotiateAlgorithms req) s (spdmSend rsp { s with hod := { s.hod with spdm := { s.hod.spdm with algs := true, vca := s.hod.spdm.vca ++ req ++ rsp } } })) ∧
      (s.hod.spdm.algs = true →
        (numAt req 1 1 = 0x81 → ∃ rsp, numAt rsp 1 1 = 0x01 ∧ rsp.drop 4 = chainDigest ∧
          Does (.getDigests req) s (spdmSend rsp { s with hod := { s.hod with spdm := { s.hod.spdm with certs := s.hod.spdm.certs ++ req ++ rsp } } })) ∧
        (numAt req 1 1 = 0x82 → numAt req 2 1 = 0 → numAt req 4 2 ≤ Config.certChain.length →
          ∃ rsp, numAt rsp 1 1 = 0x02 ∧ rsp.drop 8 = (Config.certChain.drop (numAt req 4 2)).take (min (min (numAt req 6 2) (Config.certChain.length - numAt req 4 2)) 4088) ∧
          Does (.getCertificate req) s (spdmSend rsp { s with hod := { s.hod with spdm := { s.hod.spdm with certs := s.hod.spdm.certs ++ req ++ rsp } } })) ∧
        (numAt req 1 1 = 0x83 → numAt req 2 1 = 0 → ∃ rsp, numAt rsp 1 1 = 0x03 ∧ (rsp.drop 4).take chainDigest.length = chainDigest ∧
          Does (.challenge req) s (spdmSend rsp (spdmNonce s).2)) ∧
        (numAt req 1 1 = 0xE0 → numAt req 3 1 = 0 → bitOf (numAt req 2 1) 0 = false → ∃ rsp, numAt rsp 1 1 = 0x60 ∧ numAt rsp 2 1 = 6 ∧
          Does (.getMeasurements req) s (spdmSend rsp { (spdmNonce s).2 with hod := { s.hod with spdm := { s.hod.spdm with measured := s.hod.spdm.measured ++ req ++ rsp } } }))))

/-- A measured interval sets THETA and steers the rate; holdover past its limit loses alignment. At a sampler instant the selected tiles are latched. A
ring is enabled where its base and indices allow, CONS moves only within what is held, and records are stored in order. A pull latches and stores its
tiles. A PC sample, a loss marker and a drop report are made where they are due, and CLR clears every counter of a tile. -/
def Obligations.Observation : Prop :=
  ∀ (s : State) (b : Brick) (tr : Bool) (t : Tile),
    (following s = false → s.isSet Reg.PLB_STAT_HOLD = false → s.observe.asked = [] →
      Does .syncInterval s ({ s with observe := { s.observe with asked := (measuredPorts s).map (fun (p : Port) => p.val) } }.each (measuredPorts s) (fun s p => askTimes p s))) ∧
    (∀ p : Port, following s = true → s.rd Reg.PLB_CTL_UPPORT = p.val → s.portState p = 8 → s.observe.asked = [p.val] → 0 < (s.link (.port p)).training.exchanges →
      let T := (s.link (.port p)).training
      let u := measured T.theta (recordTheta p T.theta T.rtt s)
      Does .syncInterval s ({ u with observe := { u.observe with asked := (measuredPorts u).map (fun (p : Port) => p.val) } }.each (measuredPorts u) (fun s p => askTimes p s))) ∧
    (s.isSet Reg.PLB_STAT_HOLD = true → s.isSet Reg.PLB_CTL_ROOT = false → s.observe.holdAt + s.rd Reg.PLB_CTL_HOLDMAX * 10 ^ 9 < s.now → Does .holdoverLimit s (loseAlignment 1 s)) ∧
    (s.isSet (Reg.OBS_SMP_EN b) = true → atMultiple s (s.rd (Reg.OBS_SMP_INTV b)) = true → Does (.samplerInstant b) s (s.each (sampledTiles s b) (sampleTile b))) ∧
    (ringBaseOk s tr b = true → ringHeld s tr b ≤ ringBytes s tr b → Does (.ringEnable b tr) s (s.flag (ringEn tr b))) ∧
    ((ringBaseOk s tr b = false ∨ ringBytes s tr b < ringHeld s tr b) → Does (.ringEnable b tr) s ((s.wr (ringEn tr b) 0).flag (Reg.OBS_ERR_CFG b))) ∧
    (∀ v : Word, s.reg (ringCons tr b) ≤ v.toNat → v.toNat ≤ s.reg (ringProd tr b) → Does (.consWrite b tr v) s (s.setReg (ringCons tr b) v.toNat)) ∧
    (∀ v : Word, (v.toNat < s.reg (ringCons tr b) ∨ s.reg (ringProd tr b) < v.toNat) → Does (.consWrite b tr v) s s) ∧
    (∀ r rest, s.results.find? (fun x => x.issuer = .ring b.val) = none → (s.brick b).ringStore = none → (s.brick b).obsBuf = r :: rest →
      s.isSet (ringEn r.trace b) = true →
      Does (.ringRecordWrite b) s (advanceRing b (beginRecord b r (s.onBrick b (fun B => { B with obsBuf := rest })))) ∧
      (let size := ringBytes s r.trace b
       let off := s.reg (ringProd r.trace b) % size
       off + r.data.length ≤ size → ringHeld s r.trace b + r.data.length ≤ size → r.data ≠ [] →
       Leaves (.ringRecordWrite b) s (fun u => (u.brick b).obsBuf = rest ∧ ∃ op more, storesOf 13 (s.reg (ringBase r.trace b) + off) r.data = op :: more ∧
        (u.brick b).ringStore = some { trace := r.trace, size := r.data.length, tile := r.tile, pieces := more, waiting := true }))) ∧
    (let a := s.reg Reg.OBS_PADDR
     s.isSet Reg.OBS_PST_BUSY = false → addrSeat a = 0xFFFF → addrRegion a ≤ 8 →
      let u := (s.wr Reg.OBS_PST_STATUS 0).wr Reg.OBS_PST_COUNT 0
      let ts := pulledTiles u
      Does .pull s ({ u with observe := { u.observe with pull := some {
        left := ts.map (fun t => sampleBytes u t u.plumb.toNat 0 (u.reg Reg.OBS_PCM) 0 true), addr := u.reg Reg.OBS_PADDR,
        tiles := ts.map (fun (t : Tile) => t.val) } } }.wr Reg.OBS_PST_BUSY 1)) ∧
    (∀ p, s.results.find? (fun x => x.issuer = .pull) = none → s.observe.pull = some p → p.left = [] → p.pieces = [] → p.waiting = false →
      Does .pullDone s (({ s with observe := { s.observe with pull := none } }.wr Reg.OBS_PST_BUSY 0).flag Reg.OBS_PST_DONE)) ∧
    (s.isSet (Reg.OBS_TILE_PCEN t) = true → siteState s t = 3 → tileFenced s t = false →
      (s.isSet (Reg.OBS_TILE_PCJIT t) = true ∨ atMultiple s (s.rd (Reg.OBS_TILE_PCINT t)) = true) → ∀ switching,
      Leaves (.pcSample t switching) s (fun u => (u.mason t).sampled = s.reg (Reg.OBS_CNT t 48) ∧ (u.mason t).regs = (s.mason t).regs ∧ (u.mason t).pc = (s.mason t).pc ∧
        u.mem = s.mem ∧ u.ports = s.ports)) ∧
    (let l := (s.brick b).obsLost
     0 < l.pc + l.bond + l.stamp → s.isSet (Reg.OBS_TRC_EN b) = true → obsUsed (s.brick b) + 32 ≤ 0x10000 →
      Does (.lossMarker b) s (s.onBrick b (fun B => { B with
        obsLost := { l with pc := 0, bond := 0, stamp := 0 },
        obsBuf := B.obsBuf ++ [{
          trace := true, typ := 0xF, tile := 0xFF, data := traceBytes s s.plumb.toNat 0xF (srcBrick b)
            ([0, 0] ++ leBytes 4 (l.pc + l.bond + l.stamp) ++ leBytes 4 l.pc ++ leBytes 4 l.bond ++ leBytes 4 l.stamp) }] }))) ∧
    (0 < (s.brick b).obsLost.traceRep → (s.brick b).dropRepAt.2 = 0 →
      Does (.dropEventReport b true) s ((s.onBrick b (fun B => { B with
        obsLost := { B.obsLost with traceRep := 0 }, dropRepAt := (B.dropRepAt.1, s.now) })).raise 0x7001 [b.val, 1, (s.brick b).obsLost.traceRep])) ∧
    (0 < (s.brick b).obsLost.sampleRep → (s.brick b).dropRepAt.1 = 0 →
      Does (.dropEventReport b false) s ((s.onBrick b (fun B => { B with
        obsLost := { B.obsLost with sampleRep := 0 }, dropRepAt := (s.now, B.dropRepAt.2) })).raise 0x7001 [b.val, 0, (s.brick b).obsLost.sampleRep])) ∧
    Leaves (.counterClear t) s (fun u => (∀ i, i < 64 → u.reg (Reg.OBS_CNT t i) = 0) ∧ u.mem = s.mem ∧ u.bricks = s.bricks ∧ u.ports = s.ports ∧ u.events = s.events)
end

