-- ==== Sys2Proof/Laws/Bits.lean ====
section
/-! SUPPORT. Bit fields: what a field reads after one was replaced. -/
namespace Sys2Proof.Machine

theorem bitsOf_lt (v hi lo : Nat) : bitsOf v hi lo < 2 ^ (hi + 1 - lo) := Nat.mod_lt _ (by positivity)

/-- A number with a field replaced, taken apart: what lies above the field, the field, and what lies below it. -/
theorem withBits_eq (v hi lo x : Nat) (h : lo ≤ hi + 1) :
    withBits v hi lo x = 2 ^ lo * (2 ^ (hi + 1 - lo) * (v / 2 ^ (hi + 1)) + x % 2 ^ (hi + 1 - lo)) + v % 2 ^ lo := by
  have e : 2 ^ lo * 2 ^ (hi + 1 - lo) = 2 ^ (hi + 1) := by rw [← pow_add]; congr 1; omega
  have hv : v = 2 ^ lo * (2 ^ (hi + 1 - lo) * (v / 2 ^ (hi + 1)) + bitsOf v hi lo) + v % 2 ^ lo := by
    have h1 := Nat.div_add_mod v (2 ^ lo)
    have h2 := Nat.div_add_mod (v / 2 ^ lo) (2 ^ (hi + 1 - lo))
    rw [Nat.div_div_eq_div_mul, e] at h2
    rw [bitsOf, h2, h1]
  unfold withBits
  have : bitsOf v hi lo * 2 ^ lo ≤ v := by
    rw [mul_comm]
    exact le_trans (Nat.mul_le_mul_left _ (Nat.mod_le _ _)) (Nat.mul_div_le v (2 ^ lo))
  generalize hb : bitsOf v hi lo = b at *
  generalize 2 ^ (hi + 1 - lo) * (v / 2 ^ (hi + 1)) = q at *
  generalize 2 ^ lo = n at *
  generalize v % n = r at *
  rw [mul_add] at hv ⊢
  rw [mul_comm b, mul_comm (x % _)]
  omega

/-- The field that was written reads the low bits of what was written. -/
theorem bitsOf_withBits_same (v hi lo x : Nat) (h : lo ≤ hi + 1) : bitsOf (withBits v hi lo x) hi lo = x % 2 ^ (hi + 1 - lo) := by
  rw [withBits_eq v hi lo x h, bitsOf, Nat.mul_add_div (by positivity), Nat.div_eq_of_lt (Nat.mod_lt _ (by positivity)), add_zero,
    Nat.mul_add_mod, Nat.mod_mod]

/-- A field below the one written reads as before. -/
theorem bitsOf_withBits_below (v hi lo x hi' lo' : Nat) (h : lo ≤ hi + 1) (hb : hi' < lo) : bitsOf (withBits v hi lo x) hi' lo' = bitsOf v hi' lo' := by
  by_cases hl : lo' ≤ hi' + 1
  · have key : ∀ n, bitsOf n hi' lo' = n % 2 ^ (hi' + 1) / 2 ^ lo' := by
      intro n
      have : 2 ^ (hi' + 1) = 2 ^ lo' * 2 ^ (hi' + 1 - lo') := by rw [← pow_add]; congr 1; omega
      rw [this, Nat.mod_mul_right_div_self, bitsOf]
    have hd : 2 ^ (hi' + 1) ∣ 2 ^ lo := pow_dvd_pow 2 (by omega)
    rw [key, key, withBits_eq v hi lo x h]
    congr 1
    rw [Nat.add_mod, Nat.mod_eq_zero_of_dvd (Dvd.dvd.mul_right hd _), zero_add, Nat.mod_mod, Nat.mod_mod_of_dvd _ hd]
  · simp [bitsOf, show hi' + 1 - lo' = 0 by omega, Nat.mod_one]

/-- A field above the one written reads as before. -/
theorem bitsOf_withBits_above (v hi lo x hi' lo' : Nat) (h : lo ≤ hi + 1) (hb : hi < lo') : bitsOf (withBits v hi lo x) hi' lo' = bitsOf v hi' lo' := by
  have e : 2 ^ lo * 2 ^ (hi + 1 - lo) = 2 ^ (hi + 1) := by rw [← pow_add]; congr 1; omega
  have key : ∀ n, n / 2 ^ lo' = n / 2 ^ (hi + 1) / 2 ^ (lo' - (hi + 1)) := by
    intro n
    rw [Nat.div_div_eq_div_mul, ← pow_add]; congr 2; omega
  have : withBits v hi lo x / 2 ^ (hi + 1) = v / 2 ^ (hi + 1) := by
    rw [withBits_eq v hi lo x h, ← e, ← Nat.div_div_eq_div_mul, Nat.mul_add_div (by positivity), Nat.div_eq_of_lt (Nat.mod_lt _ (by positivity)),
      add_zero, Nat.mul_add_div (by positivity), Nat.div_eq_of_lt (Nat.mod_lt _ (by positivity)), add_zero]
  simp only [bitsOf, key (withBits v hi lo x), key v, this]

/-- A field below bit 64 does not see bits from 64 on. -/
theorem bitsOf_mod64 (v hi lo : Nat) (h : hi < 64) : bitsOf (v % 2 ^ 64) hi lo = bitsOf v hi lo := by
  by_cases hl : lo ≤ hi + 1
  · have key : ∀ n, bitsOf n hi lo = n % 2 ^ (hi + 1) / 2 ^ lo := by
      intro n
      have : 2 ^ (hi + 1) = 2 ^ lo * 2 ^ (hi + 1 - lo) := by rw [← pow_add]; congr 1; omega
      rw [this, Nat.mod_mul_right_div_self, bitsOf]
    rw [key, key, Nat.mod_mod_of_dvd _ (pow_dvd_pow 2 (by omega))]
  · simp [bitsOf, show hi + 1 - lo = 0 by omega, Nat.mod_one]

end Sys2Proof.Machine
end

