-- ==== Sys2Proof/Laws/Table.lean ====
section
/-! SUPPORT. Sparse tables: what a written key reads, that the other keys read as before, and that the canonical form is kept. -/
namespace Sys2Proof.Machine

variable {α : Type}

/-! ### Reads after writes -/

@[simp] theorem tabFind_tabPut_same (t : Tab α) (k : Nat) (v : α) : tabFind (tabPut t k v) k = some v := by
  induction t with
  | nil => simp [tabPut, tabFind]
  | cons e t ih =>
    obtain ⟨k', v'⟩ := e
    simp only [tabPut]
    split
    · simp [tabFind]
    · split
      · simp [tabFind]
      · rename_i h₁ h₂
        simp [tabFind, Ne.symm h₂, ih]

theorem tabFind_tabPut_other (t : Tab α) (k j : Nat) (v : α) (h : j ≠ k) : tabFind (tabPut t k v) j = tabFind t j := by
  induction t with
  | nil => simp [tabPut, tabFind, Ne.symm h]
  | cons e t ih =>
    obtain ⟨k', v'⟩ := e
    simp only [tabPut]
    split
    · simp [tabFind, Ne.symm h]
    · split
      · rename_i h₂
        subst h₂
        simp [tabFind, Ne.symm h]
      · simp only [tabFind]
        split
        · rfl
        · exact ih

@[simp] theorem tabFind_tabErase_same (t : Tab α) (k : Nat) : tabFind (tabErase t k) k = none := by
  induction t with
  | nil => rfl
  | cons e t ih =>
    obtain ⟨k', v'⟩ := e
    simp only [tabErase]
    split
    · exact ih
    · rename_i h
      simp [tabFind, h, ih]

theorem tabFind_tabErase_other (t : Tab α) (k j : Nat) (h : j ≠ k) : tabFind (tabErase t k) j = tabFind t j := by
  induction t with
  | nil => rfl
  | cons e t ih =>
    obtain ⟨k', v'⟩ := e
    simp only [tabErase]
    split
    · rename_i h₂
      subst h₂
      simp [tabFind, Ne.symm h, ih]
    · simp only [tabFind]
      split
      · rfl
      · exact ih

@[simp] theorem tabGet_tabPut_same (d : α) (t : Tab α) (k : Nat) (v : α) : tabGet d (tabPut t k v) k = v := by simp [tabGet]

theorem tabGet_tabPut_other (d : α) (t : Tab α) (k j : Nat) (v : α) (h : j ≠ k) : tabGet d (tabPut t k v) j = tabGet d t j := by
  simp [tabGet, tabFind_tabPut_other t k j v h]

@[simp] theorem tabGet_tabSet_same [DecidableEq α] (d : α) (t : Tab α) (k : Nat) (v : α) : tabGet d (tabSet d t k v) k = v := by
  unfold tabSet
  split
  · rename_i h
    simp [tabGet, h]
  · simp

theorem tabGet_tabSet_other [DecidableEq α] (d : α) (t : Tab α) (k j : Nat) (v : α) (h : j ≠ k) : tabGet d (tabSet d t k v) j = tabGet d t j := by
  unfold tabSet
  split
  · simp [tabGet, tabFind_tabErase_other t k j h]
  · exact tabGet_tabPut_other d t k j v h

/-! ### The canonical form -/

theorem tabSortedFrom_of_le {lo lo' : Nat} {t : Tab α} (h : tabSortedFrom lo' t = true) (hl : lo ≤ lo') : tabSortedFrom lo t = true := by
  cases t with
  | nil => rfl
  | cons e t =>
    simp only [tabSortedFrom, Bool.and_eq_true, decide_eq_true_eq] at h ⊢
    exact ⟨by omega, h.2⟩

theorem tabSortedFrom_put {lo k : Nat} {t : Tab α} (v : α) (h : tabSortedFrom lo t = true) (hk : lo < k) : tabSortedFrom lo (tabPut t k v) = true := by
  induction t generalizing lo with
  | nil => simp [tabPut, tabSortedFrom, hk]
  | cons e t ih =>
    obtain ⟨k', v'⟩ := e
    simp only [tabSortedFrom, Bool.and_eq_true, decide_eq_true_eq] at h
    simp only [tabPut]
    split
    · simp [tabSortedFrom, *]
    · split
      · rename_i h₂
        subst h₂
        simp [tabSortedFrom, hk, h.2]
      · simp only [tabSortedFrom, Bool.and_eq_true, decide_eq_true_eq]
        exact ⟨h.1, ih h.2 (by omega)⟩

theorem tabSortedFrom_erase {lo k : Nat} {t : Tab α} (h : tabSortedFrom lo t = true) : tabSortedFrom lo (tabErase t k) = true := by
  induction t generalizing lo with
  | nil => rfl
  | cons e t ih =>
    obtain ⟨k', v'⟩ := e
    simp only [tabSortedFrom, Bool.and_eq_true, decide_eq_true_eq] at h
    simp only [tabErase]
    split
    · exact tabSortedFrom_of_le (ih h.2) (by omega)
    · simp only [tabSortedFrom, Bool.and_eq_true, decide_eq_true_eq]
      exact ⟨h.1, ih h.2⟩

theorem tabSorted_put {k : Nat} {t : Tab α} (v : α) (h : tabSorted t = true) : tabSorted (tabPut t k v) = true := by
  cases t with
  | nil => rfl
  | cons e t =>
    obtain ⟨k', v'⟩ := e
    simp only [tabSorted] at h
    simp only [tabPut]
    split
    · simp [tabSorted, tabSortedFrom, *]
    · split
      · rename_i h₂
        subst h₂
        exact h
      · exact tabSortedFrom_put v h (by omega)

theorem tabSorted_of_from {lo : Nat} {t : Tab α} (h : tabSortedFrom lo t = true) : tabSorted t = true := by
  cases t with
  | nil => rfl
  | cons e t =>
    simp only [tabSortedFrom, Bool.and_eq_true] at h
    exact h.2

theorem tabSorted_erase {k : Nat} {t : Tab α} (h : tabSorted t = true) : tabSorted (tabErase t k) = true := by
  cases t with
  | nil => rfl
  | cons e t =>
    obtain ⟨k', v'⟩ := e
    simp only [tabSorted] at h
    simp only [tabErase]
    split
    · exact tabSorted_of_from (tabSortedFrom_erase h)
    · exact tabSortedFrom_erase h

theorem mem_tabPut {t : Tab α} {k : Nat} {v : α} {e : Nat × α} (h : e ∈ tabPut t k v) : e = (k, v) ∨ e ∈ t := by
  induction t with
  | nil => simpa [tabPut] using h
  | cons x t ih =>
    obtain ⟨k', v'⟩ := x
    simp only [tabPut] at h
    split at h
    · simpa using h
    · split at h
      · rcases List.mem_cons.mp h with h | h
        · exact .inl h
        · exact .inr (List.mem_cons_of_mem _ h)
      · rcases List.mem_cons.mp h with h | h
        · exact .inr (h ▸ List.mem_cons_self)
        · exact (ih h).imp id (List.mem_cons_of_mem _)

theorem mem_tabErase {t : Tab α} {k : Nat} {e : Nat × α} (h : e ∈ tabErase t k) : e ∈ t := by
  induction t with
  | nil => exact h
  | cons x t ih =>
    obtain ⟨k', v'⟩ := x
    simp only [tabErase] at h
    split at h
    · exact List.mem_cons_of_mem _ (ih h)
    · rcases List.mem_cons.mp h with h | h
      · exact h ▸ List.mem_cons_self
      · exact List.mem_cons_of_mem _ (ih h)

theorem tabWf_tabSet [DecidableEq α] {d : α} {t : Tab α} (k : Nat) (v : α) (h : tabWf d t = true) : tabWf d (tabSet d t k v) = true := by
  simp only [tabWf, Bool.and_eq_true, List.all_eq_true, decide_eq_true_eq] at h ⊢
  unfold tabSet
  split
  · exact ⟨tabSorted_erase h.1, fun e he => h.2 e (mem_tabErase he)⟩
  · refine ⟨tabSorted_put v h.1, fun e he => ?_⟩
    rcases mem_tabPut he with he | he
    · subst he
      assumption
    · exact h.2 e he

theorem tabSortedFrom_filter {lo : Nat} {t : Tab α} (p : Nat × α → Bool) (h : tabSortedFrom lo t = true) : tabSortedFrom lo (t.filter p) = true := by
  induction t generalizing lo with
  | nil => rfl
  | cons e t ih =>
    obtain ⟨k', v'⟩ := e
    simp only [tabSortedFrom, Bool.and_eq_true, decide_eq_true_eq] at h
    simp only [List.filter_cons]
    split
    · simp only [tabSortedFrom, Bool.and_eq_true, decide_eq_true_eq]
      exact ⟨h.1, ih h.2⟩
    · exact tabSortedFrom_of_le (ih h.2) (by omega)

theorem tabWf_filter [DecidableEq α] {d : α} {t : Tab α} (p : Nat × α → Bool) (h : tabWf d t = true) : tabWf d (t.filter p) = true := by
  simp only [tabWf, Bool.and_eq_true, List.all_eq_true, decide_eq_true_eq] at h ⊢
  refine ⟨?_, fun e he => h.2 e (List.mem_of_mem_filter he)⟩
  cases t with
  | nil => rfl
  | cons e t =>
    obtain ⟨k', v'⟩ := e
    have hs : tabSortedFrom k' t = true := h.1
    rw [List.filter_cons]
    split
    · exact tabSortedFrom_filter p hs
    · exact tabSorted_of_from (tabSortedFrom_filter p hs)

end Sys2Proof.Machine
end

