-- ==== Sys2Proof/Laws/Memory.lean ====
section
/-! SUPPORT. Memory: a byte that was written reads back, every other byte reads as before, and the canonical form is kept by every operation. -/
namespace Sys2Proof.Machine
open Sys2Proof

@[simp] theorem memByte_memPut_same (m : List Host.Cell) (a : Nat) (v : Byte) : memByte (memPut m a v) a = v :=
  tabGet_tabSet_same 0 m a v

theorem memByte_memPut_other (m : List Host.Cell) (a b : Nat) (v : Byte) (h : b ≠ a) : memByte (memPut m a v) b = memByte m b :=
  tabGet_tabSet_other 0 m a b v h

/-- A byte outside the bytes written reads as before. -/
theorem memByte_memWrite_outside (bs : Bytes) (m : List Host.Cell) (a b : Nat) (h : b < a ∨ a + bs.length ≤ b) :
    memByte (memWrite m a bs) b = memByte m b := by
  induction bs generalizing m a with
  | nil => rfl
  | cons v vs ih =>
    simp only [List.length_cons] at h
    rw [memWrite, ih _ _ (by omega), memByte_memPut_other _ _ _ _ (by omega)]

/-- A byte that was written reads as it was written. -/
theorem memByte_memWrite_inside (bs : Bytes) (m : List Host.Cell) (a i : Nat) (h : i < bs.length) :
    memByte (memWrite m a bs) (a + i) = bs[i] := by
  induction bs generalizing m a i with
  | nil => cases h
  | cons v vs ih =>
    cases i with
    | zero =>
      rw [memWrite, memByte_memWrite_outside vs _ _ _ (by omega)]
      exact memByte_memPut_same m a v
    | succ i =>
      rw [memWrite, show a + (i + 1) = a + 1 + i by omega, ih _ _ _ (by simpa using h)]
      rfl

theorem Memory.wf_memPut {m : List Host.Cell} (a : Nat) (v : Byte) (h : Memory.wf m = true) : Memory.wf (memPut m a v) = true := tabWf_tabSet a v h

theorem Memory.wf_memWrite {m : List Host.Cell} (a : Nat) (bs : Bytes) (h : Memory.wf m = true) : Memory.wf (memWrite m a bs) = true := by
  induction bs generalizing m a with
  | nil => exact h
  | cons v vs ih => exact ih (a + 1) (Memory.wf_memPut a v h)

theorem Memory.wf_memClear {m : List Host.Cell} (lo hi : Nat) (h : Memory.wf m = true) : Memory.wf (memClear m lo hi) = true := tabWf_filter _ h

/-- The memory after reset is in its canonical form. -/
theorem Memory.wf_reset : Memory.wf State.reset.mem = true := rfl

/-- What a store can do: the bytes stored read back, and every other byte reads as before. -/
theorem State.store_reads (s : State) (a : Nat) (bs : Bytes) :
    (∀ i (h : i < bs.length), memByte (s.store a bs).mem (a + i) = bs[i]) ∧
    ∀ b, b < a ∨ a + bs.length ≤ b → memByte (s.store a bs).mem b = memByte s.mem b :=
  ⟨fun i h => memByte_memWrite_inside bs s.mem a i h, fun b h => memByte_memWrite_outside bs s.mem a b h⟩

end Sys2Proof.Machine
end

