-- ==== Sys2Proof/Laws/Registers.lean ====
section
/-! SUPPORT. Registers: what a register or a field reads after one was written. -/
namespace Sys2Proof.Machine
open Sys2Proof

theorem State.reg_eq_tabGet (s : State) (off : Nat) : s.reg off = (tabGet (regResetAt off) s.regs off).toNat := rfl

/-- A register that was written reads its low 64 bits. -/
@[simp] theorem State.reg_setReg_same (s : State) (off v : Nat) : (s.setReg off v).reg off = v % 2 ^ 64 := by
  simp only [State.reg_eq_tabGet, State.setReg, tabGet_tabSet_same, BitVec.toNat_ofNat]

/-- Every other register reads as before. -/
theorem State.reg_setReg_other (s : State) (off o v : Nat) (h : o ≠ off) : (s.setReg off v).reg o = s.reg o := by
  simp only [State.reg, State.setReg, tabSet]
  split
  · rw [tabFind_tabErase_other _ _ _ h]
  · rw [tabFind_tabPut_other _ _ _ _ h]

/-- A field of another register reads as before. -/
theorem State.rd_wr_other (s : State) (f g : FieldRef) (v : Nat) (h : g.reg ≠ f.reg) : (s.wr f v).rd g = s.rd g := by
  simp only [State.rd, State.wr, State.reg_setReg_other _ _ _ _ h]

/-- A field reads what its register holds after the write of a field. -/
theorem State.rd_wr_same_reg (s : State) (f g : FieldRef) (v : Nat) (h : g.reg = f.reg) :
    (s.wr f v).rd g = bitsOf (withBits (s.reg f.reg) f.hi f.lo v % 2 ^ 64) g.hi g.lo := by
  simp only [State.rd, State.wr, h, State.reg_setReg_same]

/-- The field that was written reads the low bits of what was written. -/
theorem State.rd_wr_same (s : State) (f : FieldRef) (v : Nat) (h : f.lo ≤ f.hi + 1) (h64 : f.hi < 64) :
    (s.wr f v).rd f = v % 2 ^ (f.hi + 1 - f.lo) := by
  rw [State.rd_wr_same_reg s f f v rfl, bitsOf_mod64 _ _ _ h64, bitsOf_withBits_same _ _ _ _ h]

/-- A field of the same register that does not meet the one written reads as before. -/
theorem State.rd_wr_apart (s : State) (f g : FieldRef) (v : Nat) (hr : g.reg = f.reg) (h : f.lo ≤ f.hi + 1) (h64 : g.hi < 64)
    (ha : g.hi < f.lo ∨ f.hi < g.lo) : (s.wr f v).rd g = s.rd g := by
  rw [State.rd_wr_same_reg s f g v hr, bitsOf_mod64 _ _ _ h64]
  rcases ha with ha | ha
  · rw [bitsOf_withBits_below _ _ _ _ _ _ h ha, State.rd, hr]
  · rw [bitsOf_withBits_above _ _ _ _ _ _ h ha, State.rd, hr]

/-- A flag that is set reads 1. -/
theorem State.rd_flag_same (s : State) (f : FieldRef) (h : f.hi = f.lo) (h64 : f.hi < 64) : (s.flag f).rd f = 1 := by
  rw [State.flag, State.rd_wr_same s f 1 (by omega) h64, h]
  simp

end Sys2Proof.Machine
end

