-- ==== Sys2Proof/Laws/State.lean ====
section
/-! SUPPORT. What each update of the state leaves as it was, field by field, and what it reads back. -/
namespace Sys2Proof.Machine
open Sys2Proof

/-! ### State.setReg -/

@[simp] theorem State.setReg_pending (s : State) (off v : Nat) : (s.setReg off v).pending = s.pending := rfl
@[simp] theorem State.setReg_now (s : State) (off v : Nat) : (s.setReg off v).now = s.now := rfl
@[simp] theorem State.setReg_plumb (s : State) (off v : Nat) : (s.setReg off v).plumb = s.plumb := rfl
@[simp] theorem State.setReg_freeCtr (s : State) (off v : Nat) : (s.setReg off v).freeCtr = s.freeCtr := rfl
@[simp] theorem State.setReg_mem (s : State) (off v : Nat) : (s.setReg off v).mem = s.mem := rfl
@[simp] theorem State.setReg_sealed (s : State) (off v : Nat) : (s.setReg off v).sealed = s.sealed := rfl
@[simp] theorem State.setReg_sealLogged (s : State) (off v : Nat) : (s.setReg off v).sealLogged = s.sealLogged := rfl
@[simp] theorem State.setReg_events (s : State) (off v : Nat) : (s.setReg off v).events = s.events := rfl
@[simp] theorem State.setReg_results (s : State) (off v : Nat) : (s.setReg off v).results = s.results := rfl
@[simp] theorem State.setReg_out (s : State) (off v : Nat) : (s.setReg off v).out = s.out := rfl
@[simp] theorem State.setReg_bricks (s : State) (off v : Nat) : (s.setReg off v).bricks = s.bricks := rfl
@[simp] theorem State.setReg_tiles (s : State) (off v : Nat) : (s.setReg off v).tiles = s.tiles := rfl
@[simp] theorem State.setReg_ports (s : State) (off v : Nat) : (s.setReg off v).ports = s.ports := rfl
@[simp] theorem State.setReg_bridges (s : State) (off v : Nat) : (s.setReg off v).bridges = s.bridges := rfl
@[simp] theorem State.setReg_points (s : State) (off v : Nat) : (s.setReg off v).points = s.points := rfl
@[simp] theorem State.setReg_hbm (s : State) (off v : Nat) : (s.setReg off v).hbm = s.hbm := rfl
@[simp] theorem State.setReg_power (s : State) (off v : Nat) : (s.setReg off v).power = s.power := rfl
@[simp] theorem State.setReg_hod (s : State) (off v : Nat) : (s.setReg off v).hod = s.hod := rfl
@[simp] theorem State.setReg_safety (s : State) (off v : Nat) : (s.setReg off v).safety = s.safety := rfl
@[simp] theorem State.setReg_host (s : State) (off v : Nat) : (s.setReg off v).host = s.host := rfl
@[simp] theorem State.setReg_start (s : State) (off v : Nat) : (s.setReg off v).start = s.start := rfl
@[simp] theorem State.setReg_observe (s : State) (off v : Nat) : (s.setReg off v).observe = s.observe := rfl

/-! ### State.wr -/

@[simp] theorem State.wr_pending (s : State) (f : FieldRef) (v : Nat) : (s.wr f v).pending = s.pending := rfl
@[simp] theorem State.wr_now (s : State) (f : FieldRef) (v : Nat) : (s.wr f v).now = s.now := rfl
@[simp] theorem State.wr_plumb (s : State) (f : FieldRef) (v : Nat) : (s.wr f v).plumb = s.plumb := rfl
@[simp] theorem State.wr_freeCtr (s : State) (f : FieldRef) (v : Nat) : (s.wr f v).freeCtr = s.freeCtr := rfl
@[simp] theorem State.wr_mem (s : State) (f : FieldRef) (v : Nat) : (s.wr f v).mem = s.mem := rfl
@[simp] theorem State.wr_sealed (s : State) (f : FieldRef) (v : Nat) : (s.wr f v).sealed = s.sealed := rfl
@[simp] theorem State.wr_sealLogged (s : State) (f : FieldRef) (v : Nat) : (s.wr f v).sealLogged = s.sealLogged := rfl
@[simp] theorem State.wr_events (s : State) (f : FieldRef) (v : Nat) : (s.wr f v).events = s.events := rfl
@[simp] theorem State.wr_results (s : State) (f : FieldRef) (v : Nat) : (s.wr f v).results = s.results := rfl
@[simp] theorem State.wr_out (s : State) (f : FieldRef) (v : Nat) : (s.wr f v).out = s.out := rfl
@[simp] theorem State.wr_bricks (s : State) (f : FieldRef) (v : Nat) : (s.wr f v).bricks = s.bricks := rfl
@[simp] theorem State.wr_tiles (s : State) (f : FieldRef) (v : Nat) : (s.wr f v).tiles = s.tiles := rfl
@[simp] theorem State.wr_ports (s : State) (f : FieldRef) (v : Nat) : (s.wr f v).ports = s.ports := rfl
@[simp] theorem State.wr_bridges (s : State) (f : FieldRef) (v : Nat) : (s.wr f v).bridges = s.bridges := rfl
@[simp] theorem State.wr_points (s : State) (f : FieldRef) (v : Nat) : (s.wr f v).points = s.points := rfl
@[simp] theorem State.wr_hbm (s : State) (f : FieldRef) (v : Nat) : (s.wr f v).hbm = s.hbm := rfl
@[simp] theorem State.wr_power (s : State) (f : FieldRef) (v : Nat) : (s.wr f v).power = s.power := rfl
@[simp] theorem State.wr_hod (s : State) (f : FieldRef) (v : Nat) : (s.wr f v).hod = s.hod := rfl
@[simp] theorem State.wr_safety (s : State) (f : FieldRef) (v : Nat) : (s.wr f v).safety = s.safety := rfl
@[simp] theorem State.wr_host (s : State) (f : FieldRef) (v : Nat) : (s.wr f v).host = s.host := rfl
@[simp] theorem State.wr_start (s : State) (f : FieldRef) (v : Nat) : (s.wr f v).start = s.start := rfl
@[simp] theorem State.wr_observe (s : State) (f : FieldRef) (v : Nat) : (s.wr f v).observe = s.observe := rfl

/-! ### State.flag -/

@[simp] theorem State.flag_pending (s : State) (f : FieldRef) : (s.flag f).pending = s.pending := rfl
@[simp] theorem State.flag_now (s : State) (f : FieldRef) : (s.flag f).now = s.now := rfl
@[simp] theorem State.flag_plumb (s : State) (f : FieldRef) : (s.flag f).plumb = s.plumb := rfl
@[simp] theorem State.flag_freeCtr (s : State) (f : FieldRef) : (s.flag f).freeCtr = s.freeCtr := rfl
@[simp] theorem State.flag_mem (s : State) (f : FieldRef) : (s.flag f).mem = s.mem := rfl
@[simp] theorem State.flag_sealed (s : State) (f : FieldRef) : (s.flag f).sealed = s.sealed := rfl
@[simp] theorem State.flag_sealLogged (s : State) (f : FieldRef) : (s.flag f).sealLogged = s.sealLogged := rfl
@[simp] theorem State.flag_events (s : State) (f : FieldRef) : (s.flag f).events = s.events := rfl
@[simp] theorem State.flag_results (s : State) (f : FieldRef) : (s.flag f).results = s.results := rfl
@[simp] theorem State.flag_out (s : State) (f : FieldRef) : (s.flag f).out = s.out := rfl
@[simp] theorem State.flag_bricks (s : State) (f : FieldRef) : (s.flag f).bricks = s.bricks := rfl
@[simp] theorem State.flag_tiles (s : State) (f : FieldRef) : (s.flag f).tiles = s.tiles := rfl
@[simp] theorem State.flag_ports (s : State) (f : FieldRef) : (s.flag f).ports = s.ports := rfl
@[simp] theorem State.flag_bridges (s : State) (f : FieldRef) : (s.flag f).bridges = s.bridges := rfl
@[simp] theorem State.flag_points (s : State) (f : FieldRef) : (s.flag f).points = s.points := rfl
@[simp] theorem State.flag_hbm (s : State) (f : FieldRef) : (s.flag f).hbm = s.hbm := rfl
@[simp] theorem State.flag_power (s : State) (f : FieldRef) : (s.flag f).power = s.power := rfl
@[simp] theorem State.flag_hod (s : State) (f : FieldRef) : (s.flag f).hod = s.hod := rfl
@[simp] theorem State.flag_safety (s : State) (f : FieldRef) : (s.flag f).safety = s.safety := rfl
@[simp] theorem State.flag_host (s : State) (f : FieldRef) : (s.flag f).host = s.host := rfl
@[simp] theorem State.flag_start (s : State) (f : FieldRef) : (s.flag f).start = s.start := rfl
@[simp] theorem State.flag_observe (s : State) (f : FieldRef) : (s.flag f).observe = s.observe := rfl

/-! ### State.flagBits -/

@[simp] theorem State.flagBits_pending (s : State) (f : FieldRef) (m : Nat) : (s.flagBits f m).pending = s.pending := rfl
@[simp] theorem State.flagBits_now (s : State) (f : FieldRef) (m : Nat) : (s.flagBits f m).now = s.now := rfl
@[simp] theorem State.flagBits_plumb (s : State) (f : FieldRef) (m : Nat) : (s.flagBits f m).plumb = s.plumb := rfl
@[simp] theorem State.flagBits_freeCtr (s : State) (f : FieldRef) (m : Nat) : (s.flagBits f m).freeCtr = s.freeCtr := rfl
@[simp] theorem State.flagBits_mem (s : State) (f : FieldRef) (m : Nat) : (s.flagBits f m).mem = s.mem := rfl
@[simp] theorem State.flagBits_sealed (s : State) (f : FieldRef) (m : Nat) : (s.flagBits f m).sealed = s.sealed := rfl
@[simp] theorem State.flagBits_sealLogged (s : State) (f : FieldRef) (m : Nat) : (s.flagBits f m).sealLogged = s.sealLogged := rfl
@[simp] theorem State.flagBits_events (s : State) (f : FieldRef) (m : Nat) : (s.flagBits f m).events = s.events := rfl
@[simp] theorem State.flagBits_results (s : State) (f : FieldRef) (m : Nat) : (s.flagBits f m).results = s.results := rfl
@[simp] theorem State.flagBits_out (s : State) (f : FieldRef) (m : Nat) : (s.flagBits f m).out = s.out := rfl
@[simp] theorem State.flagBits_bricks (s : State) (f : FieldRef) (m : Nat) : (s.flagBits f m).bricks = s.bricks := rfl
@[simp] theorem State.flagBits_tiles (s : State) (f : FieldRef) (m : Nat) : (s.flagBits f m).tiles = s.tiles := rfl
@[simp] theorem State.flagBits_ports (s : State) (f : FieldRef) (m : Nat) : (s.flagBits f m).ports = s.ports := rfl
@[simp] theorem State.flagBits_bridges (s : State) (f : FieldRef) (m : Nat) : (s.flagBits f m).bridges = s.bridges := rfl
@[simp] theorem State.flagBits_points (s : State) (f : FieldRef) (m : Nat) : (s.flagBits f m).points = s.points := rfl
@[simp] theorem State.flagBits_hbm (s : State) (f : FieldRef) (m : Nat) : (s.flagBits f m).hbm = s.hbm := rfl
@[simp] theorem State.flagBits_power (s : State) (f : FieldRef) (m : Nat) : (s.flagBits f m).power = s.power := rfl
@[simp] theorem State.flagBits_hod (s : State) (f : FieldRef) (m : Nat) : (s.flagBits f m).hod = s.hod := rfl
@[simp] theorem State.flagBits_safety (s : State) (f : FieldRef) (m : Nat) : (s.flagBits f m).safety = s.safety := rfl
@[simp] theorem State.flagBits_host (s : State) (f : FieldRef) (m : Nat) : (s.flagBits f m).host = s.host := rfl
@[simp] theorem State.flagBits_start (s : State) (f : FieldRef) (m : Nat) : (s.flagBits f m).start = s.start := rfl
@[simp] theorem State.flagBits_observe (s : State) (f : FieldRef) (m : Nat) : (s.flagBits f m).observe = s.observe := rfl

/-! ### State.count -/

@[simp] theorem State.count_pending (s : State) (f : FieldRef) (n : Nat) : (s.count f n).pending = s.pending := rfl
@[simp] theorem State.count_now (s : State) (f : FieldRef) (n : Nat) : (s.count f n).now = s.now := rfl
@[simp] theorem State.count_plumb (s : State) (f : FieldRef) (n : Nat) : (s.count f n).plumb = s.plumb := rfl
@[simp] theorem State.count_freeCtr (s : State) (f : FieldRef) (n : Nat) : (s.count f n).freeCtr = s.freeCtr := rfl
@[simp] theorem State.count_mem (s : State) (f : FieldRef) (n : Nat) : (s.count f n).mem = s.mem := rfl
@[simp] theorem State.count_sealed (s : State) (f : FieldRef) (n : Nat) : (s.count f n).sealed = s.sealed := rfl
@[simp] theorem State.count_sealLogged (s : State) (f : FieldRef) (n : Nat) : (s.count f n).sealLogged = s.sealLogged := rfl
@[simp] theorem State.count_events (s : State) (f : FieldRef) (n : Nat) : (s.count f n).events = s.events := rfl
@[simp] theorem State.count_results (s : State) (f : FieldRef) (n : Nat) : (s.count f n).results = s.results := rfl
@[simp] theorem State.count_out (s : State) (f : FieldRef) (n : Nat) : (s.count f n).out = s.out := rfl
@[simp] theorem State.count_bricks (s : State) (f : FieldRef) (n : Nat) : (s.count f n).bricks = s.bricks := rfl
@[simp] theorem State.count_tiles (s : State) (f : FieldRef) (n : Nat) : (s.count f n).tiles = s.tiles := rfl
@[simp] theorem State.count_ports (s : State) (f : FieldRef) (n : Nat) : (s.count f n).ports = s.ports := rfl
@[simp] theorem State.count_bridges (s : State) (f : FieldRef) (n : Nat) : (s.count f n).bridges = s.bridges := rfl
@[simp] theorem State.count_points (s : State) (f : FieldRef) (n : Nat) : (s.count f n).points = s.points := rfl
@[simp] theorem State.count_hbm (s : State) (f : FieldRef) (n : Nat) : (s.count f n).hbm = s.hbm := rfl
@[simp] theorem State.count_power (s : State) (f : FieldRef) (n : Nat) : (s.count f n).power = s.power := rfl
@[simp] theorem State.count_hod (s : State) (f : FieldRef) (n : Nat) : (s.count f n).hod = s.hod := rfl
@[simp] theorem State.count_safety (s : State) (f : FieldRef) (n : Nat) : (s.count f n).safety = s.safety := rfl
@[simp] theorem State.count_host (s : State) (f : FieldRef) (n : Nat) : (s.count f n).host = s.host := rfl
@[simp] theorem State.count_start (s : State) (f : FieldRef) (n : Nat) : (s.count f n).start = s.start := rfl
@[simp] theorem State.count_observe (s : State) (f : FieldRef) (n : Nat) : (s.count f n).observe = s.observe := rfl

/-! ### State.store -/

@[simp] theorem State.store_pending (s : State) (a : Nat) (bs : Bytes) : (s.store a bs).pending = s.pending := rfl
@[simp] theorem State.store_now (s : State) (a : Nat) (bs : Bytes) : (s.store a bs).now = s.now := rfl
@[simp] theorem State.store_plumb (s : State) (a : Nat) (bs : Bytes) : (s.store a bs).plumb = s.plumb := rfl
@[simp] theorem State.store_freeCtr (s : State) (a : Nat) (bs : Bytes) : (s.store a bs).freeCtr = s.freeCtr := rfl
@[simp] theorem State.store_regs (s : State) (a : Nat) (bs : Bytes) : (s.store a bs).regs = s.regs := rfl
@[simp] theorem State.store_sealed (s : State) (a : Nat) (bs : Bytes) : (s.store a bs).sealed = s.sealed := rfl
@[simp] theorem State.store_sealLogged (s : State) (a : Nat) (bs : Bytes) : (s.store a bs).sealLogged = s.sealLogged := rfl
@[simp] theorem State.store_events (s : State) (a : Nat) (bs : Bytes) : (s.store a bs).events = s.events := rfl
@[simp] theorem State.store_results (s : State) (a : Nat) (bs : Bytes) : (s.store a bs).results = s.results := rfl
@[simp] theorem State.store_out (s : State) (a : Nat) (bs : Bytes) : (s.store a bs).out = s.out := rfl
@[simp] theorem State.store_bricks (s : State) (a : Nat) (bs : Bytes) : (s.store a bs).bricks = s.bricks := rfl
@[simp] theorem State.store_tiles (s : State) (a : Nat) (bs : Bytes) : (s.store a bs).tiles = s.tiles := rfl
@[simp] theorem State.store_ports (s : State) (a : Nat) (bs : Bytes) : (s.store a bs).ports = s.ports := rfl
@[simp] theorem State.store_bridges (s : State) (a : Nat) (bs : Bytes) : (s.store a bs).bridges = s.bridges := rfl
@[simp] theorem State.store_points (s : State) (a : Nat) (bs : Bytes) : (s.store a bs).points = s.points := rfl
@[simp] theorem State.store_hbm (s : State) (a : Nat) (bs : Bytes) : (s.store a bs).hbm = s.hbm := rfl
@[simp] theorem State.store_power (s : State) (a : Nat) (bs : Bytes) : (s.store a bs).power = s.power := rfl
@[simp] theorem State.store_hod (s : State) (a : Nat) (bs : Bytes) : (s.store a bs).hod = s.hod := rfl
@[simp] theorem State.store_safety (s : State) (a : Nat) (bs : Bytes) : (s.store a bs).safety = s.safety := rfl
@[simp] theorem State.store_host (s : State) (a : Nat) (bs : Bytes) : (s.store a bs).host = s.host := rfl
@[simp] theorem State.store_start (s : State) (a : Nat) (bs : Bytes) : (s.store a bs).start = s.start := rfl
@[simp] theorem State.store_observe (s : State) (a : Nat) (bs : Bytes) : (s.store a bs).observe = s.observe := rfl

/-! ### State.onBrick -/

@[simp] theorem State.onBrick_pending (s : State) (b : Brick) (f : BrickState → BrickState) : (s.onBrick b f).pending = s.pending := rfl
@[simp] theorem State.onBrick_now (s : State) (b : Brick) (f : BrickState → BrickState) : (s.onBrick b f).now = s.now := rfl
@[simp] theorem State.onBrick_plumb (s : State) (b : Brick) (f : BrickState → BrickState) : (s.onBrick b f).plumb = s.plumb := rfl
@[simp] theorem State.onBrick_freeCtr (s : State) (b : Brick) (f : BrickState → BrickState) : (s.onBrick b f).freeCtr = s.freeCtr := rfl
@[simp] theorem State.onBrick_regs (s : State) (b : Brick) (f : BrickState → BrickState) : (s.onBrick b f).regs = s.regs := rfl
@[simp] theorem State.onBrick_mem (s : State) (b : Brick) (f : BrickState → BrickState) : (s.onBrick b f).mem = s.mem := rfl
@[simp] theorem State.onBrick_sealed (s : State) (b : Brick) (f : BrickState → BrickState) : (s.onBrick b f).sealed = s.sealed := rfl
@[simp] theorem State.onBrick_sealLogged (s : State) (b : Brick) (f : BrickState → BrickState) : (s.onBrick b f).sealLogged = s.sealLogged := rfl
@[simp] theorem State.onBrick_events (s : State) (b : Brick) (f : BrickState → BrickState) : (s.onBrick b f).events = s.events := rfl
@[simp] theorem State.onBrick_results (s : State) (b : Brick) (f : BrickState → BrickState) : (s.onBrick b f).results = s.results := rfl
@[simp] theorem State.onBrick_out (s : State) (b : Brick) (f : BrickState → BrickState) : (s.onBrick b f).out = s.out := rfl
@[simp] theorem State.onBrick_tiles (s : State) (b : Brick) (f : BrickState → BrickState) : (s.onBrick b f).tiles = s.tiles := rfl
@[simp] theorem State.onBrick_ports (s : State) (b : Brick) (f : BrickState → BrickState) : (s.onBrick b f).ports = s.ports := rfl
@[simp] theorem State.onBrick_bridges (s : State) (b : Brick) (f : BrickState → BrickState) : (s.onBrick b f).bridges = s.bridges := rfl
@[simp] theorem State.onBrick_points (s : State) (b : Brick) (f : BrickState → BrickState) : (s.onBrick b f).points = s.points := rfl
@[simp] theorem State.onBrick_hbm (s : State) (b : Brick) (f : BrickState → BrickState) : (s.onBrick b f).hbm = s.hbm := rfl
@[simp] theorem State.onBrick_power (s : State) (b : Brick) (f : BrickState → BrickState) : (s.onBrick b f).power = s.power := rfl
@[simp] theorem State.onBrick_hod (s : State) (b : Brick) (f : BrickState → BrickState) : (s.onBrick b f).hod = s.hod := rfl
@[simp] theorem State.onBrick_safety (s : State) (b : Brick) (f : BrickState → BrickState) : (s.onBrick b f).safety = s.safety := rfl
@[simp] theorem State.onBrick_host (s : State) (b : Brick) (f : BrickState → BrickState) : (s.onBrick b f).host = s.host := rfl
@[simp] theorem State.onBrick_start (s : State) (b : Brick) (f : BrickState → BrickState) : (s.onBrick b f).start = s.start := rfl
@[simp] theorem State.onBrick_observe (s : State) (b : Brick) (f : BrickState → BrickState) : (s.onBrick b f).observe = s.observe := rfl

/-! ### State.onTile -/

@[simp] theorem State.onTile_pending (s : State) (t : Tile) (f : TileState → TileState) : (s.onTile t f).pending = s.pending := rfl
@[simp] theorem State.onTile_now (s : State) (t : Tile) (f : TileState → TileState) : (s.onTile t f).now = s.now := rfl
@[simp] theorem State.onTile_plumb (s : State) (t : Tile) (f : TileState → TileState) : (s.onTile t f).plumb = s.plumb := rfl
@[simp] theorem State.onTile_freeCtr (s : State) (t : Tile) (f : TileState → TileState) : (s.onTile t f).freeCtr = s.freeCtr := rfl
@[simp] theorem State.onTile_regs (s : State) (t : Tile) (f : TileState → TileState) : (s.onTile t f).regs = s.regs := rfl
@[simp] theorem State.onTile_mem (s : State) (t : Tile) (f : TileState → TileState) : (s.onTile t f).mem = s.mem := rfl
@[simp] theorem State.onTile_sealed (s : State) (t : Tile) (f : TileState → TileState) : (s.onTile t f).sealed = s.sealed := rfl
@[simp] theorem State.onTile_sealLogged (s : State) (t : Tile) (f : TileState → TileState) : (s.onTile t f).sealLogged = s.sealLogged := rfl
@[simp] theorem State.onTile_events (s : State) (t : Tile) (f : TileState → TileState) : (s.onTile t f).events = s.events := rfl
@[simp] theorem State.onTile_results (s : State) (t : Tile) (f : TileState → TileState) : (s.onTile t f).results = s.results := rfl
@[simp] theorem State.onTile_out (s : State) (t : Tile) (f : TileState → TileState) : (s.onTile t f).out = s.out := rfl
@[simp] theorem State.onTile_bricks (s : State) (t : Tile) (f : TileState → TileState) : (s.onTile t f).bricks = s.bricks := rfl
@[simp] theorem State.onTile_ports (s : State) (t : Tile) (f : TileState → TileState) : (s.onTile t f).ports = s.ports := rfl
@[simp] theorem State.onTile_bridges (s : State) (t : Tile) (f : TileState → TileState) : (s.onTile t f).bridges = s.bridges := rfl
@[simp] theorem State.onTile_points (s : State) (t : Tile) (f : TileState → TileState) : (s.onTile t f).points = s.points := rfl
@[simp] theorem State.onTile_hbm (s : State) (t : Tile) (f : TileState → TileState) : (s.onTile t f).hbm = s.hbm := rfl
@[simp] theorem State.onTile_power (s : State) (t : Tile) (f : TileState → TileState) : (s.onTile t f).power = s.power := rfl
@[simp] theorem State.onTile_hod (s : State) (t : Tile) (f : TileState → TileState) : (s.onTile t f).hod = s.hod := rfl
@[simp] theorem State.onTile_safety (s : State) (t : Tile) (f : TileState → TileState) : (s.onTile t f).safety = s.safety := rfl
@[simp] theorem State.onTile_host (s : State) (t : Tile) (f : TileState → TileState) : (s.onTile t f).host = s.host := rfl
@[simp] theorem State.onTile_start (s : State) (t : Tile) (f : TileState → TileState) : (s.onTile t f).start = s.start := rfl
@[simp] theorem State.onTile_observe (s : State) (t : Tile) (f : TileState → TileState) : (s.onTile t f).observe = s.observe := rfl

/-! ### State.onLink -/

@[simp] theorem State.onLink_pending (s : State) (l : LinkId) (f : Link → Link) : (s.onLink l f).pending = s.pending := by
  cases l <;> rfl
@[simp] theorem State.onLink_now (s : State) (l : LinkId) (f : Link → Link) : (s.onLink l f).now = s.now := by
  cases l <;> rfl
@[simp] theorem State.onLink_plumb (s : State) (l : LinkId) (f : Link → Link) : (s.onLink l f).plumb = s.plumb := by
  cases l <;> rfl
@[simp] theorem State.onLink_freeCtr (s : State) (l : LinkId) (f : Link → Link) : (s.onLink l f).freeCtr = s.freeCtr := by
  cases l <;> rfl
@[simp] theorem State.onLink_regs (s : State) (l : LinkId) (f : Link → Link) : (s.onLink l f).regs = s.regs := by
  cases l <;> rfl
@[simp] theorem State.onLink_mem (s : State) (l : LinkId) (f : Link → Link) : (s.onLink l f).mem = s.mem := by
  cases l <;> rfl
@[simp] theorem State.onLink_sealed (s : State) (l : LinkId) (f : Link → Link) : (s.onLink l f).sealed = s.sealed := by
  cases l <;> rfl
@[simp] theorem State.onLink_sealLogged (s : State) (l : LinkId) (f : Link → Link) : (s.onLink l f).sealLogged = s.sealLogged := by
  cases l <;> rfl
@[simp] theorem State.onLink_events (s : State) (l : LinkId) (f : Link → Link) : (s.onLink l f).events = s.events := by
  cases l <;> rfl
@[simp] theorem State.onLink_results (s : State) (l : LinkId) (f : Link → Link) : (s.onLink l f).results = s.results := by
  cases l <;> rfl
@[simp] theorem State.onLink_out (s : State) (l : LinkId) (f : Link → Link) : (s.onLink l f).out = s.out := by
  cases l <;> rfl
@[simp] theorem State.onLink_bricks (s : State) (l : LinkId) (f : Link → Link) : (s.onLink l f).bricks = s.bricks := by
  cases l <;> rfl
@[simp] theorem State.onLink_tiles (s : State) (l : LinkId) (f : Link → Link) : (s.onLink l f).tiles = s.tiles := by
  cases l <;> rfl
@[simp] theorem State.onLink_points (s : State) (l : LinkId) (f : Link → Link) : (s.onLink l f).points = s.points := by
  cases l <;> rfl
@[simp] theorem State.onLink_hbm (s : State) (l : LinkId) (f : Link → Link) : (s.onLink l f).hbm = s.hbm := by
  cases l <;> rfl
@[simp] theorem State.onLink_power (s : State) (l : LinkId) (f : Link → Link) : (s.onLink l f).power = s.power := by
  cases l <;> rfl
@[simp] theorem State.onLink_hod (s : State) (l : LinkId) (f : Link → Link) : (s.onLink l f).hod = s.hod := by
  cases l <;> rfl
@[simp] theorem State.onLink_safety (s : State) (l : LinkId) (f : Link → Link) : (s.onLink l f).safety = s.safety := by
  cases l <;> rfl
@[simp] theorem State.onLink_host (s : State) (l : LinkId) (f : Link → Link) : (s.onLink l f).host = s.host := by
  cases l <;> rfl
@[simp] theorem State.onLink_start (s : State) (l : LinkId) (f : Link → Link) : (s.onLink l f).start = s.start := by
  cases l <;> rfl
@[simp] theorem State.onLink_observe (s : State) (l : LinkId) (f : Link → Link) : (s.onLink l f).observe = s.observe := by
  cases l <;> rfl

/-! ### State.raise -/

@[simp] theorem State.raise_pending (s : State) (c : Nat) (a : List Nat) : (s.raise c a).pending = s.pending := rfl
@[simp] theorem State.raise_now (s : State) (c : Nat) (a : List Nat) : (s.raise c a).now = s.now := rfl
@[simp] theorem State.raise_plumb (s : State) (c : Nat) (a : List Nat) : (s.raise c a).plumb = s.plumb := rfl
@[simp] theorem State.raise_freeCtr (s : State) (c : Nat) (a : List Nat) : (s.raise c a).freeCtr = s.freeCtr := rfl
@[simp] theorem State.raise_regs (s : State) (c : Nat) (a : List Nat) : (s.raise c a).regs = s.regs := rfl
@[simp] theorem State.raise_mem (s : State) (c : Nat) (a : List Nat) : (s.raise c a).mem = s.mem := rfl
@[simp] theorem State.raise_sealed (s : State) (c : Nat) (a : List Nat) : (s.raise c a).sealed = s.sealed := rfl
@[simp] theorem State.raise_sealLogged (s : State) (c : Nat) (a : List Nat) : (s.raise c a).sealLogged = s.sealLogged := rfl
@[simp] theorem State.raise_results (s : State) (c : Nat) (a : List Nat) : (s.raise c a).results = s.results := rfl
@[simp] theorem State.raise_out (s : State) (c : Nat) (a : List Nat) : (s.raise c a).out = s.out := rfl
@[simp] theorem State.raise_bricks (s : State) (c : Nat) (a : List Nat) : (s.raise c a).bricks = s.bricks := rfl
@[simp] theorem State.raise_tiles (s : State) (c : Nat) (a : List Nat) : (s.raise c a).tiles = s.tiles := rfl
@[simp] theorem State.raise_ports (s : State) (c : Nat) (a : List Nat) : (s.raise c a).ports = s.ports := rfl
@[simp] theorem State.raise_bridges (s : State) (c : Nat) (a : List Nat) : (s.raise c a).bridges = s.bridges := rfl
@[simp] theorem State.raise_points (s : State) (c : Nat) (a : List Nat) : (s.raise c a).points = s.points := rfl
@[simp] theorem State.raise_hbm (s : State) (c : Nat) (a : List Nat) : (s.raise c a).hbm = s.hbm := rfl
@[simp] theorem State.raise_power (s : State) (c : Nat) (a : List Nat) : (s.raise c a).power = s.power := rfl
@[simp] theorem State.raise_hod (s : State) (c : Nat) (a : List Nat) : (s.raise c a).hod = s.hod := rfl
@[simp] theorem State.raise_safety (s : State) (c : Nat) (a : List Nat) : (s.raise c a).safety = s.safety := rfl
@[simp] theorem State.raise_host (s : State) (c : Nat) (a : List Nat) : (s.raise c a).host = s.host := rfl
@[simp] theorem State.raise_start (s : State) (c : Nat) (a : List Nat) : (s.raise c a).start = s.start := rfl
@[simp] theorem State.raise_observe (s : State) (c : Nat) (a : List Nat) : (s.raise c a).observe = s.observe := rfl

/-! ### State.emit -/

@[simp] theorem State.emit_pending (s : State) (o : Output) : (s.emit o).pending = s.pending := rfl
@[simp] theorem State.emit_now (s : State) (o : Output) : (s.emit o).now = s.now := rfl
@[simp] theorem State.emit_plumb (s : State) (o : Output) : (s.emit o).plumb = s.plumb := rfl
@[simp] theorem State.emit_freeCtr (s : State) (o : Output) : (s.emit o).freeCtr = s.freeCtr := rfl
@[simp] theorem State.emit_regs (s : State) (o : Output) : (s.emit o).regs = s.regs := rfl
@[simp] theorem State.emit_mem (s : State) (o : Output) : (s.emit o).mem = s.mem := rfl
@[simp] theorem State.emit_sealed (s : State) (o : Output) : (s.emit o).sealed = s.sealed := rfl
@[simp] theorem State.emit_sealLogged (s : State) (o : Output) : (s.emit o).sealLogged = s.sealLogged := rfl
@[simp] theorem State.emit_events (s : State) (o : Output) : (s.emit o).events = s.events := rfl
@[simp] theorem State.emit_results (s : State) (o : Output) : (s.emit o).results = s.results := rfl
@[simp] theorem State.emit_bricks (s : State) (o : Output) : (s.emit o).bricks = s.bricks := rfl
@[simp] theorem State.emit_tiles (s : State) (o : Output) : (s.emit o).tiles = s.tiles := rfl
@[simp] theorem State.emit_ports (s : State) (o : Output) : (s.emit o).ports = s.ports := rfl
@[simp] theorem State.emit_bridges (s : State) (o : Output) : (s.emit o).bridges = s.bridges := rfl
@[simp] theorem State.emit_points (s : State) (o : Output) : (s.emit o).points = s.points := rfl
@[simp] theorem State.emit_hbm (s : State) (o : Output) : (s.emit o).hbm = s.hbm := rfl
@[simp] theorem State.emit_power (s : State) (o : Output) : (s.emit o).power = s.power := rfl
@[simp] theorem State.emit_hod (s : State) (o : Output) : (s.emit o).hod = s.hod := rfl
@[simp] theorem State.emit_safety (s : State) (o : Output) : (s.emit o).safety = s.safety := rfl
@[simp] theorem State.emit_host (s : State) (o : Output) : (s.emit o).host = s.host := rfl
@[simp] theorem State.emit_start (s : State) (o : Output) : (s.emit o).start = s.start := rfl
@[simp] theorem State.emit_observe (s : State) (o : Output) : (s.emit o).observe = s.observe := rfl

/-! ### State.settle -/

@[simp] theorem State.settle_pending (s : State) : (s.settle).pending = s.pending := rfl
@[simp] theorem State.settle_now (s : State) : (s.settle).now = s.now := rfl
@[simp] theorem State.settle_plumb (s : State) : (s.settle).plumb = s.plumb := rfl
@[simp] theorem State.settle_freeCtr (s : State) : (s.settle).freeCtr = s.freeCtr := rfl
@[simp] theorem State.settle_mem (s : State) : (s.settle).mem = s.mem := rfl
@[simp] theorem State.settle_sealed (s : State) : (s.settle).sealed = s.sealed := rfl
@[simp] theorem State.settle_sealLogged (s : State) : (s.settle).sealLogged = s.sealLogged := rfl
@[simp] theorem State.settle_events (s : State) : (s.settle).events = s.events := rfl
@[simp] theorem State.settle_results (s : State) : (s.settle).results = s.results := rfl
@[simp] theorem State.settle_out (s : State) : (s.settle).out = s.out := rfl
@[simp] theorem State.settle_bricks (s : State) : (s.settle).bricks = s.bricks := rfl
@[simp] theorem State.settle_tiles (s : State) : (s.settle).tiles = s.tiles := rfl
@[simp] theorem State.settle_ports (s : State) : (s.settle).ports = s.ports := rfl
@[simp] theorem State.settle_bridges (s : State) : (s.settle).bridges = s.bridges := rfl
@[simp] theorem State.settle_points (s : State) : (s.settle).points = s.points := rfl
@[simp] theorem State.settle_hbm (s : State) : (s.settle).hbm = s.hbm := rfl
@[simp] theorem State.settle_power (s : State) : (s.settle).power = s.power := rfl
@[simp] theorem State.settle_hod (s : State) : (s.settle).hod = s.hod := rfl
@[simp] theorem State.settle_safety (s : State) : (s.settle).safety = s.safety := rfl
@[simp] theorem State.settle_host (s : State) : (s.settle).host = s.host := rfl
@[simp] theorem State.settle_start (s : State) : (s.settle).start = s.start := rfl
@[simp] theorem State.settle_observe (s : State) : (s.settle).observe = s.observe := rfl

/-! ### The counter of free values -/

@[simp] theorem State.draw_pending (s : State) (n : Nat) : (s.draw n).2.pending = s.pending := rfl
@[simp] theorem State.draw_now (s : State) (n : Nat) : (s.draw n).2.now = s.now := rfl
@[simp] theorem State.draw_plumb (s : State) (n : Nat) : (s.draw n).2.plumb = s.plumb := rfl
@[simp] theorem State.draw_regs (s : State) (n : Nat) : (s.draw n).2.regs = s.regs := rfl
@[simp] theorem State.draw_mem (s : State) (n : Nat) : (s.draw n).2.mem = s.mem := rfl
@[simp] theorem State.draw_sealed (s : State) (n : Nat) : (s.draw n).2.sealed = s.sealed := rfl
@[simp] theorem State.draw_sealLogged (s : State) (n : Nat) : (s.draw n).2.sealLogged = s.sealLogged := rfl
@[simp] theorem State.draw_events (s : State) (n : Nat) : (s.draw n).2.events = s.events := rfl
@[simp] theorem State.draw_results (s : State) (n : Nat) : (s.draw n).2.results = s.results := rfl
@[simp] theorem State.draw_out (s : State) (n : Nat) : (s.draw n).2.out = s.out := rfl
@[simp] theorem State.draw_bricks (s : State) (n : Nat) : (s.draw n).2.bricks = s.bricks := rfl
@[simp] theorem State.draw_tiles (s : State) (n : Nat) : (s.draw n).2.tiles = s.tiles := rfl
@[simp] theorem State.draw_ports (s : State) (n : Nat) : (s.draw n).2.ports = s.ports := rfl
@[simp] theorem State.draw_bridges (s : State) (n : Nat) : (s.draw n).2.bridges = s.bridges := rfl
@[simp] theorem State.draw_points (s : State) (n : Nat) : (s.draw n).2.points = s.points := rfl
@[simp] theorem State.draw_hbm (s : State) (n : Nat) : (s.draw n).2.hbm = s.hbm := rfl
@[simp] theorem State.draw_power (s : State) (n : Nat) : (s.draw n).2.power = s.power := rfl
@[simp] theorem State.draw_hod (s : State) (n : Nat) : (s.draw n).2.hod = s.hod := rfl
@[simp] theorem State.draw_safety (s : State) (n : Nat) : (s.draw n).2.safety = s.safety := rfl
@[simp] theorem State.draw_host (s : State) (n : Nat) : (s.draw n).2.host = s.host := rfl
@[simp] theorem State.draw_start (s : State) (n : Nat) : (s.draw n).2.start = s.start := rfl
@[simp] theorem State.draw_observe (s : State) (n : Nat) : (s.draw n).2.observe = s.observe := rfl

/-! ### The end of a command -/

@[simp] theorem State.done_now (s t : State) : (s.done t).now = t.now := rfl
@[simp] theorem State.done_plumb (s t : State) : (s.done t).plumb = t.plumb := rfl
@[simp] theorem State.done_freeCtr (s t : State) : (s.done t).freeCtr = t.freeCtr := rfl
@[simp] theorem State.done_mem (s t : State) : (s.done t).mem = t.mem := rfl
@[simp] theorem State.done_sealed (s t : State) : (s.done t).sealed = t.sealed := rfl
@[simp] theorem State.done_sealLogged (s t : State) : (s.done t).sealLogged = t.sealLogged := rfl
@[simp] theorem State.done_events (s t : State) : (s.done t).events = t.events := rfl
@[simp] theorem State.done_results (s t : State) : (s.done t).results = t.results := rfl
@[simp] theorem State.done_out (s t : State) : (s.done t).out = t.out := rfl
@[simp] theorem State.done_bricks (s t : State) : (s.done t).bricks = t.bricks := rfl
@[simp] theorem State.done_tiles (s t : State) : (s.done t).tiles = t.tiles := rfl
@[simp] theorem State.done_ports (s t : State) : (s.done t).ports = t.ports := rfl
@[simp] theorem State.done_bridges (s t : State) : (s.done t).bridges = t.bridges := rfl
@[simp] theorem State.done_points (s t : State) : (s.done t).points = t.points := rfl
@[simp] theorem State.done_hbm (s t : State) : (s.done t).hbm = t.hbm := rfl
@[simp] theorem State.done_power (s t : State) : (s.done t).power = t.power := rfl
@[simp] theorem State.done_hod (s t : State) : (s.done t).hod = t.hod := rfl
@[simp] theorem State.done_safety (s t : State) : (s.done t).safety = t.safety := rfl
@[simp] theorem State.done_host (s t : State) : (s.done t).host = t.host := rfl
@[simp] theorem State.done_start (s t : State) : (s.done t).start = t.start := rfl
@[simp] theorem State.done_observe (s t : State) : (s.done t).observe = t.observe := rfl
@[simp] theorem State.done_pending (s t : State) : (s.done t).pending = s.pending := rfl
@[simp] theorem State.done_regs (s t : State) : (s.done t).regs = t.settle.regs := rfl
@[simp] theorem ended_next (s t : State) : ended s (.next t) = .next (s.done t) := rfl

/-- The one thing that an ended command can be: the state it leaves, brought to its end. -/
theorem ended_eq_next (s u : State) (o : Host.Outcome State Fault Refusal) (h : ended s o = .next u) : ∃ t, o = .next t ∧ u = s.done t := by
  cases o with
  | next t => exact ⟨t, rfl, by simpa using h.symm⟩
  | fault f => cases h
  | refused r => cases h

/-! ### Registers are read alike where the register file is the same -/

@[simp] theorem State.store_reg (s : State) (a : Nat) (bs : Bytes) (k : Nat) : (s.store a bs).reg k = s.reg k := rfl
@[simp] theorem State.store_rd (s : State) (a : Nat) (bs : Bytes) (g : FieldRef) : (s.store a bs).rd g = s.rd g := rfl
@[simp] theorem State.store_isSet (s : State) (a : Nat) (bs : Bytes) (g : FieldRef) : (s.store a bs).isSet g = s.isSet g := rfl
@[simp] theorem State.onBrick_reg (s : State) (b : Brick) (f : BrickState → BrickState) (k : Nat) : (s.onBrick b f).reg k = s.reg k := rfl
@[simp] theorem State.onBrick_rd (s : State) (b : Brick) (f : BrickState → BrickState) (g : FieldRef) : (s.onBrick b f).rd g = s.rd g := rfl
@[simp] theorem State.onBrick_isSet (s : State) (b : Brick) (f : BrickState → BrickState) (g : FieldRef) : (s.onBrick b f).isSet g = s.isSet g := rfl
@[simp] theorem State.onTile_reg (s : State) (t : Tile) (f : TileState → TileState) (k : Nat) : (s.onTile t f).reg k = s.reg k := rfl
@[simp] theorem State.onTile_rd (s : State) (t : Tile) (f : TileState → TileState) (g : FieldRef) : (s.onTile t f).rd g = s.rd g := rfl
@[simp] theorem State.onTile_isSet (s : State) (t : Tile) (f : TileState → TileState) (g : FieldRef) : (s.onTile t f).isSet g = s.isSet g := rfl
@[simp] theorem State.onLink_reg (s : State) (l : LinkId) (f : Link → Link) (k : Nat) : (s.onLink l f).reg k = s.reg k := by
  cases l <;> rfl
@[simp] theorem State.onLink_rd (s : State) (l : LinkId) (f : Link → Link) (g : FieldRef) : (s.onLink l f).rd g = s.rd g := by
  cases l <;> rfl
@[simp] theorem State.onLink_isSet (s : State) (l : LinkId) (f : Link → Link) (g : FieldRef) : (s.onLink l f).isSet g = s.isSet g := by
  cases l <;> rfl
@[simp] theorem State.raise_reg (s : State) (c : Nat) (a : List Nat) (k : Nat) : (s.raise c a).reg k = s.reg k := rfl
@[simp] theorem State.raise_rd (s : State) (c : Nat) (a : List Nat) (g : FieldRef) : (s.raise c a).rd g = s.rd g := rfl
@[simp] theorem State.raise_isSet (s : State) (c : Nat) (a : List Nat) (g : FieldRef) : (s.raise c a).isSet g = s.isSet g := rfl
@[simp] theorem State.emit_reg (s : State) (o : Output) (k : Nat) : (s.emit o).reg k = s.reg k := rfl
@[simp] theorem State.emit_rd (s : State) (o : Output) (g : FieldRef) : (s.emit o).rd g = s.rd g := rfl
@[simp] theorem State.emit_isSet (s : State) (o : Output) (g : FieldRef) : (s.emit o).isSet g = s.isSet g := rfl
@[simp] theorem State.draw_reg (s : State) (n : Nat) (k : Nat) : (s.draw n).2.reg k = s.reg k := rfl
theorem State.done_reg (s t : State) (k : Nat) : (s.done t).reg k = t.settle.reg k := rfl
@[simp] theorem State.draw_rd (s : State) (n : Nat) (g : FieldRef) : (s.draw n).2.rd g = s.rd g := rfl
theorem State.done_rd (s t : State) (g : FieldRef) : (s.done t).rd g = t.settle.rd g := rfl
@[simp] theorem State.draw_isSet (s : State) (n : Nat) (g : FieldRef) : (s.draw n).2.isSet g = s.isSet g := rfl
theorem State.done_isSet (s t : State) (g : FieldRef) : (s.done t).isSet g = t.settle.isSet g := rfl

/-! ### What an update puts in place -/

@[simp] theorem State.raise_events (s : State) (c : Nat) (a : List Nat) :
    (s.raise c a).events = s.events ++ [⟨c, a, s.plumb, s.isSet Reg.PLB_STAT_ALIGNED, false⟩] := rfl
@[simp] theorem State.emit_out (s : State) (o : Output) : (s.emit o).out = s.out ++ [o] := rfl
@[simp] theorem State.draw_freeCtr (s : State) (n : Nat) : (s.draw n).2.freeCtr = s.freeCtr + n := rfl
@[simp] theorem State.onBrick_brick_same (s : State) (b : Brick) (f : BrickState → BrickState) : (s.onBrick b f).brick b = f (s.brick b) := by
  simp [State.onBrick, State.brick]
theorem State.onBrick_brick_other (s : State) (b c : Brick) (f : BrickState → BrickState) (h : c ≠ b) : (s.onBrick b f).brick c = s.brick c := by
  have : b.val ≠ c.val := fun e => h (Fin.ext e.symm)
  simp [State.onBrick, State.brick, this]
@[simp] theorem State.onTile_tile_same (s : State) (t : Tile) (f : TileState → TileState) : (s.onTile t f).tile t = f (s.tile t) := by
  simp [State.onTile, State.tile]
theorem State.onTile_tile_other (s : State) (t u : Tile) (f : TileState → TileState) (h : u ≠ t) : (s.onTile t f).tile u = s.tile u := by
  have : t.val ≠ u.val := fun e => h (Fin.ext e.symm)
  simp [State.onTile, State.tile, this]
@[simp] theorem State.onLink_link_same (s : State) (l : LinkId) (f : Link → Link) : (s.onLink l f).link l = f (s.link l) := by
  cases l <;> simp [State.onLink, State.link]

end Sys2Proof.Machine
end

