-- ==== Sys2Proof/WellFormed.lean ====
section
/-! DEFINITION. Well-formed commands: what comes with a command has the size that the spec gives it, and names units that exist. Operands whose types
hold only legal values need no check. -/
namespace Sys2Proof

/-- A packet with a payload has SIZE bytes of it (R155). -/
def Packet.wellFormed (p : Packet) : Bool := p.payload.isEmpty || p.payload.length == p.size.toNat

/-- An operation moves at most 512 bytes (R46). -/
def Op.wellFormed (o : Op) : Bool := decide (o.size ≤ 512) && decide (o.payload.length ≤ 512)

/-- Reports name stacks, bricks, tiles, keys and seats that exist. -/
def MemEnv.wellFormed (e : MemEnv) : Bool :=
  e.decay.all (fun x => x.1 < 8) && e.unc.all (fun x => x.1 < 8) && e.corr.all (fun x => x < 8) && e.bedUnc.all (fun x => x.1 < 8) &&
  e.bedCorr.all (fun x => x < 4) && e.copyUnc.all (fun x => x.1 < 4) && e.slotLost.all (fun x => x.1 < 8) && e.storeUnc.all (fun x => x.1 < 128) &&
  e.masonUnc.all (fun x => x.1 < 128) && e.masonCorr.all (fun x => x < 128) && e.glazeUnc.all (fun x => x.1 < 128) && e.keyUnc.all (fun x => x < 256) &&
  e.seatUnc.all (fun x => x < 65535)

/-- A test counts at most eight lanes (R115). -/
def LaneTest.wellFormed (t : LaneTest) : Bool := decide (t.corrected.length ≤ 8)

/-- A package has eight regulators and eight stacks (R788). -/
def Modules.wellFormed (m : Modules) : Bool := decide (m.regulators.length ≤ 8) && decide (m.hbm.length ≤ 8)

/-- What is kept of each brick is kept of four (R771, R783). -/
def Factory.wellFormed (f : Factory) : Bool := f.fuses.fmax.length == 4 && f.retire.length == 4 && f.spare.length == 4

/-- A port has eight receive lanes, each of which delivers whole bytes; a flit of a bridge has 256 bytes (R78, R126). -/
def Arrival.fits (a : Arrival) (l : LinkId) : Bool := match l, a with
  | .port _, .lanes levels => levels.length == 8 && levels.all (fun x => x.length % 4 == 0)
  | .bridge _ _, .module _ flit => flit.length == 256
  | _, _ => false

/-- Whether a command is well formed. -/
def Instr.wellFormed : Instr → Bool
  | .registerWrite _ _ _ _ e => e.wellFormed
  | .rcFieldRead _ _ _ => true
  | .operationIssue _ _ op => op.wellFormed
  | .flowEntryFreedSend _ => true
  | .outmaxRelease _ _ => true
  | .heldOperationSend _ => true
  | .heldOperationUnreachable _ _ _ => true
  | .packetRoute _ p _ => p.wellFormed
  | .waitingPacketSend _ => true
  | .waitingPacketAgeOut _ => true
  | .reqReceive _ p e => p.wellFormed && e.wellFormed
  | .retentionStoreResume _ e => e.wellFormed
  | .rspReceive _ p => p.wellFormed
  | .te2eExpiry _ _ _ => true
  | .probeResend _ _ => true
  | .prbReceive _ p => p.wellFormed
  | .praReceive _ p => p.wellFormed
  | .staleSourceResend _ _ _ => true
  | .flowReopen _ _ => true
  | .wrongSeatCastWaitExpiry _ _ _ => true
  | .fackSend _ _ => true
  | .fackReceive _ p => p.wellFormed
  | .flowClose _ _ => true
  | .fclsReceive _ p => p.wellFormed
  | .fcaReceive _ p => p.wellFormed
  | .fclsRepeat _ _ => true
  | .flowResetStart _ _ => true
  | .frstSend _ _ => true
  | .frstReceive _ p => p.wellFormed
  | .fraReceive _ p => p.wellFormed
  | .frstRepeat _ _ => true
  | .seatCast _ _ => true
  | .seatTblWrite _ _ => true
  | .castReceive _ p => p.wellFormed
  | .incarnationQuarantineEnd => true
  | .mrtTtmoWrite _ _ => true
  | .flitReceive l a => a.fits l
  | .nakReceive _ => true
  | .acktmrExpiry _ => true
  | .tlimitExpiry _ => true
  | .fastRetrainTimeout _ => true
  | .downReceive _ => true
  | .lossOfLock _ _ => true
  | .portEnable _ => true
  | .portDisable _ => true
  | .retrain _ => true
  | .holdclr _ => true
  | .trainingWordReceive _ _ word => word.length == 128
  | .trainingStateAdvance _ t => t.wellFormed
  | .trainingTimeout _ => true
  | .trainingRetry _ => true
  | .detectRepeat _ => true
  | .neighbourAbsent _ => true
  | .credinitReceive _ => true
  | .tsreqReceive _ => true
  | .tsrspReceive _ => true
  | .modulePresenceChange _ _ _ _ m _ => m.lower.length == 18
  | .correctedRateHigh _ _ => true
  | .laneDriverFault _ _ => true
  | .bridgeLinkUp _ _ _ _ _ => true
  | .bridgeModuleRemove _ _ _ => true
  | .copyFill _ _ data _ _ _ e => data.length == 128 && e.wellFormed
  | .copyEvict _ _ _ => true
  | .wake _ => true
  | .waitTimeout _ _ _ _ _ => true
  | .wchkSend _ => true
  | .releaseSend _ => true
  | .domainRequest _ _ => true
  | .domainTransitionStart => true
  | .domainTransitionDone _ _ _ e => e.wellFormed
  | .domainFault _ e => e.wellFormed
  | .freqWrite _ _ => true
  | .tileClockSwitchDone _ => true
  | .referenceClockLoss _ e => e.wellFormed
  | .groutRead _ _ n _ e => n.val != 0 && e.wellFormed
  | .foldEntryEvict _ _ e => e.wellFormed
  | .bedLineEvict _ _ e => e.wellFormed
  | .foldChg _ _ => true
  | .granuleChangeDone _ e => e.wellFormed
  | .drain0 _ e => e.wellFormed
  | .drain1 _ e => e.wellFormed
  | .temperatureBandChange _ _ => true
  | .phyTrainingLoss _ => true
  | .pgcClr _ _ => true
  | .pageClearDone _ => true
  | .remapInstall _ _ => true
  | .remapInstallDone _ e => e.wellFormed
  | .remapRelease _ _ e => e.wellFormed
  | .passStart _ => true
  | .passSuspend _ => true
  | .passResume _ => true
  | .passCancel _ => true
  | .passPage _ e => e.wellFormed
  | .passEnd _ => true
  | .softRepair _ _ e => e.wellFormed
  | .labelGrant _ _ _ => true
  | .labelWindowStart _ => true
  | .aluAdd _ e => e.wellFormed
  | .aluSub _ e => e.wellFormed
  | .aluAnd _ e => e.wellFormed
  | .aluOr _ e => e.wellFormed
  | .aluXor _ e => e.wellFormed
  | .aluAndn _ e => e.wellFormed
  | .aluSll _ e => e.wellFormed
  | .aluSrl _ e => e.wellFormed
  | .aluSra _ e => e.wellFormed
  | .aluMul _ e => e.wellFormed
  | .aluMulh _ e => e.wellFormed
  | .aluMulhu _ e => e.wellFormed
  | .aluDiv _ e => e.wellFormed
  | .aluDivu _ e => e.wellFormed
  | .aluRem _ e => e.wellFormed
  | .aluRemu _ e => e.wellFormed
  | .aluCmpeq _ e => e.wellFormed
  | .aluCmplt _ e => e.wellFormed
  | .aluCmpltu _ e => e.wellFormed
  | .aluMin _ e => e.wellFormed
  | .aluMax _ e => e.wellFormed
  | .aluMinu _ e => e.wellFormed
  | .aluMaxu _ e => e.wellFormed
  | .aluClz _ e => e.wellFormed
  | .aluCtz _ e => e.wellFormed
  | .aluPopc _ e => e.wellFormed
  | .aluAddw _ e => e.wellFormed
  | .aluSubw _ e => e.wellFormed
  | .addi _ e => e.wellFormed
  | .andi _ e => e.wellFormed
  | .ori _ e => e.wellFormed
  | .xori _ e => e.wellFormed
  | .shiSll _ e => e.wellFormed
  | .shiSrl _ e => e.wellFormed
  | .shiSra _ e => e.wellFormed
  | .movw _ e => e.wellFormed
  | .movk _ e => e.wellFormed
  | .ld _ e => e.wellFormed
  | .st _ e => e.wellFormed
  | .masonLoadReturn _ => true
  | .postedOutcome _ => true
  | .atom _ e => e.wellFormed
  | .bopSigadd _ e => e.wellFormed
  | .bopWaitge _ e => e.wellFormed
  | .bopWaiteq _ e => e.wellFormed
  | .bopTest _ e => e.wellFormed
  | .bopReset _ e => e.wellFormed
  | .bopArmto _ e => e.wellFormed
  | .bopWcancel _ e => e.wellFormed
  | .bopArmsig _ e => e.wellFormed
  | .bopDisarm _ e => e.wellFormed
  | .bopPoison _ e => e.wellFormed
  | .cfence _ e => e.wellFormed
  | .rel _ e => e.wellFormed
  | .acq _ e => e.wellFormed
  | .acqf _ e => e.wellFormed
  | .twait _ e => e.wellFormed
  | .drain _ e => e.wellFormed
  | .wsl _ e => e.wellFormed
  | .tcmd _ e => e.wellFormed
  | .rds _ e => e.wellFormed
  | .br _ e => e.wellFormed
  | .brs _ e => e.wellFormed
  | .call _ e => e.wellFormed
  | .jlnk _ e => e.wellFormed
  | .enter _ e => e.wellFormed
  | .leave _ e => e.wellFormed
  | .nop _ e => e.wellFormed
  | .yld _ e => e.wellFormed
  | .brk _ e => e.wellFormed
  | .halt _ e => e.wellFormed
  | .srd _ e => e.wellFormed
  | .swr _ e => e.wellFormed
  | .xret _ e => e.wellFormed
  | .susp _ e => e.wellFormed
  | .spillw _ e => e.wellFormed
  | .fillw _ e => e.wellFormed
  | .masonStart _ => true
  | .masonStop _ => true
  | .suspreq _ => true
  | .masonResume _ => true
  | .clrflt _ => true
  | .mma _ _ e => e.wellFormed
  | .pmode _ => true
  | .pressCommandComplete _ => true
  | .pressClrq _ => true
  | .rinj _ => true
  | .vld _ e => e.wellFormed
  | .vst _ e => e.wellFormed
  | .vbc _ e => e.wellFormed
  | .glzAdd _ e => e.wellFormed
  | .glzSub _ e => e.wellFormed
  | .glzMul _ e => e.wellFormed
  | .fma _ e => e.wellFormed
  | .glzMin _ e => e.wellFormed
  | .glzMax _ e => e.wellFormed
  | .abs _ e => e.wellFormed
  | .neg _ e => e.wellFormed
  | .glzAnd _ e => e.wellFormed
  | .glzOr _ e => e.wellFormed
  | .glzXor _ e => e.wellFormed
  | .glzAndn _ e => e.wellFormed
  | .cmp _ e => e.wellFormed
  | .sel _ e => e.wellFormed
  | .cvt _ e => e.wellFormed
  | .qnt _ e => e.wellFormed
  | .redSum _ e => e.wellFormed
  | .redMax _ e => e.wellFormed
  | .redMin _ e => e.wellFormed
  | .redArgmax _ e => e.wellFormed
  | .redCount _ e => e.wellFormed
  | .sfnExp _ e => e.wellFormed
  | .sfnExp2 _ e => e.wellFormed
  | .sfnLog _ e => e.wellFormed
  | .sfnRec _ e => e.wellFormed
  | .sfnRsq _ e => e.wellFormed
  | .sfnTanh _ e => e.wellFormed
  | .sfnSigmoid _ e => e.wellFormed
  | .sfnErf _ e => e.wellFormed
  | .clrs _ e => e.wellFormed
  | .clrn _ e => e.wellFormed
  | .smx _ e => e.wellFormed
  | .nacc _ e => e.wellFormed
  | .mrg _ e => e.wellFormed
  | .rstatRd _ e => e.wellFormed
  | .glazeCommandComplete _ => true
  | .glazeClrq _ => true
  | .gather _ e => e.wellFormed
  | .sieveYard _ e => e.wellFormed
  | .dispatch _ e => e.wellFormed
  | .combine _ e => e.wellFormed
  | .points _ e => e.wellFormed
  | .sieveCommandComplete _ => true
  | .sieveSusp _ => true
  | .sieveSuspensionPoint _ => true
  | .sieveResume _ => true
  | .sieveCancel _ => true
  | .sieveClrq _ => true
  | .scowCopyDone _ e => e.wellFormed
  | .epochAutoAdvance _ e => e.wellFormed
  | .yardFormat _ => true
  | .yardFormatDone _ e => e.wellFormed
  | .yardEnable _ e => e.wellFormed
  | .enableScanDone _ e => e.wellFormed
  | .treeFormat _ => true
  | .treeEnable _ e => e.wellFormed
  | .keyInstall _ _ => true
  | .pfxKclr _ _ => true
  | .jobStart _ => true
  | .jobSuspend _ => true
  | .jobResume _ => true
  | .jobCancel _ => true
  | .jobItem _ e => e.wellFormed
  | .jobEnd _ => true
  | .doorbell _ _ => true
  | .completionHead _ _ => true
  | .dropWrite _ data => !data.isEmpty
  | .hdmMemrd _ _ _ _ => true
  | .hdmMemwr _ _ _ data _ => data.length == 64
  | .bisnpResponse _ _ wb e => wb.all (fun d => d.length == 64) && e.wellFormed
  | .h2dSnoop _ => true
  | .commandFetch _ data _ => data.length == 64
  | .cmdNop => true
  | .cmdSuspend => true
  | .cmdResume => true
  | .cmdCancel => true
  | .cmdPolicy => true
  | .cmdYard => true
  | .cmdRun => true
  | .cmdCopy => true
  | .cmdScrub => true
  | .cmdPfxjob => true
  | .cmdSlabjob => true
  | .cmdMemtest => true
  | .cmdFwstage => true
  | .longOpStart => true
  | .longOpSuspensionPoint _ e => e.wellFormed
  | .longOpEnd _ => true
  | .interimCompletion _ => true
  | .completionRingRoom _ => true
  | .msixSignal _ => true
  | .hostLoss _ e => e.wellFormed
  | .hldebExpiry e => e.wellFormed
  | .snoopFilterSettle e => e.wellFormed
  | .manifestWrite => true
  | .freeze => true
  | .attach _ => true
  | .discard _ => true
  | .hostLinkUp _ _ _ _ e => e.wellFormed
  | .seal => true
  | .bsload => true
  | .activate => true
  | .restart => true
  | .clrswap => true
  | .watchdogExpiry => true
  | .trialTimeout => true
  | .imageCommit => true
  | .bootRom _ m _ => m.wellFormed
  | .recovery _ => true
  | .sensorSample _ _ => true
  | .stackTempRead _ _ e => e.wellFormed
  | .coolantRead _ _ => true
  | .leak => true
  | .voltageOutOfWindow _ _ e => e.wellFormed
  | .overcurrent _ _ e => e.wellFormed
  | .overcurrentClockRestart _ => true
  | .pmbAlert _ _ _ _ e => e.wellFormed
  | .telemetryPoll _ _ _ => true
  | .grantCompute meas _ => meas.length == 4
  | .eventLog => true
  | .logPersist _ => true
  | .logDropReport => true
  | .logFetch _ => true
  | .busRecovery _ _ => true
  | .busRetry _ _ => true
  | .getVersion _ => true
  | .getCapabilities _ => true
  | .negotiateAlgorithms _ => true
  | .getDigests _ => true
  | .getCertificate _ => true
  | .challenge _ => true
  | .getMeasurements _ => true
  | .powerOn f => f.all (fun f => f.wellFormed)
  | .coldReset => true
  | .coldResetRelease => true
  | .mainPowerLoss => true
  | .mainPwrgdRise _ => true
  | .mainPwrgdTimeout => true
  | .fabricReady => true
  | .perstDeassert => true
  | .breset _ => true
  | .brickWarmReset _ e => e.wellFormed
  | .brickPowerCycle _ => true
  | .shadowVisitEnd _ => true
  | .shadowJoin _ _ => true
  | .shadowMismatch _ _ => true
  | .fence _ _ => true
  | .unfence _ _ => true
  | .stest _ _ => true
  | .siteTestDone _ _ => true
  | .autotestStart _ => true
  | .rotationPause _ _ => true
  | .brickSafeState _ _ e => e.wellFormed
  | .autoBrickReset _ e => e.wellFormed
  | .brickSafeEscalate _ e => e.wellFormed
  | .packageSafeState _ e => e.wellFormed
  | .syncInterval => true
  | .holdoverLimit => true
  | .samplerInstant _ => true
  | .ringRecordWrite _ => true
  | .ringEnable _ _ => true
  | .consWrite _ _ _ => true
  | .pull => true
  | .pullDone => true
  | .pcSample _ _ => true
  | .lossMarker _ => true
  | .dropEventReport _ _ => true
  | .counterClear _ => true
  | .referenceClockRestored _ => true
  | .hodRestartComplete => true
  | .treeFormatDone _ e => e.wellFormed
  | .stackPhyRetrainDone _ _ e => e.wellFormed
  | .hostCacheResponse _ _ data e => decide (data.length ≤ 512) && e.wellFormed

end Sys2Proof
end

