-- ==== Sys2Proof/Tests/Slice0.lean ====
section
/-! SUPPORT. The model's own tests: a smoke test of well-formedness with an ill-formed command for each check, words of mason instructions written out
from the tables of R490 to R503, worked cases of the spec and published check values, and for each obligation with hypotheses a witness: a state and
operands that meet the hypotheses of each of its clauses together. -/
open Sys2Proof Sys2Proof.Machine
namespace Sys2Proof.Tests
set_option Elab.async false

/-- A package in service: every uncore and stack and the site of tile 0 ON, Hod running, start over, 10 ms after power-on. -/
def live : State :=
  { State.reset with
    regs := ([0, 132, 133, 134, 135, 136, 137, 138, 139, 140, 141, 142, 143] : List Nat).map (fun d => (Reg.PWR_DOM d, 3 * 2 ^ (Reg.PWR_DOM_CUR d).lo)),
    now := 10000000, hod := { State.reset.hod with running := true },
    start := { State.reset.start with rstLow := false, mainGood := true, phase := 6 } }

/-- The same package with some fields of its registers set. -/
def setting (fs : List (FieldRef × Nat)) (s : State) : State := fs.foldl (fun s f => s.wr f.1 f.2) s

/-- The same package with a seat table: seat 1 its own, seat 2 Live with generation 3, seat 4 Held. -/
def seated : State := setting
  [(Reg.SEAT_PID_PID, 7), (Reg.SEAT_TBL_ENTRY 1, 0x00070140), (Reg.SEAT_TBL_ENTRY 2, 0x00090340), (Reg.SEAT_TBL_ENTRY 4, 0x00080180)] live

/-- An operation on an address. -/
def opAt (a : Nat) : Op := { addr := BitVec.ofNat 64 a, opc := 0x01, aux := 0, lbl := 3, size := 8, payload := [] }

/-- A source flow toward brick 0 of seat 2, and an operation of it. -/
def flow2 : SrcFlow := { dseat := 2, dgen := 3, dbrk := 0, lbl := 3, next := 6, sseat := 1, sgen := 1, dpid := 9 }
def id2 : FlowId := { seat := 2, gen := 3, brk := 0, lbl := 3, sseat := 1, sgen := 1 }
def srcOp5 : SrcOp := { seq := 5, no := 0, att := 1, op := opAt 0x2000000000000, issuer := .engine 0, left := true }

/-- The package with one source flow, and with the requests that wait, at brick 0. -/
def withFlow (f : SrcFlow) : State := seated.onBrick 0 (fun B => { B with srcFlows := [f] })
def withWait (w : WaitOp) (s : State) : State := s.onBrick 0 (fun B => { B with waitOps := [w] })
def waits (a : Nat) (why : WaitWhy) : WaitOp := { op := opAt a, no := 0, issuer := .engine 0, why := why, readyAt := 0 }

/-- A sound packet of brick 0 of seat 2 for brick 0 of seat 1, and the package that it has reached. -/
def packetLike (p : Packet) : Packet := packetSeal { p with
  len := BitVec.ofNat 7 (lenOf p.ptype.toNat p.opc.toNat p.size.toNat) }
def hasCome (p : Packet) (s : State) : State := s.onBrick 0 (fun B => { B with arrived := [p] })

/-- The register that covers an offset. -/
def regOf (off : Nat) : RegSpec :=
  ((regAt off).map (fun x => x.1)).getD { name := "", base := 0, width := 64, stride1 := 1, count1 := 1, stride2 := 1, count2 := 1, fields := [] }

/-- A packet of brick 0 of seat 2 for brick 0 of seat 1, and a destination flow it belongs to. -/
def from2 (pt : Nat) (p : Packet) : Packet := packetLike { p with
  ptype := BitVec.ofNat 4 pt, sseat := 2, sgen := 3, gen := 1, addr := 0x1000000000000, lbl := 3 }
def dst2 : DstFlow := { sseat := 2, sgen := 3, sbrk := 0, lbl := 3, fep := 0, attMin := 0 }
def withDst (f : DstFlow) (s : State) : State := s.onBrick 0 (fun B => { B with dstFlows := [f] })

/-- A message in the inbox of port 0, and port 0 in a state of R104. -/
def message (m : Nat × Bytes) (s : State) : State := s.onLink (.port 0) (fun L => { L with inbox := [m] })
def portIn (st : Nat) : State := setting [(Reg.MRT_PSTAT_STATE 0, st), (Reg.MRT_PCTL_EN 0, 1)] live

/-- A release of tile 0, and the package in which it waits. -/
def release (range : Bool) : Release :=
  { op := opAt 0, range := range, homes := [(1, 0)], issuer := .masonRelm 0, before := 0, left := [] }
def releasing (r : Release) (failed : List FailedOp) : State := live.onTile 0 (fun T => { T with releases := [r], failed := failed })
def tsrsp : Nat × Bytes := (512, [2, 0, 0, 0, 0, 0, 0, 0] ++ leBytes 8 1 ++ leBytes 8 0 ++ leBytes 8 256)

/-- A training word with an intact CRC (R102). -/
def intact : Bytes :=
  let w : Bytes := leBytes 4 0x96C35A4C ++ List.replicate 24 0
  w ++ leBytes 4 (crc32c w)

/-- A test that finds every lane present and without errors. -/
def quietLanes : LaneTest := { openTx := 0, shortTx := 0, eqDone := true, corrected := List.replicate 8 0, alone := 0 }

/-- Tile 0 with an instruction word at PC 0 of its mason store, its mason Running; and what the fetch leaves. -/
def masonAt (w : Nat) (f : Mason → Mason := id) : State :=
  (live.storeNum (masonStoreKey 0 0) 4 w).onMason 0 (fun m => f { m with run := .running, res := 1 })
def fetched (s : State) : State := (boundary 0 MemEnv.quiet s).2

/-- A tile command, and the package in which it is the one command of a unit of tile 0. -/
def cmdOf (w : Nat) : TileCmd := { word := w, lbl := 0, rtz := false, ieee := false }
def pressing (w : Nat) : State := live.onTile 0 (fun T => { T with press := { T.press with queue := [cmdOf w] } })
def glazing (w : Nat) (slot : RowSlot := .empty) : State :=
  live.onTile 0 (fun T => { T with glaze := { T.glaze with queue := [cmdOf w], slots := tabSet .empty [] 0 slot } })
def sieving (st : Nat) (r : Option SieveRun) : State :=
  setting [(Reg.SVE_STAT_STATE 0, st)] (live.onTile 0 (fun T => { T with sieve := { T.sieve with run := r } }))

/-- A descriptor of the press: one product of 1 × 1 × 1 with its result at 0x1000. -/
def pressBytes : Bytes := leBytes 4 0 ++ leBytes 4 0x40 ++ leBytes 4 0x1000 ++ leBytes 4 0 ++ leBytes 2 1 ++ leBytes 2 1 ++ leBytes 2 1 ++ List.replicate 42 0

/-- A sieve command in progress, and a glaze command. -/
def sieveRun : SieveRun := { cmd := cmdOf 0x201, desc := [], pos := .gather { phase := .entry } }

/-- The package with tile 0's sieve holding one command, and its descriptor at 0x2000. -/
def sieveCmd (w n d : Nat) (s : State := live) : State :=
  (s.storeNum (tileStoreKey 0 0x2000) n d).onTile 0 (fun T => { T with sieve := { T.sieve with queue := [cmdOf w] } })

/-- Stack 0 with a window of 4,096 pages, and a pass over it. -/
def windowed : State := setting [(Reg.STK_STAT_WTOP 0, 4096)] live
def passOf : Pass := { first := 0, count := 8, interval := 10, lbl := 3, remap := true, spares := false, summary := false, sumAddr := 0, hostId := none, startedAt := 0 }
def passing (st : Nat) (p : Pass := passOf) : State := setting [(Reg.PGC_SSTAT_STATE 0, st)] (windowed.onStack 0 (fun S => { S with pass := some p }))
def onStack0 (f : StackState → StackState) : State := windowed.onStack 0 f

/-- A yard of one slab on stack 0 with its table at page 16, and a tree of one bucket and two nodes. -/
def yarded (fs : List (FieldRef × Nat)) : State := setting
  ([(Reg.SLB_TBASE_OFFSET 0, 16), (Reg.SLB_DCNT_N0 0, 1), (Reg.PFX_NBASE_OFFSET 0, 32), (Reg.PFX_BBASE_OFFSET 0, 48), (Reg.PFX_NCNT_NCOUNT 0, 2)] ++ fs) windowed
def jobOf : YardJob := { desc := [5, 0, 0, 0] ++ List.replicate 28 0, hostId := none, startedAt := 0, epoch := 0 }
def working (st : Nat) (j : YardJob := jobOf) : State :=
  (yarded [(Reg.SLB_JSTAT_STATE 0, st), (Reg.SLB_JSTAT_PHASE 0, 1), (Reg.SLB_JSTAT_NEXT 0, 8), (Reg.SLB_STATE_READY 0, 1), (Reg.SLB_DCNT_N0 0, 2)]).onYard 0
    (fun Y => { Y with job := some j })
def copyOf : SlabCopy := { src := 8, dst := 9, owner := 1, pkt := Packet.zero }

/-- A pair by its first part. -/
theorem pair_of_fst {α β : Type} {x : α × β} {u : α} (h : x.1 = u) : x = (u, x.2) := h ▸ rfl

/-- The package with its host link up and the host attached. -/
def attachedTo (s : State) : State := setting [(Reg.HST_STAT_LINKUP, 1), (Reg.HST_STAT_CXLM, 1), (Reg.HST_STAT_ATTACHED, 1), (Reg.HST_CBASE_EN 31, 1)] s
def withHost (f : HostState → HostState) : State := { attachedTo windowed with host := f windowed.host }

/-- A command 1 of ring 31 that has been accepted, and a long operation 2 that has not begun. -/
def recOf (w : Nat) : HostRec := { entry := leBytes 64 w, ring := 31, state := 0, status := 0, result := List.replicate 16 0 }
def opTwo : HostOp := { id := 2, ring := 31, entry := leBytes 64 (2 + 0x21 * 2 ^ 64) }
def taking (w : Nat) (ops : List HostOp := []) (s : State := windowed) : State :=
  { attachedTo s with host := { s.host with record := [recOf w], accepted := [1], ops := ops } }
def takenUp (s : State) : State := { s with host := { s.host with accepted := [] } }
theorem taken {opc : Nat} {s : State} {r : HostRec} (h1 : s.host.accepted = [1]) (h2 : s.recordOf 1 = some r) (h3 : entryOpc r.entry = opc) :
    takeCommand opc s = some (r, takenUp s) := by
  simp [takeCommand, takenUp, h1, h2, h3]

/-- The package with domain requests that wait and transitions in progress. -/
def powering (queue moving : List (Nat × Nat)) (s : State := windowed) : State := { s with power := { s.power with queue := queue, moving := moving } }

/-- The package in a phase of its start, and with Hod changed. -/
def starting (f : StartState → StartState) : State := { live with start := f live.start }
def withHod (f : HodState → HodState) : State := { live with hod := f live.hod }
def withSafety (f : SafetyState → SafetyState) (s : State := live) : State := { s with safety := f s.safety }
def noModules : Modules := {}

/-- A log record whose number is 5, with its CRC (R780). -/
def logged5 : Bytes :=
  let r : Bytes := List.replicate 8 0 ++ leBytes 4 5 ++ List.replicate 48 0
  r ++ leBytes 4 (crc32c r)

/-- An SPDM requester that has agreed the algorithms. -/
def agreed : State := withHod (fun H => { H with spdm := { version := true, caps := true, algs := true } })
def traced (l : ObsLost) : State := (setting [(Reg.OBS_TRC_EN 0, 1)] live).onBrick 0 (fun B => { B with obsLost := l })
theorem mason_next {t : Tile} {e : MemEnv} {s : State} {op : MOp} {w : Nat} (h : (boundary t e s).1 = some (op, w)) :
    MasonAt t e s op w (boundary t e s).2 := pair_of_fst h
theorem some_of_isSome {α : Type} {x : Option α} (d : α) (h : x.isSome = true) : x = some (x.getD d) := by
  cases x with
  | none => cases h
  | some v => rfl
theorem some_pair {α : Type} {x : Option (α × State)} {r : α} (h : x.map Prod.fst = some r) : x = some (r, (x.map Prod.snd).getD live) := by
  cases x with
  | none => cases h
  | some v => cases h; rfl

/-- A flit of TYPE 1 whose other fields are zero, with a CRC. Its CRC is evaluated in steps, through zeros in a row. -/
def flit1 (c : Nat) : Flit := { flitOf ([1] ++ List.replicate 255 0) with crc := BitVec.ofNat 32 c }
def crcOver (bs : Bytes) (r : Nat) : Nat := bs.foldl (crcByte 0x82F63B78) r
def zeros (n : Nat) : Bytes := List.replicate n 0
theorem crc32c_over (bs : Bytes) : crc32c bs = Nat.xor (crcOver bs 0xFFFFFFFF) 0xFFFFFFFF := rfl
theorem crcOver_append (a b : Bytes) (r : Nat) : crcOver (a ++ b) r = crcOver b (crcOver a r) := by simp only [crcOver, List.foldl_append]
theorem crc0 : crcOver (zeros 19) (crcOver [1] 0xFFFFFFFF) = 1954111100 := by decide +kernel
theorem crc1 : crcOver (zeros 29) 1954111100 = 2693478291 := by decide +kernel
theorem crc2 : crcOver (zeros 29) 2693478291 = 3615981300 := by decide +kernel
theorem crc3 : crcOver (zeros 29) 3615981300 = 1765713685 := by decide +kernel
theorem crc4 : crcOver (zeros 29) 1765713685 = 2909128515 := by decide +kernel
theorem crc5 : crcOver (zeros 29) 2909128515 = 2708434784 := by decide +kernel
theorem crc6 : crcOver (zeros 29) 2708434784 = 2483141222 := by decide +kernel
theorem crc7 : crcOver (zeros 29) 2483141222 = 1264855285 := by decide +kernel
theorem crc8 : crcOver (zeros 29) 1264855285 = 2352940235 := by decide +kernel
def flit1Bytes : Bytes := [1] ++ (zeros 19 ++ (zeros 29 ++ (zeros 29 ++ (zeros 29 ++ (zeros 29 ++ (zeros 29 ++ (zeros 29 ++ (zeros 29 ++ zeros 29))))))))
theorem flit1_body (c : Nat) : flitBody (flit1 c) = flit1Bytes := by
  show leBytes 20 (flitHeader (flit1 0)) ++ padTo 232 (flit1 0).area = flit1Bytes
  rw [show leBytes 20 (flitHeader (flit1 0)) = [1] ++ zeros 19 from by decide +kernel, show padTo 232 (flit1 0).area = zeros 232 from rfl]
  simp only [flit1Bytes, zeros, List.append_assoc, List.replicate_append_replicate]
theorem flit1_over : crcOver flit1Bytes 0xFFFFFFFF = 2352940235 := by
  unfold flit1Bytes
  simp only [crcOver_append]
  rw [crc0, crc1, crc2, crc3, crc4, crc5, crc6, crc7, crc8]
theorem flit1_crc (c : Nat) : crc32c (flitBody (flit1 c)) = 1942027060 := by
  rw [flit1_body, crc32c_over, flit1_over]
  decide +kernel
theorem flit1_sealed : flit1 1942027060 = flitSeal (flit1 1942027060) := by unfold flitSeal; rw [flit1_crc]; rfl
theorem flit1_unsealed : flit1 0 ≠ flitSeal (flit1 0) := by
  intro h
  have h := congrArg Flit.crc h
  unfold flitSeal at h
  rw [flit1_crc] at h
  exact absurd h (by decide)

/-- The levels by which a block comes over two lanes, and a port that is Active on two lanes. -/
def blockLevels (block : Bytes) : List (List Level) :=
  [levelsOf (laneOut 0 0 0 (stripeOf 2 0 block)).2.2, levelsOf (laneOut 0 0 0 (stripeOf 2 1 block)).2.2]
def twoLanes : State := setting [(Reg.MRT_PSTAT_RXLIVE 0, 3), (Reg.MRT_PSTAT_RXW 0, 1)] (portIn 8)
/-- The flit above as a wire block, and a block that neither codeword accepts. -/
def soundBlock : Bytes := [1] ++ zeros 251 ++ [52, 251, 192, 115, 110, 226, 182, 104, 28, 212, 12, 242, 197, 88, 188, 177, 80, 115, 20, 190]
def badBlock : Bytes := 1 :: (List.range 271).map (fun i => BitVec.ofNat 8 (i * i + 7))
theorem sound_comes : (takeBlock 0 (blockLevels soundBlock) twoLanes).1 = soundBlock := by decide +kernel
theorem sound_decodes : fecDecode soundBlock = some (soundBlock.take 256, []) := by decide +kernel
theorem sound_flit : flitOf (soundBlock.take 256) = flit1 1942027060 := by decide +kernel
theorem bad_comes : (takeBlock 0 (blockLevels badBlock) twoLanes).1 = badBlock := by decide +kernel
theorem bad_refused : fecDecode badBlock = none := by decide +kernel

/-- Whether a command completed. -/
def isNext : Host.Outcome State Fault Refusal → Bool
  | .next _ => true
  | _ => false
theorem next_of {o : Host.Outcome State Fault Refusal} (h : isNext o = true) : ∃ t, o = .next t := by
  cases o with
  | next t => exact ⟨t, rfl⟩
  | fault _ => cases h
  | refused _ => cases h

/-! ### Well-formed commands -/

/-- A command of each kind that well-formedness checks is accepted with operands that fit (R78, R102, R115, R126, R155, R46, R788). -/
theorem test_wellFormed_accepts : ([
  .registerWrite (.request) 0 true 0 MemEnv.quiet, .operationIssue 0 (.engine 0) (opAt 0), .packetRoute 0 { Packet.zero with size := 8, payload := leBytes 8 1 } 0,
  .flitReceive (.port 0) (.lanes (List.replicate 8 (List.replicate 136 0))), .flitReceive (.bridge 0 0) (.module 0 (List.replicate 256 0)),
  .trainingWordReceive 0 0 (levelsOf intact), .modulePresenceChange 0 true true 0 { cls := 1, lower := List.replicate 18 0, ident := [] } false,
  .trainingStateAdvance 0 quietLanes, .copyFill 0 0 (List.replicate 128 0) false false true MemEnv.quiet, .groutRead 0 0 32 0 MemEnv.quiet,
  .dropWrite 0 [1], .hdmMemwr 0 0 0 (List.replicate 64 0) false, .bisnpResponse 0 0 (some (List.replicate 64 0)) MemEnv.quiet, .bisnpResponse 0 0 none MemEnv.quiet,
  .commandFetch 0 (List.replicate 64 0) false, .bootRom false noModules 0, .grantCompute [0, 0, 0, 0] 0, .powerOn none, .hostCacheResponse 0 false [] MemEnv.quiet] : List Instr).all (fun c => c.wellFormed) = true := by decide +kernel

/-- One command for each check, with an operand that does not fit, is refused. -/
theorem test_wellFormed_refuses : ([
  .registerWrite (.request) 0 true 0 { MemEnv.quiet with corr := [8] }, .registerWrite (.request) 0 true 0 { MemEnv.quiet with bedCorr := [4] },
  .registerWrite (.request) 0 true 0 { MemEnv.quiet with masonCorr := [128] }, .registerWrite (.request) 0 true 0 { MemEnv.quiet with keyUnc := [256] },
  .registerWrite (.request) 0 true 0 { MemEnv.quiet with seatUnc := [65535] }, .operationIssue 0 (.engine 0) { opAt 0 with size := 513 },
  .operationIssue 0 (.engine 0) { opAt 0 with payload := List.replicate 513 0 }, .packetRoute 0 { Packet.zero with size := 8, payload := leBytes 7 1 } 0,
  .flitReceive (.port 0) (.lanes (List.replicate 8 (List.replicate 135 0))), .flitReceive (.port 0) (.lanes (List.replicate 7 [])),
  .flitReceive (.bridge 0 0) (.module 0 (List.replicate 272 0)), .flitReceive (.port 0) (.module 0 (List.replicate 256 0)),
  .trainingWordReceive 0 0 (List.replicate 127 0), .modulePresenceChange 0 true true 0 { cls := 1, lower := [], ident := [] } false,
  .trainingStateAdvance 0 { quietLanes with corrected := List.replicate 9 0 }, .copyFill 0 0 (List.replicate 127 0) false false true MemEnv.quiet,
  .groutRead 0 0 0 0 MemEnv.quiet, .dropWrite 0 [], .hdmMemwr 0 0 0 (List.replicate 63 0) false, .bisnpResponse 0 0 (some (List.replicate 65 0)) MemEnv.quiet,
  .commandFetch 0 (List.replicate 65 0) false, .bootRom false { noModules with hbm := List.replicate 9 [] } 0, .grantCompute [0, 0, 0] 0,
  .powerOn (some { fuses := {}, boot := {}, bankA := [], bankB := [], sheet := [], incarnation := 1, retire := [0x3F], spare := [0, 0, 0, 0], repairs := [], log := [], swap := false }),
  .hostCacheResponse 0 false (List.replicate 513 0) MemEnv.quiet] : List Instr).all (fun c => !c.wellFormed) = true := by decide +kernel


/-- The table gives its rows no bits, so no word spells a command. -/
theorem test_decodeTableWord : decodeTableWord 32 0xC0000000 = none := rfl

/-! ### Mason instructions -/

/-- Words of the instructions that need no trap, and of those that are legal only with T set (R491 to R494). -/
def plainWords : List (MOp × Nat) := [
  (.aluAdd, 0x00221801), (.aluSub, 0x00221802), (.aluAnd, 0x00221803), (.aluOr, 0x00221804), (.aluXor, 0x00221805), (.aluAndn, 0x00221806),
  (.aluSll, 0x00221807), (.aluSrl, 0x00221808), (.aluSra, 0x00221809), (.aluMul, 0x0022180A), (.aluMulh, 0x0022180B),
  (.aluMulhu, 0x0022180C), (.aluDiv, 0x0022180D), (.aluDivu, 0x0022180E), (.aluRem, 0x0022180F), (.aluRemu, 0x00221810),
  (.aluCmpeq, 0x00221811), (.aluCmplt, 0x00221812), (.aluCmpltu, 0x00221813), (.aluMin, 0x00221814), (.aluMax, 0x00221815),
  (.aluMinu, 0x00221816), (.aluMaxu, 0x00221817), (.aluClz, 0x00221818), (.aluCtz, 0x00221819), (.aluPopc, 0x0022181A),
  (.aluAddw, 0x0022181B), (.aluSubw, 0x0022181C), (.addi, 0x0422FFFF), (.andi, 0x0822FFFF), (.ori, 0x0C22FFFF), (.xori, 0x1022FFFF),
  (.shiSll, 0x1422003F), (.shiSrl, 0x14220101), (.shiSra, 0x14220220), (.movw, 0x18231234), (.movk, 0x1C221234), (.br, 0x80C0FFFF),
  (.brs, 0x852F0004), (.call, 0x8BFFFFFF), (.jlnk, 0x8FE28000), (.nop, 0xC0000000), (.yld, 0xC0000001), (.brk, 0xC3E00002),
  (.halt, 0xC0000003), (.srd, 0xC0320004), (.swr, 0xC1410005)]
def trapWords : List (MOp × Nat) := [
  (.xret, 0xC0000010), (.susp, 0xC0000011)]
def otherWords : List (MOp × Nat) := [
  (.ld, 0x4022C008), (.st, 0x4422C008), (.atom, 0x48221880), (.bopSigadd, 0x4C011080), (.bopWaitge, 0x4C011100), (.bopWaiteq, 0x4C011180),
  (.bopTest, 0x4C011200), (.bopReset, 0x4C011280), (.bopArmto, 0x4C011300), (.bopWcancel, 0x4C011380), (.bopArmsig, 0x4C011400),
  (.bopDisarm, 0x4C011480), (.bopPoison, 0x4C011500), (.cfence, 0x50000000), (.rel, 0x50011001), (.acq, 0x50011002), (.acqf, 0x50000003),
  (.twait, 0x50000024), (.drain, 0x50000005), (.wsl, 0x5422001F), (.tcmd, 0x60011001), (.rds, 0x6420000F), (.enter, 0x90000000),
  (.leave, 0x94000000)]
def otherTrapWords : List (MOp × Nat) := [
  (.spillw, 0xC0000012), (.fillw, 0xC0000013)]

theorem test_decodes : (plainWords ++ otherWords).all (fun x => decodeMason x.2 false == some x.1) = true := by decide +kernel
theorem test_decodes_trap : (trapWords ++ otherTrapWords).all (fun x => decodeMason x.2 true == some x.1 && decodeMason x.2 false == none) = true := by decide +kernel

/-- The all-zero word, an unlisted FN, a SHI with IMM[7:6] set, a MOVW with RA[4:2] set, a BR with COND 7 and an unlisted MAJ are illegal (R491, R492). -/
theorem test_illegal : [0x00000000, 0x0000001D, 0x14000040, 0x18040000, 0x80E00000, 0xFC000000].all (fun w => decodeMason w true == none) = true := by decide +kernel

/-- A mason reaches each of those instructions: the hypothesis of every clause of AluRegisterForms, DivisionAndCounts, ImmediateResults, Branches and
SystemInstructions is met. -/
theorem witness_Executes : plainWords.all (fun x => (boundary 0 MemEnv.quiet (masonAt x.2)).1 == some x) = true := by decide +kernel
theorem witness_Executes_trap : trapWords.all (fun x => (boundary 0 MemEnv.quiet (masonAt x.2 (fun m => { m with trap := true }))).1 == some x) = true := by
  decide +kernel

/-! ### Worked cases of the spec, and published check values -/

/-- The offset of the PRS registers of tile 77 (chapter 01, decoding addresses). -/
theorem test_tile_register : tileReg 77 1 0 = 0x89A10000 := by decide +kernel
/-- One page across eight pseudo-channels (chapter 06). -/
theorem test_pseudo_channels : (List.range 8).map (fun k => pseudoChannel (0x700000000 + 512 * k)) = [0x23, 0x22, 0x21, 0x20, 0x27, 0x26, 0x25, 0x24] ∧
    (hbmAddr (channelAddr 0x700000000)).row = 0x1C00 ∧ pseudoChannel 0x700000A40 = 0x26 ∧ channelAddr 0x700000A40 % 512 = 0x40 := by decide +kernel
/-- Pages of a window at t = 2 (chapter 07, a delta update). -/
theorem test_window : windowPages 2 = 12557935 := by decide +kernel
/-- The column of symbol 2047 in the page code at t = 2 (chapter 07). -/
theorem test_column : rsGen (pageCode 2) 4 = [0x000F, 0x0036, 0x0078, 0x0040] ∧ rsParity (pageCode 2) [1] = [0x000F, 0x0036, 0x0078, 0x0040] ∧
    rsParity (pageCode 2) [5] = [0x0033, 0x00EE, 0x0198, 0x0140] := by decide +kernel
/-- Four BF16 folds against four atomic adds (chapter 06): 1.0 + 2^-6 at the merge, and 1.0 + 2^-8 rounded to 1.0 each time. -/
theorem test_folds : fmtBF16.enc ((fmtBF16.dec 0x3F80).add (f32 (f32add (f32add (bf16to32 0x3B80) (bf16to32 0x3B80)) (f32add (bf16to32 0x3B80) (bf16to32 0x3B80))))) = 0x3F82 ∧
    fmtBF16.enc ((fmtBF16.dec 0x3F80).add (fmtBF16.dec 0x3B80)) = 0x3F80 := by decide +kernel
/-- Group 0 of a block-scaled UINT8 product (chapter 09): 2^-8 × 32,393. -/
theorem test_scale : f32mul (f32mul (bf16to32 0x3F00) (bf16to32 0x3C00)) (f32ofInt 32393) = 0x42FD1200 := by decide +kernel
/-- Counter arithmetic at the wrap (chapter 04). -/
theorem test_condition : condHolds true 0xFFFFFFFFFFFFFFFE 1 = false ∧ condHolds true 0 1 = false ∧ condHolds true 1 1 = true ∧
    condHolds true 1 0x8000000000000001 = false ∧ condHolds false 0 0xFFFFFFFFFFFFFFFF = false := by decide +kernel
/-- SIGADD 2 at COUNT 2^64 - 2 gives COUNT 0 and sets WRAPPED; SIGADD 2^63 is answered 0x10 and leaves COUNT (chapter 04). -/
theorem test_sigadd_wraps :
    let s := live.onBond 0 0 (fun B => { B with count := 0xFFFFFFFFFFFFFFFE })
    let r : Requester := { seat := 2, gen := 3, brk := 0, lbl := 3, fep := 0, seq := 0, tile := 0, admin := false }
    (((bondSigadd 0 0 r (leBytes 8 2) s).2.bond 0 0).count, ((bondSigadd 0 0 r (leBytes 8 2) s).2.bond 0 0).wrapped) = (0, true) ∧
    (bondSigadd 0 0 r (leBytes 8 0x8000000000000000) s).1.1 = 0x10 := by decide +kernel
/-- Published check values: CRC-32C and CRC-32 of the digits 1 to 9, SHA-384 of "abc" (its first eight bytes), and SipHash-2-4 of bytes 0 to 14. -/
theorem test_crc : crc32c [0x31, 0x32, 0x33, 0x34, 0x35, 0x36, 0x37, 0x38, 0x39] = 0xE3069283 ∧ crc32 [0x31, 0x32, 0x33, 0x34, 0x35, 0x36, 0x37, 0x38, 0x39] = 0xCBF43926 := by
  decide +kernel
theorem test_sha384 : (sha384 [0x61, 0x62, 0x63]).take 8 = [0xcb, 0x00, 0x75, 0x3f, 0x45, 0xa3, 0x5e, 0x8b] := by decide +kernel
theorem test_sipHash : sipHash 0x0706050403020100 0x0F0E0D0C0B0A0908 ((List.range 15).map (BitVec.ofNat 8)) = 0xa129ca6149be45e5 := by decide +kernel
/-- Seven live lanes give width 4, code 2, and eight give code 3 (chapter 02, training through three faults). -/
theorem test_width : widthCode 7 = 2 ∧ widthCode 8 = 3 := by decide +kernel

/-! ### Witnesses of the obligations' hypotheses -/

theorem witness_SeatOwnInvariant : ∃ s t, step s = .next t ∧ seatOwnShown s := by
  obtain ⟨t, h⟩ := next_of (o := step { live with pending := [.seatTblWrite 2 0x00090440] }) (by decide +kernel)
  exact ⟨_, t, h, by decide +kernel⟩

theorem witness_StepTakesFrontCommand :
    (∃ (s : State), s.pending = []) :=
  ⟨State.reset, by decide +kernel⟩

theorem witness_PacketRoundTrip :
    (∃ (p : Packet), p.payload.length = (if p.ptype.toNat = ptReq && p.opc.toNat = 0x01 then 0 else p.size.toNat) ∧ p.payload.length + p.pad.length
        ≤ 8 * (p.len.toNat - 5) ∧ p.pad.getLast? ≠ some 0) :=
  ⟨{ Packet.zero with size := 3, len := 6, payload := [1, 2, 3], pad := [0, 4] }, by decide +kernel⟩

theorem witness_FlitRoundTrip :
    (∃ (f : Flit), f.area.length = 232) :=
  ⟨flitOf (List.replicate 256 7), by decide +kernel⟩

theorem witness_LaneRoundTrip :
    (∃ (w : Nat), 0 < w) :=
  ⟨8, by decide +kernel⟩

theorem witness_MemoryBytes :
    (∃ (bs : Bytes), ∃ (i : Nat), i < bs.length) ∧
    (∃ (a : Nat), ∃ (bs : Bytes), ∃ (x : Nat), ((x < a ∨ a + bs.length ≤ x))) ∧
    (∃ (s : State), memoryCanonical s) :=
  ⟨⟨[1, 0], 1, by decide +kernel⟩, ⟨5, [1, 0], 7, by decide +kernel⟩, ⟨State.reset, by decide +kernel⟩⟩

theorem witness_RegisterAccess :
    (∃ (off : BitVec 32), ∃ (wide : Bool), ∃ (s : State), ∃ (src : RegSource),
     let o := off.toNat;
     let n := if wide then 8 else 4;
     mayAccess s src o = true ∧ ((src = .request → keyGrants s hostWho rightLD 0xA o n none = true)) ∧ regAligned o n = true ∧ regAnswers s o = true) ∧
    (∃ (off : BitVec 32), ∃ (wide : Bool), ∃ (v : Word), ∃ (e : MemEnv), ∃ (s : State), ∃ (src : RegSource),
     let o := off.toNat;
     let n := if wide then 8 else 4;
     let m := memReports e s;
     mayAccess m src o = true ∧ ((src = .request → regStoreRight m hostWho o n = true ∧ regAdmin m hostWho o n v.toNat = 0)) ∧ regAligned o n = true
         ∧ regAnswers m o = true) ∧
    (∃ (off : BitVec 32), ∃ (wide : Bool), ∃ (e : MemEnv), ∃ (s : State), ∃ (src : RegSource),
     let o := off.toNat;
     let n := if wide then 8 else 4;
     let m := memReports e s;
     src ≠ .request ∧ mayAccess m src o = true ∧ ((regAligned o n = false ∨ regAnswers m o = false))) ∧
    (∃ (off : BitVec 32), ∃ (wide : Bool), ∃ (e : MemEnv), ∃ (s : State),
     let o := off.toNat;
     let n := if wide then 8 else 4;
     let m := memReports e s;
     mayAccess m .request o = true ∧ regStoreRight m hostWho o n = false) :=
  ⟨⟨BitVec.ofNat 32 Reg.SEAT_PID, true, setting [(Reg.HST_STAT_LINKUP, 1)] live, .request, by decide +kernel⟩, ⟨BitVec.ofNat 32 Reg.SEAT_PID, true,
    0, MemEnv.quiet, setting [(Reg.HST_STAT_LINKUP, 1)] live, .request, by decide +kernel⟩, ⟨BitVec.ofNat 32 (Reg.SEAT_PID + 2), true, MemEnv.quiet,
    setting [(Reg.HST_STAT_LINKUP, 1)] live, .hod, by decide +kernel⟩, ⟨BitVec.ofNat 32 Reg.SEAT_PID, true, MemEnv.quiet, setting
    [(Reg.HST_STAT_LINKUP, 1), (Reg.SAF_CTL_KEYEN, 1)] live, by decide +kernel⟩⟩

theorem witness_RegisterFields :
    (∃ (off : Nat), ∃ (st : Nat), ∃ (r : RegSpec), ∃ (f : FieldSpec), ∃ (old : Nat), ∃ (v : Nat), regAt off = some (r, st) ∧ f ∈ r.fields ∧ old < 2 ^
        64 ∧ v < 2 ^ 64 ∧ (f.acc = .ro ∨ f.acc = .rc ∨ f.acc = .wo)) ∧
    (∃ (off : Nat), ∃ (st : Nat), ∃ (r : RegSpec), ∃ (f : FieldSpec), ∃ (old : Nat), ∃ (v : Nat), regAt off = some (r, st) ∧ f ∈ r.fields ∧ old < 2 ^
        64 ∧ v < 2 ^ 64 ∧ f.acc = .rw ∧ f.rule = .any) ∧
    (∃ (off : Nat), ∃ (st : Nat), ∃ (r : RegSpec), ∃ (f : FieldSpec), ∃ (old : Nat), ∃ (v : Nat), regAt off = some (r, st) ∧ f ∈ r.fields ∧ old < 2 ^
        64 ∧ v < 2 ^ 64 ∧ f.acc = .rws ∧ f.rule = .any) ∧
    (∃ (off : Nat), ∃ (st : Nat), ∃ (r : RegSpec), ∃ (f : FieldSpec), ∃ (old : Nat), ∃ (v : Nat), regAt off = some (r, st) ∧ f ∈ r.fields ∧ old < 2 ^
        64 ∧ v < 2 ^ 64 ∧ f.acc = .w1c) ∧
    (∃ (off : Nat), ∃ (st : Nat), ∃ (r : RegSpec), ∃ (f : FieldSpec), ∃ (old : Nat), ∃ (v : Nat), regAt off = some (r, st) ∧ f ∈ r.fields ∧ old < 2 ^
        64 ∧ v < 2 ^ 64) :=
  ⟨⟨Reg.SEAT_PID, Reg.SEAT_PID, regOf (Reg.SEAT_PID), ⟨15, 0, .ro, 0, .any⟩, 2 ^ 64 - 1, 5, by decide +kernel⟩, ⟨Reg.SEAT_TBL 65534, Reg.SEAT_TBL
    65534, regOf (Reg.SEAT_TBL 65534), ⟨31, 0, .rw, 0, .any⟩, 2 ^ 64 - 1, 5, by decide +kernel⟩, ⟨Reg.SAF_CTL, Reg.SAF_CTL, regOf (Reg.SAF_CTL), ⟨1,
    1, .rws, 0, .any⟩, 2 ^ 64 - 1, 5, by decide +kernel⟩, ⟨Reg.HST_ERR, Reg.HST_ERR, regOf (Reg.HST_ERR), ⟨0, 0, .w1c, 0, .any⟩, 2 ^ 64 - 1, 5,
    by decide +kernel⟩, ⟨Reg.SEAT_PID, Reg.SEAT_PID, regOf (Reg.SEAT_PID), ⟨15, 0, .ro, 0, .any⟩, 2 ^ 64 - 1, 5, by decide +kernel⟩⟩

theorem witness_ReservedAddress :
    (∃ (off : Nat), regAt off = none ∧ ¬ (Reg.HOD_STAT + 0x80000 ≤ off ∧ off < Reg.HOD_STAT + 0x100000)) ∧
    (∃ (off : Nat), regAt off = none ∧ ¬ (Reg.HOD_STAT + 0x80000 ≤ off ∧ off < Reg.HOD_STAT + 0x100000) ∧ regAt (off + 4) = none ∧ ¬ (Reg.HOD_STAT +
        0x80000 ≤ off + 4 ∧ off + 4 < Reg.HOD_STAT + 0x100000)) :=
  ⟨⟨2 ^ 32 - 8, by decide +kernel⟩, ⟨2 ^ 32 - 8, by decide +kernel⟩⟩

theorem witness_NobodysSeatEntries :
    (∃ (v : Word), (bitsOf v.toNat 7 6 = 3 ∨ bitsOf v.toNat 47 32 = 0xFFFF)) ∧
    (∃ (entry : BitVec 32), bitsOf entry.toNat 7 6 = 3) ∧
    (∃ (s : State), ∃ (b : Brick), ∃ (p : Packet), (s.brick b).arrived.contains p = true ∧ p.ptype.toNat = ptCast ∧ packetSound p = true ∧ p.size = 8
        ∧ s.tooOld b p = false ∧ ((bitsOf (leNat ((p.payload.drop 4).take 4)) 7 6 = 3 ∨ leNat (p.payload.take 2) = 0xFFFF))) :=
  ⟨⟨0xC0, by decide +kernel⟩, ⟨0xC0, by decide +kernel⟩, ⟨hasCome (packetLike
    { Packet.zero with ptype := BitVec.ofNat 4 ptCast, size := 8, payload := [2, 0, 0, 0, 0xC0, 5, 9, 0] }) seated, 0, packetLike
    { Packet.zero with ptype := BitVec.ofNat 4 ptCast, size := 8, payload := [2, 0, 0, 0, 0xC0, 5, 9, 0] }, by decide +kernel⟩⟩

theorem witness_SeatCommands :
    (∃ (seat : BitVec 16), ∃ (entry : BitVec 32), seat ≠ 0xFFFF ∧ bitsOf entry.toNat 7 6 ≠ 3) ∧
    (∃ (s : State), ∃ (v : Word), ∃ t, bitsOf v.toNat 7 6 ≠ 3 ∧ bitsOf v.toNat 47 32 ≠ 0xFFFF ∧ applyCast (bitsOf v.toNat 47 32) (bitsOf v.toNat 31
        0) s = some t) ∧
    (∃ (seat : Nat), ∃ (entry : Nat), seat < 0xFFFF ∧ bitsOf entry 7 6 ≠ 3) ∧
    (∃ (s : State), ∃ (b : Brick), ∃ (p : Packet), ∃ t, (s.brick b).arrived.contains p = true ∧ p.ptype.toNat = ptCast ∧ packetSound p = true ∧
        p.size = 8 ∧ s.tooOld b p = false ∧ bitsOf (leNat ((p.payload.drop 4).take 4)) 7 6 ≠ 3 ∧ leNat (p.payload.take 2) ≠ 0xFFFF ∧ applyCast (leNat
        (p.payload.take 2)) (leNat ((p.payload.drop 4).take 4)) (s.takeArrived b p) = some t) ∧
    (∃ (s : State), ∃ (b : Brick), ∃ (v : Word), let te2e := bitsOf v.toNat 19 0; let most := bitsOf v.toNat 31 28;
        let plife := bitsOf v.toNat 47 32; uncoreOn s b = true ∧ 0x28 ≤ te2e ∧ te2e ≤ 0x186A0 ∧ 1 ≤ most ∧ 100 ≤ plife ∧ plife ≤ 8000 ∧ te2eCovers s
        b te2e = true ∧ plife * 10 < 256 * te2e ∧ plife ≤ s.rd (Reg.MRT_TFLOW_FIDLE b)) ∧
    (∃ (s : State), ∃ (b : Brick), ∃ (v : Word), let te2e := bitsOf v.toNat 19 0; let most := bitsOf v.toNat 31 28;
        let plife := bitsOf v.toNat 47 32; uncoreOn s b = true ∧ 0x28 ≤ te2e ∧ te2e ≤ 0x186A0 ∧ 1 ≤ most ∧ 100 ≤ plife ∧ plife ≤ 8000 ∧ (te2eCovers s
        b te2e = false ∨ 256 * te2e ≤ plife * 10 ∨ s.rd (Reg.MRT_TFLOW_FIDLE b) < plife)) :=
  ⟨⟨65534, 0x00090440, by decide +kernel⟩,
   ⟨seated, 0x000200090440, _, by decide +kernel, by decide +kernel, some_of_isSome seated (by decide +kernel)⟩,
   ⟨0xFFFE, 0x00090440, by decide +kernel⟩,
   ⟨hasCome (packetLike { Packet.zero with ptype := BitVec.ofNat 4 ptCast, size := 8, payload := [2, 0, 0, 0, 0x40, 5, 9, 0] }) seated, 0, packetLike
     { Packet.zero with ptype := BitVec.ofNat 4 ptCast, size := 8, payload := [2, 0, 0, 0, 0x40, 5, 9, 0] }, _, by decide +kernel, by decide +kernel,
     (by decide +kernel), by decide +kernel, by decide +kernel, (by decide +kernel), by decide +kernel, some_of_isSome seated (by decide +kernel)⟩,
   ⟨seated, 0, BitVec.ofNat 64 (0x2710 + 8 * 2 ^ 28 + 1000 * 2 ^ 32), by decide +kernel⟩,
   ⟨seated, 0, BitVec.ofNat 64 (0x28 + 8 * 2 ^ 28 + 8000 * 2 ^ 32), by decide +kernel⟩⟩

theorem witness_OperationsAtSource :
    (∃ (issuer : Issuer), ∃ (op : Op), let a := op.addr.toNat; issuerTile issuer = none ∧ destBrick a = none) ∧
    (∃ (s : State), ∃ (issuer : Issuer), ∃ (op : Op), let a := op.addr.toNat; let seat := s.realSeat a; ∃ (d : Brick), issuerTile issuer = none ∧
        destBrick a = some d ∧ seat ≠ s.ownSeatNo ∧ addrRegion a = 0xB) ∧
    (∃ (s : State), ∃ (issuer : Issuer), ∃ (op : Op), let a := op.addr.toNat; let seat := s.realSeat a; let e := s.seatEntry seat; ∃ (d : Brick),
        issuerTile issuer = none ∧ destBrick a = some d ∧ seat ≠ s.ownSeatNo ∧ addrRegion a ≠ 0xB ∧ entryState e = 0) ∧
    (∃ (s : State), ∃ (issuer : Issuer), ∃ (op : Op), let a := op.addr.toNat; let seat := s.realSeat a; let e := s.seatEntry seat; ∃ d, issuerTile
        issuer = none ∧ destBrick a = some d ∧ seat ≠ s.ownSeatNo ∧ addrRegion a ≠ 0xB ∧ entryState e = 1 ∧ s.ownSeat = none) ∧
    (∃ (s : State), ∃ (issuer : Issuer), ∃ (op : Op), let a := op.addr.toNat; let seat := s.realSeat a; let e := s.seatEntry seat; ∃ d, issuerTile
        issuer = none ∧ destBrick a = some d ∧ seat ≠ s.ownSeatNo ∧ addrRegion a ≠ 0xB ∧ entryState e = 2 ∧ s.ownSeat.isSome = true) ∧
    (∃ (s : State), ∃ (b : Brick), ∃ (issuer : Issuer), ∃ (op : Op), ∃ i, ∃ f, issuerTile issuer = none ∧ GoesToFlow s op i ∧ s.flow b i = some f ∧
        flowWait s b f = none ∧ (s.brick b).waitOps = []) ∧
    (∃ (s : State), ∃ (b : Brick), ∃ (issuer : Issuer), ∃ (op : Op), ∃ i, issuerTile issuer = none ∧ GoesToFlow s op i ∧ s.flow b i = none ∧
        (s.brick b).srcFlows.length < 65536 ∧ (s.brick b).waitOps = []) ∧
    (∃ (issuer : Issuer), ∃ (t : Nat), issuerTile issuer = some t) ∧
    (∃ (s : State), ∃ (b : Brick), ∃ (w : WaitOp), ∃ (i : FlowId), GoesToFlow s w.op i ∧ (s.brick b).waitOps = [w] ∧ s.flow b i = none ∧ (s.brick
        b).srcFlows.length < 65536 ∧ w.why = .entry) ∧
    (∃ (s : State), ∃ (b : Brick), ∃ (w : WaitOp), ∃ (i : FlowId), ∃ f, GoesToFlow s w.op i ∧ (s.brick b).waitOps = [w] ∧ s.flow b i = some f ∧
        flowWait s b f = none ∧ w.why = .held ∧ entryState (s.seatEntry (addrSeat w.op.addr.toNat)) = 1) ∧
    (∃ (s : State), ∃ (b : Brick), ∃ (k : Nat), ∃ w, ((s.brick b).waitOps.filter (fun w => w.why = .held))[k]? = some w ∧ entryState (s.seatEntry
        (addrSeat w.op.addr.toNat)) = 2) ∧
    (∃ (s : State), ∃ (b : Brick), ∃ (k : Nat), ∃ p, ∃ f, ∃ o, (s.brick b).waitPkts[k]? = some p ∧ p.ptype.toNat = ptReq ∧ p.hops = 0 ∧ p.sbrk.toNat
        = b.val ∧ s.flow b (packetFlow p) = some f ∧ f.opAt p.seq.toNat = some o ∧ o.left = false) :=
  ⟨⟨.engine 0, opAt 0x2D00000000000, by decide +kernel⟩,
   ⟨seated, .engine 0, opAt 0x2B00000000000, 0, by decide +kernel⟩,
   ⟨seated, .engine 0, opAt 0x3000000000000, 0, by decide +kernel⟩,
   ⟨setting [(Reg.SEAT_TBL_ENTRY 1, 0)] seated, .engine 0, opAt 0x2000000000000, 0, by decide +kernel⟩,
   ⟨seated, .engine 0, opAt 0x4000000000000, 0, by decide +kernel⟩,
   ⟨withFlow flow2, 0, .engine 0, opAt 0x2000000000000, id2, flow2, by decide +kernel⟩,
   ⟨seated, 0, .engine 0, opAt 0x2000000000000, id2, by decide +kernel⟩,
   ⟨.masonPosted 0, 0, by decide +kernel⟩,
   ⟨withWait (waits 0x2000000000000 .entry) seated, 0, waits 0x2000000000000 .entry, id2, by decide +kernel⟩,
   ⟨withWait (waits 0x2000000000000 .held) (withFlow flow2), 0, waits 0x2000000000000 .held, id2, flow2, by decide +kernel⟩,
   ⟨withWait (waits 0x4000000000000 .held) seated, 0, 0, waits 0x4000000000000 .held, by decide +kernel⟩,
   ⟨(withFlow { flow2 with ops := [{ srcOp5 with left := false }] }).onBrick 0 (fun B =>
     { B with waitPkts := [{ Packet.zero with ptype := 1, seq := 5, addr := 0x2000000000000, lbl := 3, gen := 3, sseat := 1, sgen := 1 }] }), 0, 0,
     { Packet.zero with ptype := 1, seq := 5, addr := 0x2000000000000, lbl := 3, gen := 3, sseat := 1, sgen := 1 },
     { flow2 with ops := [{ srcOp5 with left := false }] }, { srcOp5 with left := false }, by decide +kernel⟩⟩

theorem witness_SourceFlows :
    (∃ (s : State), ∃ (b : Brick), ∃ (i : FlowId), ∃ (f : SrcFlow), ∃ (o : SrcOp), ∃ (seq : Nat), s.flow b i = some f ∧ f.opAt seq = some o ∧
        o.inDoubt = false ∧ o.waitStale = false ∧ o.waitCast = false ∧ o.left = true ∧ issuerTile o.issuer = none) ∧
    (∃ (s : State), ∃ (b : Brick), ∃ (i : FlowId), ∃ (f : SrcFlow), ∃ (o : SrcOp), s.flow b i = some f ∧ f.probe.bind f.opAt = some o ∧ f.probeLeft
        = true ∧ o.reported = false ∧ o.probes < s.rd (Reg.MRT_TTMO_PROBEMAX b)) ∧
    (∃ (s : State), ∃ (b : Brick), ∃ (i : FlowId), ∃ (f : SrcFlow), ∃ (o : SrcOp), s.flow b i = some f ∧ f.probe.bind f.opAt = some o ∧ f.probeLeft
        = true ∧ o.reported = false ∧ s.rd (Reg.MRT_TTMO_PROBEMAX b) ≤ o.probes) ∧
    (∃ (s : State), ∃ (b : Brick), ∃ (i : FlowId), ∃ (f : SrcFlow), ∃ (o : SrcOp), s.flow b i = some f ∧ f.probe = none ∧ f.ops.find? (fun o =>
        o.inDoubt) = some o ∧ (f.sseat = 0xFFFF ∨ f.dseat = s.ownSeatNo ∨ entryState (s.seatEntry f.dseat) = 1)) ∧
    (∃ (s : State), ∃ (b : Brick), ∃ (i : FlowId), ∃ (f : SrcFlow), ∃ (o : SrcOp), ∃ (seq : Nat), s.flow b i = some f ∧ f.opAt seq = some o ∧
        o.waitStale = true ∧ o.refused = true ∧ s.rd (Reg.MRT_TTMO_PROBEMAX b) ≤ o.refusals) ∧
    (∃ (s : State), ∃ (b : Brick), ∃ (i : FlowId), ∃ (f : SrcFlow), ∃ (o : SrcOp), ∃ (seq : Nat), s.flow b i = some f ∧ f.opAt seq = some o ∧
        o.waitStale = true ∧ o.refusals < s.rd (Reg.MRT_TTMO_PROBEMAX b) ∧ (f.sseat ≠ 0xFFFF ∨ s.ownSeat = none)) ∧
    (∃ (s : State), ∃ (b : Brick), ∃ (i : FlowId), ∃ (f : SrcFlow), s.flow b i = some f ∧ f.phase = .reopening) ∧
    (∃ (s : State), ∃ (b : Brick), ∃ (i : FlowId), ∃ (f : SrcFlow), ∃ (o : SrcOp), ∃ (seq : Nat), s.flow b i = some f ∧ f.opAt seq = some o ∧
        o.waitCast = true ∧ newerGen (entryGen (s.seatEntry f.dseat)) f.dgen = false ∧ o.everDoubt = false) ∧
    (∃ (s : State), ∃ (b : Brick), ∃ (i : FlowId), ∃ (f : SrcFlow), s.flow b i = some f ∧ f.owesFack = true) ∧
    (∃ (s : State), ∃ (b : Brick), ∃ (i : FlowId), ∃ (f : SrcFlow), s.flow b i = some f ∧ f.owesFack = false) ∧
    (∃ (s : State), ∃ (b : Brick), ∃ (i : FlowId), ∃ (f : SrcFlow), s.flow b i = some f ∧ f.ops = [] ∧ f.acksSent = f.acksNow ∧ f.phase = .active ∧
        (s.brick b).waitOps = [] ∧ f.lastSent + s.rd (Reg.MRT_TFLOW_FIDLE b) * 1000 ≤ s.now) ∧
    (∃ (s : State), ∃ (b : Brick), ∃ (i : FlowId), ∃ (f : SrcFlow), s.flow b i = some f ∧ f.phase = .awaitFca) ∧
    (∃ (s : State), ∃ (b : Brick), ∃ (i : FlowId), ∃ (f : SrcFlow), s.flow b i = some f ∧ f.phase = .draining ∧ f.ops = []) ∧
    (∃ (s : State), ∃ (b : Brick), ∃ (i : FlowId), ∃ (f : SrcFlow), s.flow b i = some f ∧ f.phase = .awaitFra) :=
  ⟨⟨withFlow ({ flow2 with ops := [srcOp5] }), 0, id2, { flow2 with ops := [srcOp5] }, srcOp5, 5, by decide +kernel⟩,
   ⟨withFlow ({ flow2 with ops := [srcOp5], probe := some 5, probeLeft := true }), 0, id2,
     { flow2 with ops := [srcOp5], probe := some 5, probeLeft := true }, srcOp5, by decide +kernel⟩,
   ⟨withFlow ({ flow2 with ops := [{ srcOp5 with probes := 8 }], probe := some 5, probeLeft := true }), 0, id2,
     { flow2 with ops := [{ srcOp5 with probes := 8 }], probe := some 5, probeLeft := true }, { srcOp5 with probes := 8 }, by decide +kernel⟩,
   ⟨withFlow ({ flow2 with ops := [{ srcOp5 with inDoubt := true }] }), 0, id2, { flow2 with ops := [{ srcOp5 with inDoubt := true }] },
     { srcOp5 with inDoubt := true }, by decide +kernel⟩,
   ⟨withFlow ({ flow2 with ops := [{ srcOp5 with waitStale := true, refused := true, refusals := 8 }] }), 0, id2,
     { flow2 with ops := [{ srcOp5 with waitStale := true, refused := true, refusals := 8 }] },
     { srcOp5 with waitStale := true, refused := true, refusals := 8 }, 5, by decide +kernel⟩,
   ⟨withFlow ({ flow2 with ops := [{ srcOp5 with waitStale := true, refusals := 0 }] }), 0, id2,
     { flow2 with ops := [{ srcOp5 with waitStale := true, refusals := 0 }] }, { srcOp5 with waitStale := true, refusals := 0 }, 5,
     by decide +kernel⟩,
   ⟨withFlow ({ flow2 with phase := .reopening }), 0, id2, { flow2 with phase := .reopening }, by decide +kernel⟩,
   ⟨withFlow ({ flow2 with ops := [{ srcOp5 with waitCast := true }] }), 0, id2, { flow2 with ops := [{ srcOp5 with waitCast := true }] },
     { srcOp5 with waitCast := true }, 5, by decide +kernel⟩,
   ⟨withFlow ({ flow2 with owesFack := true }), 0, id2, { flow2 with owesFack := true }, by decide +kernel⟩,
   ⟨withFlow ({ flow2 with owesFack := false }), 0, id2, { flow2 with owesFack := false }, by decide +kernel⟩,
   ⟨withFlow ({ flow2 with acks := 6, acksSent := 6 }), 0, id2, { flow2 with acks := 6, acksSent := 6 }, by decide +kernel⟩,
   ⟨withFlow ({ flow2 with phase := .awaitFca }), 0, id2, { flow2 with phase := .awaitFca }, by decide +kernel⟩,
   ⟨withFlow ({ flow2 with phase := .draining }), 0, id2, { flow2 with phase := .draining }, by decide +kernel⟩,
   ⟨withFlow ({ flow2 with phase := .awaitFra }), 0, id2, { flow2 with phase := .awaitFra }, by decide +kernel⟩⟩

theorem witness_SourceAnswers :
    (∃ (s : State), ∃ (b : Brick), ∃ (p : Packet), ∃ (f : SrcFlow), ∃ (o : SrcOp), let i := packetFlow p; packetSound p = true ∧ s.tooOld b p =
        false ∧ s.flow b i = some f ∧ p.ptype.toNat = ptRsp ∧ f.fep = p.fep.toNat ∧ f.opAt p.seq.toNat = some o ∧ p.aux.toNat ≤ 0x7F) ∧
    (∃ (s : State), ∃ (b : Brick), ∃ (p : Packet), ∃ (f : SrcFlow), ∃ (o : SrcOp), let i := packetFlow p; packetSound p = true ∧ s.tooOld b p =
        false ∧ s.flow b i = some f ∧ p.ptype.toNat = ptPra ∧ f.fep = p.fep.toNat ∧ f.opAt p.seq.toNat = some o ∧ f.probe ≠ some p.seq.toNat) ∧
    (∃ (s : State), ∃ (b : Brick), ∃ (p : Packet), ∃ (f : SrcFlow), ∃ (o : SrcOp), let i := packetFlow p; packetSound p = true ∧ s.tooOld b p =
        false ∧ s.flow b i = some f ∧ p.ptype.toNat = ptPra ∧ f.fep = p.fep.toNat ∧ f.opAt p.seq.toNat = some o ∧ f.probe = some p.seq.toNat ∧
        p.aux.toNat = 0x90) ∧
    (∃ (s : State), ∃ (b : Brick), ∃ (p : Packet), ∃ (f : SrcFlow), ∃ (o : SrcOp), let i := packetFlow p; packetSound p = true ∧ s.tooOld b p =
        false ∧ s.flow b i = some f ∧ p.ptype.toNat = ptPra ∧ f.fep = p.fep.toNat ∧ f.opAt p.seq.toNat = some o ∧ f.probe = some p.seq.toNat ∧
        p.aux.toNat = 0x92) ∧
    (∃ (s : State), ∃ (b : Brick), ∃ (p : Packet), ∃ (f : SrcFlow), ∃ (o : SrcOp), let i := packetFlow p; packetSound p = true ∧ s.tooOld b p =
        false ∧ s.flow b i = some f ∧ p.ptype.toNat = ptPra ∧ f.fep = p.fep.toNat ∧ f.opAt p.seq.toNat = some o ∧ f.probe = some p.seq.toNat ∧
        p.aux.toNat = 0x91) ∧
    (∃ (s : State), ∃ (b : Brick), ∃ (p : Packet), ∃ (f : SrcFlow), let i := packetFlow p; packetSound p = true ∧ s.tooOld b p = false ∧ s.flow b i
        = some f ∧ p.ptype.toNat = ptFca ∧ f.phase = .awaitFca ∧ f.fep = p.fep.toNat) ∧
    (∃ (s : State), ∃ (b : Brick), ∃ (p : Packet), ∃ (f : SrcFlow), let i := packetFlow p; packetSound p = true ∧ s.tooOld b p = false ∧ s.flow b i
        = some f ∧ p.ptype.toNat = ptFra ∧ f.phase = .awaitFra ∧ p.aux = 0) ∧
    (∃ (o : SrcOp), ∃ (kind : Outcome57), kind = .completed ∧ issuerTile o.issuer = none ∧ (∀ n, o.issuer ≠ .outside n) ∧ (∀ n, o.issuer ≠ .engine
        n) ∧ (∀ n, o.issuer ≠ .wake n)) :=
  ⟨⟨hasCome (packetLike
     { Packet.zero with ptype := BitVec.ofNat 4 ptRsp, aux := 0x7F, seq := 5, gen := 3, addr := 0x2000000000000, lbl := 3, sseat := 1, sgen := 1 })
     (withFlow ({ flow2 with ops := [srcOp5] })), 0, packetLike
     { Packet.zero with ptype := BitVec.ofNat 4 ptRsp, aux := 0x7F, seq := 5, gen := 3, addr := 0x2000000000000, lbl := 3, sseat := 1, sgen := 1 },
     { flow2 with ops := [srcOp5] }, srcOp5, by decide +kernel⟩,
   ⟨hasCome (packetLike
     { Packet.zero with ptype := BitVec.ofNat 4 ptPra, aux := 0x90, seq := 5, gen := 3, addr := 0x2000000000000, lbl := 3, sseat := 1, sgen := 1 })
     (withFlow ({ flow2 with ops := [srcOp5] })), 0, packetLike
     { Packet.zero with ptype := BitVec.ofNat 4 ptPra, aux := 0x90, seq := 5, gen := 3, addr := 0x2000000000000, lbl := 3, sseat := 1, sgen := 1 },
     { flow2 with ops := [srcOp5] }, srcOp5, by decide +kernel⟩,
   ⟨hasCome (packetLike
     { Packet.zero with ptype := BitVec.ofNat 4 ptPra, aux := 0x90, seq := 5, gen := 3, addr := 0x2000000000000, lbl := 3, sseat := 1, sgen := 1 })
     (withFlow ({ flow2 with ops := [srcOp5], probe := some 5 })), 0, packetLike
     { Packet.zero with ptype := BitVec.ofNat 4 ptPra, aux := 0x90, seq := 5, gen := 3, addr := 0x2000000000000, lbl := 3, sseat := 1, sgen := 1 },
     { flow2 with ops := [srcOp5], probe := some 5 }, srcOp5, by decide +kernel⟩,
   ⟨hasCome (packetLike
     { Packet.zero with ptype := BitVec.ofNat 4 ptPra, aux := 0x92, seq := 5, gen := 3, addr := 0x2000000000000, lbl := 3, sseat := 1, sgen := 1 })
     (withFlow ({ flow2 with ops := [srcOp5], probe := some 5 })), 0, packetLike
     { Packet.zero with ptype := BitVec.ofNat 4 ptPra, aux := 0x92, seq := 5, gen := 3, addr := 0x2000000000000, lbl := 3, sseat := 1, sgen := 1 },
     { flow2 with ops := [srcOp5], probe := some 5 }, srcOp5, by decide +kernel⟩,
   ⟨hasCome (packetLike
     { Packet.zero with ptype := BitVec.ofNat 4 ptPra, aux := 0x91, seq := 5, gen := 3, addr := 0x2000000000000, lbl := 3, sseat := 1, sgen := 1 })
     (withFlow ({ flow2 with ops := [srcOp5], probe := some 5 })), 0, packetLike
     { Packet.zero with ptype := BitVec.ofNat 4 ptPra, aux := 0x91, seq := 5, gen := 3, addr := 0x2000000000000, lbl := 3, sseat := 1, sgen := 1 },
     { flow2 with ops := [srcOp5], probe := some 5 }, srcOp5, by decide +kernel⟩,
   ⟨hasCome (packetLike
     { Packet.zero with ptype := BitVec.ofNat 4 ptFca, aux := 0, seq := 5, gen := 3, addr := 0x2000000000000, lbl := 3, sseat := 1, sgen := 1 })
     (withFlow ({ flow2 with phase := .awaitFca })), 0, packetLike
     { Packet.zero with ptype := BitVec.ofNat 4 ptFca, aux := 0, seq := 5, gen := 3, addr := 0x2000000000000, lbl := 3, sseat := 1, sgen := 1 },
     { flow2 with phase := .awaitFca }, by decide +kernel⟩,
   ⟨hasCome (packetLike
     { Packet.zero with ptype := BitVec.ofNat 4 ptFra, aux := 0, seq := 5, gen := 3, addr := 0x2000000000000, lbl := 3, sseat := 1, sgen := 1 })
     (withFlow ({ flow2 with phase := .awaitFra })), 0, packetLike
     { Packet.zero with ptype := BitVec.ofNat 4 ptFra, aux := 0, seq := 5, gen := 3, addr := 0x2000000000000, lbl := 3, sseat := 1, sgen := 1 },
     { flow2 with phase := .awaitFra }, by decide +kernel⟩,
   ⟨{ srcOp5 with issuer := .hod }, .completed, rfl, rfl, nofun, nofun, nofun⟩⟩

theorem witness_DestinationAnswers :
    (∃ (s : State), ∃ (b : Brick), ∃ (p : Packet), ∃ (e : MemEnv), let s1 := s.takeArrived b p; let m := memReports e s1; packetSound p = true ∧
        s.tooOld b p = false ∧ p.ptype.toNat = ptReq ∧ holdsSeat m p = false) ∧
    (∃ (s : State), ∃ (b : Brick), ∃ (p : Packet), ∃ (e : MemEnv), let s1 := s.takeArrived b p; let m := memReports e s1; packetSound p = true ∧
        s.tooOld b p = false ∧ p.ptype.toNat = ptReq ∧ holdsSeat m p = true ∧ genCurrent m p = true ∧ sourceCurrent m p = false) ∧
    (∃ (s : State), ∃ (b : Brick), ∃ (p : Packet), ∃ (e : MemEnv), let s1 := s.takeArrived b p; let m := memReports e s1; packetSound p = true ∧
        s.tooOld b p = false ∧ p.ptype.toNat = ptReq ∧ holdsSeat m p = true ∧ genCurrent m p = true ∧ sourceCurrent m p = true ∧ incCurrent m p =
        false) ∧
    (∃ (s : State), ∃ (b : Brick), ∃ (p : Packet), ∃ (e : MemEnv), let s1 := s.takeArrived b p; let m := memReports e s1; packetSound p = true ∧
        s.tooOld b p = false ∧ p.ptype.toNat = ptReq ∧ holdsSeat m p = true ∧ genCurrent m p = true ∧ sourceCurrent m p = true ∧ incCurrent m p =
        true ∧ m.dstFlow b p = none ∧ p.opn = false) ∧
    (∃ (s : State), ∃ (b : Brick), ∃ (p : Packet), ∃ (e : MemEnv), let s1 := s.takeArrived b p; let m := memReports e s1; packetSound p = true ∧
        s.tooOld b p = false ∧ p.ptype.toNat = ptReq ∧ holdsSeat m p = true ∧ genCurrent m p = true ∧ sourceCurrent m p = true ∧ incCurrent m p =
        true ∧ m.dstFlow b p = none ∧ p.opn = true ∧ (m.brick b).quarantine = false ∧ (m.brick b).dstFlows.length < 65536) ∧
    (∃ (s : State), ∃ (b : Brick), ∃ (p : Packet), ∃ (e : MemEnv), let s1 := s.takeArrived b p; let m := memReports e s1; ∃ f, packetSound p = true
        ∧ s.tooOld b p = false ∧ p.ptype.toNat = ptReq ∧ holdsSeat m p = true ∧ genCurrent m p = true ∧ sourceCurrent m p = true ∧ incCurrent m p =
        true ∧ m.dstFlow b p = some f ∧ f.fep = p.fep.toNat ∧ (m.brick b).quarantine = false) ∧
    (∃ (s : State), ∃ (b : Brick), ∃ (p : Packet), ∃ (e : MemEnv), let s1 := s.takeArrived b p; let m := memReports e s1; ∃ f, ∃ r, packetSound p =
        true ∧ s.tooOld b p = false ∧ (takeAcks b p m).dstFlow b p = some f ∧ p.seq.toNat < f.nxt ∧ f.retained.find? (fun r => r.seq = p.seq.toNat) =
        some r) ∧
    (∃ (s : State), ∃ (b : Brick), ∃ (p : Packet), ∃ (e : MemEnv), let s1 := s.takeArrived b p; let m := memReports e s1; ∃ f, packetSound p = true
        ∧ s.tooOld b p = false ∧ (takeAcks b p m).dstFlow b p = some f ∧ p.seq.toNat = f.nxt ∧ f.performing = none ∧ f.held = [] ∧ p.att.toNat =
        f.attMin ∧ mayPerform (takeAcks b p m) b = true ∧ retentionFull (takeAcks b p m) b = false) ∧
    (∃ (s : State), ∃ (b : Brick), ∃ (p : Packet), let s1 := s.takeArrived b p; ∃ f, packetSound p = true ∧ s.tooOld b p = false ∧ p.ptype.toNat =
        ptFack ∧ s1.dstFlow b p = some f ∧ f.fep = p.fep.toNat) ∧
    (∃ (s : State), ∃ (b : Brick), ∃ (p : Packet), let s1 := s.takeArrived b p; packetSound p = true ∧ s.tooOld b p = false ∧ p.ptype.toNat = ptPrb
        ∧ (s1.brick b).quarantine = false ∧ holdsSeat s1 p = true ∧ s1.dstFlow b p = none) ∧
    (∃ (s : State), ∃ (b : Brick), ∃ (p : Packet), let s1 := s.takeArrived b p; ∃ f, packetSound p = true ∧ s.tooOld b p = false ∧ p.ptype.toNat =
        ptPrb ∧ (s1.brick b).quarantine = false ∧ holdsSeat s1 p = true ∧ genOld s1 p = false ∧ incCurrent s1 p = true ∧ s1.dstFlow b p = some f ∧
        f.fep = p.fep.toNat ∧ f.begun ≤ p.seq.toNat) ∧
    (∃ (s : State), ∃ (b : Brick), ∃ (p : Packet), let s1 := s.takeArrived b p; ∃ f, ∃ r, packetSound p = true ∧ s.tooOld b p = false ∧
        p.ptype.toNat = ptPrb ∧ (s1.brick b).quarantine = false ∧ holdsSeat s1 p = true ∧ genOld s1 p = false ∧ incCurrent s1 p = true ∧ s1.dstFlow b
        p = some f ∧ f.fep = p.fep.toNat ∧ p.seq.toNat < f.begun ∧ f.retained.find? (fun r => r.seq = p.seq.toNat) = some r) ∧
    (∃ (s : State), ∃ (b : Brick), ∃ (p : Packet), let s1 := s.takeArrived b p; ∃ f, packetSound p = true ∧ s.tooOld b p = false ∧ p.ptype.toNat =
        ptFcls ∧ holdsSeat s1 p = true ∧ genOld s1 p = false ∧ s1.dstFlow b p = some f) ∧
    (∃ (s : State), ∃ (b : Brick), ∃ (p : Packet), let s1 := s.takeArrived b p; ∃ f, packetSound p = true ∧ s.tooOld b p = false ∧ p.ptype.toNat =
        ptFrst ∧ holdsSeat s1 p = true ∧ sourceCurrent s1 p = true ∧ incCurrent s1 p = true ∧ s1.dstFlow b p = some f ∧ f.fep = p.fep.toNat ∧ f.nxt =
        p.seq.toNat + 1 ∧ max f.ackd p.acks.toNat = f.nxt) ∧
    (∃ (s : State), ∃ (b : Brick), ∃ (p : Packet), ∃ (e : MemEnv), ∃ f, ∃ q, ∃ r, ∃ t, packetSound p = true ∧ s.tooOld b p = false ∧ ((memReports e
        s).brick b).dstFlows = [f] ∧ f.mine q = true ∧ f.held = [q] ∧ q.seq.toNat = f.nxt ∧ f.performing = none ∧ mayPerform (memReports e s) b =
        true ∧ retentionFull (memReports e s) b = false ∧ perform b q e ((memReports e s).onDst b q (fun f =>
        { f with held := [], performing := some q })) = (.reply r, t) ∧ t.dstFlow b q = some { f with held := [], performing := some q } ∧
        retentionUsed ((memReports e s).brick b) + (1 + r.2.length) ≤ retentionSize) :=
  ⟨⟨hasCome (packetLike
     { Packet.zero with ptype := BitVec.ofNat 4 ptReq, sseat := 2, sgen := 3, gen := 3, addr := 0x2000000000000, opc := 1, size := 8 }) seated, 0,
     packetLike { Packet.zero with ptype := BitVec.ofNat 4 ptReq, sseat := 2, sgen := 3, gen := 3, addr := 0x2000000000000, opc := 1, size := 8 },
     MemEnv.quiet, by decide +kernel⟩,
   ⟨hasCome (packetLike
     { Packet.zero with ptype := BitVec.ofNat 4 ptReq, sseat := 2, sgen := 2, gen := 1, addr := 0x1000000000000, opc := 1, size := 8 }) seated, 0,
     packetLike { Packet.zero with ptype := BitVec.ofNat 4 ptReq, sseat := 2, sgen := 2, gen := 1, addr := 0x1000000000000, opc := 1, size := 8 },
     MemEnv.quiet, by decide +kernel⟩,
   ⟨hasCome (from2 ptReq { Packet.zero with inc := 2, opc := 1, size := 8 }) seated, 0, from2 ptReq
     { Packet.zero with inc := 2, opc := 1, size := 8 }, MemEnv.quiet, by decide +kernel⟩,
   ⟨hasCome (from2 ptReq { Packet.zero with opc := 1, size := 8 }) seated, 0, from2 ptReq { Packet.zero with opc := 1, size := 8 }, MemEnv.quiet,
     by decide +kernel⟩,
   ⟨hasCome (from2 ptReq { Packet.zero with opc := 1, size := 8, opn := true }) seated, 0, from2 ptReq
     { Packet.zero with opc := 1, size := 8, opn := true }, MemEnv.quiet, by decide +kernel⟩,
   ⟨hasCome (from2 ptReq { Packet.zero with opc := 1, size := 8 }) (withDst ({ dst2 with nxt := 0 }) seated), 0, from2 ptReq
     { Packet.zero with opc := 1, size := 8 }, MemEnv.quiet, { dst2 with nxt := 0 }, by decide +kernel⟩,
   ⟨hasCome (from2 ptReq { Packet.zero with opc := 1, size := 8 }) (withDst
     ({ dst2 with nxt := 1, retained := [{ seq := 0, status := 0, data := [1] }] }) seated), 0, from2 ptReq { Packet.zero with opc := 1, size := 8 },
     MemEnv.quiet, { dst2 with nxt := 1, retained := [{ seq := 0, status := 0, data := [1] }] }, { seq := 0, status := 0, data := [1] },
     by decide +kernel⟩,
   ⟨hasCome (from2 ptReq { Packet.zero with opc := 1, size := 8 }) (withDst ({ dst2 with nxt := 0 }) seated), 0, from2 ptReq
     { Packet.zero with opc := 1, size := 8 }, MemEnv.quiet, { dst2 with nxt := 0 }, by decide +kernel⟩,
   ⟨hasCome (from2 ptFack Packet.zero) (withDst (dst2) seated), 0, from2 ptFack Packet.zero, dst2, by decide +kernel⟩,
   ⟨hasCome (from2 ptPrb Packet.zero) seated, 0, from2 ptPrb Packet.zero, by decide +kernel⟩,
   ⟨hasCome (from2 ptPrb { Packet.zero with seq := 0 }) (withDst ({ dst2 with nxt := 0 }) seated), 0, from2 ptPrb { Packet.zero with seq := 0 },
     { dst2 with nxt := 0 }, by decide +kernel⟩,
   ⟨hasCome (from2 ptPrb { Packet.zero with seq := 0 }) (withDst ({ dst2 with nxt := 1, retained := [{ seq := 0, status := 0, data := [1] }] })
     seated), 0, from2 ptPrb { Packet.zero with seq := 0 }, { dst2 with nxt := 1, retained := [{ seq := 0, status := 0, data := [1] }] },
     { seq := 0, status := 0, data := [1] }, by decide +kernel⟩,
   ⟨hasCome (from2 ptFcls Packet.zero) (withDst (dst2) seated), 0, from2 ptFcls Packet.zero, dst2, by decide +kernel⟩,
   ⟨hasCome (from2 ptFrst { Packet.zero with acks := 1 }) (withDst ({ dst2 with nxt := 1 }) seated), 0, from2 ptFrst { Packet.zero with acks := 1 },
     { dst2 with nxt := 1 }, by decide +kernel⟩,
   ⟨withDst ({ dst2 with held := [from2 ptReq { Packet.zero with opc := 1, size := 8 }] }) seated, 0, from2 ptFack { Packet.zero with acks := 0 },
     MemEnv.quiet, { dst2 with held := [from2 ptReq { Packet.zero with opc := 1, size := 8 }] }, from2 ptReq
     { Packet.zero with opc := 1, size := 8 }, (0x01, []), _, by decide +kernel, by decide +kernel, rfl, by decide +kernel,
     by decide +kernel, rfl, by decide +kernel, by decide +kernel, rfl, pair_of_fst (by decide +kernel), by decide +kernel⟩⟩

theorem witness_RoutingCommands :
    (∃ (s : State), ∃ (b : Brick), ∃ (p : Packet), let s1 := s.onBrick b (fun B => { B with routeQ := B.routeQ.erase p }); p.ptype.toNat ≠ 0 ∧
        p.ptype.toNat < ptCast ∧ ((p.hops.toNat = 7 → p.dpid.toNat = s1.ownPid)) ∧ ((p.hops = 0 ∨ s1.tooOld b p = false))) ∧
    (∃ (s : State), ∃ (b : Brick), ∃ (p : Packet), let s1 := s.onBrick b (fun B => { B with routeQ := B.routeQ.erase p }); p.hops ≠ 0 ∧ s1.tooOld b
        p = true) ∧
    (∃ (b : Brick), ∃ (p : Packet), ∃ (q : Port), portBrick q = b ∧ p.nm = false ∧ p.ph ≠ 3) ∧
    (∃ (s : State), ∃ (b : Brick), ∃ (p : Packet), (s.brick b).waitPkts = [p] ∧ p.ptype.toNat ≠ ptCast ∧ canGo s b p = true) ∧
    (∃ (s : State), ∃ (b : Brick), ∃ (p : Packet), (s.brick b).waitPkts.find? (fun p => !ownUnsent b p && s.tooOld b p) = some p) :=
  ⟨⟨seated, 0, from2 ptReq { Packet.zero with opc := 1, size := 8, dpid := 1 }, by decide +kernel⟩,
   ⟨{ seated with plumb := 30000000 }, 0, from2 ptReq { Packet.zero with opc := 1, size := 8, hops := 1, dpid := 9 }, by decide +kernel⟩,
   ⟨0, { Packet.zero with dpid := 5 }, 0, by decide +kernel⟩,
   ⟨(setting [(Reg.MRT_PSTAT_STATE 0, 8), (Reg.MRT_TRAY_PORTS 0 1, 1)] seated).onBrick 0 (fun B =>
     { B with waitPkts := [from2 ptReq { Packet.zero with opc := 1, size := 8, dpid := 1 }] }), 0, from2 ptReq
     { Packet.zero with opc := 1, size := 8, dpid := 1 }, by decide +kernel⟩,
   ⟨({ seated with plumb := 30000000 }).onBrick 0 (fun B =>
     { B with waitPkts := [from2 ptReq { Packet.zero with opc := 1, size := 8, hops := 1, dpid := 9 }] }), 0, from2 ptReq
     { Packet.zero with opc := 1, size := 8, hops := 1, dpid := 9 }, by decide +kernel⟩⟩

theorem witness_FlitsAndReplay :
    (∃ (l : LinkId), ∃ (s : State), ∃ (f : Flit), ∃ b, ∃ q, ∃ (m : Fin 18), ∃ flit, l = .bridge b q ∧ (s.link l).bridgeUp = true ∧ (goodModules s b
        q).contains m.val = true ∧ flitOf (padTo 256 flit) = f ∧ f = flitSeal f) ∧
    (∃ (l : LinkId), ∃ (s : State), ∃ (f : Flit), ∃ b, ∃ q, ∃ (m : Fin 18), ∃ flit, l = .bridge b q ∧ (s.link l).bridgeUp = true ∧ (goodModules s b
        q).contains m.val = true ∧ flitOf (padTo 256 flit) = f ∧ f ≠ flitSeal f ∧ f.typ = 1) ∧
    (∃ (l : LinkId), ∃ (s : State), ∃ p, ∃ levels, let r := takeBlock p levels s; ∃ bs, ∃ fixed, l = .port p ∧ 7 ≤ s.portState p ∧ s.portState p ≤ 8
        ∧ fecDecode r.1 = some (bs, fixed) ∧ flitOf bs = flitSeal (flitOf bs)) ∧
    (∃ (l : LinkId), ∃ (s : State), ∃ p, ∃ levels, let r := takeBlock p levels s; l = .port p ∧ 7 ≤ s.portState p ∧ s.portState p ≤ 8 ∧ fecDecode
        r.1 = none ∧ (flitOf r.1).typ = 1) ∧
    (∃ (l : LinkId), ∃ (s : State), ∃ (f : Flit), f.typ = 1 ∧ f.av = false ∧ f.nak = false ∧ f.fsn.toNat = (s.link l).expected) ∧
    (∃ (l : LinkId), ∃ (s : State), (s.link l).nakGot = true) ∧
    (∃ (l : LinkId), ∃ (s : State), ∃ (f : Flit), ∃ fs, ∃ e, (s.link l).replay = f :: fs ∧ (s.link l).episode.getD
        { oldest := f.fsn.toNat, replays := 0 } = e ∧ e.replays < (s.link l).maxReplay) ∧
    (∃ (l : LinkId), ∃ (s : State), (s.link l).episode.isSome = true) ∧
    (∃ (l : LinkId), ∃ (s : State), ∃ (m : Nat × Bytes), ∃ (t : State), takeMessage l 4 s = some (m, t)) ∧
    (∃ (s : State), ∃ (p : Port), ∃ (lanes : BitVec 8), 2 ≤ s.portState p ∧ s.portState p ≤ 8 ∧ s.rd (Reg.MRT_PSTAT_RXLIVE p) ≠ 0 ∧ Nat.land (s.rd
        (Reg.MRT_PSTAT_RXLIVE p)) lanes.toNat = s.rd (Reg.MRT_PSTAT_RXLIVE p)) :=
  ⟨⟨.bridge 0 0, (setting [(Reg.MRT_BSTAT_MODGOOD 0 0, 1)] live).onLink (.bridge 0 0) (fun L => { L with bridgeUp := true }), flit1 1942027060, 0, 0,
     0, flitBytes (flit1 1942027060), rfl, by decide +kernel, by decide +kernel, by decide +kernel, flit1_sealed⟩,
   ⟨.bridge 0 0, (setting [(Reg.MRT_BSTAT_MODGOOD 0 0, 1)] live).onLink (.bridge 0 0) (fun L => { L with bridgeUp := true }), flit1 0, 0, 0, 0,
     flitBytes (flit1 0), rfl, by decide +kernel, by decide +kernel, by decide +kernel, flit1_unsealed, rfl⟩,
   ⟨.port 0, twoLanes, 0, blockLevels soundBlock, soundBlock.take 256, [], rfl, by decide +kernel, by decide +kernel,
     (by rw [sound_comes]; exact sound_decodes), (by rw [sound_flit]; exact flit1_sealed)⟩,
   ⟨.port 0, twoLanes, 0, blockLevels badBlock, rfl, by decide +kernel, by decide +kernel, (by rw [bad_comes]; exact bad_refused),
     (by rw [bad_comes]; decide +kernel)⟩,
   ⟨.port 0, live, flit1 0, by decide +kernel⟩,
   ⟨.port 0, live.onLink (.port 0) (fun L => { L with nakGot := true }), by decide +kernel⟩,
   ⟨.port 0, live.onLink (.port 0) (fun L => { L with replay := [flit1 0] }), flit1 0, [], { oldest := 0, replays := 0 }, by decide +kernel⟩,
   ⟨.port 0, live.onLink (.port 0) (fun L => { L with episode := some { oldest := 0, replays := 1 } }), by decide +kernel⟩,
   ⟨.port 0, message (0, [4]) live, (0, [4]), _, some_pair (by decide +kernel)⟩,
   ⟨setting [(Reg.MRT_PSTAT_RXLIVE 0, 0x81)] (portIn 8), 0, 0xFF, by decide +kernel⟩⟩

theorem witness_LinkMessagesAndArbitration :
    (∃ (l : LinkId), ∃ (s : State), ∃ (t : State), ∃ (m : Nat × Bytes), takeMessage l 3 s = some (m, t)) ∧
    (∃ (l : LinkId), ∃ (s : State), ∃ (t : State), ∃ (m : Nat × Bytes), takeMessage l 1 s = some (m, t) ∧ replayFull s l = false) ∧
    (∃ (s : State), ∃ (t : State), ∃ (m : Nat × Bytes), ∃ (p : Port), ∃ t1, ∃ t2, ∃ t3, takeMessage (.port p) 2 s = some (m, t) ∧ leNat ((m.2.drop
        8).take 8) = t1 ∧ leNat ((m.2.drop 16).take 8) = t2 ∧ leNat ((m.2.drop 24).take 8) = t3 ∧ t1 ≤ m.1 ∧ t2 ≤ t3 ∧ t3 - t2 ≤ m.1 - t1 ∧ (t.link
        (.port p)).training.exchanges = 0 ∧ t.portState p = 8) ∧
    (∃ (pt : Fin 58), ∃ (s : State), ∃ l, pointLink pt = some l ∧ pointStill s pt = false) ∧
    (∃ (s : State), ∃ l, (s.link l).queue = []) ∧
    (∃ (pt : Fin 58), ∃ (s : State), ∃ l, ∃ c, ∃ n, ∃ x, let rank := rankAll s pt (fun _ => none) ((linkCandidates s l).map (fun e => e.2));
        bestLabel rank (tieOrder s.points[pt].last) = some (c, n) ∧ (linkCandidates s l).find? (fun e => e.2 = c) = some x) ∧
    (∃ (pt : Fin 58), ∃ (s : State), let t := rollWindow pt (fillBuckets pt s); ∃ (r : LabelReq), pointLink pt = none ∧ pointStack pt = none ∧
        pointStill s pt = false ∧ (r.lbl.val ≠ 13 ∨ pointBytes pt r.size * 10 ^ 12 ≤ t.points[pt].bucket13)) ∧
    (∃ (pt : Fin 58), ∃ (s : State), (56 ≤ pt.val → s.isSet Reg.HST_STAT_LINKUP = true) ∧ windowNow s pt ≠ s.points[pt].window) :=
  ⟨⟨.port 0, message (0, [3]) live, _, (0, [3]), some_pair (by decide +kernel)⟩,
   ⟨.port 0, message (0, [1]) live, _, (0, [1]), some_pair (by decide +kernel), by decide +kernel⟩,
   ⟨message tsrsp (portIn 8), _, tsrsp, 0, 1, 0, 256, some_pair (by decide +kernel), by decide +kernel⟩,
   ⟨0, portIn 8, .port 0, by decide +kernel⟩,
   ⟨live, .port 0, by decide +kernel⟩,
   ⟨0, (portIn 8).onLink (.port 0) (fun L =>
     { L with queue := [{ pkt := from2 ptReq { Packet.zero with opc := 1, size := 8 }, vc := 0, since := 0 }], credits := List.replicate 8 100 }),
     .port 0, { lbl := 3, age := 0, size := 40, at' := 0 }, 0, ({ pkt := from2 ptReq { Packet.zero with opc := 1, size := 8 }, vc := 0, since := 0 },
     { lbl := 3, age := 0, size := 40, at' := 0 }), by decide +kernel⟩,
   ⟨57, attachedTo live, { lbl := 3, age := 5, size := 64, flow := 0, sector := 0, channel := 0, rowHit := false }, by decide +kernel⟩,
   ⟨0, { live with plumb := 30000000 }, by decide +kernel⟩⟩

theorem witness_PortsAndTraining :
    (∃ (p : Port), ∃ (s : State), s.portOff p = true ∧ s.moduleOk p = true) ∧
    (∃ (p : Port), ∃ (s : State), s.portOff p = true ∧ s.moduleOk p = false) ∧
    (∃ (p : Port), ∃ (s : State), s.portOff p = true) ∧
    (∃ (p : Port), ∃ (s : State), s.portOff p = false) ∧
    (∃ (p : Port), ∃ (s : State), brickSafe s (portBrick p) = false) ∧
    (∃ (p : Port), ∃ (s : State), s.portState p = 8) ∧
    (∃ (p : Port), ∃ (s : State), s.portState p = 0xA) ∧
    (∃ (p : Port), ∃ (s : State), let l := LinkId.port p; (s.link l).training.failed = true) ∧
    (∃ (p : Port), ∃ (s : State), let l := LinkId.port p; (s.link l).training.fast = true ∧ 2 ≤ s.portState p ∧ s.portState p ≤ 7) ∧
    (∃ (p : Port), ∃ (s : State), let l := LinkId.port p; ∃ (r : Nat), s.isSet (Reg.MRT_PCTL_EN p) = true ∧ s.portState p = 1 ∧ s.sheetRec p = some
        r ∧ recRole r ≠ 0 ∧ (s.link l).absentRaised = false) ∧
    (∃ (p : Port), ∃ (s : State), s.portActive p = true) ∧
    (∃ (p : Port), ∃ (s : State), let l := LinkId.port p; ∃ (lane : Fin 8), ∃ (levels : List Level), let word := padTo 32 (bytesOfLevels levels);
        wordIntact word = true ∧ 2 ≤ s.portState p ∧ s.portState p ≤ 6 ∧ bitOf (s.link l).training.excludedOwn lane.val = false) ∧
    (∃ (p : Port), ∃ (s : State), let l := LinkId.port p; ∃ (t : LaneTest), s.portState p = 1 ∧ (s.link l).laneFault = 0 ∧ t.openTx = 0 ∧ t.shortTx
        = 0) ∧
    (∃ (p : Port), ∃ (s : State), let l := LinkId.port p; 16 ≤ (s.link l).training.words ∧ s.portState p = 2) ∧
    (∃ (p : Port), ∃ (s : State), let l := LinkId.port p; 16 ≤ (s.link l).training.words ∧ s.portState p = 3) ∧
    (∃ (p : Port), ∃ (s : State), let l := LinkId.port p; 16 ≤ (s.link l).training.words ∧ s.portState p = 5) ∧
    (∃ (p : Port), ∃ (s : State), let l := LinkId.port p; 16 ≤ (s.link l).training.words ∧ s.portState p = 6) ∧
    (∃ (p : Port), ∃ (s : State), let l := LinkId.port p; s.portState p = 7 ∧ (s.link l).training.verified = true ∧ (s.link l).training.credGot =
        true) ∧
    (∃ (p : Port), ∃ (s : State), 2 ≤ s.portState p ∧ s.portState p ≤ 7 ∧ s.portState p ≠ 6) ∧
    (∃ (p : Port), ∃ (s : State), s.sheetRec p = none ∧ s.portState p ≠ 0xB ∧ s.hod.busFailed.contains (moduleBus p) = false) ∧
    (∃ (s : State), ∃ (b : Brick), ∃ (q : Fin 3), ∃ (modules : BitVec 18), ∃ brick, s.isSet (Reg.MRT_BCTL_EN b q) = true ∧ (s.link (.bridge b
        q)).bridgeUp = false ∧ modules ≠ 0 ∧ uncoreOn s b = true ∧ uncoreOn s (bridgePeer b q) = true ∧ brickSafe s b = false ∧ brickSafe s
        (bridgePeer b q) = false ∧ brick ≠ (bridgePeer b q).val) ∧
    (∃ (s : State), ∃ (b : Brick), ∃ (q : Fin 3), ∃ (m : Fin 18), bitOf (s.rd (Reg.MRT_BSTAT_MODGOOD b q)) m.val = true ∧ s.rd
        (Reg.MRT_BSTAT_MODGOOD b q) ≠ 2 ^ m.val) :=
  ⟨⟨0, (portIn 0).onLink (.port 0) (fun L => { L with modulePresent := true, moduleReadable := true }), by decide +kernel⟩,
   ⟨0, portIn 0, by decide +kernel⟩,
   ⟨0, portIn 0xC, by decide +kernel⟩,
   ⟨0, portIn 8, by decide +kernel⟩,
   ⟨0, (portIn 8), (by decide +kernel)⟩,
   ⟨0, portIn 8, by decide +kernel⟩,
   ⟨0, portIn 0xA, by decide +kernel⟩,
   ⟨0, (portIn 1).onLink (.port 0) (fun L => { L with training := { failed := true } }), by decide +kernel⟩,
   ⟨0, (portIn 7).onLink (.port 0) (fun L => { L with training := { fast := true } }), by decide +kernel⟩,
   ⟨0, { portIn 1 with hod := { (portIn 1).hod with sheet := List.replicate 64 0 ++ [1] } }, 1, by decide +kernel⟩,
   ⟨0, portIn 8, by decide +kernel⟩,
   ⟨0, portIn 6, 7, levelsOf intact, by decide +kernel⟩,
   ⟨0, portIn 1, quietLanes, by decide +kernel⟩,
   ⟨0, (portIn 2).onLink (.port 0) (fun L => { L with training := { words := 16 } }), by decide +kernel⟩,
   ⟨0, (portIn 3).onLink (.port 0) (fun L => { L with training := { words := 16 } }), by decide +kernel⟩,
   ⟨0, (portIn 5).onLink (.port 0) (fun L => { L with training := { words := 16 } }), by decide +kernel⟩,
   ⟨0, (portIn 6).onLink (.port 0) (fun L => { L with training := { words := 16 } }), by decide +kernel⟩,
   ⟨0, (portIn 7).onLink (.port 0) (fun L => { L with training := { verified := true, credGot := true } }), by decide +kernel⟩,
   ⟨0, portIn 7, by decide +kernel⟩,
   ⟨0, live, by decide +kernel⟩,
   ⟨setting [(Reg.MRT_BCTL_EN 0 0, 1)] live, 0, 0, 0x3FFFF, 5, by decide +kernel⟩,
   ⟨setting [(Reg.MRT_BSTAT_MODGOOD 0 0, 0x3FFFF)] live, 0, 0, 17, by decide +kernel⟩⟩

theorem witness_CopiesAndWakes :
    (∃ (t : Tile), ∃ (s : State), ∃ (addr : Word), ∃ (e : MemEnv), let b := tileBrick t; let line := lineOf (s.canon addr.toNat); ∃ (f : Fill),
        let m := memReports e (s.onBrick b (fun B => { B with fills := [] })); (s.brick b).fills = [f] ∧ f.tile = t.val ∧ f.line = line ∧ f.ready =
        true ∧ f.stale = false ∧ addrSeat (line * 128) ≠ 0xFFFF ∧ (m.tile t).stamp ≤ f.stamp) ∧
    (∃ (t : Tile), ∃ (s : State), ∃ (addr : Word), ∃ (e : MemEnv), let b := tileBrick t; let line := lineOf (s.canon addr.toNat); ∃ (f : Fill),
        let m := memReports e (s.onBrick b (fun B => { B with fills := [] })); ∃ d, ∃ x, (s.brick b).fills = [f] ∧ f.tile = t.val ∧ f.line = line ∧
        f.ready = true ∧ f.stale = false ∧ addrSeat (line * 128) = 0xFFFF ∧ lineAtHome (line * 128) e m = (some d, x) ∧ (x.tile t).stamp ≤ f.stamp) ∧
    (∃ (t : Tile), ∃ (s : State), ∃ (addr : Word), let b := tileBrick t; let line := lineOf (s.canon addr.toNat); ∃ f, (s.brick b).fills = [f] ∧
        f.tile = t.val ∧ f.line = line ∧ f.ready = true ∧ f.stale = true) ∧
    (∃ (s : State), ∃ c, ∃ w, ∃ ws, let k := s.slot (tileOf w.tile) w.slot; (s.brick c).wakes = w :: ws ∧ w.slot < 16 ∧ k.st = .opened ∧ s.realSeat
        k.bond.toNat = s.realSeat w.bond.toNat ∧ bitsOf k.bond.toNat 47 0 = bitsOf w.bond.toNat 47 0) ∧
    (∃ (t : Tile), ∃ (s : State), ∃ (c : Brick), ∃ (k : Fin 16384), ∃ (seat : BitVec 16), ∃ (slot : Fin 16), ∃ (w : BondWait), (s.bond c
        k).waits.find? (fun w => w.seat = seat.toNat && w.tile = t.val && w.slot = slot.val) = some w ∧ w.timeout ≠ 0 ∧ w.since + w.timeout * 1000 ≤
        s.plumb.toNat ∧ w.brk = c.val ∧ (w.seat = 0xFFFF ∨ w.seat = s.ownSeatNo)) ∧
    (∃ (s : State), ∃ (c : Brick), s.rd (Reg.BND_CTL_WCHKINT c) = 0) ∧
    (∃ (s : State), let int := fun (c : Brick) => s.rd (Reg.BND_CTL_WCHKINT c) * 1000; ∃ (c : Brick), ∃ (v : Tile), ∃ k, s.rd (Reg.BND_CTL_WCHKINT
        c) ≠ 0 ∧ v ∈ brickTiles c ∧ k < 16 ∧ (s.slot v k).st = .opened ∧ (s.slot v k).registered = true ∧ max (s.slot v k).openedAt (s.slot v
        k).checkedAt + int c ≤ s.now ∧ s.realSeat (s.slot v k).bond.toNat ≠ s.ownSeatNo) ∧
    (∃ (t : Tile), ∃ (s : State), ∃ rel, (s.tile t).releases.find? (fun rel => drained s t rel) = some rel ∧ scopeFailed s t rel = false ∧ rel.range
        = false) ∧
    (∃ (t : Tile), ∃ (s : State), ∃ rel, (s.tile t).releases.find? (fun rel => drained s t rel) = some rel ∧ scopeFailed s t rel = false ∧ rel.range
        = true) ∧
    (∃ (t : Tile), ∃ (s : State), ∃ rel, (s.tile t).releases.find? (fun rel => drained s t rel) = some rel ∧ scopeFailed s t rel = true) :=
  ⟨⟨0, live.onBrick 0 (fun B => { B with fills := [{ tile := 0, line := 1, stamp := 0, no := 0, stale := false, ready := true }] }), 0x80,
     MemEnv.quiet, { tile := 0, line := 1, stamp := 0, no := 0, stale := false, ready := true }, by decide +kernel⟩,
   ⟨0, live.onBrick 0 (fun B => { B with fills := [{ tile := 0, line := 0x1FFFF0000000000, stamp := 0, no := 0, stale := false, ready := true }] }),
     0xFFFF800000000000, MemEnv.quiet, { tile := 0, line := 0x1FFFF0000000000, stamp := 0, no := 0, stale := false, ready := true }, List.replicate
     128 0, _, by decide +kernel, by decide +kernel, rfl, by decide +kernel, by decide +kernel, rfl, pair_of_fst
     (by decide +kernel), by decide +kernel⟩,
   ⟨0, live.onBrick 0 (fun B => { B with fills := [{ tile := 0, line := 1, stamp := 0, no := 0, stale := true, ready := true }] }), 0x80,
     { tile := 0, line := 1, stamp := 0, no := 0, stale := true, ready := true }, by decide +kernel⟩,
   ⟨(live.onBrick 0 (fun B => { B with wakes := [{ tile := 0, slot := 15, status := 0, count := 1, bond := 0x1900000000000 }] })).onSlot 0 15 (fun _
     => { st := .opened, bond := 0x1900000000000 }), 0, { tile := 0, slot := 15, status := 0, count := 1, bond := 0x1900000000000 }, [],
     by decide +kernel⟩,
   ⟨0, ({ live with plumb := 1000 }).onBond 0 16383 (fun B =>
     { B with waits := [{ ge := true, target := 1, seat := 0xFFFF, brk := 0, tile := 0, slot := 15, timeout := 1, since := 0 }] }), 0, 16383, 0xFFFF,
     15, { ge := true, target := 1, seat := 0xFFFF, brk := 0, tile := 0, slot := 15, timeout := 1, since := 0 }, by decide +kernel⟩,
   ⟨setting [(Reg.BND_CTL_WCHKINT 0, 0)] live, 0, by decide +kernel⟩,
   ⟨seated.onSlot 0 15 (fun _ => { st := .opened, bond := 0x2900000000000, registered := true }), 0, 0, 15, by decide +kernel⟩,
   ⟨0, releasing (release false) [], release false, by decide +kernel⟩,
   ⟨0, releasing { release true with before := 4 } [{ no := 3, seat := 1, brk := 1, write := true }], { release true with before := 4 },
     by decide +kernel⟩,
   ⟨0, releasing { release true with before := 4 } [{ no := 3, seat := 1, brk := 0, write := true }], { release true with before := 4 },
     by decide +kernel⟩⟩

theorem witness_CompletionFrame :
    (∃ (t : Tile), ∃ (rd : Nat), ∃ (v : Nat), ∃ (s : State), ∃ (u : State), ∃ (r : Nat), u = completeWith t rd v s ∧ rd < 32 ∧ r < 32 ∧ r ≠ rd) ∧
    (∃ (t : Tile), ∃ (rd : Nat), ∃ (v : Nat), ∃ (s : State), ∃ (u : State), ∃ (x : Tile), u = completeWith t rd v s ∧ x ≠ t) ∧
    (∃ (t : Tile), ∃ (rd : Nat), ∃ (v : Nat), ∃ (s : State), ∃ (u : State), u = completeWith t rd v s ∧ rd < 32) ∧
    (∃ (t : Tile), ∃ (rd : Nat), ∃ (v : Nat), ∃ (s : State), ∃ (u : State), u = completeWith t rd v s) :=
  ⟨⟨0, 31, 2 ^ 64, live, completeWith 0 31 (2 ^ 64) live, 0, rfl, by decide +kernel⟩,
   ⟨0, 31, 2 ^ 64, live, completeWith 0 31 (2 ^ 64) live, 127, rfl, by decide +kernel⟩,
   ⟨0, 31, 2 ^ 64, live, completeWith 0 31 (2 ^ 64) live, rfl, by decide +kernel⟩,
   ⟨0, 31, 2 ^ 64, live, completeWith 0 31 (2 ^ 64) live, rfl⟩⟩

theorem witness_RegisterWindows :
    (∃ (t : Tile), ∃ (e : MemEnv), ∃ s, ∃ s', ∃ w, MasonAt t e s .enter w s' ∧ (s'.mason t).res ≠ 6) ∧
    (∃ (t : Tile), ∃ (e : MemEnv), ∃ s, ∃ s', ∃ w, MasonAt t e s .enter w s' ∧ (s'.mason t).res = 6) ∧
    (∃ (t : Tile), ∃ (e : MemEnv), ∃ s, ∃ s', ∃ w, MasonAt t e s .leave w s' ∧ (s'.mason t).res ≠ 1) ∧
    (∃ (t : Tile), ∃ (e : MemEnv), ∃ s, ∃ s', ∃ w, MasonAt t e s .leave w s' ∧ (s'.mason t).res = 1 ∧ 0 < (s'.mason t).nspill) ∧
    (∃ (t : Tile), ∃ (e : MemEnv), ∃ s, ∃ s', ∃ w, MasonAt t e s .spillw w s' ∧ (s'.mason t).res ≠ 1 ∧ (s'.mason t).ssp + 128 ≤ s'.rd
        (Reg.MSN_SSPHI_HI t) * 128) ∧
    (∃ (t : Tile), ∃ (e : MemEnv), ∃ s, ∃ s', ∃ w, MasonAt t e s .fillw w s' ∧ (s'.mason t).res ≠ 6 ∧ (s'.mason t).nspill ≠ 0 ∧ s'.rd
        (Reg.MSN_SSPLO_LO t) * 128 + 128 ≤ (s'.mason t).ssp ∧ e.storeUnc = [] ∧ storeMarked s' t ((s'.mason t).ssp - 128) 128 = false) :=
  ⟨⟨0, MemEnv.quiet, masonAt 0x90000000, fetched (masonAt 0x90000000), 0x90000000, mason_next (by decide +kernel), by decide +kernel⟩, ⟨0,
    MemEnv.quiet, masonAt 0x90000000 (fun m => { m with res := 6 }), fetched (masonAt 0x90000000 (fun m => { m with res := 6 })), 0x90000000,
    mason_next (by decide +kernel), by decide +kernel⟩, ⟨0, MemEnv.quiet, masonAt 0x94000000 (fun m => { m with res := 2 }), fetched (masonAt
    0x94000000 (fun m => { m with res := 2 })), 0x94000000, mason_next (by decide +kernel), by decide +kernel⟩, ⟨0, MemEnv.quiet, masonAt 0x94000000
    (fun m => { m with nspill := 1 }), fetched (masonAt 0x94000000 (fun m => { m with nspill := 1 })), 0x94000000, mason_next (by decide +kernel), by decide +kernel⟩, ⟨0, MemEnv.quiet, setting [(Reg.MSN_SSPHI_HI 0, 1)] (masonAt 0xC0000012 (fun m =>
    { m with trap := true, res := 6 })), fetched (setting [(Reg.MSN_SSPHI_HI 0, 1)] (masonAt 0xC0000012 (fun m =>
    { m with trap := true, res := 6 }))), 0xC0000012, mason_next (by decide +kernel), by decide +kernel⟩, ⟨0, MemEnv.quiet,
    masonAt 0xC0000013 (fun m => { m with trap := true, nspill := 1, ssp := 128 }), fetched (masonAt 0xC0000013 (fun m =>
    { m with trap := true, nspill := 1, ssp := 128 })), 0xC0000013, mason_next (by decide +kernel), by decide +kernel⟩⟩

theorem witness_TrapEntry :
    (∃ (t : Tile), ∃ (cause : Nat), ∃ (sub : Nat), ∃ (status : Nat), ∃ (xpc : Nat), ∃ (xval : Nat), ∃ (s : State), ∃ (u : State), u = takeTrap t
        cause sub status xpc xval s ∧ (s.mason t).trap = false) ∧
    (∃ (t : Tile), ∃ (cause : Nat), ∃ (sub : Nat), ∃ (status : Nat), ∃ (xpc : Nat), ∃ (xval : Nat), ∃ (s : State), ∃ (u : State), u = takeTrap t
        cause sub status xpc xval s ∧ (s.mason t).trap = true) :=
  ⟨⟨0, 255, 0, 0, 0, 0, live, takeTrap 0 255 0 0 0 0 live, rfl, by decide +kernel⟩, ⟨0, 255, 0, 0, 0, 0, live.onMason 0 (fun m =>
    { m with trap := true }), takeTrap 0 255 0 0 0 0 (live.onMason 0 (fun m => { m with trap := true })), rfl, by decide +kernel⟩⟩

theorem witness_MasonMemoryAccess :
    (∃ (t : Tile), ∃ (e : MemEnv), ∃ (s : State), ∃ (s' : State), ∃ (w : Nat), ∃ (off : Nat), ∃ (a : Nat), ∃ (bytes : Nat), labelPermitted s' t =
        true ∧ a = (regWord s' t (iRa w) + (BitVec.ofNat 12 w).signExtend 64).toNat ∧ MasonAt t e s .ld w s' ∧ bytes = 2 ^ (iMod w / 4) ∧ a % bytes =
        0 ∧ ownOffset s' t a = some off ∧ ownKey t rightLD 0x01 a bytes s' = (true, s') ∧ off + bytes ≤ tileStoreSize ∧ e.storeUnc = [] ∧ storeMarked
        s' t off bytes = false) ∧
    (∃ (t : Tile), ∃ (e : MemEnv), ∃ (s : State), ∃ (s' : State), ∃ (w : Nat), ∃ (a : Nat), ∃ (bytes : Nat), labelPermitted s' t = true ∧ a =
        (regWord s' t (iRa w) + (BitVec.ofNat 12 w).signExtend 64).toNat ∧ MasonAt t e s .ld w s' ∧ bytes = 2 ^ (iMod w / 4) ∧ a % bytes = 0 ∧
        ownOffset s' t a = none ∧ iMod w % 2 = 1 ∧ queueFull s' t = false) ∧
    (∃ (t : Tile), ∃ (e : MemEnv), ∃ (s : State), ∃ (s' : State), ∃ (w : Nat), ∃ (off : Nat), ∃ (a : Nat), ∃ (bytes : Nat), labelPermitted s' t =
        true ∧ a = (regWord s' t (iRa w) + (BitVec.ofNat 12 w).signExtend 64).toNat ∧ MasonAt t e s .st w s' ∧ bytes = 2 ^ (iMod w / 4) ∧ a % bytes =
        0 ∧ ownOffset s' t a = some off ∧ ownKey t rightST 0x02 a bytes s' = (true, s') ∧ off + bytes ≤ tileStoreSize ∧ storeMarked (storePut t off
        (leBytes bytes (s'.mreg t (iRd w))) false s') t off bytes = false) ∧
    (∃ (t : Tile), ∃ (e : MemEnv), ∃ (s : State), ∃ (s' : State), ∃ (w : Nat), ∃ (a : Nat), ∃ (bytes : Nat), labelPermitted s' t = true ∧ a =
        (regWord s' t (iRa w) + (BitVec.ofNat 12 w).signExtend 64).toNat ∧ MasonAt t e s .st w s' ∧ bytes = 2 ^ (iMod w / 4) ∧ a % bytes = 0 ∧
        ownOffset s' t a = none ∧ queueFull s' t = false) ∧
    (∃ (t : Tile), ∃ (e : MemEnv), ∃ (s : State), ∃ (s' : State), ∃ (w : Nat), ∃ (a : Nat), labelPermitted s' t = true ∧ a = (regWord s' t (iRa w) +
        (BitVec.ofNat 12 w).signExtend 64).toNat ∧ MasonAt t e s .atom w s' ∧ s'.mreg t (iRa w) % ((fmtWidth (bitsOf w 5 3)).getD 8) = 0 ∧ ownOffset
        s' t (s'.mreg t (iRa w)) = none ∧ queueFull s' t = false ∧ atomOpc w < 0x20) ∧
    (∃ (t : Tile), ∃ (e : MemEnv), ∃ (s : State), ∃ (s' : State), ∃ (w : Nat), ∃ (a : Nat), labelPermitted s' t = true ∧ a = (regWord s' t (iRa w) +
        (BitVec.ofNat 12 w).signExtend 64).toNat ∧ MasonAt t e s .atom w s' ∧ s'.mreg t (iRa w) % ((fmtWidth (bitsOf w 5 3)).getD 8) = 0 ∧ ownOffset
        s' t (s'.mreg t (iRa w)) = none ∧ queueFull s' t = false ∧ 0x20 ≤ atomOpc w) :=
  ⟨⟨0, MemEnv.quiet, masonAt 0x4041C000 (fun m => (m.put 1 0xFFFF8000005FFFF8).put 2 0x1122), fetched (masonAt 0x4041C000 (fun m => (m.put 1
     0xFFFF8000005FFFF8).put 2 0x1122)), 0x4041C000, 0x5FFFF8, 0xFFFF8000005FFFF8, 8, by decide +kernel, by decide +kernel, mason_next
     (by decide +kernel), by decide +kernel⟩,
   ⟨0, MemEnv.quiet, masonAt 0x4041D000 (fun m => (m.put 1 0x0002000000000000).put 2 0x1122), fetched (masonAt 0x4041D000 (fun m => (m.put 1
     0x0002000000000000).put 2 0x1122)), 0x4041D000, 0x0002000000000000, 8, by and_intros <;> first | exact mason_next (by decide +kernel) |
     decide +kernel⟩,
   ⟨0, MemEnv.quiet, masonAt 0x4441C000 (fun m => (m.put 1 0xFFFF8000005FFFF8).put 2 0x1122), fetched (masonAt 0x4441C000 (fun m => (m.put 1
     0xFFFF8000005FFFF8).put 2 0x1122)), 0x4441C000, 0x5FFFF8, 0xFFFF8000005FFFF8, 8, by decide +kernel, by decide +kernel, mason_next
     (by decide +kernel), by decide +kernel⟩,
   ⟨0, MemEnv.quiet, masonAt 0x4441C000 (fun m => (m.put 1 0x0002000000000000).put 2 0x1122), fetched (masonAt 0x4441C000 (fun m => (m.put 1
     0x0002000000000000).put 2 0x1122)), 0x4441C000, 0x0002000000000000, 8, by and_intros <;> first | exact mason_next (by decide +kernel) |
     decide +kernel⟩,
   ⟨0, MemEnv.quiet, masonAt 0x48411880 (fun m => (m.put 1 0x0002000000000000).put 2 0x1122), fetched (masonAt 0x48411880 (fun m => (m.put 1
     0x0002000000000000).put 2 0x1122)), 0x48411880, 0x0001FFFFFFFFF880, by and_intros <;> first | exact mason_next (by decide +kernel) |
     decide +kernel⟩,
   ⟨0, MemEnv.quiet, masonAt 0x484118C0 (fun m => (m.put 1 0x0002000000000000).put 2 0x1122), fetched (masonAt 0x484118C0 (fun m => (m.put 1
     0x0002000000000000).put 2 0x1122)), 0x484118C0, 0x0001FFFFFFFFF8C0, by and_intros <;> first | exact mason_next (by decide +kernel) |
     decide +kernel⟩⟩

theorem witness_SignalAndOrderInstructions :
    (∃ (t : Tile), ∃ (e : MemEnv), ∃ (s : State), ∃ (s' : State), ∃ (w : Nat), let slot := bitsOf w 6 3; labelPermitted s' t = true ∧ queueFull s' t
        = false ∧ MasonAt t e s .bopWaitge w s' ∧ (s'.slot t slot).st = .free) ∧
    (∃ (t : Tile), ∃ (e : MemEnv), ∃ (s : State), ∃ (s' : State), ∃ (w : Nat), let slot := bitsOf w 6 3; labelPermitted s' t = true ∧ queueFull s' t
        = false ∧ MasonAt t e s .bopWaiteq w s' ∧ (s'.slot t slot).st = .free) ∧
    (∃ (t : Tile), ∃ (e : MemEnv), ∃ (s : State), ∃ (s' : State), ∃ (w : Nat), labelPermitted s' t = true ∧ queueFull s' t = false ∧ MasonAt t e s
        .bopTest w s') ∧
    (∃ (t : Tile), ∃ (e : MemEnv), ∃ (s : State), ∃ (s' : State), ∃ (w : Nat), labelPermitted s' t = true ∧ queueFull s' t = false ∧ MasonAt t e s
        .bopArmto w s') ∧
    (∃ (t : Tile), ∃ (e : MemEnv), ∃ (s : State), ∃ (s' : State), ∃ (w : Nat), labelPermitted s' t = true ∧ queueFull s' t = false ∧ MasonAt t e s
        .bopWcancel w s') ∧
    (∃ (t : Tile), ∃ (e : MemEnv), ∃ (s : State), ∃ (s' : State), ∃ (w : Nat), labelPermitted s' t = true ∧ queueFull s' t = false ∧ MasonAt t e s
        .bopArmsig w s' ∧ (armedOrAsked s' t).length < 16) ∧
    (∃ (t : Tile), ∃ (e : MemEnv), ∃ (s : State), ∃ (s' : State), ∃ (w : Nat), labelPermitted s' t = true ∧ queueFull s' t = false ∧ MasonAt t e s
        .bopDisarm w s') ∧
    (∃ (t : Tile), ∃ (e : MemEnv), ∃ (s : State), ∃ (s' : State), ∃ (w : Nat), labelPermitted s' t = true ∧ queueFull s' t = false ∧ MasonAt t e s
        .bopPoison w s') ∧
    (∃ (t : Tile), ∃ (e : MemEnv), ∃ (s : State), ∃ (s' : State), ∃ (w : Nat), labelPermitted s' t = true ∧ queueFull s' t = false ∧ MasonAt t e s
        .bopSigadd w s' ∧ unitsIdle s' t 4 = true) ∧
    (∃ (t : Tile), ∃ (e : MemEnv), ∃ (s : State), ∃ (s' : State), ∃ (w : Nat), labelPermitted s' t = true ∧ queueFull s' t = false ∧ MasonAt t e s
        .bopReset w s' ∧ unitsIdle s' t 4 = true) ∧
    (∃ (t : Tile), ∃ (e : MemEnv), ∃ (s : State), ∃ (s' : State), ∃ (w : Nat), MasonAt t e s .cfence w s' ∧ unitsIdle s' t 4 = true) ∧
    (∃ (t : Tile), ∃ (e : MemEnv), ∃ (s : State), ∃ (s' : State), ∃ (w : Nat), MasonAt t e s .twait w s' ∧ unitsIdle s' t (bitsOf w 5 3) = true) ∧
    (∃ (t : Tile), ∃ (e : MemEnv), ∃ (s : State), ∃ (s' : State), ∃ (w : Nat), MasonAt t e s .drain w s' ∧ masonOutstanding s' t = false) ∧
    (∃ (t : Tile), ∃ (e : MemEnv), ∃ (s : State), ∃ (s' : State), ∃ (w : Nat), let a := s'.mreg t (iRa w); let n := s'.mreg t (iRb w); MasonAt t e s
        .rel w s' ∧ labelPermitted s' t = true ∧ rangeOk a n = true ∧ unitsIdle s' t 4 = true) ∧
    (∃ (t : Tile), ∃ (e : MemEnv), ∃ (s : State), ∃ (s' : State), ∃ (w : Nat), let a := s'.mreg t (iRa w); let n := s'.mreg t (iRb w); MasonAt t e s
        .acq w s' ∧ rangeOk a n = true) ∧
    (∃ (t : Tile), ∃ (e : MemEnv), ∃ (s : State), ∃ (s' : State), ∃ (w : Nat), MasonAt t e s .acqf w s') ∧
    (∃ (t : Tile), ∃ (e : MemEnv), ∃ (s : State), ∃ (s' : State), ∃ (w : Nat), MasonAt t e s .rds w s' ∧ (s'.mason t).pending (iFn w % 16) = 0) ∧
    (∃ (t : Tile), ∃ (e : MemEnv), ∃ (s : State), ∃ (s' : State), ∃ (w : Nat), MasonAt t e s .wsl w s' ∧ bitOf w 5 = false ∧ bitOf w 4 = true ∧
        (s'.slot t (iFn w % 16)).st = .done) ∧
    (∃ (t : Tile), ∃ (e : MemEnv), ∃ (s : State), ∃ (s' : State), ∃ (w : Nat), MasonAt t e s .wsl w s' ∧ bitOf w 5 = false ∧ (s'.slot t (iFn w %
        16)).st = .opened ∧ (s'.mason t).sreq = false) ∧
    (∃ (t : Tile), ∃ (e : MemEnv), ∃ (s : State), ∃ (s' : State), ∃ (w : Nat), let a := s'.mreg t (iRa w); let n := s'.mreg t (iRb w); MasonAt t e s
        .tcmd w s' ∧ labelPermitted s' t = true ∧ iFn w % 4 = 0 ∧ commandOk (a + n * 2 ^ 64) 0 = true ∧ (s'.tile t).press.queue.length < 32 ∧ cSumen
        (a + n * 2 ^ 64) = false) ∧
    (∃ (t : Tile), ∃ (e : MemEnv), ∃ (s : State), ∃ (s' : State), ∃ (w : Nat), let a := s'.mreg t (iRa w); let n := s'.mreg t (iRb w); MasonAt t e s
        .tcmd w s' ∧ labelPermitted s' t = true ∧ iFn w % 4 = 1 ∧ commandOk (a + n * 2 ^ 64) 1 = true ∧ (s'.tile t).glaze.queue.length < 32 ∧ cSumen
        (a + n * 2 ^ 64) = true ∧ (s'.mason t).pending (cSreg (a + n * 2 ^ 64)) < 255) ∧
    (∃ (t : Tile), ∃ (e : MemEnv), ∃ (s : State), ∃ (s' : State), ∃ (w : Nat), let a := s'.mreg t (iRa w); let n := s'.mreg t (iRb w); MasonAt t e s
        .tcmd w s' ∧ labelPermitted s' t = true ∧ iFn w % 4 = 2 ∧ commandOk (a + n * 2 ^ 64) 2 = true ∧ (s'.tile t).sieve.queue.length < 16 ∧ cSumen
        (a + n * 2 ^ 64) = false) :=
  ⟨⟨0, MemEnv.quiet, masonAt 0x4C011178 (fun m => (m.put 1 0x0001900000000000).put 2 0x1122), fetched (masonAt 0x4C011178 (fun m => (m.put 1
     0x0001900000000000).put 2 0x1122)), 0x4C011178, by and_intros <;> first | exact mason_next (by decide +kernel) | decide +kernel⟩,
   ⟨0, MemEnv.quiet, masonAt 0x4C0111F8 (fun m => (m.put 1 0x0001900000000000).put 2 0x1122), fetched (masonAt 0x4C0111F8 (fun m => (m.put 1
     0x0001900000000000).put 2 0x1122)), 0x4C0111F8, by and_intros <;> first | exact mason_next (by decide +kernel) | decide +kernel⟩,
   ⟨0, MemEnv.quiet, masonAt 0x4C01127A (fun m => (m.put 1 0x0001900000000000).put 2 0x1122), fetched (masonAt 0x4C01127A (fun m => (m.put 1
     0x0001900000000000).put 2 0x1122)), 0x4C01127A, by and_intros <;> first | exact mason_next (by decide +kernel) | decide +kernel⟩,
   ⟨0, MemEnv.quiet, masonAt 0x4C011378 (fun m => (m.put 1 0x0001900000000000).put 2 0x1122), fetched (masonAt 0x4C011378 (fun m => (m.put 1
     0x0001900000000000).put 2 0x1122)), 0x4C011378, by and_intros <;> first | exact mason_next (by decide +kernel) | decide +kernel⟩,
   ⟨0, MemEnv.quiet, masonAt 0x4C0113F8 (fun m => (m.put 1 0x0001900000000000).put 2 0x1122), fetched (masonAt 0x4C0113F8 (fun m => (m.put 1
     0x0001900000000000).put 2 0x1122)), 0x4C0113F8, by and_intros <;> first | exact mason_next (by decide +kernel) | decide +kernel⟩,
   ⟨0, MemEnv.quiet, masonAt 0x4C011478 (fun m => (m.put 1 0x0001900000000000).put 2 0x1122), fetched (masonAt 0x4C011478 (fun m => (m.put 1
     0x0001900000000000).put 2 0x1122)), 0x4C011478, by and_intros <;> first | exact mason_next (by decide +kernel) | decide +kernel⟩,
   ⟨0, MemEnv.quiet, masonAt 0x4C0114F8 (fun m => (m.put 1 0x0001900000000000).put 2 0x1122), fetched (masonAt 0x4C0114F8 (fun m => (m.put 1
     0x0001900000000000).put 2 0x1122)), 0x4C0114F8, by and_intros <;> first | exact mason_next (by decide +kernel) | decide +kernel⟩,
   ⟨0, MemEnv.quiet, masonAt 0x4C011578 (fun m => (m.put 1 0x0001900000000000).put 2 0x1122), fetched (masonAt 0x4C011578 (fun m => (m.put 1
     0x0001900000000000).put 2 0x1122)), 0x4C011578, by and_intros <;> first | exact mason_next (by decide +kernel) | decide +kernel⟩,
   ⟨0, MemEnv.quiet, masonAt 0x4C0110F8 (fun m => (m.put 1 0x0001900000000000).put 2 0x1122), fetched (masonAt 0x4C0110F8 (fun m => (m.put 1
     0x0001900000000000).put 2 0x1122)), 0x4C0110F8, by and_intros <;> first | exact mason_next (by decide +kernel) | decide +kernel⟩,
   ⟨0, MemEnv.quiet, masonAt 0x4C0112F9 (fun m => (m.put 1 0x0001900000000000).put 2 0x1122), fetched (masonAt 0x4C0112F9 (fun m => (m.put 1
     0x0001900000000000).put 2 0x1122)), 0x4C0112F9, by and_intros <;> first | exact mason_next (by decide +kernel) | decide +kernel⟩,
   ⟨0, MemEnv.quiet, masonAt 0x50000000, fetched (masonAt 0x50000000), 0x50000000, mason_next (by decide +kernel), by decide +kernel⟩,
   ⟨0, MemEnv.quiet, masonAt 0x50000024, fetched (masonAt 0x50000024), 0x50000024, mason_next (by decide +kernel), by decide +kernel⟩,
   ⟨0, MemEnv.quiet, masonAt 0x50000005, fetched (masonAt 0x50000005), 0x50000005, mason_next (by decide +kernel), by decide +kernel⟩,
   ⟨0, MemEnv.quiet, masonAt 0x50010001 (fun m => (m.put 1 0x0002000000000000).put 2 0x1122), fetched (masonAt 0x50010001 (fun m => (m.put 1
     0x0002000000000000).put 2 0x1122)), 0x50010001, mason_next (by decide +kernel), by decide +kernel⟩,
   ⟨0, MemEnv.quiet, masonAt 0x50010002 (fun m => (m.put 1 0x0002000000000000).put 2 0x1122), fetched (masonAt 0x50010002 (fun m => (m.put 1
     0x0002000000000000).put 2 0x1122)), 0x50010002, mason_next (by decide +kernel), by decide +kernel⟩,
   ⟨0, MemEnv.quiet, masonAt 0x50000003, fetched (masonAt 0x50000003), 0x50000003, mason_next (by decide +kernel)⟩,
   ⟨0, MemEnv.quiet, masonAt 0x6460000F, fetched (masonAt 0x6460000F), 0x6460000F, mason_next (by decide +kernel), by decide +kernel⟩,
   ⟨0, MemEnv.quiet, (masonAt 0x54600010).onSlot 0 0 (fun _ => { st := .done }), fetched ((masonAt 0x54600010).onSlot 0 0 (fun _ =>
     { st := .done })), 0x54600010, mason_next (by decide +kernel), by decide +kernel⟩,
   ⟨0, MemEnv.quiet, (masonAt 0x54600010).onSlot 0 0 (fun _ => { st := .opened }), fetched ((masonAt 0x54600010).onSlot 0 0 (fun _ =>
     { st := .opened })), 0x54600010, mason_next (by decide +kernel), by decide +kernel⟩,
   ⟨0, MemEnv.quiet, masonAt 0x60011000 (fun m => (m.put 1 0x10).put 2 0), fetched (masonAt 0x60011000 (fun m => (m.put 1 0x10).put 2 0)),
     0x60011000, mason_next (by decide +kernel), by decide +kernel⟩,
   ⟨0, MemEnv.quiet, masonAt 0x60011001 (fun m => (m.put 1 0x7D60).put 2 1), fetched (masonAt 0x60011001 (fun m => (m.put 1 0x7D60).put 2 1)),
     0x60011001, mason_next (by decide +kernel), by decide +kernel⟩,
   ⟨0, MemEnv.quiet, masonAt 0x60011002 (fun m => (m.put 1 0x201).put 2 0), fetched (masonAt 0x60011002 (fun m => (m.put 1 0x201).put 2 0)),
     0x60011002, mason_next (by decide +kernel), by decide +kernel⟩⟩

theorem witness_MasonOutcomesAndControl :
    (∃ (t : Tile), ∃ (s : State), ∃ (s' : State), ∃ (r : Result), ∃ (n : Nat), ∃ (rd : Nat), ∃ (bytes : Nat), ∃ (a : Nat), ∃ (sg : Bool), (s.mason
        t).blocked = some (.load n rd bytes sg a) ∧ takeResult (isBlocking t n) s = some (r, s') ∧ r.kind = .completed ∧ r.status = 0 ∧ (s'.mason
        t).stopReq = false) ∧
    (∃ (t : Tile), ∃ (s : State), ∃ (s' : State), ∃ (r : Result), ∃ (n : Nat), ∃ (rd : Nat), ∃ (bytes : Nat), ∃ (a : Nat), ∃ (sg : Bool), (s.mason
        t).blocked = some (.load n rd bytes sg a) ∧ takeResult (isBlocking t n) s = some (r, s') ∧ r.kind = .unreachable ∧ (s'.mason t).stopReq =
        false ∧ (s'.mason t).trap = false) ∧
    (∃ (t : Tile), ∃ (s : State), ∃ (s' : State), ∃ (r : Result), takeResult (fun i => decide (i = .masonPosted t.val)) s = some (r, s') ∧ tileFenced
        s' t = false ∧ r.op.opc.toNat / 16 ≠ 3 ∧ r.kind = .rejected ∧ r.status ≠ 0 ∧ (s'.mason t).run = .running) ∧
    (∃ (t : Tile), ∃ (s : State), tileServes s t = true ∧ tileFenced s t = false ∧ (s.mason t).run = .idle) ∧
    (∃ (t : Tile), ∃ (s : State), tileServes s t = true ∧ tileFenced s t = false ∧ (s.mason t).run = .running ∧ (s.mason t).blocked = none ∧ slotsIn
        s t .opened = [] ∧ slotsIn s t .done = []) ∧
    (∃ (t : Tile), ∃ (s : State), tileServes s t = true ∧ tileFenced s t = false ∧ (s.mason t).run = .running) ∧
    (∃ (t : Tile), ∃ (s : State), tileServes s t = true ∧ tileFenced s t = false ∧ (s.mason t).run = .suspended) ∧
    (∃ (t : Tile), ∃ (s : State), tileServes s t = true ∧ tileFenced s t = false ∧ (s.mason t).run = .faulted) :=
  ⟨⟨0,
    { masonAt 0 (fun m => { m with blocked := some (.load 0 2 8 false 0) }) with results := [{ issuer := .masonLoad 0 0, kind := .completed, status := 0, data := [1], op := opAt 0 }] },
    _, { issuer := .masonLoad 0 0, kind := .completed, status := 0, data := [1], op := opAt 0 }, 0, 2, 8, 0, false, by decide +kernel, some_pair
    (by decide +kernel), by decide +kernel⟩, ⟨0,
    { masonAt 0 (fun m => { m with blocked := some (.load 0 2 8 false 0) }) with results := [{ issuer := .masonLoad 0 0, kind := .unreachable, status := 0, data := [1], op := opAt 0 }] },
    _, { issuer := .masonLoad 0 0, kind := .unreachable, status := 0, data := [1], op := opAt 0 }, 0, 2, 8, 0, false, by decide +kernel, some_pair
    (by decide +kernel), by decide +kernel⟩, ⟨0,
    { masonAt 0 with results := [{ issuer := .masonPosted 0, kind := .rejected, status := 1, data := [], op := opAt 0 }] }, _,
    { issuer := .masonPosted 0, kind := .rejected, status := 1, data := [], op := opAt 0 }, some_pair (by decide +kernel), by decide +kernel⟩, ⟨0, live, by decide +kernel⟩, ⟨0, masonAt 0, by decide +kernel⟩, ⟨0,
    masonAt 0, by decide +kernel⟩, ⟨0, live.onMason 0 (fun m => { m with run := .suspended }), by decide +kernel⟩, ⟨0, live.onMason 0 (fun m =>
    { m with run := .faulted }), by decide +kernel⟩⟩

theorem witness_PressResult :
    (∃ (t : Tile), ∃ (e : MemEnv), ∃ (s : State), ∃ (cmd : TileCmd), ∃ (rest : List TileCmd),
     let desc := bitsOf cmd.word 56 40 * 64;
     let raw := storeBytes s t desc 64;
     let d := pressDesc raw cmd.word;
     (s.tile t).press.queue = cmd :: rest ∧ (s.tile t).press.run = none ∧ (s.tile t).press.inject = false ∧ mayStart s t cmd = true ∧ cOp cmd.word =
         0x01 ∧ bitsOf cmd.word 127 57 = 0 ∧ bitsOf cmd.word 39 32 = 0 ∧ desc + 64 ≤ tileStoreSize ∧ storeMarked (tileReports
         { e with masonUnc := [], masonCorr := [] } (settleQuarter t s)) t desc 64 = false ∧ pressRefusal d raw (cSumen cmd.word) = none ∧
         pressOverlap d desc = false) :=
  ⟨0, MemEnv.quiet, (pressing 0x800064400001).store (tileStoreKey 0 0x2000) pressBytes, cmdOf 0x800064400001, [], by decide +kernel⟩

theorem witness_PressArithmetic :
    (∃ (d : PressDesc), d.accInt = true ∧ d.outScaled = false) ∧
    (∃ (d : PressDesc), d.accInt = false ∧ d.isInt = false ∧ d.blocked = false ∧ d.outScaled = false) :=
  ⟨⟨pressDesc pressBytes 0x64400001, by decide +kernel⟩, ⟨pressDesc pressBytes 0x33300001, by decide +kernel⟩⟩

theorem witness_UnitCommands :
    (∃ (t : Tile), ∃ (s : State), ∃ (cmd : TileCmd), ∃ (rest : List TileCmd), (s.tile t).press.queue = cmd :: rest ∧ (s.tile t).press.run = none ∧
        mayStart s t cmd = true ∧ cOp cmd.word = 0x10 ∧ bitsOf cmd.word 127 33 = 0 ∧ bitsOf cmd.word 31 10 = 0) ∧
    (∃ (t : Tile), ∃ (s : State), ∃ r, (s.tile t).press.run = some r ∧ tileGoes s t = true) ∧
    (∃ (t : Tile), ∃ (s : State), mayClear s t = true) ∧
    (∃ (t : Tile), ∃ (s : State), s.isSet (Reg.PRS_CTL_RINJEN t) = true ∧ tileServes s t = true) ∧
    (∃ (t : Tile), ∃ (s : State), ∃ (cmd : TileCmd), ∃ (rest : List TileCmd), (s.tile t).press.queue = cmd :: rest ∧ (s.tile t).press.run = none ∧
        mayStart s t cmd = true ∧ cOp cmd.word ≠ 0x01 ∧ cOp cmd.word ≠ 0x10) ∧
    (∃ (t : Tile), ∃ (s : State), ∃ r, ∃ v, (s.sieve t).run = some r ∧ r.done = some v ∧ tileGoes s t = true) ∧
    (∃ (t : Tile), ∃ (s : State), ∃ r, (s.sieve t).run = some r ∧ tileGoes s t = true ∧ sieveState s t = svSuspending ∧ atSuspension r = true) ∧
    (∃ (t : Tile), ∃ (s : State), ∃ (r : SieveRun), tileServes s t = true ∧ tileFenced s t = false ∧ sieveState s t = svSuspended ∧ (s.sieve t).run
        = some r) ∧
    (∃ (t : Tile), ∃ (s : State), ∃ (r : SieveRun), tileServes s t = true ∧ tileFenced s t = false ∧ sieveState s t = svRunning ∧ (s.sieve t).run =
        some r ∧ (s.sieve t).queue = []) ∧
    (∃ (t : Tile), ∃ (s : State), ∃ r, (s.tile t).glaze.run = some r ∧ tileGoes s t = true) ∧
    (∃ (t : Tile), ∃ (e : MemEnv), ∃ (s : State), let op : Nat := 1; let refusal : Nat → (Nat → Nat → Nat) → Option Nat := (fun _ => gatherRefusal);
        ∃ (cmd : TileCmd), ∃ (rest : List TileCmd), let off := bitsOf cmd.word 56 40 * 64; let size := sieveDescSize op;
        let s1 := tileReports { e with masonUnc := [], masonCorr := [] } s; let d := storeBytes s t off size; (s.sieve t).queue = cmd :: rest ∧
        (s.sieve t).run = none ∧ mayStart s t cmd = true ∧ sieveState s t = 0 ∧ cOp cmd.word = op ∧ sieveHeaderOk cmd.word = true ∧ bitsOf cmd.word
        127 57 = 0 ∧ bitsOf cmd.word 39 32 = 0 ∧ inStore off size = true ∧ ((size = 64 ∨ off % 128 = 0)) ∧ storeMarked s1 t off size = false ∧
        refusal cmd.word (fun i n => leNat ((d.drop i).take n)) = none) ∧
    (∃ (t : Tile), ∃ (e : MemEnv), ∃ (s : State), let op : Nat := 2; let refusal : Nat → (Nat → Nat → Nat) → Option Nat := (fun _ => yardRefusal); ∃
        (cmd : TileCmd), ∃ (rest : List TileCmd), let off := bitsOf cmd.word 56 40 * 64; let size := sieveDescSize op;
        let s1 := tileReports { e with masonUnc := [], masonCorr := [] } s; let d := storeBytes s t off size; (s.sieve t).queue = cmd :: rest ∧
        (s.sieve t).run = none ∧ mayStart s t cmd = true ∧ sieveState s t = 0 ∧ cOp cmd.word = op ∧ sieveHeaderOk cmd.word = true ∧ bitsOf cmd.word
        127 57 = 0 ∧ bitsOf cmd.word 39 32 = 0 ∧ inStore off size = true ∧ ((size = 64 ∨ off % 128 = 0)) ∧ storeMarked s1 t off size = false ∧
        refusal cmd.word (fun i n => leNat ((d.drop i).take n)) = none) ∧
    (∃ (t : Tile), ∃ (e : MemEnv), ∃ (s : State), let op : Nat := 3;
        let refusal : Nat → (Nat → Nat → Nat) → Option Nat := (fun _ => expertRefusal false 0); ∃ (cmd : TileCmd), ∃ (rest : List TileCmd),
        let off := bitsOf cmd.word 56 40 * 64; let size := sieveDescSize op; let s1 := tileReports { e with masonUnc := [], masonCorr := [] } s;
        let d := storeBytes s t off size; (s.sieve t).queue = cmd :: rest ∧ (s.sieve t).run = none ∧ mayStart s t cmd = true ∧ sieveState s t = 0 ∧
        cOp cmd.word = op ∧ sieveHeaderOk cmd.word = true ∧ bitsOf cmd.word 127 57 = 0 ∧ bitsOf cmd.word 39 32 = 0 ∧ inStore off size = true ∧ ((size
        = 64 ∨ off % 128 = 0)) ∧ storeMarked s1 t off size = false ∧ refusal cmd.word (fun i n => leNat ((d.drop i).take n)) = none) ∧
    (∃ (t : Tile), ∃ (e : MemEnv), ∃ (s : State), let op : Nat := 4;
        let refusal : Nat → (Nat → Nat → Nat) → Option Nat := (fun c => expertRefusal true (elemWidth (cFmtD c))); ∃ (cmd : TileCmd), ∃ (rest : List
        TileCmd), let off := bitsOf cmd.word 56 40 * 64; let size := sieveDescSize op;
        let s1 := tileReports { e with masonUnc := [], masonCorr := [] } s; let d := storeBytes s t off size; (s.sieve t).queue = cmd :: rest ∧
        (s.sieve t).run = none ∧ mayStart s t cmd = true ∧ sieveState s t = 0 ∧ cOp cmd.word = op ∧ sieveHeaderOk cmd.word = true ∧ bitsOf cmd.word
        127 57 = 0 ∧ bitsOf cmd.word 39 32 = 0 ∧ inStore off size = true ∧ ((size = 64 ∨ off % 128 = 0)) ∧ storeMarked s1 t off size = false ∧
        refusal cmd.word (fun i n => leNat ((d.drop i).take n)) = none) ∧
    (∃ (t : Tile), ∃ (e : MemEnv), ∃ (s : State), let op : Nat := 5;
        let refusal : Nat → (Nat → Nat → Nat) → Option Nat := (fun _ => pointsRefusal (tileReports { e with masonUnc := [], masonCorr := [] } s) (tileBrick t));
        ∃ (cmd : TileCmd), ∃ (rest : List TileCmd), let off := bitsOf cmd.word 56 40 * 64; let size := sieveDescSize op;
        let s1 := tileReports { e with masonUnc := [], masonCorr := [] } s; let d := storeBytes s t off size; (s.sieve t).queue = cmd :: rest ∧
        (s.sieve t).run = none ∧ mayStart s t cmd = true ∧ sieveState s t = 0 ∧ cOp cmd.word = op ∧ sieveHeaderOk cmd.word = true ∧ bitsOf cmd.word
        127 57 = 0 ∧ bitsOf cmd.word 39 32 = 0 ∧ inStore off size = true ∧ ((size = 64 ∨ off % 128 = 0)) ∧ storeMarked s1 t off size = false ∧
        refusal cmd.word (fun i n => leNat ((d.drop i).take n)) = none) :=
  ⟨⟨0, pressing 0x100000010, cmdOf 0x100000010, [], by decide +kernel⟩,
   ⟨0, live.onTile 0 (fun T => { T with press := { T.press with run := some { cmd := cmdOf 1 } } }), { cmd := cmdOf 1 }, by decide +kernel⟩,
   ⟨0, live, by decide +kernel⟩,
   ⟨0, setting [(Reg.PRS_CTL_RINJEN 0, 1)] live, by decide +kernel⟩,
   ⟨0, pressing 0x02, cmdOf 0x02, [], by decide +kernel⟩,
   ⟨0, sieving 1 (some { sieveRun with done := some 1 }), { sieveRun with done := some 1 }, 1, by decide +kernel⟩,
   ⟨0, sieving svSuspending (some sieveRun), sieveRun, by decide +kernel⟩,
   ⟨0, sieving svSuspended (some sieveRun), sieveRun, by decide +kernel⟩,
   ⟨0, sieving svRunning (some sieveRun), sieveRun, by decide +kernel⟩,
   ⟨0, live.onTile 0 (fun T => { T with glaze := { T.glaze with run := some { cmd := cmdOf 1 } } }), { cmd := cmdOf 1 }, by decide +kernel⟩,
   ⟨0, MemEnv.quiet, sieveCmd 0x800000000001 64 0x1000000000000000000000000000000200000000000000000000000000000000000000001000000000000000000000000,
     cmdOf 0x800000000001, [], by decide +kernel⟩,
   ⟨0, MemEnv.quiet, sieveCmd 0x800000000002 64 0x1, cmdOf 0x800000000002, [], by decide +kernel⟩,
   ⟨0, MemEnv.quiet, sieveCmd 0x800000000003 64 0x1000000000000000000001000100000001, cmdOf 0x800000000003, [], by decide +kernel⟩,
   ⟨0, MemEnv.quiet, sieveCmd 0x800020200004 64 0x1000000000000000000001000100000001, cmdOf 0x800020200004, [], by decide +kernel⟩,
   ⟨0, MemEnv.quiet, sieveCmd 0x800000000005 128
     0x400000000001000100013f8000000000000000000000000000000000000a000000010001000100000001ffff000000000000ffff00000000000000000000000000000000000000000000
     windowed, cmdOf 0x800000000005, [], by decide +kernel⟩⟩

theorem witness_GlazeArithmetic :
    (∃ (t : Tile), ∃ (s : State), ∃ (cmd : TileCmd), ∃ (rest : List TileCmd),
     let c := cmd.word;
     let two := (elementCheck [3, 2, 6] true false (bitsOf (gSub c) 6 0 == 0) false c).why c = none;
     GlazeNext s t cmd rest ∧ cOp c = 0x10 ∧ two) ∧
    (∃ (t : Tile), ∃ (s : State), ∃ (cmd : TileCmd), ∃ (rest : List TileCmd),
     let c := cmd.word;
     let two := (elementCheck [3, 2, 6] true false (bitsOf (gSub c) 6 0 == 0) false c).why c = none;
     GlazeNext s t cmd rest ∧ cOp c = 0x11 ∧ two) ∧
    (∃ (t : Tile), ∃ (s : State), ∃ (cmd : TileCmd), ∃ (rest : List TileCmd),
     let c := cmd.word;
     let two := (elementCheck [3, 2, 6] true false (bitsOf (gSub c) 6 0 == 0) false c).why c = none;
     GlazeNext s t cmd rest ∧ cOp c = 0x12 ∧ two) ∧
    (∃ (t : Tile), ∃ (s : State), ∃ (cmd : TileCmd), ∃ (rest : List TileCmd),
     let c := cmd.word;
     GlazeNext s t cmd rest ∧ cOp c = 0x13 ∧ (elementCheck [3, 2] true true (bitsOf (gSub c) 6 0 == 0) false c).why c = none) ∧
    (∃ (t : Tile), ∃ (s : State), ∃ (cmd : TileCmd), ∃ (rest : List TileCmd),
     let c := cmd.word;
     let two := (elementCheck [3, 2, 6] true false (bitsOf (gSub c) 6 0 == 0) false c).why c = none;
     GlazeNext s t cmd rest ∧ cOp c = 0x14 ∧ two) ∧
    (∃ (t : Tile), ∃ (s : State), ∃ (cmd : TileCmd), ∃ (rest : List TileCmd),
     let c := cmd.word;
     let two := (elementCheck [3, 2, 6] true false (bitsOf (gSub c) 6 0 == 0) false c).why c = none;
     GlazeNext s t cmd rest ∧ cOp c = 0x15 ∧ two) ∧
    (∃ (t : Tile), ∃ (s : State), ∃ (cmd : TileCmd), ∃ (rest : List TileCmd),
     let c := cmd.word;
     let one := (elementCheck [3, 2, 6] false false (gSub c == 0) false c).why c = none;
     GlazeNext s t cmd rest ∧ cOp c = 0x16 ∧ one) ∧
    (∃ (t : Tile), ∃ (s : State), ∃ (cmd : TileCmd), ∃ (rest : List TileCmd),
     let c := cmd.word;
     let one := (elementCheck [3, 2, 6] false false (gSub c == 0) false c).why c = none;
     GlazeNext s t cmd rest ∧ cOp c = 0x17 ∧ one) :=
  ⟨⟨0, glazing 0xf84400000000000066600110, cmdOf 0xf84400000000000066600110, [], by decide +kernel⟩, ⟨0, glazing 0x3f800000084000800000000033300111,
    cmdOf 0x3f800000084000800000000033300111, [], by decide +kernel⟩, ⟨0, glazing 0x184400000000010022200112, cmdOf 0x184400000000010022200112, [],
    by decide +kernel⟩, ⟨0, glazing 0x204430000000000033300113, cmdOf 0x204430000000000033300113, [], by decide +kernel⟩, ⟨0, glazing 0x33300114,
    cmdOf 0x33300114, [], by decide +kernel⟩, ⟨0, glazing 0x66600115, cmdOf 0x66600115, [], by decide +kernel⟩, ⟨0, glazing 0x4000000000000030300116,
    cmdOf 0x4000000000000030300116, [], by decide +kernel⟩, ⟨0, glazing 0x4000000000000060600117, cmdOf 0x4000000000000060600117, [],
    by decide +kernel⟩⟩

theorem witness_GlazeBitsAndConversions :
    (∃ (t : Tile), ∃ (s : State), ∃ (cmd : TileCmd), ∃ (rest : List TileCmd),
     let c := cmd.word;
     let f := cFmtA c;
     let w := elemWidth f;
     let bits := (elementCheck [0, 1, 2, 3, 4, 5, 6, 7] true false (bitsOf (gSub c) 6 0 == 0 && !(gBimm c && w == 1)) false c).why c = none;
     GlazeNext s t cmd rest ∧ cOp c = 0x18 ∧ bits) ∧
    (∃ (t : Tile), ∃ (s : State), ∃ (cmd : TileCmd), ∃ (rest : List TileCmd),
     let c := cmd.word;
     let f := cFmtA c;
     let w := elemWidth f;
     let bits := (elementCheck [0, 1, 2, 3, 4, 5, 6, 7] true false (bitsOf (gSub c) 6 0 == 0 && !(gBimm c && w == 1)) false c).why c = none;
     GlazeNext s t cmd rest ∧ cOp c = 0x19 ∧ bits) ∧
    (∃ (t : Tile), ∃ (s : State), ∃ (cmd : TileCmd), ∃ (rest : List TileCmd),
     let c := cmd.word;
     let f := cFmtA c;
     let w := elemWidth f;
     let bits := (elementCheck [0, 1, 2, 3, 4, 5, 6, 7] true false (bitsOf (gSub c) 6 0 == 0 && !(gBimm c && w == 1)) false c).why c = none;
     GlazeNext s t cmd rest ∧ cOp c = 0x1A ∧ bits) ∧
    (∃ (t : Tile), ∃ (s : State), ∃ (cmd : TileCmd), ∃ (rest : List TileCmd),
     let c := cmd.word;
     let f := cFmtA c;
     let w := elemWidth f;
     let bits := (elementCheck [0, 1, 2, 3, 4, 5, 6, 7] true false (bitsOf (gSub c) 6 0 == 0 && !(gBimm c && w == 1)) false c).why c = none;
     GlazeNext s t cmd rest ∧ cOp c = 0x1B ∧ bits) ∧
    (∃ (t : Tile), ∃ (s : State), ∃ (cmd : TileCmd), ∃ (rest : List TileCmd),
     let c := cmd.word;
     GlazeNext s t cmd rest ∧ cOp c = 0x20 ∧ (elementCheck [3, 2, 6] true false (bitsOf (gSub c) 6 3 == 0 && bitsOf (gSub c) 2 0 != 7) true c).why c
         = none) ∧
    (∃ (t : Tile), ∃ (s : State), ∃ (cmd : TileCmd), ∃ (rest : List TileCmd),
     let c := cmd.word;
     let f := cFmtA c;
     let w := elemWidth f;
     let n := active c (lanes w);
     GlazeNext s t cmd rest ∧ cOp c = 0x21 ∧ fmtListed f = true ∧ cFmtD c = f ∧ cFmtB c = f ∧ gSub c = 0 ∧ n ≤ lanes w ∧ cSumen c = false ∧
         unusedZero { fa := true, fb := true, fd := true, vd := true, va := true, vb := true, vc := true } c = true) ∧
    (∃ (t : Tile), ∃ (s : State), ∃ (cmd : TileCmd), ∃ (rest : List TileCmd),
     let c := cmd.word;
     let f := cFmtA c;
     let w := elemWidth f;
     let wd := elemWidth (cFmtD c);
     GlazeNext s t cmd rest ∧ cOp c = 0x30 ∧ cvtOk f (cFmtD c) = true ∧ gSub c < widthRatio w wd ∧ active c (lanes (max w wd)) ≤ lanes (max w wd) ∧
         cSumen c = false ∧ unusedZero { fa := true, fd := true, vd := true, va := true } c = true) ∧
    (∃ (t : Tile), ∃ (s : State), ∃ (cmd : TileCmd), ∃ (rest : List TileCmd),
     let c := cmd.word;
     let f := cFmtA c;
     let G := (s.tile t).glaze;
     GlazeNext s t cmd rest ∧ cOp c = 0x31 ∧ f = 3 ∧ cFmtB c = 3 ∧ ((cFmtD c = 4 ∨ cFmtD c = 5)) ∧ bitsOf (gSub c) 6 2 = 0 ∧ active c 128 ≤ 128 ∧
         cSumen c = false ∧ unusedZero { fa := true, fb := true, fd := true, vd := true, va := true, vb := !gBimm c, vc := true, imm := gBimm c } c =
         true ∧ ((∀ k, k < active c 128 → if cFmtD c = 4 then -128 ≤ sextInt 32 (gregElem G (gVc c) 4 k) ∧ sextInt 32 (gregElem G (gVc c) 4 k) ≤ 127
         else 0 ≤ sextInt 32 (gregElem G (gVc c) 4 k) ∧ sextInt 32 (gregElem G (gVc c) 4 k) ≤ 255))) :=
  ⟨⟨0, glazing 0x77700118, cmdOf 0x77700118, [], by decide +kernel⟩, ⟨0, glazing 0x119, cmdOf 0x119, [], by decide +kernel⟩, ⟨0, glazing 0x4440011a,
    cmdOf 0x4440011a, [], by decide +kernel⟩, ⟨0, glazing 0x3330011b, cmdOf 0x3330011b, [], by decide +kernel⟩, ⟨0, glazing 0x60000000066600120,
    cmdOf 0x60000000066600120, [], by decide +kernel⟩, ⟨0, glazing 0x1f0000000000011100121, cmdOf 0x1f0000000000011100121, [], by decide +kernel⟩,
    ⟨0, glazing 0x30000000000300130, cmdOf 0x30000000000300130, [], by decide +kernel⟩, ⟨0, glazing 0x30000000043300131, cmdOf 0x30000000043300131,
    [], by decide +kernel⟩⟩

theorem witness_GlazeMovesAndReductions :
    (∃ (t : Tile), ∃ (s : State), ∃ (cmd : TileCmd), ∃ (rest : List TileCmd), let c := cmd.word; let wd := elemWidth (cFmtD c); GlazeNext s t cmd
        rest ∧ cOp c = 0x01 ∧ fmtListed (cFmtD c) = true ∧ gSub c = 0 ∧ active c (lanes wd) ≤ lanes wd ∧ moveAddrOk c (active c (lanes wd) * wd) =
        true ∧ cSumen c = false ∧ unusedZero { fd := true, vd := true, imm := true } c = true) ∧
    (∃ (t : Tile), ∃ (s : State), ∃ (cmd : TileCmd), ∃ (rest : List TileCmd), let c := cmd.word; let wd := elemWidth (cFmtD c); GlazeNext s t cmd
        rest ∧ cOp c = 0x03 ∧ fmtListed (cFmtD c) = true ∧ gSub c = 0 ∧ active c (lanes wd) ≤ lanes wd ∧ cSumen c = false ∧ unusedZero
        { fd := true, vd := true, imm := true } c = true) ∧
    (∃ (t : Tile), ∃ (s : State), ∃ (cmd : TileCmd), ∃ (rest : List TileCmd), let c := cmd.word; let f := cFmtA c; let w := elemWidth f;
        let n := active c (lanes w); GlazeNext s t cmd rest ∧ cOp c = 0x02 ∧ fmtListed f = true ∧ gSub c = 0 ∧ n ≤ lanes w ∧ moveAddrOk c (n * w) =
        true ∧ cSumen c = false ∧ unusedZero { fa := true, va := true, imm := true } c = true) ∧
    (∃ (t : Tile), ∃ (s : State), ∃ (cmd : TileCmd), ∃ (rest : List TileCmd), let c := cmd.word; let f := cFmtA c; let w := elemWidth f;
        let n := active c (lanes w); let r : Nat := 1; GlazeNext s t cmd rest ∧ cOp c = 0x40 ∧ gSub c = r ∧ redFmtOk r f (cFmtD c) = true ∧ n ≤ lanes
        w ∧ ((cSumen c = true → r ≠ 3)) ∧ unusedZero { fa := true, fd := true, vd := true, va := true, imm := true } c = true) ∧
    (∃ (t : Tile), ∃ (s : State), ∃ (cmd : TileCmd), ∃ (rest : List TileCmd), let c := cmd.word; let f := cFmtA c; let w := elemWidth f;
        let n := active c (lanes w); let r : Nat := 2; GlazeNext s t cmd rest ∧ cOp c = 0x40 ∧ gSub c = r ∧ redFmtOk r f (cFmtD c) = true ∧ n ≤ lanes
        w ∧ ((cSumen c = true → r ≠ 3)) ∧ unusedZero { fa := true, fd := true, vd := true, va := true, imm := true } c = true) ∧
    (∃ (t : Tile), ∃ (s : State), ∃ (cmd : TileCmd), ∃ (rest : List TileCmd), let c := cmd.word; let f := cFmtA c; let w := elemWidth f;
        let n := active c (lanes w); let r : Nat := 3; GlazeNext s t cmd rest ∧ cOp c = 0x40 ∧ gSub c = r ∧ redFmtOk r f (cFmtD c) = true ∧ n ≤ lanes
        w ∧ ((cSumen c = true → r ≠ 3)) ∧ unusedZero { fa := true, fd := true, vd := true, va := true, imm := true } c = true) ∧
    (∃ (t : Tile), ∃ (s : State), ∃ (cmd : TileCmd), ∃ (rest : List TileCmd), let c := cmd.word; let f := cFmtA c; let w := elemWidth f;
        let n := active c (lanes w); let r : Nat := 4; GlazeNext s t cmd rest ∧ cOp c = 0x40 ∧ gSub c = r ∧ redFmtOk r f (cFmtD c) = true ∧ n ≤ lanes
        w ∧ ((cSumen c = true → r ≠ 3)) ∧ unusedZero { fa := true, fd := true, vd := true, va := true, imm := true } c = true) ∧
    (∃ (t : Tile), ∃ (s : State), ∃ (cmd : TileCmd), ∃ (rest : List TileCmd), let c := cmd.word; let f := cFmtA c; let w := elemWidth f;
        let n := active c (lanes w); let r : Nat := 5; GlazeNext s t cmd rest ∧ cOp c = 0x40 ∧ gSub c = r ∧ redFmtOk r f (cFmtD c) = true ∧ n ≤ lanes
        w ∧ ((cSumen c = true → r ≠ 3)) ∧ unusedZero { fa := true, fd := true, vd := true, va := true, imm := true } c = true) ∧
    (∃ (t : Tile), ∃ (s : State), ∃ (cmd : TileCmd), ∃ (rest : List TileCmd), let c := cmd.word; let f := cFmtA c; let w := elemWidth f;
        let n := active c (lanes w); let g : Nat := 0; GlazeNext s t cmd rest ∧ cOp c = 0x50 ∧ gSub c = g ∧ ((f = 3 ∨ f = 2)) ∧ cFmtD c = f ∧ n ≤
        lanes w ∧ cSumen c = false ∧ unusedZero { fa := true, fd := true, vd := true, va := true } c = true) ∧
    (∃ (t : Tile), ∃ (s : State), ∃ (cmd : TileCmd), ∃ (rest : List TileCmd), let c := cmd.word; let f := cFmtA c; let w := elemWidth f;
        let n := active c (lanes w); let g : Nat := 1; GlazeNext s t cmd rest ∧ cOp c = 0x50 ∧ gSub c = g ∧ ((f = 3 ∨ f = 2)) ∧ cFmtD c = f ∧ n ≤
        lanes w ∧ cSumen c = false ∧ unusedZero { fa := true, fd := true, vd := true, va := true } c = true) ∧
    (∃ (t : Tile), ∃ (s : State), ∃ (cmd : TileCmd), ∃ (rest : List TileCmd), let c := cmd.word; let f := cFmtA c; let w := elemWidth f;
        let n := active c (lanes w); let g : Nat := 2; GlazeNext s t cmd rest ∧ cOp c = 0x50 ∧ gSub c = g ∧ ((f = 3 ∨ f = 2)) ∧ cFmtD c = f ∧ n ≤
        lanes w ∧ cSumen c = false ∧ unusedZero { fa := true, fd := true, vd := true, va := true } c = true) ∧
    (∃ (t : Tile), ∃ (s : State), ∃ (cmd : TileCmd), ∃ (rest : List TileCmd), let c := cmd.word; let f := cFmtA c; let w := elemWidth f;
        let n := active c (lanes w); let g : Nat := 3; GlazeNext s t cmd rest ∧ cOp c = 0x50 ∧ gSub c = g ∧ ((f = 3 ∨ f = 2)) ∧ cFmtD c = f ∧ n ≤
        lanes w ∧ cSumen c = false ∧ unusedZero { fa := true, fd := true, vd := true, va := true } c = true) ∧
    (∃ (t : Tile), ∃ (s : State), ∃ (cmd : TileCmd), ∃ (rest : List TileCmd), let c := cmd.word; let f := cFmtA c; let w := elemWidth f;
        let n := active c (lanes w); let g : Nat := 4; GlazeNext s t cmd rest ∧ cOp c = 0x50 ∧ gSub c = g ∧ ((f = 3 ∨ f = 2)) ∧ cFmtD c = f ∧ n ≤
        lanes w ∧ cSumen c = false ∧ unusedZero { fa := true, fd := true, vd := true, va := true } c = true) ∧
    (∃ (t : Tile), ∃ (s : State), ∃ (cmd : TileCmd), ∃ (rest : List TileCmd), let c := cmd.word; let f := cFmtA c; let w := elemWidth f;
        let n := active c (lanes w); let g : Nat := 5; GlazeNext s t cmd rest ∧ cOp c = 0x50 ∧ gSub c = g ∧ ((f = 3 ∨ f = 2)) ∧ cFmtD c = f ∧ n ≤
        lanes w ∧ cSumen c = false ∧ unusedZero { fa := true, fd := true, vd := true, va := true } c = true) ∧
    (∃ (t : Tile), ∃ (s : State), ∃ (cmd : TileCmd), ∃ (rest : List TileCmd), let c := cmd.word; let f := cFmtA c; let w := elemWidth f;
        let n := active c (lanes w); let g : Nat := 6; GlazeNext s t cmd rest ∧ cOp c = 0x50 ∧ gSub c = g ∧ ((f = 3 ∨ f = 2)) ∧ cFmtD c = f ∧ n ≤
        lanes w ∧ cSumen c = false ∧ unusedZero { fa := true, fd := true, vd := true, va := true } c = true) ∧
    (∃ (t : Tile), ∃ (s : State), ∃ (cmd : TileCmd), ∃ (rest : List TileCmd), let c := cmd.word; let f := cFmtA c; let w := elemWidth f;
        let n := active c (lanes w); let g : Nat := 7; GlazeNext s t cmd rest ∧ cOp c = 0x50 ∧ gSub c = g ∧ ((f = 3 ∨ f = 2)) ∧ cFmtD c = f ∧ n ≤
        lanes w ∧ cSumen c = false ∧ unusedZero { fa := true, fd := true, vd := true, va := true } c = true) :=
  ⟨⟨0, glazing 0x5ffe00000000000000000030000101, cmdOf 0x5ffe00000000000000000030000101, [], by decide +kernel⟩,
   ⟨0, glazing 0xffffffff280000000000000060000103, cmdOf 0xffffffff280000000000000060000103, [], by decide +kernel⟩,
   ⟨0, glazing 0x5ffe00024000000000000000000102, cmdOf 0x5ffe00024000000000000000000102, [], by decide +kernel⟩,
   ⟨0, glazing 0x10000000030300540, cmdOf 0x10000000030300540, [], by decide +kernel⟩,
   ⟨0, glazing 0x20000000030300540, cmdOf 0x20000000030300540, [], by decide +kernel⟩,
   ⟨0, glazing 0x30000000030300140, cmdOf 0x30000000030300140, [], by decide +kernel⟩,
   ⟨0, glazing 0x40000000060300540, cmdOf 0x40000000060300540, [], by decide +kernel⟩,
   ⟨0, glazing 0x50000000060300540, cmdOf 0x50000000060300540, [], by decide +kernel⟩,
   ⟨0, glazing 0x104000000000000020200150, cmdOf 0x104000000000000020200150, [], by decide +kernel⟩,
   ⟨0, glazing 0x104000010000000020200150, cmdOf 0x104000010000000020200150, [], by decide +kernel⟩,
   ⟨0, glazing 0x104000020000000020200150, cmdOf 0x104000020000000020200150, [], by decide +kernel⟩,
   ⟨0, glazing 0x104000030000000020200150, cmdOf 0x104000030000000020200150, [], by decide +kernel⟩,
   ⟨0, glazing 0x104000040000000020200150, cmdOf 0x104000040000000020200150, [], by decide +kernel⟩,
   ⟨0, glazing 0x104000050000000020200150, cmdOf 0x104000050000000020200150, [], by decide +kernel⟩,
   ⟨0, glazing 0x104000060000000020200150, cmdOf 0x104000060000000020200150, [], by decide +kernel⟩,
   ⟨0, glazing 0x104000070000000020200150, cmdOf 0x104000070000000020200150, [], by decide +kernel⟩⟩

theorem witness_SpecialFunctionBound :
    (∃ (f : Nat), ∃ (iter : Nat), ∃ (x : Nat), ∃ (neg : Bool), ∃ (m : Nat), ∃ (e : Int), let w := sfWindow f iter neg m e; fmtFP32.dec x = .fin neg
        m e ∧ -(fmtFP32.maxCode : Int) < w.1 ∧ w.1 ≤ w.2 ∧ w.2 < (fmtFP32.maxCode : Int)) ∧
    (∃ (f : Nat), ∃ (iter : Nat), ∃ (x : Nat), ∃ (neg : Bool), ∃ (m : Nat), ∃ (e : Int), let w := sfWindow f iter neg m e; fmtFP32.dec x = .fin neg
        m e ∧ (fmtFP32.maxCode : Int) < w.1) ∧
    (∃ (f : Nat), ∃ (iter : Nat), ∃ (x : Nat), ∃ (neg : Bool), ∃ (m : Nat), ∃ (e : Int), let w := sfWindow f iter neg m e; fmtFP32.dec x = .fin neg
        m e ∧ w.1 ≤ (fmtFP32.maxCode : Int) ∧ (fmtFP32.maxCode : Int) ≤ w.2) ∧
    (∃ (f : Nat), ∃ (iter : Nat), ∃ (x : Nat), ∃ (neg : Bool), ∃ (m : Nat), ∃ (e : Int), let w := sfWindow f iter neg m e; fmtFP32.dec x = .fin neg
        m e ∧ w.1 ≤ w.2 ∧ w.2 < -(fmtFP32.maxCode : Int)) :=
  ⟨⟨0, 1, 0x3F800000, false, 8388608, -23, by decide +kernel⟩,
   ⟨0, 1, 0x42C80000, false, 13107200, -17, by decide +kernel⟩,
   ⟨3, 1, 0x00200000, false, 2097152, -149, by decide +kernel⟩,
   ⟨3, 1, 0x80000100, true, 256, -149, by decide +kernel⟩⟩

theorem witness_RowStatistics :
    (∃ (t : Tile), ∃ (s : State), ∃ (cmd : TileCmd), ∃ (rest : List TileCmd),
     let c := cmd.word;
     GlazeNext s t cmd rest ∧ cOp cmd.word = 0x60 ∧ gSub c = 1 ∧ unusedZero {} c = true ∧ cSumen c = false) ∧
    (∃ (t : Tile), ∃ (s : State), ∃ (cmd : TileCmd), ∃ (rest : List TileCmd),
     let c := cmd.word;
     GlazeNext s t cmd rest ∧ cOp cmd.word = 0x60 ∧ gSub c = 2 ∧ unusedZero { imm := true } c = true ∧ cSumen c = false) ∧
    (∃ (t : Tile), ∃ (s : State), ∃ (cmd : TileCmd), ∃ (rest : List TileCmd),
     let c := cmd.word;
     let k := gSlot c;
     let f := cFmtA c;
     let w := elemWidth f;
     let n := active c (lanes w);
     let G := (s.tile t).glaze;
     let x := fun i => redElem f (gregElem G (gVa c) w i);
     ∃ m, ∃ l, ∃ r,
     let ys := (List.range n).map (fun i => f32mul (x i) (gImm c));
     let mn := fmtFP32.maxOf m (ys.foldl fmtFP32.maxOf f32ninf);
     GlazeNext s t cmd rest ∧ cOp cmd.word = 0x60 ∧ gSub c = 3 ∧ rowSlot G k = .softmax m l r ∧ ((f = 3 ∨ f = 2)) ∧ cFmtD c = f ∧ n ≤ lanes w ∧
         unusedZero { fa := true, fd := true, vd := true, va := true, imm := true } c = true ∧ mn ≠ f32ninf) ∧
    (∃ (t : Tile), ∃ (s : State), ∃ (cmd : TileCmd), ∃ (rest : List TileCmd),
     let c := cmd.word;
     let k := gSlot c;
     let f := cFmtA c;
     let w := elemWidth f;
     let n := active c (lanes w);
     let G := (s.tile t).glaze;
     ∃ m, ∃ K, ∃ s1, ∃ s2, GlazeNext s t cmd rest ∧ cOp cmd.word = 0x60 ∧ gSub c = 4 ∧ rowSlot G k = .norm m K s1 s2 ∧ ((f = 3 ∨ f = 2)) ∧ n ≤ lanes
         w ∧ cSumen c = false ∧ unusedZero { fa := true, va := true } c = true) ∧
    (∃ (t : Tile), ∃ (s : State), ∃ (cmd : TileCmd), ∃ (rest : List TileCmd),
     let c := cmd.word;
     let k := gSlot c;
     let f := cFmtA c;
     let G := (s.tile t).glaze;
     ∃ m, ∃ l, ∃ r,
     let m2 := gregElem G (gVa c) 4 0;
     let mn := fmtFP32.maxOf m m2;
     GlazeNext s t cmd rest ∧ cOp cmd.word = 0x60 ∧ gSub c = 5 ∧ rowSlot G k = .softmax m l r ∧ f = 3 ∧ unusedZero { fa := true, va := true } c =
         true ∧ mn ≠ f32ninf) ∧
    (∃ (t : Tile), ∃ (s : State), ∃ (cmd : TileCmd), ∃ (rest : List TileCmd),
     let c := cmd.word;
     let k := gSlot c;
     let G := (s.tile t).glaze;
     ∃ m, ∃ l, ∃ r, GlazeNext s t cmd rest ∧ cOp cmd.word = 0x60 ∧ gSub c = 6 ∧ rowSlot G k = .softmax m l r ∧ cFmtD c = 3 ∧ gVl c = 0 ∧ unusedZero
         { fd := true, vd := true } c = true) :=
  ⟨⟨0, glazing 0x10000000000000160, cmdOf 0x10000000000000160, [], by decide +kernel⟩, ⟨0, glazing 0x3f800000000000020000000000000160, cmdOf
    0x3f800000000000020000000000000160, [], by decide +kernel⟩, ⟨0, glazing 0x3f800000000000030000000030300160 (.softmax 0xFF800000 0 0x3F800000),
    cmdOf 0x3f800000000000030000000030300160, [], 0xFF800000, 0, 0x3F800000, by decide +kernel⟩, ⟨0, glazing 0x40000000000300160 (.norm 0 0 0 0),
    cmdOf 0x40000000000300160, [], 0, 0, 0, 0, by decide +kernel⟩, ⟨0, glazing 0x50000000000300160 (.softmax 0xFF800000 0 0x3F800000), cmdOf
    0x50000000000300160, [], 0xFF800000, 0, 0x3F800000, by decide +kernel⟩, ⟨0, glazing 0x60000000030000160 (.softmax 0xFF800000 0 0x3F800000), cmdOf
    0x60000000030000160, [], 0xFF800000, 0, 0x3F800000, by decide +kernel⟩⟩

theorem witness_StackReadsAndFolds :
    (∃ (st : Stack), ∃ (s : State), ∃ (e : MemEnv), let m := memReports e s; ∃ (off : BitVec 44), ∃ (n : Fin 33), 0 < n.val ∧ stackOn m st = true ∧
        homeHeld m st off.toNat 0x01 n.val = false ∧ off.toNat + n.val ≤ winTop m st * 4096 ∧ (homeLoad st off.toNat n.val e m).1.1 ≠ 0x01) ∧
    (∃ (st : Stack), ∃ (s : State), ∃ (e : MemEnv), let m := memReports e s; ∃ (off : BitVec 44), ∃ (n : Fin 33), ∃ tag,
        let x := groutRead m st off.toNat n.val (.unit tag); 0 < n.val ∧ stackOn m st = true ∧ homeHeld m st off.toNat 0x01 n.val = true ∧ changeHeld
        m st off.toNat = false ∧ (m.stack st).groutIn = [] ∧ ((m.stack st).groutQ.filter (fun z => z.pc = x.pc)).length < 8) ∧
    (∃ (st : Stack), ∃ (s : State), ∃ (e : MemEnv), let m := memReports e s; ∃ (n : Fin 33), 0 < n.val ∧ stackOn m st = false) ∧
    (∃ (s : State), ∃ (c : Brick), s.isSet (Reg.FOLD_CHGST_BUSY c) = true) ∧
    (∃ (s : State), ∃ (c : Brick), ∃ (v : Word), let x := stackOf (2 * c.val + bitsOf v.toNat 49 49); let first := bitsOf v.toNat 14 0;
        let count := bitsOf v.toNat 47 32; s.isSet (Reg.FOLD_CHGST_BUSY c) = false ∧ stackOn s x = true ∧ count ≠ 0 ∧ first + count ≤ ceilDiv (winTop
        s x * 4096) granuleSize) ∧
    (∃ (st : Stack), ∃ (s : State), ∃ (g : Nat), ∃ (last : Nat), ∃ (mode : Bool), (s.stack st).change = some (g, last, mode) ∧ (s.stack st).phyLost
        = false ∧ g + 1 < last) ∧
    (∃ (st : Stack), ∃ (s : State), ∃ (g : Nat), ∃ (last : Nat), ∃ (mode : Bool), (s.stack st).change = some (g, last, mode) ∧ (s.stack st).phyLost
        = false ∧ last ≤ g + 1) :=
  ⟨⟨0, windowed, MemEnv.quiet, 31, 1, by decide +kernel⟩,
   ⟨0, onStack0 (fun S => { S with phyLost := true }), MemEnv.quiet, 31, 1, 5, by decide +kernel⟩,
   ⟨0, setting [(Reg.PWR_DOM_CUR 136, 0)] live, MemEnv.quiet, 1, by decide +kernel⟩,
   ⟨setting [(Reg.FOLD_CHGST_BUSY 0, 1)] windowed, 0, by decide +kernel⟩,
   ⟨windowed, 0, 0x800000000, by decide +kernel⟩,
   ⟨0, onStack0 (fun S => { S with change := some (6, 8, true) }), 6, 8, true, by decide +kernel⟩,
   ⟨0, onStack0 (fun S => { S with change := some (7, 8, true) }), 7, 8, true, by decide +kernel⟩⟩

theorem witness_StackService :
    (∃ (st : Stack), ∃ (s : State), ∃ (t : BitVec 16), let band := if t.toInt < 85 * 16 then 0 else if t.toInt ≤ 95 * 16 then 1 else 2; s.rd
        (Reg.STK_STAT_TEMPBAND st) < band) ∧
    (∃ (st : Stack), ∃ (s : State), ∃ (t : BitVec 16), let band := if t.toInt < 85 * 16 then 0 else if t.toInt ≤ 95 * 16 then 1 else 2; band < s.rd
        (Reg.STK_STAT_TEMPBAND st)) ∧
    (∃ (st : Stack), ∃ (s : State), (s.stack st).phyLost = true) ∧
    (∃ (st : Stack), ∃ (s : State), stackOn s st = true ∧ s.isSet (Reg.PGC_CLRST_BUSY st) = true) ∧
    (∃ (st : Stack), ∃ (s : State), ∃ (v : Word), stackOn s st = true ∧ s.isSet (Reg.PGC_CLRST_BUSY st) = false ∧ bitOf v.toNat 63 = false ∧ bitsOf
        v.toNat 47 24 ≠ 0 ∧ bitsOf v.toNat 23 0 + bitsOf v.toNat 47 24 ≤ winTop s st) ∧
    (∃ (st : Stack), ∃ (s : State), ∃ (first : Nat), ∃ (count : Nat), (s.stack st).clearing = some (first, count, false) ∧ (s.stack st).phyLost =
        false) :=
  ⟨⟨0, windowed, 0x600, by decide +kernel⟩,
   ⟨0, setting [(Reg.STK_STAT_TEMPBAND 0, 2)] live, 0x5F0, by decide +kernel⟩,
   ⟨0, onStack0 (fun S => { S with phyLost := true }), by decide +kernel⟩,
   ⟨0, setting [(Reg.PGC_CLRST_BUSY 0, 1)] live, by decide +kernel⟩,
   ⟨0, windowed, 0x0000000001000FFF, by decide +kernel⟩,
   ⟨0, onStack0 (fun S => { S with clearing := some (0, 4096, false) }), 0, 4096, by decide +kernel⟩⟩

theorem witness_RemappingAndRepointing :
    (∃ (st : Stack), ∃ (s : State), ∃ (page : BitVec 24), ∃ (entry : Nat), ∃ (i : Nat), stackOn s st = true ∧ s.isSet (Reg.RMP_CSTAT_BUSY st) =
        false ∧ installPlan s st page.toNat = (0, entry, i)) ∧
    (∃ (st : Stack), ∃ (s : State), ∃ (page : BitVec 24), ∃ (why : Nat), ∃ (x : Nat × Nat), stackOn s st = true ∧ s.isSet (Reg.RMP_CSTAT_BUSY st) =
        false ∧ installPlan s st page.toNat = (why, x) ∧ why ≠ 0) ∧
    (∃ (st : Stack), ∃ (s : State), ∃ (x : Nat × Nat × Nat), (s.stack st).install = some x ∧ (s.stack st).phyLost = false) ∧
    (∃ (st : Stack), ∃ (s : State), ∃ (e : MemEnv), ∃ (entry : Fin 32), let m := memReports e s; stackOn s st = true ∧ s.isSet (Reg.RMP_CSTAT_BUSY
        st) = false ∧ entry.val < 16 ∧ m.isSet (Reg.RMP_ENT_VALID st entry.val) = true) ∧
    (∃ (st : Stack), ∃ (s : State), ∃ (entry : Fin 32), stackOn s st = true ∧ s.isSet (Reg.RMP_CSTAT_BUSY st) = false ∧ 16 ≤ entry.val) ∧
    (∃ (st : Stack), ∃ (s : State), ∃ (off : BitVec 36), ∃ x, ∃ y, hodActs s = true ∧ stackOn s st = true ∧ withBits off.toNat 15 15 1 / 4096 <
        winTop s st ∧ withBits off.toNat 15 15 0 / 4096 < winTop s st ∧ remapEntry s st (withBits off.toNat 15 15 0 / 4096) = some x ∧ remapEntry s
        st (withBits off.toNat 15 15 1 / 4096) = some y) ∧
    (∃ (st : Stack), ∃ (s : State), stackOn s st = true ∧ passBusy s st = false ∧ passDescOk s st (sdescBytes s st) = true) ∧
    (∃ (st : Stack), ∃ (s : State), ∃ (p : Pass), (s.stack st).pass = some p ∧ s.rd (Reg.PGC_SSTAT_STATE st) = psRunning) ∧
    (∃ (st : Stack), ∃ (s : State), ∃ (p : Pass), (s.stack st).pass = some p ∧ p.devSusp = false ∧ s.rd (Reg.PGC_SSTAT_STATE st) = psSuspended) ∧
    (∃ (st : Stack), ∃ (s : State), ∃ (e : MemEnv), ∃ (x : Pass), (s.stack st).pass = some x ∧ s.rd (Reg.PGC_SSTAT_STATE st) = psRunning ∧ x.pageAt
        = none ∧ x.finished = false ∧ x.count ≠ 0 ∧ s.rd (Reg.PGC_SSTAT_NEXT st) < winTop s st ∧ winTop (memReports e s) st = winTop s st) ∧
    (∃ (st : Stack), ∃ (s : State), ∃ x, (s.stack st).pass = some x ∧ x.finished = true ∧ x.byHod = false) ∧
    (∃ (st : Stack), ∃ (s : State), (s.stack st).pass = none ∧ hodActs s = true ∧ stackOn s st = true ∧ passBusy s st = false ∧ (s.stack
        st).clearing = none) ∧
    (∃ (st : Stack), ∃ (s : State), ∃ (x : Pass), (s.stack st).pass = some x ∧ x.finished = false ∧ x.count ≠ 0 ∧ s.rd (Reg.PGC_SSTAT_STATE st) =
        psCancelling) :=
  ⟨⟨0, windowed, 4095, 0, 0, by decide +kernel⟩,
   ⟨0, windowed, 4096, 3, (0, 0), by decide +kernel⟩,
   ⟨0, onStack0 (fun S => { S with install := some (1, 63, 15) }), (1, 63, 15), by decide +kernel⟩,
   ⟨0, setting [(Reg.RMP_ENT_VALID 0 0, 1), (Reg.RMP_ENT_FROM 0 0, 0), (Reg.RMP_ENT_VALID 0 15, 1), (Reg.RMP_ENT_FROM 0 15, 8)] windowed,
     MemEnv.quiet, 15, by decide +kernel⟩,
   ⟨0, windowed, 16, by decide +kernel⟩,
   ⟨0, setting [(Reg.RMP_ENT_VALID 0 0, 1), (Reg.RMP_ENT_FROM 0 0, 0), (Reg.RMP_ENT_VALID 0 15, 1), (Reg.RMP_ENT_FROM 0 15, 8)] windowed, 0, 0, 15,
     by decide +kernel⟩,
   ⟨0, windowed, by decide +kernel⟩,
   ⟨0, passing psRunning, passOf, by decide +kernel⟩,
   ⟨0, passing psSuspended, passOf, by decide +kernel⟩,
   ⟨0, passing psRunning, MemEnv.quiet, passOf, by decide +kernel⟩,
   ⟨0, passing psRunning { passOf with finished := true }, { passOf with finished := true }, by decide +kernel⟩,
   ⟨0, windowed, by decide +kernel⟩,
   ⟨0, passing psCancelling, passOf, by decide +kernel⟩⟩

theorem witness_YardAndTree :
    (∃ (b : Brick), ∃ (s : State), s.isSet (Reg.SLB_CTL_EN b) = false ∧ s.isSet (Reg.SLB_STATE_BUSY b) = false) ∧
    (∃ (b : Brick), ∃ (s : State), ∃ (e : MemEnv), let m := memReports e s; ∃ (u : Unit), ∃ (t : State), s.isSet (Reg.SLB_STATE_BUSY b) = true ∧
        s.isSet (Reg.SLB_CTL_EN b) = false ∧ runYard b e yFormat m = (.ok u, t)) ∧
    (∃ (b : Brick), ∃ (s : State), ∃ (e : MemEnv), let m := memReports e s; ∃ (u : Nat × Nat), ∃ (t : State), s.isSet (Reg.SLB_STATE_BUSY b) = true
        ∧ s.isSet (Reg.SLB_CTL_EN b) = false ∧ runYard b e yFormat m = (.error u, t)) ∧
    (∃ (b : Brick), ∃ (s : State), ∃ (e : MemEnv), let m := memReports e s; ∃ (u : Unit), ∃ (t : State), m.isSet (Reg.SLB_CTL_EN b) = false ∧
        m.isSet (Reg.SLB_STATE_BUSY b) = false ∧ runYard b e yCheck m = (.ok u, t)) ∧
    (∃ (b : Brick), ∃ (s : State), ∃ (e : MemEnv), let m := memReports e s; ∃ (u : Nat × Nat), ∃ (t : State), m.isSet (Reg.SLB_CTL_EN b) = false ∧
        m.isSet (Reg.SLB_STATE_BUSY b) = false ∧ runYard b e yCheck m = (.error u, t)) ∧
    (∃ (b : Brick), ∃ (s : State), s.isSet (Reg.SLB_STATE_BUSY b) = true ∧ s.isSet (Reg.SLB_CTL_EN b) = true) ∧
    (∃ (b : Brick), ∃ (s : State), s.isSet (Reg.PFX_CTL_EN b) = false) ∧
    (∃ (b : Brick), ∃ (s : State), ∃ (e : MemEnv), let m := memReports e s; ∃ (u : Unit), ∃ (t : State), s.isSet (Reg.PFX_STAT_BUSY b) = true ∧
        runYard b e yTreeFormat m = (.ok u, t)) ∧
    (∃ (b : Brick), ∃ (s : State), ∃ (e : MemEnv), let m := memReports e s; m.isSet (Reg.PFX_CTL_EN b) = false ∧ m.isSet (Reg.SLB_STATE_READY b) =
        false) ∧
    (∃ (b : Brick), ∃ (s : State), ∃ (e : MemEnv), let m := memReports e s; ∃ (u : Unit), ∃ (t : State), m.isSet (Reg.PFX_CTL_EN b) = false ∧
        m.isSet (Reg.SLB_STATE_READY b) = true ∧ m.isSet (Reg.PFX_STAT_BUSY b) = false ∧ runYard b e yTreeCheck m = (.ok u, t)) ∧
    (∃ (b : Brick), ∃ (s : State), ∃ (e : MemEnv), let m := memReports e s; ∃ (h : YardHeader), ∃ (t : State), s.isSet (Reg.SLB_STATE_READY b) =
        true ∧ s.rd (Reg.SLB_CTL_EPINT b) ≠ 0 ∧ runYard b e advanceEpoch m = (.ok h, t)) ∧
    (∃ (b : Brick), ∃ (s : State), ∃ (e : MemEnv), let m := memReports e s; ∃ (a : Nat), ∃ (t : State), s.isSet (Reg.SLB_STATE_READY b) = true ∧
        s.rd (Reg.SLB_CTL_EPINT b) ≠ 0 ∧ runYard b e advanceEpoch m = (.error (0x5E, a), t)) ∧
    (∃ (b : Brick), ∃ (s : State), (s.brick b).yard.job = none ∧ jobDescOk (jdescBytes s b) = true) ∧
    (∃ (b : Brick), ∃ (s : State), ∃ (j : YardJob), (s.brick b).yard.job = some j ∧ j.devSusp = false ∧ s.rd (Reg.SLB_JSTAT_STATE b) = psSuspended) ∧
    (∃ (b : Brick), ∃ (s : State), ∃ (e : MemEnv), ∃ (j : YardJob), let m := memReports e s; ∃ del, ∃ ret, ∃ mov, ∃ fen, ∃ ski, ∃ t, ∃ p, ∃ k,
        (s.brick b).yard.job = some j ∧ s.rd (Reg.SLB_JSTAT_STATE b) = psRunning ∧ j.finished = false ∧ yardStacksOn s b (numAt j.desc 0 1) = true ∧
        runYard b e (yItem j (s.rd (Reg.SLB_JSTAT_PHASE b)) (s.rd (Reg.SLB_JSTAT_NEXT b)) >>= fun x => get >>= fun y => pure (x, y.retired)) m = (.ok
        (.did del mov fen ski, ret), t) ∧ jobNext t b (numAt j.desc 0 1) (s.rd (Reg.SLB_JSTAT_PHASE b)) (s.rd (Reg.SLB_JSTAT_NEXT b)) = some (p, k)) ∧
    (∃ (b : Brick), ∃ (s : State), ∃ (j : YardJob), (s.brick b).yard.job = some j ∧ j.finished = true) ∧
    (∃ (b : Brick), ∃ (s : State), ∃ (j : YardJob), (s.brick b).yard.job = some j ∧ j.finished = false ∧ s.rd (Reg.SLB_JSTAT_STATE b) = psCancelling) ∧
    (∃ (b : Brick), ∃ (s : State), ∃ (e : MemEnv), let m := memReports e s;
        let slabs : SlabCopy → YM (Nat × Nat) := fun c => getDesc c.src >>= fun x => getDesc c.dst >>= fun y => pure (x.sloc, y.sloc); ∃ (c :
        SlabCopy), ∃ (cs : List SlabCopy), ∃ (r : Nat × Nat), ∃ (t : State), (s.brick b).yard.copies = c :: cs ∧ runYard b e (slabs c) m = (.error r,
        t)) ∧
    (∃ (b : Brick), ∃ (s : State), ∃ (e : MemEnv), let m := memReports e s;
        let slabs : SlabCopy → YM (Nat × Nat) := fun c => getDesc c.src >>= fun x => getDesc c.dst >>= fun y => pure (x.sloc, y.sloc); ∃ (c :
        SlabCopy), ∃ (cs : List SlabCopy), ∃ (src : Nat), ∃ (dst : Nat), ∃ (t : State), (s.brick b).yard.copies = c :: cs ∧ runYard b e (slabs c) m =
        (.ok (src, dst), t) ∧ slabOn t b src = true ∧ slabOn t b dst = true ∧ ((∀ st : Stack, (t.stack st).phyLost = false))) :=
  ⟨⟨0, windowed, by decide +kernel⟩,
   ⟨0, yarded [(Reg.SLB_STATE_BUSY 0, 1)], MemEnv.quiet, (), _, by decide +kernel, by decide +kernel, pair_of_fst (by decide +kernel)⟩,
   ⟨0, setting [(Reg.SLB_STATE_BUSY 0, 1)] windowed, MemEnv.quiet, (1, 0), _, by decide +kernel, by decide +kernel, pair_of_fst (by decide +kernel)⟩,
   ⟨0, (runYard 0 MemEnv.quiet yFormat (yarded [])).2, MemEnv.quiet, (), _, by decide +kernel, by decide +kernel, pair_of_fst (by decide +kernel)⟩,
   ⟨0, windowed, MemEnv.quiet, (1, 0), _, by decide +kernel, by decide +kernel, pair_of_fst (by decide +kernel)⟩,
   ⟨0, yarded [(Reg.SLB_STATE_BUSY 0, 1), (Reg.SLB_CTL_EN 0, 1)], by decide +kernel⟩,
   ⟨0, windowed, by decide +kernel⟩,
   ⟨0, yarded [(Reg.PFX_STAT_BUSY 0, 1), (Reg.PFX_CTL_BBITS 0, 0)], MemEnv.quiet, (), _, by decide +kernel, pair_of_fst (by decide +kernel)⟩,
   ⟨0, windowed, MemEnv.quiet, by decide +kernel⟩,
   ⟨0, yarded [(Reg.SLB_STATE_READY 0, 1)], MemEnv.quiet, (), _, by decide +kernel, by decide +kernel, by decide +kernel, pair_of_fst
     (by decide +kernel)⟩,
   ⟨0, yarded [(Reg.SLB_STATE_READY 0, 1), (Reg.SLB_CTL_EPINT 0, 1)], MemEnv.quiet, ((runYard 0 MemEnv.quiet advanceEpoch (memReports MemEnv.quiet
     (yarded [(Reg.SLB_STATE_READY 0, 1), (Reg.SLB_CTL_EPINT 0, 1)]))).1.toOption.getD (headerOf [])), _, by decide +kernel, by decide +kernel,
     pair_of_fst (by decide +kernel)⟩,
   ⟨0, yarded [(Reg.SLB_STATE_READY 0, 1), (Reg.SLB_CTL_EPINT 0, 1), (Reg.SLB_PINS_PINS1 0, 1)], MemEnv.quiet, 0, _, by decide +kernel,
     by decide +kernel, pair_of_fst (by decide +kernel)⟩,
   ⟨0, setting [(Reg.SLB_JDESC_DESC 0 0, 5)] windowed, by decide +kernel⟩,
   ⟨0, working psSuspended, jobOf, by decide +kernel⟩,
   ⟨0, working psRunning, MemEnv.quiet, jobOf, 0, 0, 0, 0, 1, _, 1, 9, by decide +kernel, by decide +kernel, by decide +kernel, by decide +kernel,
     pair_of_fst (by decide +kernel), by decide +kernel⟩,
   ⟨0, working psRunning { jobOf with finished := true }, { jobOf with finished := true }, by decide +kernel⟩,
   ⟨0, working psCancelling, jobOf, by decide +kernel⟩,
   ⟨0, (working 0).onYard 0 (fun Y => { Y with copies := [{ copyOf with dst := 10 }] }), MemEnv.quiet, { copyOf with dst := 10 }, [], (0x52, 0), _,
     by decide +kernel, pair_of_fst (by decide +kernel)⟩,
   ⟨0, (working 0).onYard 0 (fun Y => { Y with copies := [copyOf] }), MemEnv.quiet, copyOf, [], 0, 0, _, by decide +kernel, pair_of_fst
     (by decide +kernel), by decide +kernel⟩⟩

theorem witness_HostMemoryAccess :
    (∃ (s : State), ∃ (n : Fin 8), ∃ (off : BitVec 44), let region := s.rd (Reg.HST_HDM_REGION n);
        let o := s.rd (Reg.HST_HDM_OFFSET n) * 2 ^ 28 + off.toNat / 64 * 64; s.isSet Reg.HST_STAT_LINKUP = true ∧ s.isSet Reg.HST_STAT_CXLM = true ∧
        s.isSet (Reg.HST_HDM_EN n) = true ∧ off.toNat < s.rd (Reg.HST_HDMSZ_SIZE n) * 2 ^ 28 ∧ s.rd (Reg.HST_HDM_REGION n) ≤ 7 ∧ populated s region o
        64 = true ∧ foldMode s (stackOf region) (o / granuleSize) = false) ∧
    (∃ (s : State), ∃ (e : MemEnv), ∃ (st : Stack), ∃ (sector : BitVec 30), ∃ (x : Snoop), let b := stackBrick st; (s.brick (stackBrick st)).snoop =
        [x] ∧ x.stack = st.val ∧ x.sector = sector.toNat ∧ x.asked = 2 ∧ ((memReports e s).brick b).snoop = [x]) ∧
    (∃ (s : State), ∃ (e : MemEnv), ∃ (st : Stack), ∃ (sector : BitVec 30), ∃ (x : Snoop), let b := stackBrick st; ∃ d, (s.brick (stackBrick
        st)).snoop = [x] ∧ x.stack = st.val ∧ x.sector = sector.toNat ∧ x.asked = 1 ∧ x.em = true ∧ ((homeWrite st (x.sector * 64) (padTo 64 d) e
        (memReports e s)).2.brick b).snoop = [x]) ∧
    (∃ (s : State), ∃ (a : HostAcc), ∃ (p : Packet), s.host.accs.find? (fun x => x.tag = a.tag) = some a ∧ a.use = .request p ∧ p.opc.toNat = 1) ∧
    (∃ (s : State), ∃ (a : HostAcc), ∃ (r : Nat), s.host.accs.find? (fun x => x.tag = a.tag) = some a ∧ a.use = .completion r false) ∧
    (∃ (s : State), ∃ a, s.host.accs.find? (fun x => x.tag = a.tag) = some a ∧ a.use = .event false) ∧
    (∃ (s : State), ∃ a, s.host.accs.find? (fun x => x.tag = a.tag) = some a ∧ a.use = .event true) :=
  ⟨⟨setting [(Reg.HST_HDM_EN 7, 1), (Reg.HST_HDMSZ_SIZE 7, 1), (Reg.HST_HDM_REGION 7, 0)] (attachedTo windowed), 7, 0xFFFFFF, by decide +kernel⟩,
   ⟨windowed.onBrick 0 (fun B => { B with snoop := [{ stack := 0, sector := 0x3FFFF, em := false, asked := 2 }] }), MemEnv.quiet, 0, 0x3FFFF,
     { stack := 0, sector := 0x3FFFF, em := false, asked := 2 }, by decide +kernel⟩,
   ⟨windowed.onBrick 0 (fun B => { B with snoop := [{ stack := 0, sector := 0x3FFFF, em := true, asked := 1 }] }), MemEnv.quiet, 0, 0x3FFFF,
     { stack := 0, sector := 0x3FFFF, em := true, asked := 1 }, [1], by decide +kernel⟩,
   ⟨withHost (fun H => { H with accs := [{ tag := 5, use := .request { Packet.zero with opc := 1 } }] }),
     { tag := 5, use := .request { Packet.zero with opc := 1 } }, { Packet.zero with opc := 1 }, by decide +kernel⟩,
   ⟨withHost (fun H => { H with accs := [{ tag := 5, use := .completion 31 false }] }), { tag := 5, use := .completion 31 false }, 31,
     by decide +kernel⟩,
   ⟨withHost (fun H => { H with accs := [{ tag := 5, use := .event false }] }), { tag := 5, use := .event false }, by decide +kernel⟩,
   ⟨withHost (fun H => { H with accs := [{ tag := 5, use := .event true }] }), { tag := 5, use := .event true }, by decide +kernel⟩⟩

theorem witness_HostRings :
    (∃ (s : State), ∃ (r : Fin 32), ∃ (v : Word), s.isSet Reg.HST_STAT_LINKUP = true ∧ s.isSet (Reg.HST_CBASE_EN r.val) = true ∧ cmdSlots s r.val ≤
        v.toNat) ∧
    (∃ (s : State), ∃ (r : Fin 32), ∃ (v : Word), s.isSet Reg.HST_STAT_LINKUP = true ∧ s.isSet (Reg.HST_CBASE_EN r.val) = true ∧ v.toNat < cmdSlots
        s r.val ∧ s.host.doorbells = [] ∧ dropsOut s s.host.dropNo = false) ∧
    (∃ (s : State), ∃ (r : Fin 32), ∃ (v : Word), let n := complSlots s r.val; s.isSet Reg.HST_STAT_LINKUP = true ∧ s.isSet (Reg.HST_CBASE_EN r.val)
        = true ∧ v.toNat < n) ∧
    (∃ (s : State), ∃ (r : Fin 32), ∃ c, ringWorks s r.val = true ∧ (s.ring r.val).due = [c] ∧ (s.ring r.val).inUse + 1 < complSlots s r.val) ∧
    (∃ (s : State), ∃ (off : BitVec 34), ∃ (data : Bytes), let n := off.toNat / 2 ^ 30; s.isSet Reg.HST_STAT_LINKUP = true ∧ data ≠ [] ∧ s.isSet
        (Reg.HST_DROP_EN n) = false) ∧
    (∃ (s : State), ∃ (off : BitVec 34), ∃ (data : Bytes), let n := off.toNat / 2 ^ 30; let w := off.toNat % 2 ^ 30;
        let region := s.rd (Reg.HST_DROP_REGION n); let o := s.rd (Reg.HST_DROP_OFFSET n) * 65536 + w; s.isSet Reg.HST_STAT_LINKUP = true ∧ data ≠ []
        ∧ s.isSet (Reg.HST_DROP_EN n) = true ∧ w + data.length ≤ 2 ^ 30 ∧ region ≤ 8 ∧ populated s region o data.length = true) ∧
    (∃ (s : State), ∃ (r : Fin 32), let head := s.rd (Reg.HST_RSTAT_HEAD r.val);
        let line := (s.rd (Reg.HST_CBASE_HPA r.val) * 4096 + 64 * head) / 64; s.host.doorbells = [] ∧ mayFetch s r.val = true ∧ s.host.lines.find?
        (fun l => l.1 = line) = none) ∧
    (∃ (s : State), ∃ (id : Word), ∃ (c : HostRec), ∃ (st : Nat), ∃ (status : Nat), ∃ (result : Bytes), s.recordOf id.toNat = some c ∧ commandNow s
        c = (st, status, result) ∧ st < 5 ∧ (s.ring c.ring).firsts.any (fun x => x.1 = id.toNat && x.2.isNone) = true) ∧
    (∃ (s : State), ∃ (v : Fin 64), attached s = true ∧ s.host.msiDue.contains v.val = true ∧ tabFind s.host.msiAt v.val = none) :=
  ⟨⟨attachedTo windowed, 31, cmdSlots (attachedTo windowed) 31 |> BitVec.ofNat 64, by decide +kernel⟩,
   ⟨attachedTo windowed, 31, BitVec.ofNat 64 (cmdSlots (attachedTo windowed) 31 - 1), by decide +kernel⟩,
   ⟨attachedTo windowed, 31, BitVec.ofNat 64 (complSlots (attachedTo windowed) 31 - 1), by decide +kernel⟩,
   ⟨(setting [(Reg.HST_QBASE_LOG2M 31, 5)] (attachedTo windowed)).onRing 31 (fun R =>
     { R with due := [{ id := 2, state := 4, status := 0, flags := 0, result := [], noint := false }] }), 31,
     { id := 2, state := 4, status := 0, flags := 0, result := [], noint := false }, by decide +kernel⟩,
   ⟨attachedTo windowed, 0x3FFFFFFFF, [1], by decide +kernel⟩,
   ⟨setting [(Reg.HST_DROP_EN 15, 1)] (attachedTo windowed), 0x3C0FFFFFF, [1], by decide +kernel⟩,
   ⟨withHost (fun H => { H with rings := [(31, { visible := 1 })] }), 31, by decide +kernel⟩,
   ⟨(taking 1).onRing 31 (fun R => { R with firsts := [(1, none)] }), 1, recOf 1, 0, 0, List.replicate 16 0, by decide +kernel⟩,
   ⟨withHost (fun H => { H with msiDue := [63] }), 63, by decide +kernel⟩⟩

theorem witness_HostCommands :
    (∃ (s : State), ∃ (r : HostRec), ∃ (t : State), takeCommand 0x01 s = some (r, t)) ∧
    (∃ (s : State), ∃ (r : HostRec), ∃ (t : State), takeCommand 0x07 s = some (r, t) ∧ entryFormed r.entry false [(24, 26), (32, 56)] = true ∧
        entryNum r.entry 24 1 ≤ 1 ∧ entryNum r.entry 25 1 = 0) ∧
    (∃ (s : State), ∃ (r : HostRec), ∃ (t : State), let lbl := t.rd (Reg.HST_CBASE_LABEL r.ring); let b := brickOf (entryNum r.entry 24 1);
        takeCommand 0x08 s = some (r, t) ∧ entryFormed r.entry false [(16, 28), (32, 64)] = true ∧ entryNum r.entry 24 1 ≤ 3 ∧ 0x51 ≤ entryNum
        r.entry 25 1 ∧ entryNum r.entry 25 1 ≤ 0x5A ∧ entryNum r.entry 26 2 ≤ 24 ∧ entryNum r.entry 16 8 = 0 ∧ (r.entry.drop (40 + entryNum r.entry
        26 2)).all (fun b => b = 0) = true ∧ entryNum r.entry 32 8 = 0 ∧ hostMay t lbl rightSLAB (localAddr 0 (yardAddr t b)) 1 = true ∧ t.isSet
        (Reg.SLB_STATE_READY b) = true) ∧
    (∃ (s : State), ∃ (r : HostRec), ∃ (t : State), let opc : Nat := 0x03; let aim := entryNum r.entry 16 8; takeCommand opc s = some (r, t) ∧
        entryFormed r.entry false [(16, 24)] = true ∧ t.hostOp aim = none) ∧
    (∃ (s : State), ∃ (r : HostRec), ∃ (t : State), let opc : Nat := 0x03; let f : Nat → State → State := suspendOp;
        let aim := entryNum r.entry 16 8; ∃ (o : HostOp), ∃ (o' : HostOp), takeCommand opc s = some (r, t) ∧ entryFormed r.entry false [(16, 24)] =
        true ∧ t.hostOp aim = some o ∧ o.final = false ∧ o.long = true ∧ (f aim t).hostOp aim = some o') ∧
    (∃ (s : State), ∃ (r : HostRec), ∃ (t : State), let opc : Nat := 0x04; let aim := entryNum r.entry 16 8; takeCommand opc s = some (r, t) ∧
        entryFormed r.entry false [(16, 24)] = true ∧ t.hostOp aim = none) ∧
    (∃ (s : State), ∃ (r : HostRec), ∃ (t : State), let opc : Nat := 0x04; let f : Nat → State → State := resumeOp;
        let aim := entryNum r.entry 16 8; ∃ (o : HostOp), ∃ (o' : HostOp), takeCommand opc s = some (r, t) ∧ entryFormed r.entry false [(16, 24)] =
        true ∧ t.hostOp aim = some o ∧ o.final = false ∧ o.long = true ∧ (f aim t).hostOp aim = some o') ∧
    (∃ (s : State), ∃ (r : HostRec), ∃ (t : State), let opc : Nat := 0x05; let aim := entryNum r.entry 16 8; takeCommand opc s = some (r, t) ∧
        entryFormed r.entry false [(16, 24)] = true ∧ t.hostOp aim = none) ∧
    (∃ (s : State), ∃ (r : HostRec), ∃ (t : State), let opc : Nat := 0x05; let f : Nat → State → State := cancelOp;
        let aim := entryNum r.entry 16 8; ∃ (o : HostOp), ∃ (o' : HostOp), takeCommand opc s = some (r, t) ∧ entryFormed r.entry false [(16, 24)] =
        true ∧ t.hostOp aim = some o ∧ o.final = false ∧ o.long = true ∧ (f aim t).hostOp aim = some o') ∧
    (∃ (s : State), ∃ (r : HostRec), ∃ (t : State), let lbl := t.rd (Reg.HST_CBASE_LABEL r.ring); let opc : Nat := 0x20;
        let check : Bytes → Nat → State → Option Nat := checkRun; takeCommand opc s = some (r, t) ∧ check r.entry lbl t = none) ∧
    (∃ (s : State), ∃ (r : HostRec), ∃ (t : State), let lbl := t.rd (Reg.HST_CBASE_LABEL r.ring); let opc : Nat := 0x20;
        let check : Bytes → Nat → State → Option Nat := checkRun; ∃ (st : Nat), takeCommand opc s = some (r, t) ∧ check r.entry lbl t = some st) ∧
    (∃ (s : State), ∃ (r : HostRec), ∃ (t : State), let lbl := t.rd (Reg.HST_CBASE_LABEL r.ring); let opc : Nat := 0x21;
        let check : Bytes → Nat → State → Option Nat := checkCopy; takeCommand opc s = some (r, t) ∧ check r.entry lbl t = none) ∧
    (∃ (s : State), ∃ (r : HostRec), ∃ (t : State), let lbl := t.rd (Reg.HST_CBASE_LABEL r.ring); let opc : Nat := 0x21;
        let check : Bytes → Nat → State → Option Nat := checkCopy; ∃ (st : Nat), takeCommand opc s = some (r, t) ∧ check r.entry lbl t = some st) ∧
    (∃ (s : State), ∃ (r : HostRec), ∃ (t : State), let lbl := t.rd (Reg.HST_CBASE_LABEL r.ring); let opc : Nat := 0x22;
        let check : Bytes → Nat → State → Option Nat := checkScrub; takeCommand opc s = some (r, t) ∧ check r.entry lbl t = none) ∧
    (∃ (s : State), ∃ (r : HostRec), ∃ (t : State), let lbl := t.rd (Reg.HST_CBASE_LABEL r.ring); let opc : Nat := 0x22;
        let check : Bytes → Nat → State → Option Nat := checkScrub; ∃ (st : Nat), takeCommand opc s = some (r, t) ∧ check r.entry lbl t = some st) ∧
    (∃ (s : State), ∃ (r : HostRec), ∃ (t : State), let lbl := t.rd (Reg.HST_CBASE_LABEL r.ring); let opc : Nat := 0x23;
        let check : Bytes → Nat → State → Option Nat := checkJob; takeCommand opc s = some (r, t) ∧ check r.entry lbl t = none) ∧
    (∃ (s : State), ∃ (r : HostRec), ∃ (t : State), let lbl := t.rd (Reg.HST_CBASE_LABEL r.ring); let opc : Nat := 0x23;
        let check : Bytes → Nat → State → Option Nat := checkJob; ∃ (st : Nat), takeCommand opc s = some (r, t) ∧ check r.entry lbl t = some st) ∧
    (∃ (s : State), ∃ (r : HostRec), ∃ (t : State), let lbl := t.rd (Reg.HST_CBASE_LABEL r.ring); let opc : Nat := 0x24;
        let check : Bytes → Nat → State → Option Nat := checkJob; takeCommand opc s = some (r, t) ∧ check r.entry lbl t = none) ∧
    (∃ (s : State), ∃ (r : HostRec), ∃ (t : State), let lbl := t.rd (Reg.HST_CBASE_LABEL r.ring); let opc : Nat := 0x24;
        let check : Bytes → Nat → State → Option Nat := checkJob; ∃ (st : Nat), takeCommand opc s = some (r, t) ∧ check r.entry lbl t = some st) ∧
    (∃ (s : State), ∃ (r : HostRec), ∃ (t : State), let lbl := t.rd (Reg.HST_CBASE_LABEL r.ring); let opc : Nat := 0x25;
        let check : Bytes → Nat → State → Option Nat := checkMemtest; takeCommand opc s = some (r, t) ∧ check r.entry lbl t = none) ∧
    (∃ (s : State), ∃ (r : HostRec), ∃ (t : State), let lbl := t.rd (Reg.HST_CBASE_LABEL r.ring); let opc : Nat := 0x25;
        let check : Bytes → Nat → State → Option Nat := checkMemtest; ∃ (st : Nat), takeCommand opc s = some (r, t) ∧ check r.entry lbl t = some st) ∧
    (∃ (s : State), ∃ (r : HostRec), ∃ (t : State), let lbl := t.rd (Reg.HST_CBASE_LABEL r.ring); let opc : Nat := 0x26;
        let check : Bytes → Nat → State → Option Nat := checkStage; takeCommand opc s = some (r, t) ∧ check r.entry lbl t = none) ∧
    (∃ (s : State), ∃ (r : HostRec), ∃ (t : State), let lbl := t.rd (Reg.HST_CBASE_LABEL r.ring); let opc : Nat := 0x26;
        let check : Bytes → Nat → State → Option Nat := checkStage; ∃ (st : Nat), takeCommand opc s = some (r, t) ∧ check r.entry lbl t = some st) :=
  ⟨⟨taking 0x10000000000000001, recOf 0x10000000000000001, _, taken (by decide +kernel) (by decide +kernel) (by decide +kernel)⟩,
   ⟨taking 0x1000000000000000000000000000000070000000000000001, recOf 0x1000000000000000000000000000000070000000000000001, _, taken
     (by decide +kernel) (by decide +kernel) (by decide +kernel), by decide +kernel⟩,
   ⟨taking 0x5a00000000000000000000000000000000080000000000000001 [] (yarded [(Reg.SLB_STATE_READY 0, 1)]), recOf
     0x5a00000000000000000000000000000000080000000000000001, _, taken (by decide +kernel) (by decide +kernel) (by decide +kernel), by decide +kernel⟩,
   ⟨taking 0x200000000000000030000000000000001, recOf 0x200000000000000030000000000000001, _, taken (by decide +kernel) (by decide +kernel)
     (by decide +kernel), by decide +kernel⟩,
   ⟨taking 0x200000000000000030000000000000001 [opTwo], recOf 0x200000000000000030000000000000001, _, opTwo, { opTwo with hostSusp := true }, taken
     (by decide +kernel) (by decide +kernel) (by decide +kernel), by decide +kernel⟩,
   ⟨taking 0x200000000000000040000000000000001, recOf 0x200000000000000040000000000000001, _, taken (by decide +kernel) (by decide +kernel)
     (by decide +kernel), by decide +kernel⟩,
   ⟨taking 0x200000000000000040000000000000001 [opTwo], recOf 0x200000000000000040000000000000001, _, opTwo, opTwo, taken (by decide +kernel)
     (by decide +kernel) (by decide +kernel), by decide +kernel⟩,
   ⟨taking 0x200000000000000050000000000000001, recOf 0x200000000000000050000000000000001, _, taken (by decide +kernel) (by decide +kernel)
     (by decide +kernel), by decide +kernel⟩,
   ⟨taking 0x200000000000000050000000000000001 [opTwo], recOf 0x200000000000000050000000000000001, _, opTwo, ((cancelOp 2 (takenUp (taking
     0x200000000000000050000000000000001 [opTwo]))).hostOp 2).getD opTwo, taken (by decide +kernel) (by decide +kernel) (by decide +kernel), by decide +kernel⟩,
   ⟨taking 0x80000000000000000000000000000000000000000000000000000000000000200000000000000001, recOf
     0x80000000000000000000000000000000000000000000000000000000000000200000000000000001, _, taken (by decide +kernel) (by decide +kernel)
     (by decide +kernel), by decide +kernel⟩,
   ⟨taking 0x1000000000000000000000000000000000000000000000000000000000000000000000000000000000000000000000000000000000000200000000000000001, recOf
     0x1000000000000000000000000000000000000000000000000000000000000000000000000000000000000000000000000000000000000200000000000000001, _, 0x02,
     taken (by decide +kernel) (by decide +kernel) (by decide +kernel), by decide +kernel⟩,
   ⟨taking 0x40ffff000000001000ffff000000000000000000000000000000000000000000210000000000000001, recOf
     0x40ffff000000001000ffff000000000000000000000000000000000000000000210000000000000001, _, taken (by decide +kernel) (by decide +kernel)
     (by decide +kernel), by decide +kernel⟩,
   ⟨taking 0x1000000000000000000000000000000000000000000000000000000000000000000000000000000000000000000000000000000000000210000000000000001, recOf
     0x1000000000000000000000000000000000000000000000000000000000000000000000000000000000000000000000000000000000000210000000000000001, _, 0x02,
     taken (by decide +kernel) (by decide +kernel) (by decide +kernel), by decide +kernel⟩,
   ⟨taking 0xffff000000ffffe000000000000000220000000000000001, recOf 0xffff000000ffffe000000000000000220000000000000001, _, taken (by decide +kernel)
     (by decide +kernel) (by decide +kernel), by decide +kernel⟩,
   ⟨taking 0x1000000000000000000000000000000000000000000000000000000000000000000000000000000000000000000000000000000000000220000000000000001, recOf
     0x1000000000000000000000000000000000000000000000000000000000000000000000000000000000000000000000000000000000000220000000000000001, _, 0x02,
     taken (by decide +kernel) (by decide +kernel) (by decide +kernel), by decide +kernel⟩,
   ⟨taking 0xffff00000000000000000000000000230000000000000001, recOf 0xffff00000000000000000000000000230000000000000001, _, taken (by decide +kernel)
     (by decide +kernel) (by decide +kernel), by decide +kernel⟩,
   ⟨taking 0x1000000000000000000000000000000000000000000000000000000000000000000000000000000000000000000000000000000000000230000000000000001, recOf
     0x1000000000000000000000000000000000000000000000000000000000000000000000000000000000000000000000000000000000000230000000000000001, _, 0x02,
     taken (by decide +kernel) (by decide +kernel) (by decide +kernel), by decide +kernel⟩,
   ⟨taking 0xffff00000000000000000000000000240000000000000001, recOf 0xffff00000000000000000000000000240000000000000001, _, taken (by decide +kernel)
     (by decide +kernel) (by decide +kernel), by decide +kernel⟩,
   ⟨taking 0x1000000000000000000000000000000000000000000000000000000000000000000000000000000000000000000000000000000000000240000000000000001, recOf
     0x1000000000000000000000000000000000000000000000000000000000000000000000000000000000000000000000000000000000000240000000000000001, _, 0x02,
     taken (by decide +kernel) (by decide +kernel) (by decide +kernel), by decide +kernel⟩,
   ⟨taking 0x10000000000000000000000000000000000000000000000250000000000000001, recOf
     0x10000000000000000000000000000000000000000000000250000000000000001, _, taken (by decide +kernel) (by decide +kernel) (by decide +kernel),
     by decide +kernel⟩,
   ⟨taking 0x1000000000000000000000000000000000000000000000000000000000000000000000000000000000000000000000000000000000000250000000000000001, recOf
     0x1000000000000000000000000000000000000000000000000000000000000000000000000000000000000000000000000000000000000250000000000000001, _, 0x02,
     taken (by decide +kernel) (by decide +kernel) (by decide +kernel), by decide +kernel⟩,
   ⟨taking 0x1000ffff00000000000000000000000000260000000000000001, recOf 0x1000ffff00000000000000000000000000260000000000000001, _, taken
     (by decide +kernel) (by decide +kernel) (by decide +kernel), by decide +kernel⟩,
   ⟨taking 0x1000000000000000000000000000000000000000000000000000000000000000000000000000000000000000000000000000000000000260000000000000001, recOf
     0x1000000000000000000000000000000000000000000000000000000000000000000000000000000000000000000000000000000000000260000000000000001, _, 0x02,
     taken (by decide +kernel) (by decide +kernel) (by decide +kernel), by decide +kernel⟩⟩

theorem witness_HostOperationsAndLoss :
    (∃ (s : State), ∃ (o : HostOp), s.isSet Reg.HST_STAT_ATTACHED = true ∧ s.isSet Reg.HST_STAT_HOSTLOST = false ∧ nextStart s [] s.host.ops = some
        o) ∧
    (∃ (s : State), ∃ o, s.isSet Reg.HST_STAT_ATTACHED = true ∧ s.isSet Reg.HST_STAT_HOSTLOST = false ∧ s.host.ops = [o] ∧ o.opc = 0x21 ∧ o.started
        = false ∧ o.ended = none ∧ o.held = false ∧ fenceOk s o = true) ∧
    (∃ (s : State), ∃ (id : Word), ∃ o, s.host.ops = [o] ∧ o.id = id.toNat ∧ s.results = [] ∧ o.opc = 0x21 ∧ o.started = true ∧ o.ended = none ∧
        o.waiting = false ∧ o.pieces = [] ∧ o.fail = none ∧ o.step = .work ∧ o.cancelling = false ∧ o.num 40 8 ≤ o.next * 65536) ∧
    (∃ (s : State), ∃ (id : Word), ∃ o, s.host.ops = [o] ∧ o.id = id.toNat ∧ s.results = [] ∧ o.opc = 0x21 ∧ o.started = true ∧ o.ended = none ∧
        o.waiting = false ∧ o.pieces = [] ∧ o.fail = none ∧ o.step = .work ∧ o.cancelling = false ∧ o.next * 65536 < o.num 40 8 ∧ o.held = true) ∧
    (∃ (s : State), ∃ (id : Word), ∃ o, s.host.ops = [o] ∧ o.id = id.toNat ∧ s.results = [] ∧ o.opc = 0x21 ∧ o.started = true ∧ o.ended = none ∧
        o.waiting = false ∧ o.pieces = [] ∧ o.fail = none ∧ o.step = .work ∧ o.cancelling = false ∧ o.next * 65536 < o.num 40 8 ∧ o.held = false) ∧
    (∃ (s : State), ∃ (id : Word), ∃ o, ∃ ok, ∃ st, s.hostOp id.toNat = some o ∧ o.long = true ∧ o.ended = some (ok, st) ∧ hostWritesOut s o ok =
        false) ∧
    (∃ (s : State), ∃ (e : MemEnv), s.host.settleDue = true ∧ ((∀ b : Brick, (s.brick b).snoop = [])) ∧ ((memReports e
        { s with host := { s.host with settleDue := false } }).bricks = s.bricks)) ∧
    (∃ (s : State), s.isSet Reg.HST_STAT_HOSTLOST = true ∧ s.isSet Reg.HST_MANSTAT_FROZEN = false) ∧
    (∃ (s : State), s.isSet Reg.HST_MANSTAT_AVAIL = true) ∧
    (∃ (s : State), s.isSet Reg.HST_MANSTAT_AVAIL = false) ∧
    (∃ (s : State), ∃ (seq : BitVec 32), seqMatches seq.toNat s = false) ∧
    (∃ (s : State), ∃ (seq : BitVec 32), seqMatches seq.toNat s = true ∧ openLongOps s = []) ∧
    (∃ (s : State), ∃ (w : Fin 4), ∃ (r : Fin 4), s.host.perst = false ∧ s.isSet Reg.PWR_STAT_HREFOK = true ∧ uncoreOn s 0 = true ∧ w.val ≠ 0 ∧
        r.val ≠ 0) :=
  ⟨⟨withHost (fun H => { H with ops := [opTwo] }), opTwo, by decide +kernel⟩,
   ⟨withHost (fun H => { H with ops := [opTwo] }), opTwo, by decide +kernel⟩,
   ⟨withHost (fun H => { H with ops := [{ opTwo with started := true, step := .work }] }), 2, { opTwo with started := true, step := .work },
     by decide +kernel⟩,
   ⟨withHost (fun H =>
     { H with ops := [{ opTwo with entry := leBytes 64 (2 + 0x21 * 2 ^ 64 + 0x10000 * 2 ^ 320), started := true, step := .work, hostSusp := true }] }),
     2, { opTwo with entry := leBytes 64 (2 + 0x21 * 2 ^ 64 + 0x10000 * 2 ^ 320), started := true, step := .work, hostSusp := true },
     by decide +kernel⟩,
   ⟨withHost (fun H =>
     { H with ops := [{ opTwo with entry := leBytes 64 (2 + 0x21 * 2 ^ 64 + 0x10000 * 2 ^ 320), started := true, step := .work }] }), 2,
     { opTwo with entry := leBytes 64 (2 + 0x21 * 2 ^ 64 + 0x10000 * 2 ^ 320), started := true, step := .work }, by decide +kernel⟩,
   ⟨withHost (fun H => { H with ops := [{ opTwo with ended := some (true, 0) }] }), 2, { opTwo with ended := some (true, 0) }, true, 0,
     by decide +kernel⟩,
   ⟨withHost (fun H => { H with settleDue := true }), MemEnv.quiet, by decide +kernel⟩,
   ⟨setting [(Reg.HST_STAT_HOSTLOST, 1)] windowed, by decide +kernel⟩,
   ⟨setting [(Reg.HST_MANSTAT_AVAIL, 1)] windowed, by decide +kernel⟩,
   ⟨attachedTo windowed, by decide +kernel⟩,
   ⟨attachedTo windowed, 0xFFFFFFFF, by decide +kernel⟩,
   ⟨attachedTo windowed, 0, by decide +kernel⟩,
   ⟨setting [(Reg.PWR_STAT_HREFOK, 1)] { windowed with host := { windowed.host with perst := false } }, 3, 3, by decide +kernel⟩⟩

theorem witness_DomainsAndClocks :
    (∃ (s : State), ∃ (d : Fin 144), ∃ (v : BitVec 2), domMoving s d.val = false ∧ s.power.queue.any (fun x => x.1 = d.val) = false ∧ inLockstep s
        d.val = false ∧ judge s d.val v.toNat ≠ 0) ∧
    (∃ (s : State), ∃ (d : Fin 144), ∃ (v : BitVec 2), domMoving s d.val = false ∧ s.power.queue.any (fun x => x.1 = d.val) = false ∧ inLockstep s
        d.val = false ∧ judge s d.val v.toNat = 0 ∧ v.toNat ≠ domCur s d.val) ∧
    (∃ (s : State), ∃ k, ∃ v, ∃ rest, let q := { s with power := { s.power with queue := rest } }; s.power.queue = (k, v) :: rest ∧ mayMove s k =
        true ∧ judge q k v ≠ 0) ∧
    (∃ (s : State), ∃ k, ∃ v, ∃ rest, let q := { s with power := { s.power with queue := rest } }; s.power.queue = (k, v) :: rest ∧ mayMove s k =
        true ∧ judge q k v = 0 ∧ v ≠ domCur q k) ∧
    (∃ (s : State), ∃ (d : Fin 144), ∃ v,
        let go := fun (s : State) => { s with power := { s.power with moving := s.power.moving.filter (fun x => x.1 ≠ d.val) } };
        let why := if v = 0 then judge (go s) d.val 0 else 0; s.power.moving.find? (fun x => x.1 = d.val) = some (d.val, v) ∧ (v = 0 ∨ railsUp s
        d.val = true) ∧ why ≠ 0) ∧
    (∃ (s : State), ∃ (d : Fin 144), ∃ (b : Brick), ∃ v, ∃ k,
        let go := fun (s : State) => { s with power := { s.power with moving := s.power.moving.filter (fun x => x.1 ≠ d.val) } };
        let why := if v = 0 then judge (go s) d.val 0 else 0; s.power.moving.find? (fun x => x.1 = d.val) = some (d.val, v) ∧ (v = 0 ∨ railsUp s
        d.val = true) ∧ why = 0 ∧ domKind d.val = .site b k ∧ v < 4) ∧
    (∃ (s : State), ∃ (d : Fin 144), ∃ (b : Brick), ∃ v,
        let go := fun (s : State) => { s with power := { s.power with moving := s.power.moving.filter (fun x => x.1 ≠ d.val) } };
        let why := if v = 0 then judge (go s) d.val 0 else 0; s.power.moving.find? (fun x => x.1 = d.val) = some (d.val, v) ∧ (v = 0 ∨ railsUp s
        d.val = true) ∧ why = 0 ∧ domKind d.val = .uncore b) ∧
    (∃ (s : State), ∃ (d : Fin 144), ∃ v,
        let go := fun (s : State) => { s with power := { s.power with moving := s.power.moving.filter (fun x => x.1 ≠ d.val) } };
        let why := if v = 0 then judge (go s) d.val 0 else 0; ∃ (st : Stack), s.power.moving.find? (fun x => x.1 = d.val) = some (d.val, v) ∧ (v = 0
        ∨ railsUp s d.val = true) ∧ why = 0 ∧ domKind d.val = .stack st ∧ (domCur s d.val = 3 → stackQuiet s st = true)) ∧
    (∃ (s : State), ∃ (d : Fin 144), domMoving s d.val = true ∧ s.start.phase ≠ 3 ∧ s.start.phase ≠ 4) ∧
    (∃ (f : BitVec 7), 0x30 ≤ f.toNat ∧ f.toNat ≤ 0x78) ∧
    (∃ (f : BitVec 7), ((f.toNat < 0x30 ∨ 0x78 < f.toNat))) ∧
    (∃ (s : State), ∃ (b : Brick), s.isSet (Reg.PWR_DVFS_CHG b) = true ∧ s.hod.busFailed.contains 0 = true) ∧
    (∃ (s : State), ∃ (b : Brick), s.isSet (Reg.PWR_DVFS_CHG b) = true ∧ s.hod.busFailed.contains 0 = false) :=
  ⟨⟨live, 32, 2, by decide +kernel⟩,
   ⟨setting [(grantField 0, 1000), (Reg.PWR_SITEMAP_SHADOW 0, 1)] live, 32, 1, by decide +kernel⟩,
   ⟨powering [(1, 2)] [], 1, 2, [], by decide +kernel⟩,
   ⟨powering [(0, 0)] [(1, 1), (2, 1), (3, 1)], 0, 0, [], by decide +kernel⟩,
   ⟨powering [] [(132, 0)], 132, 0, by decide +kernel⟩,
   ⟨powering [] [(32, 0)], 32, 0, 0, 32, by decide +kernel⟩,
   ⟨powering [] [(133, 0)] (setting [(Reg.PWR_DOM_CUR 138, 0), (Reg.PWR_DOM_CUR 139, 0)] windowed), 133, 1, 0, by decide +kernel⟩,
   ⟨powering [] [(143, 0)], 143, 0, 7, by decide +kernel⟩,
   ⟨powering [] [(32, 1)], 32, by decide +kernel⟩,
   ⟨0x30, by decide +kernel⟩,
   ⟨0x2F, by decide +kernel⟩,
   ⟨setting [(Reg.PWR_DVFS_CHG 0, 1)] (withHod (fun H => { H with busFailed := [0] })), 0, by decide +kernel⟩,
   ⟨setting [(Reg.PWR_DVFS_CHG 0, 1)] live, 0, by decide +kernel⟩⟩

theorem witness_ResetsAndSupplies :
    (∃ (s : State), s.start.rstLow = false ∧ s.isSet Reg.PLB_STAT_ALIGNED = false) ∧
    (∃ (s : State), s.start.rstLow = false ∧ s.isSet Reg.PLB_STAT_ALIGNED = true) ∧
    (∃ (s : State), s.start.aon = true ∧ s.start.rstLow = true) ∧
    (∃ (s : State), s.start.mainGood = true) ∧
    (∃ (s : State), s.start.phase = 2 ∧ s.start.mainGood = false) ∧
    (∃ (s : State), ∃ (b : Brick), s.safety.resets.contains b.val = false) ∧
    (∃ (s : State), ∃ (b : Brick), ∃ rest, s.safety.resets.filter (fun x => uncoreOn s (brickOf x)) = b.val :: rest ∧ hodActs s = true ∧ s.isSet
        Reg.SAF_STAT_PSAFE = false) ∧
    (∃ (s : State), ∃ (b : Brick), s.power.moving.contains (132 + b.val, 3) = true ∧ s.start.phase ≠ 3 ∧ railsUp s (132 + b.val) = true) ∧
    (∃ (s : State), s.isSet Reg.PWR_STAT_MREFOK = true) ∧
    (∃ (s : State), s.isSet Reg.PWR_STAT_HREFOK = true) ∧
    (∃ (s : State), s.isSet Reg.PWR_STAT_AONLOCK = true) ∧
    (∃ (s : State), s.isSet Reg.PWR_STAT_MREFOK = false ∧ s.start.aon = true ∧ s.start.rstLow = false) :=
  ⟨⟨live, by decide +kernel⟩,
   ⟨setting [(Reg.PLB_STAT_ALIGNED, 1)] live, by decide +kernel⟩,
   ⟨State.reset, by decide +kernel⟩,
   ⟨live, by decide +kernel⟩,
   ⟨starting (fun S => { S with phase := 2, mainGood := false }), by decide +kernel⟩,
   ⟨live, 0, by decide +kernel⟩,
   ⟨withSafety (fun S => { S with resets := [0, 1] }), 0, [1], by decide +kernel⟩,
   ⟨powering [] [(132, 3)], 0, by decide +kernel⟩,
   ⟨setting [(Reg.PWR_STAT_MREFOK, 1)] live, by decide +kernel⟩,
   ⟨setting [(Reg.PWR_STAT_HREFOK, 1)] live, by decide +kernel⟩,
   ⟨setting [(Reg.PWR_STAT_AONLOCK, 1)] live, by decide +kernel⟩,
   ⟨live, by decide +kernel⟩⟩

theorem witness_BootAndReady :
    (∃ (s : State), s.start.phase = 1 ∧ s.start.rstLow = false ∧ s.start.aon = true ∧ s.start.recovery = false) ∧
    (∃ (s : State), s.start.recovery = true) ∧
    (∃ (s : State), ∃ (img : Bytes), imageStatus s img ≠ 0) ∧
    (∃ (s : State),
     let used := (List.finRange 24).filter (fun (p : Port) => match s.sheetRec p with | some r => recRole r ≠ 0 | none => false);
     s.start.phase = 5 ∧ ((∀ p ∈ used, portResolved s p = true))) :=
  ⟨⟨starting (fun S => { S with phase := 1 }), by decide +kernel⟩, ⟨starting (fun S => { S with recovery := true }), by decide +kernel⟩, ⟨starting
    (fun S => { S with phase := 1 }), [], by decide +kernel⟩, ⟨starting (fun S => { S with phase := 5 }), by decide +kernel⟩⟩

theorem witness_ShadowAndTests :
    (∃ (s : State), ∃ (b : Brick), visiting s b = true ∧ visitRuns s b = false) ∧
    (∃ (s : State), ∃ (b : Brick), ∃ (u : Fin 5), visiting s b = true ∧ u.val ≠ 4 ∧ bitOf (joinedUnits s b) u.val = true) ∧
    (∃ (s : State), ∃ (b : Brick), ∃ (u : Fin 5), visiting s b = true ∧ bitOf (joinedUnits s b) u.val = false ∧ u.val ≠ 4) ∧
    (∃ (s : State), ∃ (b : Brick), testing s b = false ∧ visiting s b = false) ∧
    (∃ (s : State), ∃ (b : Brick), ∃ (k : Fin 32), testing s b = false ∧ siteState s (brickTile b k.val) = 0 ∧ s.safety.failed.contains (siteDomain
        s (brickTile b k.val)) = false) ∧
    (∃ (s : State), ∃ (b : Brick), ∃ (site : Fin 64), testing s b = false ∧ site.val ≤ 32 ∧ domCur s (siteDom b site.val) = 0 ∧ domMoving s (siteDom
        b site.val) = false ∧ s.rd (Reg.PWR_SITEMAP_RETIRE b) ≠ site.val) ∧
    (∃ (s : State), ∃ (b : Brick), ∃ (d : Nat), testing s b = false ∧ s.safety.toTest.find? (fun x => x.1 / 33 = b.val) = some (d, false) ∧
        domMoving s d = false ∧ domCur s d = 0) ∧
    (∃ (s : State), ∃ (b : Brick), ∃ (f : BitVec 5), let site := s.rd (Reg.SAF_STRES_SITE b);
        let t := ((((s.wr (Reg.SAF_STRES_BUSY b) 0).flag (Reg.SAF_STRES_DONE b)).wr (Reg.SAF_STRES_PASS b) 0).wr (Reg.SAF_STRES_FAIL b) f.toNat).raise 0x6003 [b.val, site, 0, f.toNat];
        let u := { t with safety := { t.safety with auto := t.safety.auto.filter (fun x => x ≠ b.val), failed := insertNum t.safety.failed (siteDom b site) } };
        testing s b = true ∧ f ≠ 0 ∧ siteTile s b (s.rd (Reg.SAF_STRES_SITE b)) = none ∧ siteTile u b site = none ∧ u.rd (Reg.PWR_SITEMAP_RETIRE b) =
        0x3F) ∧
    (∃ (s : State), ∃ (b : Brick), ∃ (f : BitVec 5), let site := s.rd (Reg.SAF_STRES_SITE b);
        let t := ((((s.wr (Reg.SAF_STRES_BUSY b) 0).flag (Reg.SAF_STRES_DONE b)).wr (Reg.SAF_STRES_PASS b) 0).wr (Reg.SAF_STRES_FAIL b) f.toNat).raise 0x6003 [b.val, site, 0, f.toNat];
        let u := { t with safety := { t.safety with auto := t.safety.auto.filter (fun x => x ≠ b.val), failed := insertNum t.safety.failed (siteDom b site) } };
        testing s b = true ∧ f ≠ 0 ∧ siteTile s b (s.rd (Reg.SAF_STRES_SITE b)) = none ∧ siteTile u b site = none ∧ u.rd (Reg.PWR_SITEMAP_RETIRE b) =
        site ∧ u.rd (Reg.PWR_SITEMAP_RETIRE b) ≠ 0x3F) ∧
    (∃ (s : State), ∃ (b : Brick), ∃ (f : BitVec 5), let site := s.rd (Reg.SAF_STRES_SITE b);
        let t := ((((s.wr (Reg.SAF_STRES_BUSY b) 0).flag (Reg.SAF_STRES_DONE b)).wr (Reg.SAF_STRES_PASS b) 0).wr (Reg.SAF_STRES_FAIL b) f.toNat).raise 0x6003 [b.val, site, 0, f.toNat];
        let u := { t with safety := { t.safety with auto := t.safety.auto.filter (fun x => x ≠ b.val), failed := insertNum t.safety.failed (siteDom b site) } };
        testing s b = true ∧ f ≠ 0 ∧ siteTile s b (s.rd (Reg.SAF_STRES_SITE b)) = none ∧ siteTile u b site = none ∧ u.rd (Reg.PWR_SITEMAP_RETIRE b) ≠
        0x3F ∧ u.rd (Reg.PWR_SITEMAP_RETIRE b) ≠ site) ∧
    (∃ (s : State), ∃ (b : Brick), let site := s.rd (Reg.SAF_STRES_SITE b);
        let t := ((((s.wr (Reg.SAF_STRES_BUSY b) 0).flag (Reg.SAF_STRES_DONE b)).wr (Reg.SAF_STRES_PASS b) 1).wr (Reg.SAF_STRES_FAIL b) 0).raise 0x6003 [b.val, site, 1, 0];
        let u := { t with safety := { t.safety with auto := t.safety.auto.filter (fun x => x ≠ b.val) } }; testing s b = true ∧
        t.safety.auto.contains b.val = false ∧ site ≠ shadowSite u b) :=
  ⟨⟨withSafety (fun S => { S with visitAt := [(0, 0)], joined := [(0, 5)] }) { live with plumb := 257812 }, 0, by decide +kernel⟩,
   ⟨withSafety (fun S => { S with visitAt := [(0, 0)], joined := [(0, 5)] }), 0, 2, by decide +kernel⟩,
   ⟨withSafety (fun S => { S with visitAt := [(0, 0)], joined := [(0, 5)] }), 0, 3, by decide +kernel⟩,
   ⟨live, 0, by decide +kernel⟩,
   ⟨live, 0, 31, by decide +kernel⟩,
   ⟨live, 0, 31, by decide +kernel⟩,
   ⟨withSafety (fun S => { S with toTest := [(33, true), (32, false)] }), 0, 32, by decide +kernel⟩,
   ⟨setting [(Reg.SAF_STRES_BUSY 0, 1), (Reg.SAF_STRES_SITE 0, shadowSite live 0), (Reg.PWR_SITEMAP_RETIRE 0, 0x3F)] live, 0, 1, by decide +kernel⟩,
   ⟨setting [(Reg.SAF_STRES_BUSY 0, 1), (Reg.SAF_STRES_SITE 0, shadowSite live 0), (Reg.PWR_SITEMAP_RETIRE 0, shadowSite live 0)] live, 0, 1,
     by decide +kernel⟩,
   ⟨setting [(Reg.SAF_STRES_BUSY 0, 1), (Reg.SAF_STRES_SITE 0, shadowSite live 0), (Reg.PWR_SITEMAP_RETIRE 0, 5)] live, 0, 1, by decide +kernel⟩,
   ⟨setting [(Reg.SAF_STRES_BUSY 0, 1), (Reg.SAF_STRES_SITE 0, 3)] live, 0, by decide +kernel⟩⟩

theorem witness_SafeStates :
    (∃ (s : State), ∃ (b : Brick), s.isSet (Reg.SAF_BSTAT_SAFE b) = true ∧ s.isSet Reg.SAF_STAT_PSAFE = false ∧ s.isSet Reg.SAF_CTL_AUTOBR = true ∧
        causeCleared s b = true ∧ hodActs s = true) ∧
    (∃ (s : State), ∃ (b : Brick), s.isSet (Reg.SAF_BSTAT_SAFE b) = true ∧ causeCleared s b = false ∧ tabGet 0 s.safety.safeAt b.val + 1000000000 ≤
        s.now) ∧
    (∃ (s : State), ∃ (b : Brick), brickSafe s b = false ∧ uncoreOn s b = true) ∧
    (∃ (s : State), s.isSet Reg.SAF_STAT_PSAFE = true) :=
  ⟨⟨setting [(Reg.SAF_BSTAT_SAFE 0, 1), (Reg.SAF_CTL_AUTOBR, 1)] live, 0, by decide +kernel⟩,
   ⟨withSafety (fun S => { S with safeCause := [(0, 3)] }) { setting [(Reg.SAF_BSTAT_SAFE 0, 1)] live with now := 1000000000 }, 0, by decide +kernel⟩,
   ⟨live, 0, by decide +kernel⟩,
   ⟨setting [(Reg.SAF_STAT_PSAFE, 1)] live, by decide +kernel⟩⟩

theorem witness_HodCommands :
    (∃ (s : State), hodActs s = true ∧ s.isSet Reg.HOD_CSTAT_BUSY = false ∧ s.sealed = true) ∧
    (∃ (s : State), let a := s.rd Reg.HOD_CARG_ADDR; hodActs s = true ∧ s.isSet Reg.HOD_CSTAT_BUSY = false ∧ s.sealed = false ∧ addrSeat a = 0xFFFF
        ∧ addrRegion a ≤ 8) ∧
    (∃ (s : State), hodActs s = true ∧ s.isSet Reg.HOD_CSTAT_BUSY = true) ∧
    (∃ (s : State), hodActs s = true ∧ s.hod.boot.trial = false) ∧
    (∃ (s : State), let img := bankImage s s.hod.boot.bank; hodActs s = true ∧ s.hod.boot.trial = true ∧ imageSvn img ≤ s.hod.fuses.counter) ∧
    (∃ (s : State), let img := bankImage s s.hod.boot.bank; hodActs s = true ∧ s.hod.boot.trial = true ∧ s.hod.fuses.counter < imageSvn img) ∧
    (∃ (s : State), ∃ (c : Nat), ∃ (r : State), hodActs s = true ∧ r.hod.restart = some c) :=
  ⟨⟨{ live with sealed := true }, by decide +kernel⟩,
   ⟨setting [(Reg.HOD_CARG_ADDR, 0xFFFF800000000000)] live, by decide +kernel⟩,
   ⟨setting [(Reg.HOD_CSTAT_BUSY, 1)] live, by decide +kernel⟩,
   ⟨live, by decide +kernel⟩,
   ⟨withHod (fun H => { H with boot := { H.boot with trial := true } }), by decide +kernel⟩,
   ⟨withHod (fun H => { H with boot := { H.boot with trial := true }, bankA := List.replicate 8 0 ++ [1] }), by decide +kernel⟩,
   ⟨live, 1, withHod (fun H => { H with restart := some 1 }), by decide +kernel⟩⟩

theorem witness_HodLog :
    (∃ (s : State), ∃ (x : Event), ∃ rest,
        let t := fillBucket (eventToHost x.code x.time.toNat ((argBytes x.code x.args).take 16) x.quiet { s with events := rest }); hodActs s = true
        ∧ s.events = x :: rest ∧ persists t x.code = false) ∧
    (∃ (s : State), ∃ (x : Event), ∃ rest,
        let t := fillBucket (eventToHost x.code x.time.toNat ((argBytes x.code x.args).take 16) x.quiet { s with events := rest }); hodActs s = true
        ∧ s.events = x :: rest ∧ persists t x.code = true ∧ 10 ^ 9 ≤ t.hod.bucket ∧ t.hod.norFail = false) ∧
    (∃ (s : State), ∃ (x : Bytes), ∃ (rest : List Bytes), hodActs s = true ∧ s.hod.persistQ = x :: rest) ∧
    (∃ (s : State), hodActs s = true ∧ ((∃ n ∈ s.hod.dropped, n ≠ 0)) ∧ s.hod.dropRepAt = 0) ∧
    (∃ (s : State), ∃ (seq : BitVec 32), hodActs s = true ∧ tabFind s.hod.norLog (seq.toNat % 524288) = none) ∧
    (∃ (s : State), ∃ (seq : BitVec 32), ∃ (x : Bytes), hodActs s = true ∧ tabFind s.hod.norLog (seq.toNat % 524288) = some x ∧ numAt x 8 4 =
        seq.toNat ∧ crc32c (x.take 60) = numAt x 60 4) :=
  ⟨⟨{ setting [(Reg.HOD_LOGCTL_PCLASS, 0)] live with events := [{ code := 0x1301, args := [], time := 0, aligned := true }] },
     { code := 0x1301, args := [], time := 0, aligned := true }, [], by decide +kernel⟩,
   ⟨{ live with events := [{ code := 0x5101, args := [], time := 0, aligned := true }] }, { code := 0x5101, args := [], time := 0, aligned := true },
     [], by decide +kernel⟩,
   ⟨withHod (fun H => { H with persistQ := [logged5] }), logged5, [], by decide +kernel⟩,
   ⟨withHod (fun H => { H with dropped := List.replicate 15 0 ++ [1] }), by decide +kernel⟩,
   ⟨live, 5, by decide +kernel⟩,
   ⟨withHod (fun H => { H with norLog := [(5, logged5)] }), 5, logged5, by decide +kernel⟩⟩

theorem witness_SensorsAndGrant :
    (∃ (s : State), ∃ (i : Nat), ∃ (x : BitVec 16), i < 212 ∧ sensorPowered s i = true ∧ implausible x.toInt = false ∧ s.rd (Reg.HOD_TEMP_STATE i) =
        0 ∧ s.hod.alerts = [] ∧ s.hod.warm = [] ∧ s.hod.trips = []) ∧
    (∃ (s : State), ∃ (st : Stack), ∃ (x : BitVec 16), hodActs s = true ∧ domCur s (136 + st.val) ≠ 0 ∧ 1680 < x.toInt ∧ x.toInt ≤ 1760 ∧
        s.hod.hotStacks.contains st.val = false) ∧
    (∃ (s : State), ∃ (st : Stack), ∃ (x : BitVec 16), ∃ since, hodActs s = true ∧ domCur s (136 + st.val) = 3 ∧ 1760 < x.toInt ∧
        s.hod.hotStacks.contains st.val = true ∧ tabFind s.hod.stackHot st.val = some since ∧ since + 10 ^ 6 ≤ s.now) ∧
    (∃ (s : State), ∃ (i : BitVec 16), ∃ (o : BitVec 16), hodActs s = true ∧ s.hod.busFailed.contains 1 = false ∧ s.hod.swap = false ∧ i.toInt ≤ 720
        ∧ i.toInt ≤ o.toInt) ∧
    (∃ (d : Fin 145), ∃ (b : Brick), domKind d.val = .uncore b) ∧
    (∃ (g : Fin 8), 4 ≤ g.val) ∧
    (∃ (s : State), ∃ (b : Brick), hodActs s = true ∧ (tabFind s.hod.ocAt b.val).isSome = true) ∧
    (∃ (s : State), hodActs s = true ∧ s.hod.busFailed.contains 0 = false) :=
  ⟨⟨setting [(Reg.HOD_TEMP_STATE 211, 0)] live, 211, 1840, by decide +kernel⟩,
   ⟨setting [(Reg.HOD_TEMP_STATE 211, 0)] live, 0, 1760, by decide +kernel⟩,
   ⟨withHod (fun H => { H with hotStacks := [0], stackHot := [(0, 0)] }), 0, 1761, 0, by decide +kernel⟩,
   ⟨setting [(Reg.HOD_TEMP_STATE 211, 0)] live, 720, 720, by decide +kernel⟩,
   ⟨132, 0, by decide +kernel⟩,
   ⟨7, by decide +kernel⟩,
   ⟨withHod (fun H => { H with ocAt := [(0, 0)] }), 0, by decide +kernel⟩,
   ⟨setting [(Reg.HOD_TEMP_STATE 211, 0)] live, by decide +kernel⟩⟩

theorem witness_SidebandAndSpdm :
    (∃ (s : State), ∃ (bus : Fin 7), hodActs s = true ∧ (bus.val ≠ 0 ∨ s.hod.busFailed.contains 0 = false)) ∧
    (∃ (s : State), ∃ (bus : Fin 7), hodActs s = true ∧ bus.val = 0 ∧ s.hod.busFailed.contains 0 = true) ∧
    (∃ (s : State), ∃ (bus : Fin 7), hodActs s = true ∧ bus.val < 3) ∧
    (∃ (s : State), ∃ (bus : Fin 7), hodActs s = true ∧ 3 ≤ bus.val) ∧
    (∃ (s : State), ∃ (bus : Fin 7), hodActs s = true ∧ bus.val ≠ 0 ∧ s.hod.busFailed.contains bus.val = true) ∧
    (∃ (s : State), ∃ (req : Bytes), hodActs s = true ∧ numAt req 1 1 = 0x84) ∧
    (∃ (s : State), ∃ (req : Bytes), hodActs s = true ∧ numAt req 0 1 = 0x13 ∧ numAt req 1 1 = 0xE1 ∧ s.hod.spdm.version = true ∧ s.hod.spdm.caps =
        false) ∧
    (∃ (s : State), ∃ (req : Bytes), hodActs s = true ∧ numAt req 0 1 = 0x13 ∧ numAt req 1 1 = 0xE3 ∧ bitOf (numAt req 8 4) 7 = true ∧ bitOf (numAt
        req 12 4) 1 = true ∧ s.hod.spdm.caps = true ∧ s.hod.spdm.algs = false) ∧
    (∃ (s : State), ∃ (req : Bytes), hodActs s = true ∧ numAt req 0 1 = 0x13 ∧ s.hod.spdm.algs = true ∧ numAt req 1 1 = 0x81) ∧
    (∃ (s : State), ∃ (req : Bytes), hodActs s = true ∧ numAt req 0 1 = 0x13 ∧ s.hod.spdm.algs = true ∧ numAt req 1 1 = 0x82 ∧ numAt req 2 1 = 0 ∧
        numAt req 4 2 ≤ Config.certChain.length) ∧
    (∃ (s : State), ∃ (req : Bytes), hodActs s = true ∧ numAt req 0 1 = 0x13 ∧ s.hod.spdm.algs = true ∧ numAt req 1 1 = 0x83 ∧ numAt req 2 1 = 0) ∧
    (∃ (s : State), ∃ (req : Bytes), hodActs s = true ∧ numAt req 0 1 = 0x13 ∧ s.hod.spdm.algs = true ∧ numAt req 1 1 = 0xE0 ∧ numAt req 3 1 = 0 ∧
        bitOf (numAt req 2 1) 0 = false) :=
  ⟨⟨live, 6, by decide +kernel⟩,
   ⟨withHod (fun H => { H with busFailed := [0] }), 0, by decide +kernel⟩,
   ⟨live, 2, by decide +kernel⟩,
   ⟨live, 6, by decide +kernel⟩,
   ⟨withHod (fun H => { H with busFailed := [6] }), 6, by decide +kernel⟩,
   ⟨live, leBytes 16 0x8400, by decide +kernel⟩,
   ⟨withHod (fun H => { H with spdm := { version := true } }), leBytes 16 0xe113, by decide +kernel⟩,
   ⟨withHod (fun H => { H with spdm := { version := true, caps := true } }), leBytes 16 0x200000080000000000000e313, by decide +kernel⟩,
   ⟨agreed, leBytes 16 0x8113, by decide +kernel⟩,
   ⟨agreed, leBytes 16 0x8213, by decide +kernel⟩,
   ⟨agreed, leBytes 16 0x8313, by decide +kernel⟩,
   ⟨agreed, leBytes 16 0x6e013, by decide +kernel⟩⟩

theorem witness_Observation :
    (∃ (s : State), following s = false ∧ s.isSet Reg.PLB_STAT_HOLD = false ∧ s.observe.asked = []) ∧
    (∃ (s : State), ∃ (p : Port), following s = true ∧ s.rd Reg.PLB_CTL_UPPORT = p.val ∧ s.portState p = 8 ∧ s.observe.asked = [p.val] ∧ 0 < (s.link
        (.port p)).training.exchanges) ∧
    (∃ (s : State), s.isSet Reg.PLB_STAT_HOLD = true ∧ s.isSet Reg.PLB_CTL_ROOT = false ∧ s.observe.holdAt + s.rd Reg.PLB_CTL_HOLDMAX * 10 ^ 9 <
        s.now) ∧
    (∃ (s : State), ∃ (b : Brick), s.isSet (Reg.OBS_SMP_EN b) = true ∧ atMultiple s (s.rd (Reg.OBS_SMP_INTV b)) = true) ∧
    (∃ (s : State), ∃ (b : Brick), ∃ (tr : Bool), ringBaseOk s tr b = true ∧ ringHeld s tr b ≤ ringBytes s tr b) ∧
    (∃ (s : State), ∃ (b : Brick), ∃ (tr : Bool), ((ringBaseOk s tr b = false ∨ ringBytes s tr b < ringHeld s tr b))) ∧
    (∃ (s : State), ∃ (b : Brick), ∃ (tr : Bool), ∃ (v : Word), s.reg (ringCons tr b) ≤ v.toNat ∧ v.toNat ≤ s.reg (ringProd tr b)) ∧
    (∃ (s : State), ∃ (b : Brick), ∃ (tr : Bool), ∃ (v : Word), ((v.toNat < s.reg (ringCons tr b) ∨ s.reg (ringProd tr b) < v.toNat))) ∧
    (∃ (s : State), ∃ (b : Brick), ∃ r, ∃ rest, let size := ringBytes s r.trace b; let off := s.reg (ringProd r.trace b) % size; s.results.find?
        (fun x => x.issuer = .ring b.val) = none ∧ (s.brick b).ringStore = none ∧ (s.brick b).obsBuf = r :: rest ∧ s.isSet (ringEn r.trace b) = true
        ∧ off + r.data.length ≤ size ∧ ringHeld s r.trace b + r.data.length ≤ size ∧ r.data ≠ []) ∧
    (∃ (s : State), let a := s.reg Reg.OBS_PADDR; s.isSet Reg.OBS_PST_BUSY = false ∧ addrSeat a = 0xFFFF ∧ addrRegion a ≤ 8) ∧
    (∃ (s : State), ∃ (p : PullState), s.results.find? (fun x => x.issuer = .pull) = none ∧ s.observe.pull = some p ∧ p.left = [] ∧ p.pieces = [] ∧
        p.waiting = false) ∧
    (∃ (s : State), ∃ (t : Tile), s.isSet (Reg.OBS_TILE_PCEN t) = true ∧ siteState s t = 3 ∧ tileFenced s t = false ∧ (s.isSet (Reg.OBS_TILE_PCJIT
        t) = true ∨ atMultiple s (s.rd (Reg.OBS_TILE_PCINT t)) = true)) ∧
    (∃ (s : State), ∃ (b : Brick), let l := (s.brick b).obsLost; 0 < l.pc + l.bond + l.stamp ∧ s.isSet (Reg.OBS_TRC_EN b) = true ∧ obsUsed (s.brick
        b) + 32 ≤ 0x10000) ∧
    (∃ (s : State), ∃ (b : Brick), 0 < (s.brick b).obsLost.traceRep ∧ (s.brick b).dropRepAt.2 = 0) ∧
    (∃ (s : State), ∃ (b : Brick), 0 < (s.brick b).obsLost.sampleRep ∧ (s.brick b).dropRepAt.1 = 0) :=
  ⟨⟨live, by decide +kernel⟩,
   ⟨(setting [(Reg.PLB_CTL_SYNC, 1)] (portIn 8)).onLink (.port 0) (fun L => { L with training := { L.training with exchanges := 1 } }) |> fun s =>
     { s with observe := { s.observe with asked := [0] } }, 0, by decide +kernel⟩,
   ⟨{ setting [(Reg.PLB_STAT_HOLD, 1)] live with now := 10 ^ 15 }, by decide +kernel⟩,
   ⟨setting [(Reg.OBS_SMP_EN 0, 1)] live, 0, by decide +kernel⟩,
   ⟨live.setReg (Reg.OBS_TBASE 0) 0xFFFF000000000000, 0, true, by decide +kernel⟩,
   ⟨live, 0, true, by decide +kernel⟩,
   ⟨live, 0, true, 0, by decide +kernel⟩,
   ⟨live, 0, true, 1, by decide +kernel⟩,
   ⟨(setting [(Reg.OBS_TRC_EN 0, 1)] live).onBrick 0 (fun B => { B with obsBuf := [{ trace := true, typ := 1, tile := 0, data := [1] }] }), 0,
     { trace := true, typ := 1, tile := 0, data := [1] }, [], by decide +kernel⟩,
   ⟨live.setReg Reg.OBS_PADDR 0xFFFF800000000000, by decide +kernel⟩,
   ⟨{ live with observe := { live.observe with pull := some { left := [], addr := 0 } } }, { left := [], addr := 0 }, by decide +kernel⟩,
   ⟨setting [(Reg.OBS_TILE_PCEN 0, 1)] live, 0, by decide +kernel⟩,
   ⟨traced { stamp := 1 }, 0, by decide +kernel⟩,
   ⟨traced { traceRep := 1 }, 0, by decide +kernel⟩,
   ⟨traced { sampleRep := 1 }, 0, by decide +kernel⟩⟩

end Sys2Proof.Tests
end

section
/-! PROOFS. Memory by bytes (R14): a range that was written reads back whole, and little-endian bytes spell their number. -/
namespace Sys2Proof.Machine
open Sys2Proof

/-- A range reads as `bs` where each of its bytes does. -/
theorem memRead_eq_of_memByte (m : List Host.Cell) (a : Nat) (bs : Bytes) (h : ∀ i (hi : i < bs.length), memByte m (a + i) = bs[i]) :
    memRead m a bs.length = bs := by
  induction bs generalizing a with
  | nil => rfl
  | cons v vs ih =>
    have hhead : memByte m a = v := h 0 (by simp)
    have htail : memRead m (a + 1) vs.length = vs := ih (a + 1) fun i hi => by
      have := h (i + 1) (by simpa using hi)
      rwa [show a + (i + 1) = a + 1 + i by omega] at this
    rw [List.length_cons, memRead, hhead, htail]

/-- What was stored is what is loaded. -/
@[simp] theorem State.bytes_store (s : State) (a : Nat) (bs : Bytes) : (s.store a bs).bytes a bs.length = bs :=
  memRead_eq_of_memByte _ a bs (s.store_reads a bs).1

/-- The low `n` bytes of a number spell it modulo 256 ^ n. -/
@[simp] theorem leNat_leBytes (n v : Nat) : leNat (leBytes n v) = v % 256 ^ n := by
  induction n generalizing v with
  | zero => simp [leBytes, leNat, Nat.mod_one]
  | succ n ih =>
    rw [leBytes, leNat, ih, BitVec.toNat_ofNat, pow_succ' 256]
    exact Nat.mod_mul.symm

/-- Settles O8: what a store writes and leaves, the canonical form it keeps, and the little-endian bytes of a number. -/
theorem memoryBytes : Obligations.MemoryBytes := by
  intro s a bs
  obtain ⟨hinside, houtside⟩ := s.store_reads a bs
  refine ⟨fun i hi => ?_, houtside, Memory.wf_memWrite a bs, s.bytes_store a bs, leNat_leBytes⟩
  rw [hinside i hi, List.getD_eq_getElem _ _ hi]

end Sys2Proof.Machine
end

section
/-! PROOFS. What one access does to each field of a register. A write, a read and the clearing after a read each go through the fields of the
register and replace at most the field they are at; no two fields of a register of the map share a bit, so each field ends as its own step leaves it. -/
namespace Sys2Proof.Machine

/-! ### Bits of a field -/

theorem testBit_bitsOf (v hi lo i : Nat) : (bitsOf v hi lo).testBit i = (decide (i < hi + 1 - lo) && v.testBit (i + lo)) := by
  rw [bitsOf, Nat.testBit_mod_two_pow, Nat.testBit_div_two_pow]

@[simp] theorem bitsOf_zero (hi lo : Nat) : bitsOf 0 hi lo = 0 := by simp [bitsOf]

/-- A field of a 64-bit word of ones is all ones. -/
theorem bitsOf_ones (hi lo : Nat) (h : hi < 64) : bitsOf (2 ^ 64 - 1) hi lo = 2 ^ (hi + 1 - lo) - 1 := by
  apply Nat.eq_of_testBit_eq
  intro i
  rw [testBit_bitsOf, Nat.testBit_two_pow_sub_one, Nat.testBit_two_pow_sub_one, ← Bool.decide_and, decide_eq_decide]
  omega

@[simp] theorem bitsOf_mod_width (v hi lo : Nat) : bitsOf v hi lo % 2 ^ (hi + 1 - lo) = bitsOf v hi lo := Nat.mod_eq_of_lt (bitsOf_lt v hi lo)

/-- A field that is replaced by its own value leaves the number as it was. -/
@[simp] theorem withBits_bitsOf (v hi lo : Nat) : withBits v hi lo (bitsOf v hi lo) = v := by
  rw [withBits, bitsOf_mod_width]
  exact Nat.sub_add_cancel ((Nat.mul_le_mul_right _ (Nat.mod_le _ _)).trans (Nat.div_mul_le_self _ _))

theorem land_mod_two (a b : Nat) : (a &&& b) % 2 = a % 2 * (b % 2) := by
  have h : (a &&& b) % 2 ^ 1 = a % 2 ^ 1 &&& b % 2 ^ 1 := Nat.and_mod_two_pow
  rw [pow_one] at h
  rw [h]
  rcases Nat.mod_two_eq_zero_or_one a with ha | ha <;> rcases Nat.mod_two_eq_zero_or_one b with hb | hb <;> simp [ha, hb]

/-- Taking away the bits that two numbers share leaves the bits of the first that the second lacks. -/
theorem testBit_sub_land (a b i : Nat) : (a - (a &&& b)).testBit i = (a.testBit i && !b.testBit i) := by
  induction i generalizing a b with
  | zero =>
    have hle : a &&& b ≤ a := Nat.and_le_left
    have hlow := land_mod_two a b
    rcases Nat.mod_two_eq_zero_or_one b with hb | hb <;> rw [hb] at hlow <;> simp [Nat.testBit_zero, hb] <;> omega
  | succ i ih =>
    have hle : a &&& b ≤ a := Nat.and_le_left
    have hlow : (a &&& b) % 2 ≤ a % 2 :=
      land_mod_two a b ▸ mul_le_of_le_one_right (Nat.zero_le _) (Nat.lt_succ_iff.mp (Nat.mod_lt b two_pos))
    have hhalf : (a - (a &&& b)) / 2 = a / 2 - (a / 2 &&& b / 2) := by
      rw [← Nat.and_div_two]
      omega
    simp only [Nat.testBit_succ, hhalf, ih]

/-! ### Layout of the register map (R43) -/

/-- Two fields share no bit. -/
abbrev FieldSpec.Apart (f g : FieldSpec) : Prop := f.hi < g.lo ∨ g.hi < f.lo

/-- The fields of a register are runs of at least one of its 64 bits, and no two share a bit. -/
abbrev RegSpec.WellLaid (r : RegSpec) : Prop := (∀ f ∈ r.fields, f.lo ≤ f.hi ∧ f.hi < 64) ∧ r.fields.Pairwise FieldSpec.Apart

theorem pkgBlock_wellLaid (blk : Nat) : ∀ r ∈ pkgBlock blk, r.WellLaid := by
  unfold pkgBlock
  split <;> decide +kernel

theorem brickBlock_wellLaid (blk : Nat) : ∀ r ∈ brickBlock blk, r.WellLaid := by
  unfold brickBlock
  split <;> decide +kernel

theorem tileBlock_wellLaid (blk : Nat) : ∀ r ∈ tileBlock blk, r.WellLaid := by
  unfold tileBlock
  split <;> decide +kernel

theorem scopeRegs_wellLaid (sc : RegScope) : ∀ r ∈ scopeRegs sc, r.WellLaid := by
  cases sc with
  | pkg blk => exact pkgBlock_wellLaid blk
  | brick b blk => exact brickBlock_wellLaid blk
  | tile t blk => exact tileBlock_wellLaid blk
  | reserved => simp [scopeRegs]

theorem mem_of_findReg {rs : List RegSpec} {o st : Nat} {r : RegSpec} (h : findReg rs o = some (r, st)) : r ∈ rs := by
  induction rs with
  | nil => cases h
  | cons x xs ih =>
    rw [findReg] at h
    split at h
    · cases h
      exact List.mem_cons_self
    · exact List.mem_cons_of_mem _ (ih h)

/-- Every register of the map is well laid. -/
theorem wellLaid_of_regAt {off st : Nat} {r : RegSpec} (h : regAt off = some (r, st)) : r.WellLaid := by
  simp only [regAt] at h
  split at h
  · next hfind =>
    cases h
    exact scopeRegs_wellLaid _ _ (mem_of_findReg hfind)
  · cases h

/-! ### Going through the fields -/

/-- A step at a field that replaces that field by a value of its own, or nothing. -/
def ReplacesOwn (step : Nat → FieldSpec → Nat) : Prop :=
  ∀ f, (∀ cur, step cur f = cur) ∨ ∃ x, ∀ cur, step cur f = withBits cur f.hi f.lo x

section
variable {step : Nat → FieldSpec → Nat} (hstep : ReplacesOwn step)
include hstep

/-- A step at another field leaves a field as it was. -/
theorem ReplacesOwn.apart {f g : FieldSpec} (cur : Nat) (hg : g.lo ≤ g.hi) (h : g.Apart f) :
    bitsOf (step cur g) f.hi f.lo = bitsOf cur f.hi f.lo := by
  rcases hstep g with hid | ⟨x, hx⟩
  · rw [hid]
  · rw [hx]
    rcases h with h | h
    · exact bitsOf_withBits_above _ _ _ _ _ _ (by omega) h
    · exact bitsOf_withBits_below _ _ _ _ _ _ (by omega) h

/-- What a step leaves in its field depends on what the field held alone. -/
theorem ReplacesOwn.congr {f : FieldSpec} {a b : Nat} (hf : f.lo ≤ f.hi) (h : bitsOf a f.hi f.lo = bitsOf b f.hi f.lo) :
    bitsOf (step a f) f.hi f.lo = bitsOf (step b f) f.hi f.lo := by
  rcases hstep f with hid | ⟨x, hx⟩
  · rw [hid, hid, h]
  · rw [hx, hx, bitsOf_withBits_same _ _ _ _ (by omega), bitsOf_withBits_same _ _ _ _ (by omega)]

theorem ReplacesOwn.foldl_apart {f : FieldSpec} {gs : List FieldSpec} (init : Nat) (hgs : ∀ g ∈ gs, g.lo ≤ g.hi ∧ g.Apart f) :
    bitsOf (gs.foldl step init) f.hi f.lo = bitsOf init f.hi f.lo := by
  induction gs generalizing init with
  | nil => rfl
  | cons g gs ih =>
    obtain ⟨⟨hg, hgf⟩, hgs⟩ := List.forall_mem_cons.mp hgs
    rw [List.foldl_cons, ih _ hgs, hstep.apart _ hg hgf]

/-- Each of several fields that share no bit ends as its own step leaves it. -/
theorem ReplacesOwn.foldl_mem {f : FieldSpec} {gs : List FieldSpec} (init : Nat) (hgs : ∀ g ∈ gs, g.lo ≤ g.hi)
    (hapart : gs.Pairwise FieldSpec.Apart) (hf : f ∈ gs) :
    bitsOf (gs.foldl step init) f.hi f.lo = bitsOf (step init f) f.hi f.lo := by
  induction gs generalizing init with
  | nil => cases hf
  | cons g gs ih =>
    obtain ⟨hg, hgs⟩ := List.forall_mem_cons.mp hgs
    obtain ⟨hhead, htail⟩ := List.pairwise_cons.mp hapart
    rw [List.foldl_cons]
    rcases List.mem_cons.mp hf with rfl | hf
    · exact hstep.foldl_apart _ fun g' hg' => ⟨hgs g' (List.mem_cons_of_mem _ hg'), (hhead g' hg').symm⟩
    · rw [ih _ hgs htail hf]
      exact hstep.congr (hgs f hf) (hstep.apart _ hg (hhead f hf))

/-- Each field of a well-laid register ends as its own step leaves it. -/
theorem RegSpec.WellLaid.bitsOf_foldl {r : RegSpec} {f : FieldSpec} (hr : r.WellLaid) (hf : f ∈ r.fields) (init : Nat) :
    bitsOf (r.fields.foldl step init) f.hi f.lo = bitsOf (step init f) f.hi f.lo :=
  hstep.foldl_mem init (fun g hg => (hr.1 g hg).1) hr.2 hf

end

/-! ### The three accesses -/

theorem FieldSpec.replacesOwn_write (closed : Bool) (old v mask : Nat) : ReplacesOwn (fun cur f => f.write closed old v mask cur) := by
  intro f
  cases hacc : f.acc with
  | ro | wo | rc => exact .inl fun cur => by simp [FieldSpec.write, hacc]
  | rw | w1c => exact .inr ⟨_, fun cur => by simp only [FieldSpec.write, hacc]; rfl⟩
  | rws =>
    cases closed with
    | true => exact .inl fun cur => by simp [FieldSpec.write, hacc]
    | false => exact .inr ⟨_, fun cur => by simp only [FieldSpec.write, hacc]; rfl⟩

theorem replacesOwn_readable (v : Nat) :
    ReplacesOwn (fun a f => if f.acc = .wo then a else withBits a f.hi f.lo (bitsOf v f.hi f.lo)) := by
  intro f
  by_cases hacc : f.acc = .wo
  · exact .inl fun cur => if_pos hacc
  · exact .inr ⟨_, fun cur => if_neg hacc⟩

theorem replacesOwn_afterRead (v mask : Nat) :
    ReplacesOwn (fun a f => if f.acc = .rc then
      withBits a f.hi f.lo (bitsOf v f.hi f.lo - Nat.land (bitsOf v f.hi f.lo) (bitsOf mask f.hi f.lo)) else a) := by
  intro f
  by_cases hacc : f.acc = .rc
  · exact .inr ⟨_, fun cur => if_pos hacc⟩
  · exact .inl fun cur => if_neg hacc

section
variable {r : RegSpec} {f : FieldSpec} (hr : r.WellLaid) (hf : f ∈ r.fields)
include hr hf

/-- A write gives a field what the field's own write gives it. -/
theorem RegSpec.bitsOf_write (closed : Bool) (old v mask : Nat) :
    bitsOf (r.write closed old v mask) f.hi f.lo = bitsOf (f.write closed old v mask old) f.hi f.lo :=
  hr.bitsOf_foldl (FieldSpec.replacesOwn_write closed old v mask) hf old

/-- A read shows a WO field as zero and every other as it is (R19). -/
theorem RegSpec.bitsOf_readable (v : Nat) :
    bitsOf (r.readable v) f.hi f.lo = if f.acc = .wo then 0 else bitsOf v f.hi f.lo := by
  rw [RegSpec.readable, hr.bitsOf_foldl (replacesOwn_readable v) hf]
  split
  · exact bitsOf_zero _ _
  · rw [bitsOf_withBits_same _ _ _ _ (by have := hr.1 f hf; omega), bitsOf_mod_width]

/-- A read of every bit clears an RC field and leaves every other as it is (R19, R933). -/
theorem RegSpec.bitsOf_afterRead_ones (v : Nat) :
    bitsOf (r.afterRead v (2 ^ 64 - 1)) f.hi f.lo = if f.acc = .rc then 0 else bitsOf v f.hi f.lo := by
  obtain ⟨hle, h64⟩ := hr.1 f hf
  rw [RegSpec.afterRead, hr.bitsOf_foldl (replacesOwn_afterRead v _) hf]
  split
  · rw [bitsOf_withBits_same _ _ _ _ (by omega), bitsOf_ones _ _ h64, Nat.land_eq, Nat.and_two_pow_sub_one_eq_mod, bitsOf_mod_width,
      Nat.sub_self, Nat.zero_mod]
  · rfl

end

/-! ### The write of one field -/

theorem FieldSpec.write_of_readOnly {f : FieldSpec} (hacc : f.acc = .ro ∨ f.acc = .rc ∨ f.acc = .wo) (closed : Bool) (old v mask cur : Nat) :
    f.write closed old v mask cur = cur := by
  rcases hacc with hacc | hacc | hacc <;> simp [FieldSpec.write, hacc]

section
variable {f : FieldSpec} {mask : Nat} (hmask : bitsOf mask f.hi f.lo = 2 ^ (f.hi + 1 - f.lo) - 1)
include hmask

/-- An RW field that a write covers takes the value written, where its rule takes every value. -/
theorem FieldSpec.write_of_rw (hle : f.lo ≤ f.hi) (hacc : f.acc = .rw) (hrule : f.rule = .any) (closed : Bool) (old v cur : Nat) :
    f.write closed old v mask cur = withBits cur f.hi f.lo (bitsOf v f.hi f.lo) := by
  have hsome : 2 ^ (f.hi + 1 - f.lo) - 1 ≠ 0 := by
    have := Nat.one_lt_two_pow (n := f.hi + 1 - f.lo) (by omega)
    omega
  simp [FieldSpec.write, hacc, hrule, WriteRule.apply, hmask, hsome]

/-- An RWS field that a write covers does the same unless the package is sealed (R22). -/
theorem FieldSpec.write_of_rws (hle : f.lo ≤ f.hi) (hacc : f.acc = .rws) (hrule : f.rule = .any) (closed : Bool) (old v cur : Nat) :
    f.write closed old v mask cur = if closed then cur else withBits cur f.hi f.lo (bitsOf v f.hi f.lo) := by
  have hrw := FieldSpec.write_of_rw (f := { f with acc := .rw }) hmask hle rfl hrule closed old v cur
  simp only [FieldSpec.write, hacc] at hrw ⊢
  rw [hrw]

/-- A W1C field that a write covers loses the bits written as 1. -/
theorem FieldSpec.write_of_w1c (hacc : f.acc = .w1c) (closed : Bool) (old v cur : Nat) :
    f.write closed old v mask cur = withBits cur f.hi f.lo (bitsOf old f.hi f.lo - (bitsOf old f.hi f.lo &&& bitsOf v f.hi f.lo)) := by
  simp [FieldSpec.write, hacc, hmask]

end

/-- A write that covers no bit leaves a field at the value it had. -/
theorem FieldSpec.write_zero (f : FieldSpec) (closed : Bool) (v cur : Nat) : f.write closed cur v 0 cur = cur := by
  cases hacc : f.acc <;> simp [FieldSpec.write, hacc]

/-- A write that covers no bit leaves the register as it was. -/
theorem RegSpec.write_zero (r : RegSpec) (closed : Bool) (old v : Nat) : r.write closed old v 0 = old :=
  List.foldl_fixed' (fun f => f.write_zero closed v old) _

/-- A read that returns no bit leaves the register as it was. -/
theorem RegSpec.afterRead_zero (r : RegSpec) (v : Nat) : r.afterRead v 0 = v :=
  List.foldl_fixed' (fun f => by simp) _

/-- Settles O10: each field of a register of the map ends as its own access code gives it. -/
theorem registerFields : Obligations.RegisterFields := by
  intro off st r f closed old v hat hf _ _
  have hr := wellLaid_of_regAt hat
  obtain ⟨hle, h64⟩ := hr.1 f hf
  have hmask := bitsOf_ones f.hi f.lo h64
  have hsame : ∀ cur x, bitsOf (withBits cur f.hi f.lo x) f.hi f.lo = x % 2 ^ (f.hi + 1 - f.lo) := fun cur x =>
    bitsOf_withBits_same cur _ _ x (by omega)
  simp only [RegSpec.bitsOf_write hr hf]
  refine ⟨fun hacc => ?_, fun hacc hrule => ?_, fun hacc hrule => ?_, fun hacc i => ?_, RegSpec.bitsOf_readable hr hf old,
    RegSpec.bitsOf_afterRead_ones hr hf old, r.write_zero closed old v, r.afterRead_zero old⟩
  · rw [FieldSpec.write_of_readOnly hacc]
  · rw [FieldSpec.write_of_rw hmask hle hacc hrule, hsame, bitsOf_mod_width]
  · rw [FieldSpec.write_of_rws hmask hle hacc hrule]
    cases closed with
    | true => rfl
    | false => exact (hsame _ _).trans (bitsOf_mod_width v _ _)
  · have hlt : bitsOf old f.hi f.lo - (bitsOf old f.hi f.lo &&& bitsOf v f.hi f.lo) < 2 ^ (f.hi + 1 - f.lo) :=
      (Nat.sub_le _ _).trans_lt (bitsOf_lt old _ _)
    rw [FieldSpec.write_of_w1c hmask hacc, hsame, Nat.mod_eq_of_lt hlt, testBit_sub_land]

end Sys2Proof.Machine
end

section
/-! PROOFS. The state after reset, what an access of a reserved offset does, and what the commands REGISTER_WRITE and RC_FIELD_READ come to. -/
namespace Sys2Proof.Machine
open Sys2Proof

/-! ### Reset -/

/-- A register reads its reset value after reset (R18). -/
theorem State.reg_reset (off : Nat) : State.reset.reg off = (regResetAt off).toNat := rfl

theorem State.tile_reset (t : Tile) : State.reset.tile t = {} := Vector.getElem_replicate t.isLt

theorem State.mason_reset (t : Tile) : State.reset.mason t = {} := by rw [State.mason, State.tile_reset]

/-- After reset SEAT_OWN shows no seat: no entry of the seat table is Live (R174). -/
theorem seatOwnShown_reset : seatOwnShown State.reset := by decide +kernel

/-- Settles O4. That memory lists nothing and the general registers read zero is the model's choice (log entries 3, 8 and 181). -/
theorem resetState : Obligations.ResetState := by
  refine ⟨rfl, Memory.wf_reset, rfl, seatOwnShown_reset, rfl, State.reg_reset, fun t => ?_, fun r => ?_⟩
  · rw [State.mason_reset, State.tile_reset]
    exact ⟨rfl, rfl, rfl, rfl⟩
  · rw [State.mreg, State.mason_reset]
    exact ite_self 0

/-! ### Reserved offsets (R16) -/

/-- A 32-bit read of an offset that no register covers, outside the log ring, returns zero. -/
theorem readWord_reserved {off : Nat} (s : State) (hat : regAt off = none)
    (hlog : ¬ (Reg.HOD_STAT + 0x80000 ≤ off ∧ off < Reg.HOD_STAT + 0x100000)) :
    readWord off s = (0, s) := by
  simp [readWord, hat, hlog]

/-- A 32-bit write of an offset that no register covers is ignored. -/
theorem writeWord_reserved {off : Nat} (src : RegSource) (v : Nat) (e : MemEnv) (s : State) (hat : regAt off = none) :
    writeWord src off v e s = s := by
  simp [writeWord, hat]

/-- Settles O11: an access of 8 bytes at an offset that no register covers is two accesses of 4. -/
theorem reservedAddress : Obligations.ReservedAddress := by
  intro off v src e s hat hlog
  refine ⟨readWord_reserved s hat hlog, writeWord_reserved src v e s hat, fun hat' hlog' => ⟨?_, ?_⟩⟩
  · simp [readReg, hat, readWord_reserved s hat hlog, readWord_reserved s hat' hlog']
  · simp [writeReg, hat, writeWord_reserved _ _ _ _ hat, writeWord_reserved _ _ _ _ hat']

/-! ### The two commands -/

theorem exec_registerWrite (src : RegSource) (off : BitVec 32) (wide : Bool) (v : Word) (e : MemEnv) (s : State) :
    exec (.registerWrite src off wide v e) s = execRegisterWrite src off wide v e s := rfl

theorem exec_rcFieldRead (src : RegSource) (off : BitVec 32) (wide : Bool) (s : State) :
    exec (.rcFieldRead src off wide) s = execRcFieldRead src off wide s := rfl

/-- A LOAD that is aligned and answered reads the register. -/
theorem regLoad_of_answers {s : State} {o n : Nat} (hal : regAligned o n = true) (hans : regAnswers s o = true) :
    regLoad o n s = (0x00, readReg o n s) := by
  simp [regLoad, hal, hans]

/-- A STORE that is aligned and answered writes the register. -/
theorem regStore_of_answers {s : State} {o n : Nat} (src : RegSource) (v : Nat) (e : MemEnv) (hal : regAligned o n = true)
    (hans : regAnswers s o = true) : regStore src o n v e s = (0x00, writeReg src o n v e s) := by
  simp [regStore, hal, hans]

/-- A STORE that is not aligned or not answered is told so, and writes nothing. -/
theorem regStore_of_unanswered {s : State} {o n : Nat} (src : RegSource) (v : Nat) (e : MemEnv)
    (h : regAligned o n = false ∨ regAnswers s o = false) : regStore src o n v e s = (0x01, s) := by
  rcases h with h | h <;> simp [regStore, h]

section
variable {off : BitVec 32} {wide : Bool} {n : Nat} (hn : n = if wide then 8 else 4)
include hn

/-- A read that reaches the registers with the right to load, of a register that answers (R16, R19, R722, R723). -/
theorem does_rcFieldRead_of_answers {src : RegSource} {s : State} (hacc : mayAccess s src off.toNat = true)
    (hkey : src = .request → keyGrants s hostWho rightLD 0xA off.toNat n none = true)
    (hal : regAligned off.toNat n = true) (hans : regAnswers s off.toNat = true) :
    Does (.rcFieldRead src off wide) s ((readReg off.toNat n s).2.emit (.regRead off.toNat n (readReg off.toNat n s).1)) := by
  subst hn
  have hright : ¬ (src = .request && !keyGrants s hostWho rightLD 0xA off.toNat (if wide then 8 else 4) none) = true := by
    simpa using hkey
  simp only [Does, exec_rcFieldRead, execRcFieldRead, hacc, hright, regLoad_of_answers hal hans]
  rfl

variable {src : RegSource} {v : Word} {e : MemEnv} {s : State}

/-- A write that reaches the registers with every right: the store is made, and a status other than zero is told. -/
theorem does_registerWrite_of_rights (hacc : mayAccess (memReports e s) src off.toNat = true)
    (hright : src = .request → regStoreRight (memReports e s) hostWho off.toNat n = true ∧ regAdmin (memReports e s) hostWho off.toNat n v.toNat = 0)
    {status : Nat} {t : State} (hstore : regStore src off.toNat n v.toNat e (memReports e s) = (status, t)) :
    Does (.registerWrite src off wide v e) s (if status = 0 then keepRaised off.toNat e s t else t.emit (.hostAnswer 0 status [])) := by
  subst hn
  rw [Does, exec_registerWrite]
  rcases eq_or_ne src .request with rfl | hsrc
  · obtain ⟨hst, hadm⟩ := hright rfl
    simp [execRegisterWrite, hacc, hst, hadm, hstore, ended]
  · simp [execRegisterWrite, hacc, hsrc, hstore, ended]

/-- A write of the host that reaches the registers without the right to store is a key violation (R866, R869). -/
theorem does_registerWrite_of_noRight (hacc : mayAccess (memReports e s) .request off.toNat = true)
    (hright : regStoreRight (memReports e s) hostWho off.toNat n = false) :
    Does (.registerWrite .request off wide v e) s
      ((keyViolation hostWho 0x02 (0xFFFF * 2 ^ 48 + 0xA * 2 ^ 44 + off.toNat) (memReports e s)).emit (.hostAnswer 0 0x02 [])) := by
  subst hn
  rw [Does, exec_registerWrite]
  simp only [execRegisterWrite, hacc, hright]
  rfl

end

/-- Where no register lies, no bit of one is kept. -/
theorem keepRaised_reserved {off : Nat} (e : MemEnv) (s t : State) (hat : regAt off = none) : keepRaised off e s t = t := by
  simp [keepRaised, hat]

/-- Settles O9: what a read and a write come to, by whether the access has its rights and whether the register answers. -/
theorem registerAccess : Obligations.RegisterAccess := by
  intro off wide v e s src
  refine ⟨does_rcFieldRead_of_answers rfl, fun hacc hright hal hans => ⟨?_, fun hat => keepRaised_reserved e s _ hat⟩, fun hsrc hacc hun => ?_,
    does_registerWrite_of_noRight rfl⟩
  · exact does_registerWrite_of_rights rfl hacc hright (regStore_of_answers src v.toNat e hal hans)
  · exact does_registerWrite_of_rights rfl hacc (fun h => absurd h hsrc) (regStore_of_unanswered src v.toNat e hun)

end Sys2Proof.Machine
end

section
/-! PROOFS. The bytes of a flit (R82 to R84) and what passes over the lanes of a port (R74, R75, R79, R80): each format spells what it was made from. -/
namespace Sys2Proof.Machine
open Sys2Proof

/-! ### Flits -/

@[simp] theorem length_leBytes (n v : Nat) : (leBytes n v).length = n := by
  induction n generalizing v with
  | zero => rfl
  | succ n ih => rw [leBytes, List.length_cons, ih]

@[simp] theorem length_padTo (n : Nat) (bs : Bytes) : (padTo n bs).length = n := by
  simp only [padTo, List.length_take, List.length_append, List.length_replicate]
  omega

/-- Bytes of the right number are neither cut nor filled. -/
theorem padTo_of_length {n : Nat} {bs : Bytes} (h : bs.length = n) : padTo n bs = bs := by
  subst h
  simp [padTo]

theorem bit_lt_two (b : Bool) : bit b < 2 := by cases b <;> decide

/-- A flag is read where its bit stands. -/
theorem bitOf_eq_of_bit {v n : Nat} {b : Bool} (h : v / 2 ^ n % 2 = bit b) : bitOf v n = b := by
  rw [bitOf, h]
  cases b <;> rfl

/-- The header fills 20 bytes. -/
theorem flitHeader_lt (f : Flit) : flitHeader f < 256 ^ 20 := by
  have hav := bit_lt_two f.av
  have hnak := bit_lt_two f.nak
  simp only [flitHeader]
  omega

/-- Each field of the header, reserved bits among them, stands at the bits that R84 gives it. -/
theorem flitHeader_fields (f : Flit) :
    bitsOf (flitHeader f) 3 0 = f.typ.toNat ∧ bitsOf (flitHeader f) 7 4 = f.rsv0.toNat ∧ bitsOf (flitHeader f) 19 8 = f.fsn.toNat ∧
    bitsOf (flitHeader f) 31 20 = f.ack.toNat ∧ bitOf (flitHeader f) 32 = f.av ∧ bitOf (flitHeader f) 33 = f.nak ∧
    bitsOf (flitHeader f) 35 34 = f.rsv1.toNat ∧ bitsOf (flitHeader f) 38 36 = f.vc.toNat ∧ bitsOf (flitHeader f) 43 39 = f.fill.toNat ∧
    bitsOf (flitHeader f) 48 44 = f.first.toNat ∧ bitsOf (flitHeader f) 63 49 = f.rsv2.toNat ∧ bitsOf (flitHeader f) 95 64 = f.cra.toNat ∧
    bitsOf (flitHeader f) 127 96 = f.crb.toNat ∧ bitsOf (flitHeader f) 159 128 = f.rsv3.toNat := by
  have hav := bit_lt_two f.av
  have hnak := bit_lt_two f.nak
  refine ⟨?_, ?_, ?_, ?_, bitOf_eq_of_bit ?_, bitOf_eq_of_bit ?_, ?_, ?_, ?_, ?_, ?_, ?_, ?_, ?_⟩ <;> simp only [flitHeader, bitsOf] <;> omega

@[simp] theorem length_flitBytes (f : Flit) : (flitBytes f).length = 256 := by
  simp [flitBytes, flitBody]

section
variable (f : Flit)

theorem flitBytes_header : leNat ((flitBytes f).take 20) = flitHeader f := by
  rw [flitBytes, flitBody, List.append_assoc, List.take_left' (length_leBytes _ _), leNat_leBytes, Nat.mod_eq_of_lt (flitHeader_lt f)]

theorem flitBytes_crc : leNat ((flitBytes f).drop 252 |>.take 4) = f.crc.toNat := by
  have hbody : (flitBody f).length = 252 := by simp [flitBody]
  rw [flitBytes, List.drop_left' hbody, List.take_of_length_le (by simp), leNat_leBytes, Nat.mod_eq_of_lt (by omega)]

variable {f} in
theorem flitBytes_area (harea : f.area.length = 232) : padTo 232 ((flitBytes f).drop 20) = f.area := by
  rw [flitBytes, flitBody, List.append_assoc, List.drop_left' (length_leBytes _ _), padTo_of_length harea, padTo, List.append_assoc,
    List.take_left' harea]

end

/-- Settles O7: the header's fields, the area and the CRC are each read back from their own bytes. -/
theorem flitRoundTrip : Obligations.FlitRoundTrip := by
  intro f harea
  refine ⟨?_, length_flitBytes f⟩
  obtain ⟨htyp, hrsv0, hfsn, hack, hav, hnak, hrsv1, hvc, hfill, hfirst, hrsv2, hcra, hcrb, hrsv3⟩ := flitHeader_fields f
  simp only [flitOf, flitBytes_header, flitBytes_area harea, flitBytes_crc, htyp, hrsv0, hfsn, hack, hav, hnak, hrsv1, hvc, hfill, hfirst, hrsv2,
    hcra, hcrb, hrsv3, BitVec.ofNat_toNat, BitVec.setWidth_eq]

/-! ### PAM4 levels -/

/-- Gray coding loses neither bit of a level. -/
theorem levelBits_grayLevel {x : Nat} (h : x < 4) : levelBits (grayLevel x) = x := by
  interval_cases x <;> rfl

/-- The levels of bytes spell them (R74). -/
theorem bytesOfLevels_levelsOf (bs : Bytes) : bytesOfLevels (levelsOf bs) = bs := by
  induction bs with
  | nil => rfl
  | cons b bs ih =>
    have hpair (hi lo : Nat) (h : hi + 1 - lo = 2) : levelBits (grayLevel (bitsOf b.toNat hi lo)) = b.toNat / 2 ^ lo % 4 := by
      rw [levelBits_grayLevel (by simpa [h] using bitsOf_lt b.toNat hi lo), bitsOf, h]
      rfl
    have hbyte : BitVec.ofNat 8 (b.toNat / 2 ^ 0 % 4 + 4 * (b.toNat / 2 ^ 2 % 4) + 16 * (b.toNat / 2 ^ 4 % 4) + 64 * (b.toNat / 2 ^ 6 % 4)) = b := by
      apply BitVec.eq_of_toNat_eq
      rw [BitVec.toNat_ofNat]
      omega
    rw [levelsOf, List.flatMap_cons, ← levelsOf]
    simp only [List.cons_append, List.nil_append, bytesOfLevels, ih]
    rw [hpair 1 0 rfl, hpair 3 2 rfl, hpair 5 4 rfl, hpair 7 6 rfl, hbyte]

/-! ### Stripes -/

/-- One more byte goes to the end of its lane's stripe. -/
theorem stripeOf_concat (w l : Nat) (block : Bytes) (b : Byte) :
    stripeOf w l (block ++ [b]) = stripeOf w l block ++ if block.length % w = l then [b] else [] := by
  simp only [stripeOf, List.zipIdx_append, List.filter_append, List.map_append]
  congr 1
  by_cases h : block.length % w = l <;> simp [h]

/-- A lane's stripe has a byte for each place in the block that is its own. -/
theorem length_stripeOf (w l : Nat) (block : Bytes) : (stripeOf w l block).length = Nat.count (fun k => k % w = l) block.length := by
  induction block using List.reverseRecOn with
  | nil => rfl
  | append_singleton block b ih =>
    rw [stripeOf_concat, List.length_append, ih, List.length_append, List.length_singleton, Nat.count_succ]
    split <;> rfl

/-- When byte k comes, its lane has had k / w bytes. -/
theorem count_own_lane {w : Nat} (hw : 0 < w) (k : Nat) : Nat.count (fun i => i % w = k % w) k = k / w := by
  have := Nat.count_modEq_card k hw (k % w)
  simpa [Nat.ModEq] using this

/-- Byte k of a block is byte k / w of the stripe of its lane. -/
theorem stripeOf_getElem? {w : Nat} (hw : 0 < w) (block : Bytes) (k : Nat) (hk : k < block.length) :
    (stripeOf w (k % w) block)[k / w]? = block[k]? := by
  induction block using List.reverseRecOn with
  | nil => cases hk
  | append_singleton block b ih =>
    rw [List.length_append, List.length_singleton] at hk
    rw [stripeOf_concat]
    rcases Nat.lt_succ_iff_lt_or_eq.mp hk with hlt | rfl
    · have hsome := ih hlt
      rw [List.getElem?_eq_getElem hlt] at hsome
      rw [List.getElem?_append_left (List.getElem?_eq_some_iff.mp hsome).1, hsome, List.getElem?_append_left hlt, List.getElem?_eq_getElem hlt]
    · have hlen : (stripeOf w (block.length % w) block).length = block.length / w := by rw [length_stripeOf, count_own_lane hw]
      simp [← hlen]

/-- The stripes of a block spell it (R74, R75). -/
theorem unstripe_stripeOf {w : Nat} (hw : 0 < w) (block : Bytes) :
    unstripe block.length ((List.range w).map (fun l => stripeOf w l block)) = block := by
  apply List.ext_getElem
  · simp [unstripe]
  · intro k hk hk'
    have hlane : k % w < w := Nat.mod_lt k hw
    simp [unstripe, Nat.max_eq_right hw, hlane, List.getD_eq_getElem?_getD, stripeOf_getElem? hw block k hk', hk']

/-! ### The scrambler -/

/-- The fold of `scrambleByte` at bit `i` of byte `b`, and that of `descrambleByte` at bit `i` of the byte `y` of the line. -/
def scrambleBit (b : Byte) (a : Nat × Nat) (i : Nat) : Nat × Nat :=
  (scrShift a.1 (bitOf b.toNat i != scrTap a.1), a.2 + bit (bitOf b.toNat i != scrTap a.1) * 2 ^ i)
def descrambleBit (y : Byte) (a : Nat × Nat) (i : Nat) : Nat × Nat :=
  (scrShift a.1 (bitOf y.toNat i), a.2 + bit (bitOf y.toNat i != scrTap a.1) * 2 ^ i)

theorem scrambleByte_eq (r : Nat) (b : Byte) :
    scrambleByte r b = (((List.range 8).foldl (scrambleBit b) (r, 0)).1, BitVec.ofNat 8 ((List.range 8).foldl (scrambleBit b) (r, 0)).2) := rfl

theorem descrambleByte_eq (r : Nat) (y : Byte) :
    descrambleByte r y = (((List.range 8).foldl (descrambleBit y) (r, 0)).1, BitVec.ofNat 8 ((List.range 8).foldl (descrambleBit y) (r, 0)).2) := rfl

/-- The low `n + 1` bits of a number are its low `n` bits and bit `n`. -/
theorem mod_two_pow_succ_bit (v n : Nat) : v % 2 ^ (n + 1) = v % 2 ^ n + bit (bitOf v n) * 2 ^ n := by
  rw [Nat.mod_pow_succ, bitOf]
  rcases Nat.mod_two_eq_zero_or_one (v / 2 ^ n) with h | h <;> simp [h, bit]

/-- After `n` bits the scrambled byte has bits below `n` alone. -/
theorem scrambleBit_foldl_lt (r : Nat) (b : Byte) (n : Nat) : ((List.range n).foldl (scrambleBit b) (r, 0)).2 < 2 ^ n := by
  induction n with
  | zero => simp
  | succ n ih =>
    have hbit (x : Bool) : bit x * 2 ^ n ≤ 2 ^ n := by simpa using Nat.mul_le_mul_right (2 ^ n) (Nat.lt_succ_iff.mp (bit_lt_two x))
    rw [List.range_succ, List.foldl_append, pow_succ]
    have := hbit (bitOf b.toNat n != scrTap ((List.range n).foldl (scrambleBit b) (r, 0)).1)
    simp only [List.foldl_cons, List.foldl_nil, scrambleBit]
    omega

theorem bit_inj {x y : Bool} (h : bit x = bit y) : x = y := by revert x y; decide

/-- A descrambler that starts with the scrambler's register follows it bit by bit, and gives back the bits sent. -/
theorem descrambleBit_foldl (r : Nat) (b y : Byte) (n : Nat) (hy : y.toNat % 2 ^ n = ((List.range n).foldl (scrambleBit b) (r, 0)).2) :
    (List.range n).foldl (descrambleBit y) (r, 0) = (((List.range n).foldl (scrambleBit b) (r, 0)).1, b.toNat % 2 ^ n) := by
  induction n with
  | zero => simp [Nat.mod_one]
  | succ n ih =>
    have hlt := scrambleBit_foldl_lt r b n
    simp only [List.range_succ, List.foldl_append, List.foldl_cons, List.foldl_nil] at hy ⊢
    generalize hsent : (List.range n).foldl (scrambleBit b) (r, 0) = sent at hy hlt ih ⊢
    rw [mod_two_pow_succ_bit] at hy
    simp only [scrambleBit] at hy
    have hlow : y.toNat % 2 ^ n = sent.2 := by
      have := congrArg (· % 2 ^ n) hy
      simpa [Nat.mod_eq_of_lt hlt] using this
    have hbit : bitOf y.toNat n = (bitOf b.toNat n != scrTap sent.1) := by
      rw [hlow] at hy
      exact bit_inj (Nat.eq_of_mul_eq_mul_right (by positivity) (Nat.add_left_cancel hy))
    rw [ih hlow, descrambleBit, scrambleBit, hbit, mod_two_pow_succ_bit]
    simp

/-- What was scrambled is descrambled, and both registers end alike. -/
theorem descrambleByte_scrambleByte (r : Nat) (b : Byte) : descrambleByte r (scrambleByte r b).2 = ((scrambleByte r b).1, b) := by
  have hlt := scrambleBit_foldl_lt r b 8
  have hfold := descrambleBit_foldl r b (scrambleByte r b).2 8 (by rw [scrambleByte_eq, BitVec.toNat_ofNat]; omega)
  rw [descrambleByte_eq, hfold, Nat.mod_eq_of_lt b.isLt, BitVec.ofNat_toNat, BitVec.setWidth_eq, scrambleByte_eq]

/-! ### Alignment markers -/

@[simp] theorem length_alignMarker (lane : Nat) : (alignMarker lane).length = 16 := by simp [alignMarker]

/-- A receiver drops exactly what a sender puts before a byte that falls due. -/
theorem drop_dueMarker (due : Bool) (lane : Nat) (ys : Bytes) :
    (if due then ((if due then alignMarker lane else []) ++ ys).drop 16 else (if due then alignMarker lane else []) ++ ys) = ys := by
  cases due with
  | true => exact List.drop_left' (length_alignMarker lane)
  | false => rfl

/-- A lane that starts with the sender's scrambler and marker count gives back the bytes sent (R74, R79). -/
theorem laneIn_laneOut (lane r n : Nat) (bs : Bytes) :
    laneIn bs.length r n (laneOut lane r n bs).2.2 = ((laneOut lane r n bs).1, (laneOut lane r n bs).2.1, bs) := by
  induction bs generalizing r n with
  | nil => rfl
  | cons b bs ih =>
    have hstep := ih (scrambleByte r b).1 (if decide (markEvery ≤ n) then 1 else n + 1)
    rw [List.length_cons, laneIn, laneOut]
    simp only [drop_dueMarker, descrambleByte_scrambleByte, hstep]

/-- Settles O59, part by part: the stripes, the levels, and a lane's scrambler and markers. -/
theorem laneRoundTrip : Obligations.LaneRoundTrip :=
  ⟨fun _ block hw => unstripe_stripeOf hw block, bytesOfLevels_levelsOf, laneIn_laneOut⟩

end Sys2Proof.Machine
end

section
/-! PROOFS. Flits that arrive, the replay, and a link that goes down (R74, R81, R94 to R98, R132 to R138). -/
namespace Sys2Proof.Machine
open Sys2Proof

/-! ### What each command of this family calls -/

theorem exec_flitReceive (l : LinkId) (a : Arrival) (s : State) : exec (.flitReceive l a) s = execFlitReceive l a s := rfl
theorem exec_nakReceive (l : LinkId) (s : State) : exec (.nakReceive l) s = execNakReceive l s := rfl
theorem exec_acktmrExpiry (l : LinkId) (s : State) : exec (.acktmrExpiry l) s = execAcktmrExpiry l s := rfl
theorem exec_tlimitExpiry (l : LinkId) (s : State) : exec (.tlimitExpiry l) s = execTlimitExpiry l s := rfl
theorem exec_downReceive (l : LinkId) (s : State) : exec (.downReceive l) s = execDownReceive l s := rfl
theorem exec_lossOfLock (p : Port) (lanes : BitVec 8) (s : State) : exec (.lossOfLock p lanes) s = execLossOfLock p lanes s := rfl

/-! ### Flits that arrive -/

section
variable {l : LinkId} {bs : Bytes} {s : State}

/-- A flit that passed FEC and whose CRC is right is taken. -/
theorem flitArrives_of_sealed (h : flitOf bs = flitSeal (flitOf bs)) : flitArrives l true bs s = takeFlit l (flitOf bs) s := by
  rw [flitArrives]
  exact if_pos (by simpa using h)

/-- A data flit that FEC or its CRC fails is counted, and asked for again. -/
theorem flitArrives_of_failed {fec : Bool} (hfail : fec = true → flitOf bs ≠ flitSeal (flitOf bs)) (htyp : (flitOf bs).typ = 1) :
    flitArrives l fec bs s =
      let t := (s.flag (if fec then perrCrc l else perrFec l)).count (pcntFailed l) 1
      askReplay l (decide ((flitOf bs).fsn.toNat = (t.link l).expected)) t := by
  have hcond : ¬ (fec && decide (flitOf bs = flitSeal (flitOf bs))) = true := by simpa using hfail
  rw [flitArrives]
  simp [hcond, htyp]

/-- A data flit in order, without ACK and NAK, is accepted, and with it those that a bridge holds for it. -/
theorem takeFlit_of_expected {f : Flit} (htyp : f.typ = 1) (hav : f.av = false) (hnak : f.nak = false)
    (hfsn : f.fsn.toNat = (s.link l).expected) : takeFlit l f s = acceptAhead l (spread s l) (acceptFlit l f s) := by
  simp [takeFlit, htyp, hav, hnak, hfsn]

end

/-- A bridge that is up takes a flit from a module that works. -/
theorem does_flitReceive_module {b : Brick} {q : Fin 3} {m : Fin 18} {s : State} (flit : Bytes) (hup : (s.link (.bridge b q)).bridgeUp = true)
    (hgood : (goodModules s b q).contains m.val = true) :
    Does (.flitReceive (.bridge b q) (.module m flit)) s (flitArrives (.bridge b q) true (padTo 256 flit) s) := by
  simp only [Does, exec_flitReceive, execFlitReceive, hup, hgood]
  rfl

/-- A port in Verify or Active takes a wire block from its lanes. -/
theorem does_flitReceive_lanes {p : Port} {s : State} (levels : List (List Level)) (hlo : 7 ≤ s.portState p) (hhi : s.portState p ≤ 8) :
    Does (.flitReceive (.port p) (.lanes levels)) s (blockArrives p levels s) := by
  simp only [Does, exec_flitReceive, execFlitReceive, hlo, hhi]
  rfl

/-- A wire block that FEC corrects: the bytes corrected are counted. -/
theorem blockArrives_of_decoded {p : Port} {levels : List (List Level)} {s : State} {bs : Bytes} {fixed : List Nat}
    (h : fecDecode (takeBlock p levels s).1 = some (bs, fixed)) :
    blockArrives p levels s =
      flitArrives (.port p) true bs (countLanes p fixed ((takeBlock p levels s).2.count (pcntCorr (.port p)) fixed.length)) := by
  simp only [blockArrives, h]

/-- A wire block that FEC does not correct arrives as it came. -/
theorem blockArrives_of_undecoded {p : Port} {levels : List (List Level)} {s : State} (h : fecDecode (takeBlock p levels s).1 = none) :
    blockArrives p levels s = flitArrives (.port p) false (takeBlock p levels s).1 (takeBlock p levels s).2 := by
  simp only [blockArrives, h]

/-! ### Replay -/

theorem does_nakReceive {l : LinkId} {s : State} (h : (s.link l).nakGot = true) :
    Does (.nakReceive l) s (replayAll l (s.onLink l (fun L => { L with nakGot := false }))) := by
  simp only [Does, exec_nakReceive, execNakReceive, h]
  rfl

theorem does_acktmrExpiry (l : LinkId) (s : State) :
    Does (.acktmrExpiry l) s (replayAll l (s.onLink l (fun L => { L with nakOut := false }))) := by
  rw [Does, exec_acktmrExpiry]
  rfl

/-- A replay that MAXREPLAY allows sends every flit kept again, in order (R96, R97). -/
theorem replayAll_of_allowed {l : LinkId} {s : State} {f : Flit} {fs : List Flit} (hkept : (s.link l).replay = f :: fs)
    (hmax : ((s.link l).episode.getD { oldest := f.fsn.toNat, replays := 0 }).replays < (s.link l).maxReplay) :
    replayAll l s = (((s.onLink l (fun L => { L with
        episode := some { (s.link l).episode.getD { oldest := f.fsn.toNat, replays := 0 } with
          replays := ((s.link l).episode.getD { oldest := f.fsn.toNat, replays := 0 }).replays + 1 }, nakGot := false })).flag (perrReplay l)).count
      (pcntReplays l) 1).each (f :: fs) (fun s f => putWire l f s) := by
  simp [replayAll, hkept, Nat.not_le.mpr hmax]

theorem does_tlimitExpiry {l : LinkId} {s : State} (h : (s.link l).episode.isSome = true) : Does (.tlimitExpiry l) s (linkDown l 1 s) := by
  simp only [Does, exec_tlimitExpiry, execTlimitExpiry, h]
  rfl

/-! ### The commands that take a link down -/

theorem does_downReceive {l : LinkId} {s t : State} {m : Nat × Bytes} (h : takeMessage l 4 s = some (m, t)) :
    Does (.downReceive l) s (linkDown l 3 t) := by
  simp only [Does, exec_downReceive, execDownReceive, h]
  rfl

/-- A port in training or Active that loses every live lane goes down (R135). -/
theorem does_lossOfLock_of_all {p : Port} {lanes : BitVec 8} {s : State} (hlo : 2 ≤ s.portState p) (hhi : s.portState p ≤ 8)
    (hlive : s.rd (Reg.MRT_PSTAT_RXLIVE p) ≠ 0)
    (hall : Nat.land (s.rd (Reg.MRT_PSTAT_RXLIVE p)) lanes.toNat = s.rd (Reg.MRT_PSTAT_RXLIVE p)) :
    Does (.lossOfLock p lanes) s (linkDown (.port p) 2 s) := by
  have hacts : ¬ (decide (s.rd (Reg.MRT_PSTAT_RXLIVE p) = 0) || decide (s.portState p < 2) || decide (8 < s.portState p)) = true := by
    simp only [Bool.or_eq_true, decide_eq_true_eq]
    omega
  simp only [Does, exec_lossOfLock, execLossOfLock, hall, hacts]
  rfl

/-! ### What the sending of flits leaves alone -/

/-- From `s` to `t` the ends of links, their points, the bricks' packets and what left the package may have changed, and nothing else. -/
def TrafficOnly (s t : State) : Prop :=
  ∃ ports bridges points bricks out, t = { s with ports := ports, bridges := bridges, points := points, bricks := bricks, out := out }

theorem TrafficOnly.refl (s : State) : TrafficOnly s s := ⟨_, _, _, _, _, rfl⟩

theorem TrafficOnly.trans {s t u : State} (hst : TrafficOnly s t) (htu : TrafficOnly t u) : TrafficOnly s u := by
  obtain ⟨_, _, _, _, _, rfl⟩ := hst
  obtain ⟨_, _, _, _, _, rfl⟩ := htu
  exact ⟨_, _, _, _, _, rfl⟩

section
variable {s t : State} (h : TrafficOnly s t)
include h

theorem TrafficOnly.rd (g : FieldRef) : t.rd g = s.rd g := by
  obtain ⟨_, _, _, _, _, rfl⟩ := h
  rfl

theorem TrafficOnly.events : t.events = s.events := by
  obtain ⟨_, _, _, _, _, rfl⟩ := h
  rfl

end

section
variable {s t : State} (h : TrafficOnly s t)
include h

theorem TrafficOnly.onLink (l : LinkId) (f : Link → Link) : TrafficOnly s (t.onLink l f) :=
  h.trans (by cases l <;> exact ⟨_, _, _, _, _, rfl⟩)

theorem TrafficOnly.onBrick (b : Brick) (f : BrickState → BrickState) : TrafficOnly s (t.onBrick b f) := h.trans ⟨_, _, _, _, _, rfl⟩

theorem TrafficOnly.emit (o : Output) : TrafficOnly s (t.emit o) := h.trans ⟨_, _, _, _, _, rfl⟩

end

theorem sendBlock_trafficOnly (p : Port) (block : Bytes) (s : State) : TrafficOnly s (sendBlock p block s) := by
  rw [sendBlock]
  split
  · exact .refl s
  · exact ((TrafficOnly.refl s).onLink _ _).emit _

theorem putWire_trafficOnly (l : LinkId) (f : Flit) (s : State) : TrafficOnly s (putWire l f s) := by
  cases l with
  | port p => exact sendBlock_trafficOnly p _ s
  | bridge b q =>
    rw [putWire]
    split
    · exact ((TrafficOnly.refl s).onLink _ _).emit _
    · exact .refl s

theorem sendFlit_trafficOnly (l : LinkId) (typ vc fill first : Nat) (nak : Bool) (area : Bytes) (s : State) :
    TrafficOnly s (sendFlit l typ vc fill first nak area s) := by
  rw [sendFlit]
  exact (putWire_trafficOnly l _ s).onLink _ _

theorem sendControl_trafficOnly (l : LinkId) (typ : Nat) (area : Bytes) (s : State) : TrafficOnly s (sendControl l typ area s) :=
  sendFlit_trafficOnly l typ 0 29 0x1F false area s

theorem sendWords_trafficOnly (p : Port) (s : State) : TrafficOnly s (sendWords p s) := by
  rw [sendWords]
  exact ((TrafficOnly.refl s).onLink _ _).emit _

theorem handBack_trafficOnly (l : LinkId) (s : State) : TrafficOnly s (handBack l s) := by
  rw [handBack.eq_def]
  have h (f : Link → Link) (g : BrickState → BrickState) : TrafficOnly s ((s.onLink l f).onBrick (linkBrick l) g) :=
    ((TrafficOnly.refl s).onLink l f).onBrick _ g
  cases l with
  | port p => exact h _ _
  | bridge b q => exact (h _ _).onBrick _ _

/-! ### The start of a training -/

/-- A port's link end as a training finds it: fresh, with what a fast one keeps of the last (R103, R136). -/
def trainingLink (p : Port) (fast : Bool) (s : State) (L : Link) : Link :=
  let T := (s.link (.port p)).training
  { L.fresh with
    training := { fast := fast, portRec := s.sheetRec p, txPresent := if fast then T.txPresent else 0xFF,
                  excludedRx := if fast then T.excludedRx else 0, excludedOwn := if fast then T.excludedOwn else 0,
                  eqOut := if fast then T.eqOut else [], eqDone := fast } }

/-- A port whose training begins, before it enters its first state: nothing is read of the lanes yet, and the settings are loaded. -/
def trainingBegun (p : Port) (fast : Bool) (s : State) : State :=
  let widths := ((s.onLink (.port p) (trainingLink p fast s)).wr (Reg.MRT_PSTAT_RXW p) 0).wr (Reg.MRT_PSTAT_TXW p) 0
  let live := (widths.wr (Reg.MRT_PSTAT_RXLIVE p) 0).wr (Reg.MRT_PSTAT_TXLIVE p) 0
  loadSettings (.port p) ((live.wr (Reg.MRT_PSTAT_RXPOL p) 0).wr (Reg.MRT_PSTAT_RXREV p) 0)

/-- The states of a training begin at Detect, and of a fast one at Lock; in a safe state none begins (R103, R136, R859, R860). -/
theorem startTraining_eq (p : Port) (fast : Bool) (s : State) :
    startTraining p fast s = if brickSafe s (portBrick p) then s else
      if fast then enterState p 2 (trainingBegun p fast s) else (trainingBegun p fast s).toPortState p 1 := rfl

/-! ### A field that stays, and events that are not forgotten -/

/-- From `s` to `t` the field `g` has kept its value and no event raised has gone. -/
def Keeps (g : FieldRef) (s t : State) : Prop := t.rd g = s.rd g ∧ s.events ⊆ t.events

section
variable {g : FieldRef} {s t u : State}

theorem Keeps.refl (s : State) : Keeps g s s := ⟨rfl, List.Subset.refl _⟩

theorem Keeps.trans (h : Keeps g s t) (htu : Keeps g t u) : Keeps g s u := ⟨htu.1.trans h.1, List.Subset.trans h.2 htu.2⟩

theorem Keeps.traffic (h : Keeps g s t) (htu : TrafficOnly t u) : Keeps g s u := h.trans ⟨htu.rd g, htu.events ▸ List.Subset.refl _⟩

theorem Keeps.raise (h : Keeps g s t) (code : Nat) (args : List Nat) : Keeps g s (t.raise code args) :=
  h.trans ⟨rfl, List.subset_append_left _ _⟩

theorem Keeps.onLink (h : Keeps g s t) (l : LinkId) (f : Link → Link) : Keeps g s (t.onLink l f) := h.traffic ((TrafficOnly.refl t).onLink l f)

/-- A write of another register. -/
theorem Keeps.wr {f : FieldRef} (h : Keeps g s t) (hreg : g.reg ≠ f.reg) (v : Nat) : Keeps g s (t.wr f v) :=
  h.trans ⟨t.rd_wr_other f g v hreg, List.Subset.refl _⟩

/-- A write of a field of the same register that shares no bit with it. -/
theorem Keeps.wr_apart {f : FieldRef} (h : Keeps g s t) (hreg : g.reg = f.reg) (hf : f.lo ≤ f.hi + 1) (h64 : g.hi < 64)
    (hapart : g.hi < f.lo ∨ f.hi < g.lo) (v : Nat) : Keeps g s (t.wr f v) :=
  h.trans ⟨t.rd_wr_apart f g v hreg hf h64 hapart, List.Subset.refl _⟩

theorem Keeps.loadSettings (h : Keeps g s t) (l : LinkId) : Keeps g s (loadSettings l t) := by
  rw [Machine.loadSettings]
  split
  · exact h.onLink _ _
  · exact (h.onLink _ _).raise _ _

theorem Keeps.trainingBegun {p : Port} (hstat : g.reg ≠ Reg.MRT_PSTAT p) (h : Keeps g s t) (fast : Bool) :
    Keeps g s (trainingBegun p fast t) := by
  have hlink := h.onLink (.port p) (trainingLink p fast t)
  have hwidths := (hlink.wr (f := Reg.MRT_PSTAT_RXW p) hstat 0).wr (f := Reg.MRT_PSTAT_TXW p) hstat 0
  have hlive := (hwidths.wr (f := Reg.MRT_PSTAT_RXLIVE p) hstat 0).wr (f := Reg.MRT_PSTAT_TXLIVE p) hstat 0
  exact ((hlive.wr (f := Reg.MRT_PSTAT_RXPOL p) hstat 0).wr (f := Reg.MRT_PSTAT_RXREV p) hstat 0).loadSettings (.port p)

section
variable {p : Port} (hdelta : g.reg ≠ Reg.PLB_PDELTA p) (hstat : g.reg ≠ Reg.MRT_PSTAT p)
include hdelta hstat

theorem Keeps.toPortState (h : Keeps g s t) (st : Nat) : Keeps g s (t.toPortState p st) := by
  rw [State.toPortState]
  split
  · exact (h.wr hdelta _).wr hstat _
  · exact h.wr hstat _

theorem Keeps.enterState (h : Keeps g s t) (st : Nat) : Keeps g s (enterState p st t) := by
  rw [Machine.enterState]
  have hin := (h.toPortState hdelta hstat st).onLink (.port p) (fun L => { L with training := { L.training with words := 0 } })
  split
  · exact hin.traffic (sendWords_trafficOnly _ _)
  · exact hin.onLink _ _

theorem Keeps.startTraining (h : Keeps g s t) (fast : Bool) : Keeps g s (startTraining p fast t) := by
  have hbegun := h.trainingBegun hstat fast
  rw [startTraining_eq]
  split
  · exact h
  · split
    · exact hbegun.enterState hdelta hstat 2
    · exact hbegun.toPortState hdelta hstat 1

end

end

/-! ### A link that goes down -/

theorem portReg_ne {a b : Nat} (p : Nat) (h : a ≠ b) : portReg p a ≠ portReg p b := by
  simp only [portReg, brickReg]
  omega

theorem linkReg_ne {a b : Nat} (l : LinkId) (h : a ≠ b) : linkReg l a ≠ linkReg l b := by
  cases l with
  | port p => exact portReg_ne p h
  | bridge b q =>
    simp only [linkReg, bridgeReg, brickReg]
    omega

/-- A link end whose down is recorded and told, before its partner hears of it: the reason, the counters, DOWN and event 0x1002 (R132, R134). -/
def downTold (l : LinkId) (reason : Nat) (s : State) : State :=
  let s := match l with
    | .port p => (fillBuckets (pointOf l) s).wr (Reg.MRT_PSTAT_WHY p) reason
    | .bridge _ _ => fillBuckets (pointOf l) s
  ((s.flag (perrDown l)).count (pcntDowns l) 1).raise 0x1002 [linkNo l, reason]

theorem settleDown_eq (l : LinkId) (reason : Nat) (s : State) :
    settleDown l reason s =
      let t := sendControl l 3 [0x04, BitVec.ofNat 8 reason] (downTold l reason s)
      handBack l (t.onLink l (fun L => { L.fresh with bridgeUp := false, downs := L.downs ++ [t.now] })) := by
  cases l <;> rfl

theorem settleDown_trafficOnly (l : LinkId) (reason : Nat) (s : State) : TrafficOnly (downTold l reason s) (settleDown l reason s) := by
  rw [settleDown_eq]
  exact ((sendControl_trafficOnly _ _ _ _).onLink _ _).trans (handBack_trafficOnly _ _)

/-- The part that every link down has in common sets DOWN and raises event 0x1002 with the reason (R134). -/
theorem settleDown_tells (l : LinkId) (reason : Nat) (s : State) :
    (settleDown l reason s).rd (perrDown l) = 1 ∧ ∃ x ∈ (settleDown l reason s).events, x.code = 0x1002 ∧ x.args = [linkNo l, reason] := by
  have htraffic := settleDown_trafficOnly l reason s
  rw [htraffic.rd, htraffic.events, downTold.eq_def]
  constructor
  · rw [State.raise_rd, State.count, State.rd_wr_other _ _ _ _ (linkReg_ne l (by decide)), State.rd_flag_same _ _ rfl (by simp [perrDown])]
  · exact ⟨_, List.mem_append_right _ (List.mem_singleton_self _), rfl, rfl⟩

/-- What follows on it takes neither back. -/
theorem linkDown_keeps (l : LinkId) (reason : Nat) (s : State) : Keeps (perrDown l) (settleDown l reason s) (linkDown l reason s) := by
  cases l with
  | bridge b q => exact .refl _
  | port p =>
    have hstat : (perrDown (.port p)).reg ≠ Reg.MRT_PSTAT p := portReg_ne p (by decide)
    have hdelta : (perrDown (.port p)).reg ≠ Reg.PLB_PDELTA p := by
      simp only [perrDown, linkReg, portReg, brickReg, Reg.PLB_PDELTA, pkgReg]
      omega
    have hdown := (Keeps.refl (settleDown (.port p) reason s)).toPortState hdelta hstat 9
    rw [linkDown, holdOr]
    split
    · exact ((hdown.wr_apart (f := Reg.MRT_PERR_HELD p) rfl (by simp [Reg.MRT_PERR_HELD]) (by simp [perrDown])
        (by simp [perrDown, Reg.MRT_PERR_HELD]) 1).toPortState hdelta hstat 0xA).raise _ _
    · exact hdown.startTraining hdelta hstat _

/-- Settles O19. That a flit which fails is classed by its own TYPE and FSN is the model's choice (log entry 199). -/
theorem flitsAndReplay : Obligations.FlitsAndReplay := by
  intro l s f
  refine ⟨?bridge, ?lanes, takeFlit_of_expected, does_nakReceive, does_acktmrExpiry l s, ?replay, does_tlimitExpiry, fun reason => ?down,
    fun m t => does_downReceive, fun p lanes => does_lossOfLock_of_all⟩
  case bridge =>
    rintro b q m flit rfl hup hgood rfl
    have hdoes := does_flitReceive_module flit hup hgood
    refine ⟨fun hsealed => ?_, fun hfail htyp => ?_⟩
    · rwa [flitArrives_of_sealed hsealed] at hdoes
    · rwa [flitArrives_of_failed (fun _ => hfail) htyp] at hdoes
  case lanes =>
    rintro p levels rfl hlo hhi
    have hdoes := does_flitReceive_lanes levels hlo hhi
    refine ⟨fun bs fixed hdec hsealed => ?_, fun hdec htyp => ?_⟩
    · rwa [blockArrives_of_decoded hdec, flitArrives_of_sealed hsealed] at hdoes
    · rwa [blockArrives_of_undecoded hdec, flitArrives_of_failed (by simp) htyp] at hdoes
  case replay =>
    rintro fs e hkept rfl hmax
    exact replayAll_of_allowed hkept hmax
  case down =>
    obtain ⟨hrd, x, hx, hevent⟩ := settleDown_tells l reason s
    obtain ⟨hsame, hkept⟩ := linkDown_keeps l reason s
    refine ⟨?_, x, hkept hx, hevent⟩
    rw [State.isSet, hsame, hrd]
    rfl

end Sys2Proof.Machine
end

section
/-! PROOFS. The control messages of a link (R88, R91, R828), the grants of an arbitration point (R421 to R432) and its windows (R436). -/
namespace Sys2Proof.Machine
open Sys2Proof

theorem exec_credinitReceive (l : LinkId) (s : State) : exec (.credinitReceive l) s = execCredinitReceive l s := rfl
theorem exec_tsreqReceive (l : LinkId) (s : State) : exec (.tsreqReceive l) s = execTsreqReceive l s := rfl
theorem exec_tsrspReceive (p : Port) (s : State) : exec (.tsrspReceive p) s = execTsrspReceive p s := rfl
theorem exec_labelGrant (pt : Fin 58) (rs rivals : List LabelReq) (s : State) : exec (.labelGrant pt rs rivals) s = execLabelGrant pt rs rivals s := rfl
theorem exec_labelWindowStart (pt : Fin 58) (s : State) : exec (.labelWindowStart pt) s = execLabelWindowStart pt s := rfl

/-! ### Control messages -/

theorem does_credinitReceive {l : LinkId} {s t : State} {m : Nat × Bytes} (h : takeMessage l 3 s = some (m, t)) :
    Does (.credinitReceive l) s (t.onLink l (fun L => { L with
      credits := (List.range 8).map (fun v => leNat ((m.2.drop (8 + 2 * v)).take 2)), training := { L.training with credGot := true } })) := by
  simp only [Does, exec_credinitReceive, execCredinitReceive, h]
  rfl

theorem does_tsreqReceive {l : LinkId} {s t : State} {m : Nat × Bytes} (h : takeMessage l 1 s = some (m, t)) (hroom : replayFull s l = false) :
    Does (.tsreqReceive l) s
      (sendControl l 3 ([0x02] ++ List.replicate 7 0 ++ (m.2.drop 8).take 8 ++ leBytes 8 m.1 ++ leBytes 8 t.plumb.toNat) t) := by
  simp only [Does, exec_tsreqReceive, execTsreqReceive, h, hroom]
  rfl

/-- The first TSRSP of an Active port: the round trip is the time from t1 to t4 less the partner's from t2 to t3 (R828). -/
theorem does_tsrspReceive_first {p : Port} {s t : State} {m : Nat × Bytes} {t1 t2 t3 : Nat} (h : takeMessage (.port p) 2 s = some (m, t))
    (h1 : leNat ((m.2.drop 8).take 8) = t1) (h2 : leNat ((m.2.drop 16).take 8) = t2) (h3 : leNat ((m.2.drop 24).take 8) = t3)
    (h23 : t2 ≤ t3) (hfirst : (t.link (.port p)).training.exchanges = 0) (hactive : t.portState p = 8) :
    Does (.tsrspReceive p) s (t.onLink (.port p) (fun L => { L with training := { L.training with
      exchanges := 1, rtt := (m.1 - t1) - (t3 - t2), theta := half (((t2 : Int) - t1) - ((m.1 : Int) - t3)) } })) := by
  have hrtt : (((m.1 : Int) - t1) - ((t3 : Int) - t2)).toNat = (m.1 - t1) - (t3 - t2) := by omega
  have hstays (f : Link → Link) : (t.onLink (.port p) f).portState p = 8 := hactive
  simp only [Does, exec_tsrspReceive, execTsrspReceive, h, h1, h2, h3, hfirst, hrtt, hstays]
  rfl

/-! ### The choice of a label -/

theorem bestLabel_of_none {rank : Nat → Option (Candidate × Nat)} {ls : List Nat} (h : ∀ l ∈ ls, rank l = none) : bestLabel rank ls = none := by
  induction ls with
  | nil => rfl
  | cons l ls ih =>
    obtain ⟨hl, hls⟩ := List.forall_mem_cons.mp h
    rw [bestLabel, hl, ih hls]

/-- Where one label alone puts something forward, that is the choice. -/
theorem bestLabel_of_one {rank : Nat → Option (Candidate × Nat)} {l : Nat} {x : Candidate × Nat} (hl : rank l = some x)
    (hother : ∀ k, k ≠ l → rank k = none) {ls : List Nat} (hmem : l ∈ ls) : bestLabel rank ls = some x := by
  induction ls with
  | nil => cases hmem
  | cons k ls ih =>
    rw [bestLabel]
    by_cases hrest : l ∈ ls
    · rw [ih hrest]
      rcases eq_or_ne k l with rfl | hk
      · simp [hl]
      · rw [hother k hk]
    · obtain rfl : l = k := (List.mem_cons.mp hmem).resolve_right hrest
      rw [hl, bestLabel_of_none fun k hk => hother k (ne_of_mem_of_not_mem hk hrest)]

/-- Every label has its turn in a tie (R428). -/
theorem mem_tieOrder (last : Nat) {l : Nat} (h : l < 16) : l ∈ tieOrder last :=
  List.mem_map.mpr ⟨(l + 15 - last % 16) % 16, List.mem_range.mpr (by omega), by omega⟩

theorem rankAll_nil (s : State) (pt : Fin 58) (raise : Candidate → Option Nat) (lbl : Nat) : rankAll s pt raise [] lbl = none := rfl

/-! ### A grant at a link's point -/

theorem does_labelGrant_link {pt : Fin 58} {l : LinkId} {s : State} (rs rivals : List LabelReq) (hl : pointLink pt = some l)
    (hstill : pointStill s pt = false) : Does (.labelGrant pt rs rivals) s (grantLink pt l (rollWindow pt (fillBuckets pt s))) := by
  simp only [Does, exec_labelGrant, execLabelGrant, hstill, hl]
  rfl

/-- With nothing to send a null flit goes out (R93). -/
theorem grantLink_of_empty {l : LinkId} {s : State} (pt : Fin 58) (h : (s.link l).queue = []) : grantLink pt l s = sendNull l false s := by
  have hnone : linkCandidates s l = [] := by simp [linkCandidates, h]
  simp only [grantLink, hnone, List.map_nil, bestLabel_of_none fun l _ => rankAll_nil s pt _ l]

theorem grantLink_of_best {pt : Fin 58} {l : LinkId} {s : State} {c : Candidate} {n : Nat} {x : Queued × Candidate}
    (hbest : bestLabel (rankAll s pt (fun _ => none) ((linkCandidates s l).map (fun e => e.2))) (tieOrder s.points[pt].last) = some (c, n))
    (hfind : (linkCandidates s l).find? (fun e => e.2 = c) = some x) :
    grantLink pt l s = transmit l x.1
      (onGrant pt c.lbl c.age c.size (writeSteps pt (rankAll s pt (fun _ => none) ((linkCandidates s l).map (fun e => e.2))) s)) := by
  simp only [grantLink, hbest, hfind]

/-! ### Registers and lists of changes -/

/-- SEAT_OWN apart, the end of a command leaves the registers as they are. -/
theorem State.done_rd_other (s t : State) {g : FieldRef} (h : g.reg ≠ Reg.SEAT_OWN) : (s.done t).rd g = t.rd g := by
  rw [State.done_rd, State.settle, State.rd, State.reg_setReg_other _ _ _ _ h, State.rd]

section
variable {α : Type} {g : FieldRef} {f : State → α → State}

theorem State.each_rd {xs : List α} (s : State) (h : ∀ s, ∀ x ∈ xs, (f s x).rd g = s.rd g) : (s.each xs f).rd g = s.rd g := by
  induction xs generalizing s with
  | nil => rfl
  | cons x xs ih =>
    obtain ⟨hx, hxs⟩ : (∀ s, (f s x).rd g = s.rd g) ∧ ∀ s, ∀ y ∈ xs, (f s y).rd g = s.rd g :=
      ⟨fun s => h s x List.mem_cons_self, fun s y hy => h s y (List.mem_cons_of_mem _ hy)⟩
    exact (ih (f s x) hxs).trans (hx s)

/-- A field that the change for `k` alone gives its value has it in the end. -/
theorem State.each_rd_of_mem {k : α} {v : Nat} (hk : ∀ s, (f s k).rd g = v) (hother : ∀ s x, x ≠ k → (f s x).rd g = s.rd g) {xs : List α}
    (hmem : k ∈ xs) (s : State) : (s.each xs f).rd g = v := by
  induction xs generalizing s with
  | nil => cases hmem
  | cons x xs ih =>
    by_cases hrest : k ∈ xs
    · exact ih hrest (f s x)
    · obtain rfl : k = x := (List.mem_cons.mp hmem).resolve_right hrest
      exact (State.each_rd (f s k) fun s y hy => hother s y (ne_of_mem_of_not_mem hy hrest)).trans (hk s)

end

/-- From `s` to `t` registers may have changed, and nothing else. -/
def RegsOnly (s t : State) : Prop := ∃ regs, t = { s with regs := regs }

theorem State.wr_regsOnly (s : State) (f : FieldRef) (v : Nat) : RegsOnly s (s.wr f v) := ⟨_, rfl⟩

theorem RegsOnly.refl (s : State) : RegsOnly s s := ⟨_, rfl⟩

theorem RegsOnly.trans {s t u : State} (h : RegsOnly s t) (htu : RegsOnly t u) : RegsOnly s u := by
  obtain ⟨_, rfl⟩ := h
  obtain ⟨_, rfl⟩ := htu
  exact ⟨_, rfl⟩

theorem RegsOnly.each {α : Type} {f : State → α → State} (h : ∀ s x, RegsOnly s (f s x)) (xs : List α) (s : State) : RegsOnly s (s.each xs f) := by
  induction xs generalizing s with
  | nil => exact .refl s
  | cons x xs ih => exact (h s x).trans (ih (f s x))

/-! ### The registers of a point (R441, R442) -/

theorem labelPointReg_ne {a b : Nat} (pt : Nat) (h : a ≠ b) : labelPointReg pt a ≠ labelPointReg pt b := by
  simp only [labelPointReg, brickReg, pkgReg]
  split <;> omega

theorem labelPointReg_ne_seatOwn (pt off : Nat) : labelPointReg pt off ≠ Reg.SEAT_OWN := by
  simp only [labelPointReg, brickReg, pkgReg, Reg.SEAT_OWN]
  split <;> omega

/-- The end of a command leaves the measurements of every label as they are. -/
theorem done_rd_meas (s t : State) {g : FieldRef} (pt : Nat) {l : Nat} (hg : g.reg = Reg.LBL_MEAS pt l) : (s.done t).rd g = t.rd g :=
  State.done_rd_other s t (hg ▸ labelPointReg_ne_seatOwn pt _)

section
variable (pt : Fin 58) (l : Nat) (s : State)

theorem writeSteps_regsOnly (rank : Nat → Option (Candidate × Nat)) : RegsOnly s (writeSteps pt rank s) :=
  .each (fun s l => by
    split
    · exact State.wr_regsOnly _ _ _
    · exact .refl s) _ s

/-- The levels shown in STEP leave the averages as they are. -/
theorem writeSteps_ewma (rank : Nat → Option (Candidate × Nat)) :
    (writeSteps pt rank s).rd (Reg.LBL_MEAS_EWMA pt l) = s.rd (Reg.LBL_MEAS_EWMA pt l) := by
  refine State.each_rd s fun s k _ => ?_
  split
  · rcases eq_or_ne k l with rfl | hk
    · exact State.rd_wr_apart _ _ _ _ rfl (by simp [Reg.LBL_MEAS_STEP]) (by simp [Reg.LBL_MEAS_EWMA])
        (by simp [Reg.LBL_MEAS_STEP, Reg.LBL_MEAS_EWMA])
    · exact State.rd_wr_other _ _ _ _ (labelPointReg_ne pt (by omega))
  · rfl

theorem writeSteps_wshift (rank : Nat → Option (Candidate × Nat)) :
    (writeSteps pt rank s).rd (Reg.LBL_PCTL_WSHIFT pt) = s.rd (Reg.LBL_PCTL_WSHIFT pt) := by
  refine State.each_rd s fun s k hk => ?_
  split
  · exact State.rd_wr_other _ _ _ _ (labelPointReg_ne pt (by have := List.mem_range.mp hk; omega))
  · rfl

end

/-! ### What a grant leaves at its point -/

/-- From `s` to `t` registers, points and events may have changed, and nothing else. -/
def PointOnly (s t : State) : Prop := ∃ regs points events, t = { s with regs := regs, points := points, events := events }

theorem PointOnly.refl (s : State) : PointOnly s s := ⟨_, _, _, rfl⟩

theorem PointOnly.trans {s t u : State} (h : PointOnly s t) (htu : PointOnly t u) : PointOnly s u := by
  obtain ⟨_, _, _, rfl⟩ := h
  obtain ⟨_, _, _, rfl⟩ := htu
  exact ⟨_, _, _, rfl⟩

theorem PointOnly.frame {s t : State} (h : PointOnly s t) : t.mem = s.mem ∧ t.tiles = s.tiles ∧ t.bricks = s.bricks := by
  obtain ⟨_, _, _, rfl⟩ := h
  exact ⟨rfl, rfl, rfl⟩

theorem RegsOnly.frame {s t : State} (h : RegsOnly s t) : t.points = s.points ∧ t.mem = s.mem ∧ t.events = s.events ∧ t.bricks = s.bricks := by
  obtain ⟨_, rfl⟩ := h
  exact ⟨rfl, rfl, rfl, rfl⟩

theorem RegsOnly.pointOnly {s t : State} (h : RegsOnly s t) : PointOnly s t := by
  obtain ⟨_, rfl⟩ := h
  exact ⟨_, _, _, rfl⟩

section
variable {s t : State} (h : PointOnly s t)
include h

theorem PointOnly.wr (f : FieldRef) (v : Nat) : PointOnly s (t.wr f v) := h.trans ⟨_, _, _, rfl⟩

theorem PointOnly.onPoint (pt : Fin 58) (f : LabelPoint → LabelPoint) : PointOnly s (t.onPoint pt f) := h.trans ⟨_, _, _, rfl⟩

theorem PointOnly.raiseIf (loud : Bool) (code : Nat) (args : List Nat) : PointOnly s (t.raiseIf loud code args) := h.trans ⟨_, _, _, rfl⟩

theorem PointOnly.labelMiss (pt : Fin 58) (lbl : Nat) : PointOnly s (labelMiss pt lbl t) := by
  have hcount : PointOnly s (t.count (Reg.LBL_MEAS_MISSES pt lbl) 1) := h.wr _ _
  rw [Machine.labelMiss]
  split
  · exact hcount
  · exact ((hcount.onPoint _ _).wr _ _).raiseIf _ _ _

end

@[simp] theorem State.onPoint_point_same (s : State) (pt : Fin 58) (f : LabelPoint → LabelPoint) :
    (s.onPoint pt f).points[pt] = f s.points[pt] := by simp [State.onPoint]

@[simp] theorem State.onPoint_rd (s : State) (pt : Fin 58) (f : LabelPoint → LabelPoint) (g : FieldRef) : (s.onPoint pt f).rd g = s.rd g := rfl

@[simp] theorem State.raiseIf_rd (s : State) (loud : Bool) (code : Nat) (args : List Nat) (g : FieldRef) :
    (s.raiseIf loud code args).rd g = s.rd g := rfl

/-- The average of a label after a sample of `wait` ns (R426). -/
def nextEwma (pt : Fin 58) (lbl wait : Nat) (s : State) : Nat :=
  let old := s.rd (Reg.LBL_MEAS_EWMA pt lbl)
  wrapNat 32 ((old : Int) + sextInt 32 (wait * 16 % 2 ^ 32 + 2 ^ 32 - old) / (2 : Int) ^ s.rd (Reg.LBL_PCTL_WSHIFT pt))

/-- The worst sample of a label after one of `wait` ns, and its misses (R426, R437). -/
def worstKept (pt : Fin 58) (lbl wait : Nat) (s : State) : State :=
  if s.rd (Reg.LBL_MEAS_WORST pt lbl) < wait then s.wr (Reg.LBL_MEAS_WORST pt lbl) (min wait 0xFFFF) else s
def missKept (pt : Fin 58) (lbl wait : Nat) (s : State) : State :=
  if s.rd (Reg.LBL_CFG_TARGET pt lbl) ≠ 0 && decide (s.rd (Reg.LBL_CFG_TARGET pt lbl) < wait) then labelMiss pt lbl s else s

/-- What a grant leaves of the point beside its registers: the label last granted and its bucket (R428, R430). -/
def granted (lbl size : Nat) (P : LabelPoint) : LabelPoint :=
  { P with
    last := lbl,
    bucket13 := if lbl = 13 then P.bucket13 - size * 10 ^ 12 else P.bucket13,
    bucket14 := if lbl = 14 then P.bucket14 - size * 10 ^ 12 else P.bucket14,
    bucket15 := if lbl = 15 then P.bucket15 - size * 10 ^ 12 else P.bucket15 }

theorem onGrant_eq (pt : Fin 58) (lbl wait size : Nat) (s : State) :
    onGrant pt lbl wait size s =
      (missKept pt lbl wait (worstKept pt lbl wait (s.wr (Reg.LBL_MEAS_EWMA pt lbl) (nextEwma pt lbl wait s)))).onPoint pt (granted lbl size) := rfl

section
variable {s t : State} (h : PointOnly s t)
include h

theorem PointOnly.worstKept (pt : Fin 58) (lbl wait : Nat) : PointOnly s (worstKept pt lbl wait t) := by
  rw [Machine.worstKept]
  split
  · exact h.wr _ _
  · exact h

theorem PointOnly.missKept (pt : Fin 58) (lbl wait : Nat) : PointOnly s (missKept pt lbl wait t) := by
  rw [Machine.missKept]
  split
  · exact h.labelMiss _ _
  · exact h

theorem PointOnly.onGrant (pt : Fin 58) (lbl wait size : Nat) : PointOnly s (onGrant pt lbl wait size t) := by
  rw [onGrant_eq]
  exact (((h.wr _ _).worstKept _ _ _).missKept _ _ _).onPoint _ _

end

section
variable (pt : Fin 58) {lbl : Nat} (s : State)

theorem rd_ewma_wr_misses (l v : Nat) : (s.wr (Reg.LBL_MEAS_MISSES pt l) v).rd (Reg.LBL_MEAS_EWMA pt l) = s.rd (Reg.LBL_MEAS_EWMA pt l) :=
  State.rd_wr_apart _ _ _ _ rfl (by simp [Reg.LBL_MEAS_MISSES]) (by simp [Reg.LBL_MEAS_EWMA]) (by simp [Reg.LBL_MEAS_MISSES, Reg.LBL_MEAS_EWMA])

theorem rd_ewma_wr_worst (l v : Nat) : (s.wr (Reg.LBL_MEAS_WORST pt l) v).rd (Reg.LBL_MEAS_EWMA pt l) = s.rd (Reg.LBL_MEAS_EWMA pt l) :=
  State.rd_wr_apart _ _ _ _ rfl (by simp [Reg.LBL_MEAS_WORST]) (by simp [Reg.LBL_MEAS_EWMA]) (by simp [Reg.LBL_MEAS_WORST, Reg.LBL_MEAS_EWMA])

theorem labelMiss_ewma (h : lbl < 16) : (labelMiss pt lbl s).rd (Reg.LBL_MEAS_EWMA pt lbl) = s.rd (Reg.LBL_MEAS_EWMA pt lbl) := by
  have hcount : (s.count (Reg.LBL_MEAS_MISSES pt lbl) 1).rd (Reg.LBL_MEAS_EWMA pt lbl) = s.rd (Reg.LBL_MEAS_EWMA pt lbl) :=
    rd_ewma_wr_misses pt s lbl _
  have hmissst : (Reg.LBL_MEAS_EWMA pt lbl).reg ≠ (Reg.LBL_MISSST_MISS pt).reg := labelPointReg_ne pt (by omega)
  rw [labelMiss]
  split
  · exact hcount
  · rw [State.raiseIf_rd, State.flagBits, State.rd_wr_other _ _ _ _ hmissst, State.onPoint_rd, hcount]

theorem worstKept_ewma (wait : Nat) : (worstKept pt lbl wait s).rd (Reg.LBL_MEAS_EWMA pt lbl) = s.rd (Reg.LBL_MEAS_EWMA pt lbl) := by
  rw [worstKept]
  split
  · exact rd_ewma_wr_worst pt s lbl _
  · rfl

theorem missKept_ewma (h : lbl < 16) (wait : Nat) : (missKept pt lbl wait s).rd (Reg.LBL_MEAS_EWMA pt lbl) = s.rd (Reg.LBL_MEAS_EWMA pt lbl) := by
  rw [missKept]
  split
  · exact labelMiss_ewma pt s h
  · rfl

theorem wrapNat_lt (w : Nat) (i : Int) : wrapNat w i < 2 ^ w := by
  have h := Int.emod_lt_of_pos i (b := (2 : Int) ^ w) (by positivity)
  have h0 := Int.emod_nonneg i (b := (2 : Int) ^ w) (by positivity)
  rw [wrapNat, Int.toNat_lt h0]
  exact_mod_cast h

theorem onGrant_ewma (h : lbl < 16) (wait size : Nat) :
    (onGrant pt lbl wait size s).rd (Reg.LBL_MEAS_EWMA pt lbl) = nextEwma pt lbl wait s := by
  rw [onGrant_eq, State.onPoint_rd, missKept_ewma pt _ h, worstKept_ewma, State.rd_wr_same _ _ _ (by simp [Reg.LBL_MEAS_EWMA])
    (by simp [Reg.LBL_MEAS_EWMA])]
  exact Nat.mod_eq_of_lt (wrapNat_lt 32 _)

end

theorem onGrant_last (pt : Fin 58) (lbl wait size : Nat) (s : State) : (onGrant pt lbl wait size s).points[pt].last = lbl := by
  rw [onGrant_eq, State.onPoint_point_same]
  rfl

/-! ### Windows -/

/-- The fields of one label that a window's start zeroes. -/
def windowCleared (pt : Fin 58) (s : State) (l : Nat) : State := (s.wr (Reg.LBL_MEAS_WORST pt l) 0).wr (Reg.LBL_MEAS_MISSES pt l) 0

theorem startWindow_eq (pt : Fin 58) (k : Nat) (s : State) :
    startWindow pt k s = (s.onPoint pt (fun P => { P with reported := 0, window := k })).each (List.range 16) (windowCleared pt) := rfl

section
variable (pt : Fin 58) (l : Nat) (s : State)

theorem windowCleared_other {g : FieldRef} (h : g.reg ≠ Reg.LBL_MEAS pt l) : (windowCleared pt s l).rd g = s.rd g := by
  rw [windowCleared, State.rd_wr_other _ _ _ _ h, State.rd_wr_other _ _ _ _ h]

theorem windowCleared_worst : (windowCleared pt s l).rd (Reg.LBL_MEAS_WORST pt l) = 0 := by
  rw [windowCleared, State.rd_wr_apart _ (Reg.LBL_MEAS_MISSES pt l) (Reg.LBL_MEAS_WORST pt l) _ rfl (by simp [Reg.LBL_MEAS_MISSES])
    (by simp [Reg.LBL_MEAS_WORST]) (by simp [Reg.LBL_MEAS_MISSES, Reg.LBL_MEAS_WORST]), State.rd_wr_same _ _ _ (by simp [Reg.LBL_MEAS_WORST])
    (by simp [Reg.LBL_MEAS_WORST]), Nat.zero_mod]

theorem windowCleared_misses : (windowCleared pt s l).rd (Reg.LBL_MEAS_MISSES pt l) = 0 := by
  rw [windowCleared, State.rd_wr_same _ _ _ (by simp [Reg.LBL_MEAS_MISSES]) (by simp [Reg.LBL_MEAS_MISSES]), Nat.zero_mod]

theorem windowCleared_ewma : (windowCleared pt s l).rd (Reg.LBL_MEAS_EWMA pt l) = s.rd (Reg.LBL_MEAS_EWMA pt l) := by
  rw [windowCleared, rd_ewma_wr_misses, rd_ewma_wr_worst]

theorem windowCleared_regsOnly : RegsOnly s (windowCleared pt s l) :=
  (State.wr_regsOnly _ _ _).trans (State.wr_regsOnly _ _ _)

theorem startWindow_regsOnly (k : Nat) : RegsOnly (s.onPoint pt (fun P => { P with reported := 0, window := k })) (startWindow pt k s) := by
  rw [startWindow_eq]
  exact RegsOnly.each (fun s l => windowCleared_regsOnly pt l s) _ _

/-- A window's start changes nothing beside registers and its point, which keeps no report and has the window's number. -/
theorem startWindow_frame (k : Nat) :
    (startWindow pt k s).points[pt] = { s.points[pt] with reported := 0, window := k } ∧ (startWindow pt k s).mem = s.mem ∧
    (startWindow pt k s).events = s.events ∧ (startWindow pt k s).bricks = s.bricks := by
  obtain ⟨hpoints, hmem, hevents, hbricks⟩ := (startWindow_regsOnly pt s k).frame
  exact ⟨by rw [hpoints, State.onPoint_point_same], hmem, hevents, hbricks⟩

variable {l} in
/-- A window's start zeroes WORST and MISSES of every label and leaves the averages (R436). -/
theorem startWindow_meas (k : Nat) (h : l < 16) :
    (startWindow pt k s).rd (Reg.LBL_MEAS_WORST pt l) = 0 ∧ (startWindow pt k s).rd (Reg.LBL_MEAS_MISSES pt l) = 0 ∧
    (startWindow pt k s).rd (Reg.LBL_MEAS_EWMA pt l) = s.rd (Reg.LBL_MEAS_EWMA pt l) := by
  have hmem : l ∈ List.range 16 := List.mem_range.mpr h
  have hother {g : FieldRef} (hg : g.reg = Reg.LBL_MEAS pt l) (s : State) (x : Nat) (hx : x ≠ l) : (windowCleared pt s x).rd g = s.rd g :=
    windowCleared_other pt x s (hg ▸ labelPointReg_ne pt (by omega))
  rw [startWindow_eq]
  refine ⟨State.each_rd_of_mem (windowCleared_worst pt l) (hother rfl) hmem _, State.each_rd_of_mem (windowCleared_misses pt l) (hother rfl) hmem _,
    State.each_rd _ fun s x _ => ?_⟩
  rcases eq_or_ne x l with rfl | hx
  · exact windowCleared_ewma pt x s
  · exact hother rfl s x hx

end

/-- The window of a point and its buckets move nothing beside the point. -/
theorem rollWindow_pointOnly (pt : Fin 58) (s : State) : PointOnly s (rollWindow pt s) := by
  rw [rollWindow]
  split
  · exact .refl s
  · exact ((PointOnly.refl s).onPoint pt _).trans (startWindow_regsOnly pt s _).pointOnly

theorem fillBuckets_pointOnly (pt : Fin 58) (s : State) : PointOnly s (fillBuckets pt s) := ⟨_, _, _, rfl⟩

/-- A window whose time has come starts, at a point of the host link only while that link is in service (R435, R436). -/
theorem does_labelWindowStart {pt : Fin 58} {s : State} (hup : 56 ≤ pt.val → s.isSet Reg.HST_STAT_LINKUP = true)
    (hnew : windowNow s pt ≠ s.points[pt].window) : Does (.labelWindowStart pt) s (startWindow pt (windowNow s pt) s) := by
  have hacts : ¬ (decide (56 ≤ pt.val) && !s.isSet Reg.HST_STAT_LINKUP) = true := by simpa using hup
  simp only [Does, exec_labelWindowStart, execLabelWindowStart, if_neg hacts, rollWindow, if_neg hnew]
  rfl

/-! ### A grant at another point -/

/-- What a single request puts forward at a point that is no stack's. -/
def soleCandidate (pt : Fin 58) (r : LabelReq) : Candidate :=
  { lbl := r.lbl.val, age := r.age, size := pointBytes pt r.size, at' := 0, hit := r.rowHit }

theorem bucketHolds_thirteen {P : LabelPoint} {lbl size : Nat} (hlbl : lbl = 13) (h : size * 10 ^ 12 ≤ P.bucket13) :
    bucketHolds P lbl size = true := by
  rw [bucketHolds.eq_def]
  split
  · exact decide_eq_true h
  · cases hlbl
  · cases hlbl
  · contradiction

/-- A request that waits alone, with room in its bucket where it needs one, is granted (R424, R428, R429). -/
theorem grantInner_of_sole {pt other : Fin 58} {r : LabelReq} {s : State} (hstack : pointStack pt = none)
    (hbucket : r.lbl.val ≠ 13 ∨ pointBytes pt r.size * 10 ^ 12 ≤ s.points[pt].bucket13) :
    ∃ rank, grantInner pt other [{ r with size := pointBytes pt r.size }] [] s =
      onGrant pt r.lbl.val r.age (pointBytes pt r.size) (writeSteps pt rank s) := by
  have hholds (h13 : r.lbl.val = 13) : bucketHolds s.points[pt] 13 (pointBytes pt r.size) = true :=
    bucketHolds_thirteen rfl (hbucket.resolve_left (not_not.mpr h13))
  have hrank (raise : Candidate → Option Nat) : ∃ n, rankAll s pt raise [soleCandidate pt r] r.lbl.val = some (soleCandidate pt r, n) := by
    refine ⟨max (labelLevel s pt r.lbl.val r.age (pointBytes pt r.size)) ((raise (soleCandidate pt r)).getD 0), ?_⟩
    simpa [rankAll, rankLabel, soleCandidate] using hholds
  have hother (raise : Candidate → Option Nat) (k : Nat) (hk : k ≠ r.lbl.val) : rankAll s pt raise [soleCandidate pt r] k = none := by
    simp [rankAll, soleCandidate, hk.symm, rankLabel]
  obtain ⟨n, hn⟩ := hrank (fun c => raisedLevel s pt [{ r with size := pointBytes pt r.size }] c.at')
  refine ⟨rankAll s pt (fun c => raisedLevel s pt [{ r with size := pointBytes pt r.size }] c.at') [soleCandidate pt r], ?_⟩
  have hfree : (freeRequests [{ r with size := pointBytes pt r.size }]).map (fun e =>
      ({ lbl := e.1.lbl, age := e.1.age, size := e.1.size, at' := e.2, hit := e.1.rowHit } : Candidate)) = [soleCandidate pt r] := by
    simp [freeRequests, soleCandidate]
  have hbest := bestLabel_of_one hn (hother _) (mem_tieOrder s.points[pt].last r.lbl.isLt)
  simp only [grantInner, hfree, hbest, hstack, Option.isSome_none, Option.any_none, Bool.false_and, Bool.and_false, Bool.false_eq_true, if_false]
  rfl

/-- A grant to a single request at a point that is neither a link's nor a stack's. -/
theorem does_labelGrant_sole {pt : Fin 58} {r : LabelReq} {s : State} (hlink : pointLink pt = none) (hstack : pointStack pt = none)
    (hstill : pointStill s pt = false)
    (hbucket : r.lbl.val ≠ 13 ∨ pointBytes pt r.size * 10 ^ 12 ≤ (rollWindow pt (fillBuckets pt s)).points[pt].bucket13) :
    ∃ rank, Does (.labelGrant pt [r] []) s
      (onGrant pt r.lbl.val r.age (pointBytes pt r.size) (writeSteps pt rank (rollWindow pt (fillBuckets pt s)))) := by
  obtain ⟨rank, hgrant⟩ := grantInner_of_sole (other := pt) hstack hbucket
  refine ⟨rank, ?_⟩
  rw [Does, exec_labelGrant, execLabelGrant, ← hgrant]
  simp only [hstill, hlink, hstack]
  rfl

/-- Settles O20, part by part: the messages, a link's point, another point, and the windows. -/
theorem linkMessagesAndArbitration : Obligations.LinkMessagesAndArbitration := by
  refine ⟨fun l s t m => ⟨does_credinitReceive, does_tsreqReceive, fun p t1 t2 t3 hm h1 h2 h3 _ h23 _ hfirst hactive =>
    does_tsrspReceive_first hm h1 h2 h3 h23 hfirst hactive⟩, fun pt s => ⟨fun l rs rivals => does_labelGrant_link rs rivals,
    fun l => grantLink_of_empty pt, fun l c n x => grantLink_of_best, fun r hlink hstack hstill hbucket => ?grant, fun hup hnew => ?window⟩⟩
  case grant =>
    obtain ⟨rank, hdoes⟩ := does_labelGrant_sole hlink hstack hstill hbucket
    have hready := (fillBuckets_pointOnly pt s).trans (rollWindow_pointOnly pt _)
    obtain ⟨hmem, htiles, hbricks⟩ := ((hready.trans (writeSteps_regsOnly pt _ rank).pointOnly).onGrant pt r.lbl.val r.age
      (pointBytes pt r.size)).frame
    refine ⟨_, hdoes, ?_⟩
    beta_reduce
    rw [State.done_points, State.done_mem, State.done_tiles, State.done_bricks, done_rd_meas _ _ pt (l := r.lbl.val) rfl]
    refine ⟨onGrant_last _ _ _ _ _, hmem, htiles, hbricks, ?_⟩
    rw [onGrant_ewma pt _ r.lbl.isLt, nextEwma, writeSteps_ewma, writeSteps_wshift]
  case window =>
    obtain ⟨hpoint, hframe⟩ := startWindow_frame pt s (windowNow s pt)
    refine ⟨_, does_labelWindowStart hup hnew, ?_⟩
    beta_reduce
    rw [State.done_points, State.done_mem, State.done_events, State.done_bricks, hpoint]
    refine ⟨fun k hk => ?_, rfl, rfl, hframe⟩
    rw [done_rd_meas _ _ pt (l := k) rfl, done_rd_meas _ _ pt (l := k) rfl, done_rd_meas _ _ pt (l := k) rfl]
    exact startWindow_meas pt s (windowNow s pt) hk

end Sys2Proof.Machine
end

section
/-! PROOFS. The control of ports and bridges and their training (R101 to R123, R126 to R129, R136 to R138, R146, R941). -/
namespace Sys2Proof.Machine
open Sys2Proof

theorem exec_portEnable (l : LinkId) (s : State) : exec (.portEnable l) s = execPortEnable l s := rfl
theorem exec_portDisable (l : LinkId) (s : State) : exec (.portDisable l) s = execPortDisable l s := rfl
theorem exec_retrain (l : LinkId) (s : State) : exec (.retrain l) s = execRetrain l s := rfl
theorem exec_holdclr (p : Port) (s : State) : exec (.holdclr p) s = execHoldclr p s := rfl
theorem exec_trainingRetry (p : Port) (s : State) : exec (.trainingRetry p) s = execTrainingRetry p s := rfl
theorem exec_fastRetrainTimeout (p : Port) (s : State) : exec (.fastRetrainTimeout p) s = execFastRetrainTimeout p s := rfl
theorem exec_detectRepeat (p : Port) (s : State) : exec (.detectRepeat p) s = execDetectRepeat p s := rfl
theorem exec_neighbourAbsent (p : Port) (s : State) : exec (.neighbourAbsent p) s = execNeighbourAbsent p s := rfl
theorem exec_correctedRateHigh (p : Port) (lane : Fin 8) (s : State) : exec (.correctedRateHigh p lane) s = execCorrectedRateHigh p lane s := rfl
theorem exec_laneDriverFault (p : Port) (lane : Fin 8) (s : State) : exec (.laneDriverFault p lane) s = execLaneDriverFault p lane s := rfl
theorem exec_trainingWordReceive (p : Port) (lane : Fin 8) (levels : List Level) (s : State) :
    exec (.trainingWordReceive p lane levels) s = execTrainingWordReceive p lane levels s := rfl
theorem exec_trainingStateAdvance (p : Port) (t : LaneTest) (s : State) : exec (.trainingStateAdvance p t) s = execTrainingStateAdvance p t s := rfl
theorem exec_trainingTimeout (p : Port) (s : State) : exec (.trainingTimeout p) s = execTrainingTimeout p s := rfl
theorem exec_modulePresenceChange (p : Port) (present readable : Bool) (faulty : BitVec 8) (m : CableModule) (int : Bool) (s : State) :
    exec (.modulePresenceChange p present readable faulty m int) s = execModulePresenceChange p present readable faulty m int s := rfl
theorem exec_bridgeLinkUp (b : Brick) (q : Fin 3) (brick : Nat) (modules : BitVec 18) (fast : Bool) (s : State) :
    exec (.bridgeLinkUp b q brick modules fast) s = execBridgeLinkUp b q brick modules fast s := rfl
theorem exec_bridgeModuleRemove (b : Brick) (q : Fin 3) (m : Fin 18) (s : State) :
    exec (.bridgeModuleRemove b q m) s = execBridgeModuleRemove b q m s := rfl

/-! ### The state of a port -/

section
variable {p : Port} (s : State)

/-- A write of another register leaves the state of a port as it is. -/
theorem portState_wr_other {f : FieldRef} (v : Nat) (h : Reg.MRT_PSTAT p ≠ f.reg) : (s.wr f v).portState p = s.portState p :=
  State.rd_wr_other s f (Reg.MRT_PSTAT_STATE p) v h

theorem portState_toPortState (st : Nat) : (s.toPortState p st).portState p = st % 16 :=
  State.rd_wr_same _ (Reg.MRT_PSTAT_STATE p) _ (by simp [Reg.MRT_PSTAT_STATE]) (by simp [Reg.MRT_PSTAT_STATE])

theorem portState_enterState (st : Nat) : (enterState p st s).portState p = st % 16 := by
  rw [enterState]
  split
  · rw [State.portState, (sendWords_trafficOnly p _).rd, State.onLink_rd]
    exact portState_toPortState s st
  · rw [State.portState, State.onLink_rd, State.onLink_rd]
    exact portState_toPortState s st

theorem portState_flag_modrej : (s.flag (Reg.MRT_PERR_MODREJ p)).portState p = s.portState p := by
  rw [State.flag]
  exact portState_wr_other (f := Reg.MRT_PERR_MODREJ p) s 1 (portReg_ne p (by decide))

theorem portOff_congr {s t : State} (h : t.portState p = s.portState p) : t.portOff p = s.portOff p := by
  rw [State.portOff, State.portOff, h]

theorem portOff_of_active (h : s.portState p = 8) : s.portOff p = false := by
  simp [State.portOff, h]

end

/-! ### Training data of a port -/

theorem State.wr_link (s : State) (f : FieldRef) (v : Nat) (l : LinkId) : (s.wr f v).link l = s.link l := by cases l <;> rfl
theorem State.raise_link (s : State) (code : Nat) (args : List Nat) (l : LinkId) : (s.raise code args).link l = s.link l := by cases l <;> rfl
theorem State.emit_link (s : State) (o : Output) (l : LinkId) : (s.emit o).link l = s.link l := by cases l <;> rfl

theorem State.toPortState_link (s : State) (p : Port) (st : Nat) (l : LinkId) : (s.toPortState p st).link l = s.link l := by
  rw [State.toPortState]
  split
  · rw [State.wr_link, State.wr_link]
  · rw [State.wr_link]

theorem State.done_link (s t : State) (l : LinkId) : (s.done t).link l = t.link l := by cases l <;> rfl

section
variable (p : Port) (s : State)

theorem loadSettings_training (l : LinkId) : ((loadSettings l s).link l).training = (s.link l).training := by
  rw [loadSettings]
  split
  · rw [State.onLink_link_same]
  · rw [State.raise_link, State.onLink_link_same]

theorem trainingBegun_training (fast : Bool) :
    ((trainingBegun p fast s).link (.port p)).training = (trainingLink p fast s (s.link (.port p))).training := by
  rw [trainingBegun, loadSettings_training]
  simp only [State.wr_link, State.onLink_link_same]

/-- The words sent move the scramblers alone. -/
theorem sendWords_training : ((sendWords p s).link (.port p)).training = (s.link (.port p)).training := by
  have hfold (xs : List (Nat × Nat × Bytes)) (L : Link) :
      (xs.foldl (fun L x => { L with txScr := L.txScr.set x.1 x.2.1 }) L).training = L.training := by
    induction xs generalizing L with
    | nil => rfl
    | cons x xs ih => exact (ih _).trans rfl
  rw [sendWords, State.emit_link, State.onLink_link_same, hfold]

theorem enterState_training_fast (st : Nat) :
    ((enterState p st s).link (.port p)).training.fast = (s.link (.port p)).training.fast := by
  rw [enterState]
  split
  · rw [sendWords_training, State.onLink_link_same, State.toPortState_link]
  · rw [State.onLink_link_same, State.onLink_link_same, State.toPortState_link]

end

section
variable {p : Port} {s : State} (hsafe : brickSafe s (portBrick p) = false)
include hsafe

/-- A full training begins in Detect with nothing kept of the last (R103). -/
theorem startTraining_full_of_safe : (startTraining p false s).portState p = 1 ∧
    ((startTraining p false s).link (.port p)).training = { portRec := s.sheetRec p, txPresent := 0xFF } := by
  have heq : startTraining p false s = (trainingBegun p false s).toPortState p 1 := by
    simp only [startTraining_eq, hsafe, Bool.false_eq_true, if_false]
  rw [heq]
  refine ⟨portState_toPortState _ 1, ?_⟩
  rw [State.toPortState_link, trainingBegun_training]
  rfl

/-- A fast one begins in Lock (R136). -/
theorem startTraining_fast_of_safe : (startTraining p true s).portState p = 2 ∧
    ((startTraining p true s).link (.port p)).training.fast = true := by
  have heq : startTraining p true s = enterState p 2 (trainingBegun p true s) := by
    simp only [startTraining_eq, hsafe, Bool.false_eq_true, if_false, if_true]
  rw [heq]
  refine ⟨portState_enterState _ 2, ?_⟩
  rw [enterState_training_fast, trainingBegun_training]
  rfl

end

/-! ### Commands to a port -/

section
variable {p : Port} {s : State}

theorem does_portEnable_of_allowed (hoff : s.portOff p = true) (hmod : s.moduleOk p = true) :
    Does (.portEnable (.port p)) s (startTraining p false (((withModule p (powerModule p) s).onLink (.port p) (fun L =>
      { L with enAt := s.now, absentRaised := false, backoffMs := 10 })).wr (Reg.MRT_PCTL_EN p) 1)) := by
  simp only [Does, exec_portEnable, execPortEnable, enableLink, hoff, hmod, Bool.not_true, Bool.false_eq_true, if_false,
    ended_next]

theorem does_portEnable_of_rejected (hoff : s.portOff p = true) (hmod : s.moduleOk p = false) :
    Does (.portEnable (.port p)) s (rejectModule p (withModule p id s)) := by
  simp only [Does, exec_portEnable, execPortEnable, enableLink, hoff, hmod, Bool.not_true, Bool.not_false, Bool.false_eq_true, if_false,
    if_true, ended_next]

/-- A Disabled port with a rejected module shows 0xC, and any other keeps its state (R122, R147). -/
theorem rejectModule_eq (p : Port) (s : State) :
    rejectModule p s =
      (if s.portOff p then (s.flag (Reg.MRT_PERR_MODREJ p)).toPortState p 0xC else s.flag (Reg.MRT_PERR_MODREJ p)).raise 0x1009 [p.val] := by
  rw [rejectModule, portOff_congr (portState_flag_modrej s)]

/-- Clearing EN takes an Active port down to Disabled, without a training (R138, R941). -/
theorem does_portDisable_of_active (h : s.portState p = 8) :
    Does (.portDisable (.port p)) s
      (((settleDown (.port p) 6 (s.wr (Reg.MRT_PCTL_EN p) 0)).onLink (.port p) (fun L => { L with training := {} })).toPortState p 0) := by
  have hen : (s.wr (Reg.MRT_PCTL_EN p) 0).portState p = 8 := by
    rw [portState_wr_other (f := Reg.MRT_PCTL_EN p) s 0 (portReg_ne p (by decide)), h]
  simp only [Does, exec_portDisable, execPortDisable, portOff_of_active _ hen, hen]
  rfl

theorem does_retrain_of_active (h : s.portState p = 8) :
    Does (.retrain (.port p)) s (startTraining p false (settleDown (.port p) 6 s)) := by
  simp only [Does, exec_retrain, execRetrain, softwareDown, portOff_of_active _ h, h]
  rfl

theorem does_holdclr_of_held (h : s.portState p = 0xA) :
    Does (.holdclr p) s (startTraining p false (s.onLink (.port p) (fun L => { L with downs := [] }))) := by
  simp only [Does, exec_holdclr, execHoldclr, h]
  rfl

theorem does_trainingRetry_of_failed (h : (s.link (.port p)).training.failed = true) : Does (.trainingRetry p) s (startTraining p false s) := by
  simp only [Does, exec_trainingRetry, execTrainingRetry, h]
  rfl

theorem does_fastRetrainTimeout_of_fast (hfast : (s.link (.port p)).training.fast = true) (hlo : 2 ≤ s.portState p) (hhi : s.portState p ≤ 7) :
    Does (.fastRetrainTimeout p) s (startTraining p false s) := by
  simp only [Does, exec_fastRetrainTimeout, execFastRetrainTimeout, hfast, hlo, hhi]
  rfl

theorem does_detectRepeat_of_detect (h : s.portState p = 1) : Does (.detectRepeat p) s (startTraining p false s) := by
  simp only [Does, exec_detectRepeat, execDetectRepeat, h]
  rfl

theorem does_neighbourAbsent_of_expected {r : Nat} (hen : s.isSet (Reg.MRT_PCTL_EN p) = true) (hst : s.portState p = 1)
    (hrec : s.sheetRec p = some r) (hrole : recRole r ≠ 0) (hfirst : (s.link (.port p)).absentRaised = false) :
    Does (.neighbourAbsent p) s ((s.onLink (.port p) (fun L => { L with absentRaised := true })).raise 0x1010 [p.val]) := by
  simp only [Does, exec_neighbourAbsent, execNeighbourAbsent, hen, hst, hrec, hfirst, ne_eq, hrole,
    not_false_eq_true, decide_true, Bool.not_false, Bool.and_true, if_true, ended_next]

theorem does_correctedRateHigh_of_active (lane : Fin 8) (h : s.portActive p = true) :
    Does (.correctedRateHigh p lane) s (s.raise 0x100E [p.val, lane.val]) := by
  simp only [Does, exec_correctedRateHigh, execCorrectedRateHigh, h]
  rfl

theorem does_laneDriverFault_of_active (lane : Fin 8) (h : s.portActive p = true) :
    Does (.laneDriverFault p lane) s (s.raise 0x100F [p.val, lane.val]) := by
  simp only [Does, exec_laneDriverFault, execLaneDriverFault, h]
  rfl

end

/-! ### Training words -/

/-- Bit `n` of a mask to which bit `n` was added. -/
theorem bitOf_lor_two_pow (m n : Nat) : bitOf (Nat.lor m (2 ^ n)) n = true := by
  have h : (m ||| 2 ^ n).testBit n = true := by simp
  rw [Nat.testBit_eq_decide_div_mod_eq, decide_eq_true_eq] at h
  rw [bitOf, Nat.lor_eq, h]
  rfl

/-- An intact word is taken as it stands: a lane that were inverted would show the inverted pattern (R101, R109). -/
theorem wordOf_of_intact {word : Bytes} (h : wordIntact word = true) (st scr : Nat) (inverted : Bool) :
    wordOf st inverted scr word = (some (word, false), scr) := by
  have hsync : leNat (word.take 4) = syncPattern := by
    rw [wordIntact, Bool.and_eq_true, beq_iff_eq] at h
    exact h.1
  have hplain : (leNat (word.take 4) == syncInverted) = false := by
    rw [hsync]
    decide
  simp only [wordOf, hplain, Bool.false_eq_true, if_false, h, if_true]

theorem bit_decide (c : Prop) [Decidable c] : bit (decide c) = if c then 1 else 0 := by simp [bit]

theorem does_trainingWordReceive_of_intact {p : Port} {lane : Fin 8} {levels : List Level} {s : State}
    (hword : wordIntact (padTo 32 (bytesOfLevels levels)) = true) (hlo : 2 ≤ s.portState p) (hhi : s.portState p ≤ 6)
    (hlane : bitOf (s.link (.port p)).training.excludedOwn lane.val = false) :
    Does (.trainingWordReceive p lane levels) s
      ((s.onLink (.port p) (fun L => { L with rxScr := L.rxScr.set lane.val ((s.link (.port p)).rxScr.getD lane.val 0) })).onLink (.port p) (fun L =>
        { L with training := L.training.heard (s.portState p) lane.val false (padTo 32 (bytesOfLevels levels)) })) := by
  have hacts : (decide (s.portState p < 2) || decide (7 < s.portState p) || bitOf (s.link (.port p)).training.excludedOwn lane.val) = false := by
    simp only [hlane, Bool.or_false, Bool.or_eq_false_iff, decide_eq_false_iff_not]
    omega
  simp only [Does, exec_trainingWordReceive, execTrainingWordReceive, hacts, wordOf_of_intact hword, hhi, Bool.false_eq_true, if_false,
    if_true, ended_next]

/-! ### The steps of a training -/

section
variable {p : Port} {s : State} (t : LaneTest)

/-- With every lane found sound Detect goes to Lock (R103). -/
theorem stepDetect_of_sound (hfault : (s.link (.port p)).laneFault = 0) (hopen : t.openTx = 0) (hshort : t.shortTx = 0) :
    stepDetect p t s = enterState p 2 (s.onLink (.port p) (fun L => { L with training := { L.training with txPresent := 0xFF } })) := by
  have habsent : Nat.lor (Nat.lor (BitVec.toNat (0 : BitVec 8)) (BitVec.toNat (0 : BitVec 8))) 0 = 0 := rfl
  have hpresent : Nat.xor 0xFF 0 = 0xFF := rfl
  have hlanes : setBits 8 0 = [] := by decide
  have hheard : ((0 : BitVec 8) = 0xFF) = False := by decide
  simp only [stepDetect, hfault, hopen, hshort, habsent, hpresent, hlanes, hheard, State.each, List.foldl_nil, decide_false, Bool.false_and,
    Bool.false_eq_true, if_false, if_true, OfNat.ofNat_ne_zero]

theorem does_trainingStateAdvance_detect (hst : s.portState p = 1) : Does (.trainingStateAdvance p t) s (stepDetect p t s) := by
  simp only [Does, exec_trainingStateAdvance, execTrainingStateAdvance, hst, ended_next]

section
variable (hwords : 16 ≤ (s.link (.port p)).training.words)
include hwords

theorem does_trainingStateAdvance_lock (hst : s.portState p = 2) : Does (.trainingStateAdvance p t) s (stepLock p s) := by
  simp only [Does, exec_trainingStateAdvance, execTrainingStateAdvance, hst, hwords, decide_true, if_true, ended_next]

theorem does_trainingStateAdvance_align (hst : s.portState p = 3) : Does (.trainingStateAdvance p t) s (stepAlign p s) := by
  simp only [Does, exec_trainingStateAdvance, execTrainingStateAdvance, hst, hwords, decide_true, if_true, ended_next]

theorem does_trainingStateAdvance_width (hst : s.portState p = 5) : Does (.trainingStateAdvance p t) s (stepWidth p s) := by
  simp only [Does, exec_trainingStateAdvance, execTrainingStateAdvance, hst, hwords, decide_true, if_true, ended_next]

theorem does_trainingStateAdvance_identify (hst : s.portState p = 6) : Does (.trainingStateAdvance p t) s (stepIdentify p s) := by
  simp only [Does, exec_trainingStateAdvance, execTrainingStateAdvance, hst, hwords, decide_true, if_true, ended_next]

end

/-- A port whose Verify is done becomes Active once the partner's CREDINIT has come (R113). -/
theorem does_trainingStateAdvance_verified (hst : s.portState p = 7) (hver : (s.link (.port p)).training.verified = true)
    (hcred : (s.link (.port p)).training.credGot = true) : Does (.trainingStateAdvance p t) s (becomeActive p s) := by
  simp only [Does, exec_trainingStateAdvance, execTrainingStateAdvance, hst, stepVerify, hver, hcred, if_true, ended_next]

end

/-- A training that is not waiting in Identify and takes too long fails with reason 0x7 (R105). -/
theorem does_trainingTimeout_of_slow {p : Port} {s : State} (hlo : 2 ≤ s.portState p) (hhi : s.portState p ≤ 7) (hst : s.portState p ≠ 6) :
    Does (.trainingTimeout p) s (failTraining p 7 s) := by
  simp only [Does, exec_trainingTimeout, execTrainingTimeout, hlo, hhi, hst, decide_true, decide_false, Bool.false_and, Bool.not_false, Bool.and_true,
    if_true, ended_next]

/-! ### Cable modules -/

/-- A port after Hod has looked for its module: what the module's memory says is kept (R120, R788). -/
def moduleSeen (p : Port) (present read : Bool) (faulty : BitVec 8) (m : CableModule) (int : Bool) (s : State) : State :=
  let s1 := { s with hod := { s.hod with modInt := withBits s.hod.modInt (p.val / 6) (p.val / 6) (bit int) } }
  measureIdents ((if present then withModule p id s1 else s1).onLink (.port p) (fun L => { L with
    modulePresent := present, moduleReadable := read, moduleClass := if read then m.cls.val else 0,
    moduleLower := if read then padTo 18 m.lower else [], laneFault := if read then faulty.toNat else 0, moduleId := if read then m.ident else [] }))

section
variable (p : Port) (present read : Bool) (faulty : BitVec 8) (m : CableModule) (int : Bool) (s : State)

theorem moduleSeen_portState : (moduleSeen p present read faulty m int s).portState p = s.portState p := by
  cases present <;> rfl

theorem moduleSeen_sheetRec : (moduleSeen p present read faulty m int s).sheetRec p = s.sheetRec p := by
  cases present <;> rfl

theorem moduleSeen_busFailed : (moduleSeen p present read faulty m int s).hod.busFailed = s.hod.busFailed := by
  cases present <;> rfl

theorem moduleSeen_link : ((moduleSeen p present read faulty m int s).link (.port p)).modulePresent = present ∧
    ((moduleSeen p present read faulty m int s).link (.port p)).moduleReadable = read := by
  have hmeas (x : State) : (measureIdents x).link (.port p) = x.link (.port p) := rfl
  rw [moduleSeen, hmeas, State.onLink_link_same]
  exact ⟨rfl, rfl⟩

/-- Where the build sheet holds no record of the port and the bus works, a module that was read is allowed (R122). -/
theorem moduleSeen_moduleOk (hsheet : s.sheetRec p = none) (hbus : s.hod.busFailed.contains (moduleBus p) = false) :
    (moduleSeen p present (present && read) faulty m int s).moduleOk p = (present && read) := by
  obtain ⟨hpresent, hreadable⟩ := moduleSeen_link p present (present && read) faulty m int s
  simp only [State.moduleOk, hpresent, hreadable, moduleSeen_busFailed, hbus, moduleSeen_sheetRec, hsheet, Bool.not_false, Bool.and_true]
  rw [← Bool.and_assoc, Bool.and_self]

end

theorem portState_rejectModule (p : Port) (s : State) (h : s.portState p ≠ 0xB) : (rejectModule p s).portState p ≠ 0xB := by
  rw [rejectModule_eq, State.portState, State.raise_rd]
  split
  · exact ne_of_eq_of_ne (portState_toPortState _ 0xC) (by decide)
  · exact ne_of_eq_of_ne (portState_flag_modrej s) h

/-- What MODULE_PRESENCE_CHANGE does of the module it has seen: a mismatch is recorded, the port follows, and a Miswired one trains (R105, R122, R788). -/
theorem execModulePresenceChange_eq (p : Port) (present readable : Bool) (faulty : BitVec 8) (m : CableModule) (int : Bool) (s : State) :
    execModulePresenceChange p present readable faulty m int s =
      let read := present && readable && !s.hod.busFailed.contains (moduleBus p)
      let t := moduleSeen p present read faulty m int s
      let u := if read && !t.moduleOk p then mismatch 2 p.val (recClasses ((t.sheetRec p).getD 0)) m.cls.val t else t
      let v := if !u.moduleOk p then rejectModule p u else if u.portOff p then u.toPortState p 0 else u
      .next (s.done (if v.portState p = 0xB then startTraining p false v else v)) := rfl

/-- A module is read and kept, or rejected where it cannot be read; no port but a Miswired one trains again by it (R120 to R122). -/
theorem does_modulePresenceChange_of_unlisted {p : Port} {s : State} (present readable : Bool) (faulty : BitVec 8) (m : CableModule) (int : Bool)
    (hsheet : s.sheetRec p = none) (hst : s.portState p ≠ 0xB) (hbus : s.hod.busFailed.contains (moduleBus p) = false) :
    Does (.modulePresenceChange p present readable faulty m int) s
      (let t := moduleSeen p present (present && readable) faulty m int s
       if present && readable then (if s.portOff p then t.toPortState p 0 else t) else rejectModule p t) := by
  have hok := moduleSeen_moduleOk p present readable faulty m int s hsheet hbus
  have hport := moduleSeen_portState p present (present && readable) faulty m int s
  have hoff := portOff_congr hport
  simp only [Does, exec_modulePresenceChange, execModulePresenceChange_eq, hbus, Bool.not_false, Bool.and_true, hok, Bool.and_not_self,
    Bool.false_eq_true, if_false, hoff]
  cases hread : present && readable with
  | true =>
    rw [hread] at hport
    cases s.portOff p with
    | true => simp [portState_toPortState]
    | false => simp [hport, hst]
  | false =>
    rw [hread] at hport
    simp [portState_rejectModule p _ (hport ▸ hst)]

/-! ### Bridges -/

theorem two_pow_le_of_bitOf {v n : Nat} (h : bitOf v n = true) : 2 ^ n ≤ v := by
  by_contra hlt
  simp [bitOf, Nat.div_eq_of_lt (Nat.lt_of_not_le hlt)] at h

section
variable {b : Brick} {q : Fin 3} {s : State}

/-- A bridge whose ends are both ready, and which is down, looks at the brick that its far end names (R129). -/
theorem does_bridgeLinkUp_of_ready {modules : BitVec 18} (brick : Nat) (fast : Bool) (hen : s.isSet (Reg.MRT_BCTL_EN b q) = true)
    (hdown : (s.link (.bridge b q)).bridgeUp = false) (hmod : modules ≠ 0) (hon : uncoreOn s b = true) (hfar : uncoreOn s (bridgePeer b q) = true)
    (hsafe : brickSafe s b = false) (hfarSafe : brickSafe s (bridgePeer b q) = false) :
    Does (.bridgeLinkUp b q brick modules fast) s (if brick ≠ (bridgePeer b q).val then s.raise 0x100D [b.val, q.val, 1] else
      sendCredinit (.bridge b q) (((fillBuckets (pointOf (.bridge b q)) (loadSettings (.bridge b q)
        (s.onLink (.bridge b q) (fun L => { L.fresh with bridgeUp := true, training := {} })))).wr (Reg.MRT_BSTAT_MODGOOD b q) modules.toNat).wr
          (Reg.MRT_BSTAT_SPEED b q) (if fast then 2 else 1))) := by
  simp only [Does, exec_bridgeLinkUp, execBridgeLinkUp, hen, hdown, hmod, hon, hfar, hsafe, hfarSafe, Bool.not_true, decide_false, Bool.or_false,
    Bool.false_eq_true, if_false]
  split
  · rw [ended_next]
  · rw [ended_next]

/-- A bridge that keeps a module stays as it is, less the module removed (R128). -/
theorem does_bridgeModuleRemove_of_left {m : Fin 18} (hgood : bitOf (s.rd (Reg.MRT_BSTAT_MODGOOD b q)) m.val = true)
    (hleft : s.rd (Reg.MRT_BSTAT_MODGOOD b q) ≠ 2 ^ m.val) :
    Does (.bridgeModuleRemove b q m) s (((fillBuckets (pointOf (.bridge b q)) s).wr (Reg.MRT_BSTAT_MODGOOD b q)
      (s.rd (Reg.MRT_BSTAT_MODGOOD b q) - 2 ^ m.val)).raise 0x100D [b.val, q.val, 0, m.val]) := by
  have hsome : s.rd (Reg.MRT_BSTAT_MODGOOD b q) - 2 ^ m.val ≠ 0 := by
    have hle := two_pow_le_of_bitOf hgood
    omega
  simp only [Does, exec_bridgeModuleRemove, execBridgeModuleRemove, hgood, hsome, Bool.not_true, decide_false, Bool.false_and, Bool.false_eq_true,
    if_false, ended_next]

end

/-! ### The statement -/

/-- What a port that hears an intact word leaves: the lane's lock and what the word shows of the partner, and nothing else (R102, R104, R116). -/
theorem leaves_trainingWordReceive {p : Port} {lane : Fin 8} {levels : List Level} {s : State}
    (hword : wordIntact (padTo 32 (bytesOfLevels levels)) = true) (hlo : 2 ≤ s.portState p) (hhi : s.portState p ≤ 6)
    (hlane : bitOf (s.link (.port p)).training.excludedOwn lane.val = false) :
    Leaves (.trainingWordReceive p lane levels) s (fun u =>
      (u.link (.port p)).training = (s.link (.port p)).training.heard (s.portState p) lane.val false (padTo 32 (bytesOfLevels levels)) ∧
      u.mem = s.mem ∧ u.events = s.events ∧ u.bricks = s.bricks ∧ u.tiles = s.tiles) := by
  refine ⟨_, does_trainingWordReceive_of_intact hword hlo hhi hlane, ?_, rfl, rfl, rfl, rfl⟩
  rw [State.done_link, State.onLink_link_same, State.onLink_link_same]

/-- Settles O21. That RETRAIN's down does not hold the port and that event 0x100D carries 0 for a removal are the model's choice (log entries 203 and
206). -/
theorem portsAndTraining : Obligations.PortsAndTraining := by
  refine ⟨fun p s lane => ⟨does_portEnable_of_allowed, does_portEnable_of_rejected, ⟨fun hoff => ?_, fun hoff => ?_⟩, fun hsafe => ?_,
    does_portDisable_of_active, does_retrain_of_active, does_holdclr_of_held, does_trainingRetry_of_failed, does_fastRetrainTimeout_of_fast,
    does_detectRepeat_of_detect, fun r => does_neighbourAbsent_of_expected, does_correctedRateHigh_of_active lane,
    does_laneDriverFault_of_active lane⟩, fun p s => ⟨fun lane levels hword hlo hhi hlane => ?word, fun t hst hfault hopen hshort => ?detect,
    fun t hwords => ⟨does_trainingStateAdvance_lock t hwords, does_trainingStateAdvance_align t hwords, does_trainingStateAdvance_width t hwords,
      does_trainingStateAdvance_identify t hwords⟩, fun t => does_trainingStateAdvance_verified t, does_trainingTimeout_of_slow,
    fun present readable faulty m int => does_modulePresenceChange_of_unlisted present readable faulty m int,
    fun b q modules fast hen hdown hmod hon hfar hsafe hfarSafe => ?bridge, fun b q m => does_bridgeModuleRemove_of_left⟩⟩
  · rw [rejectModule_eq, if_pos hoff]
  · rw [rejectModule_eq, hoff]
    rfl
  · obtain ⟨hfull, hdata⟩ := startTraining_full_of_safe hsafe
    obtain ⟨hlock, hfast⟩ := startTraining_fast_of_safe hsafe
    exact ⟨hfull, hlock, hdata, hfast⟩
  case word =>
    obtain ⟨u, hexec, htraining, hframe⟩ := leaves_trainingWordReceive hword hlo hhi hlane
    refine ⟨u, hexec, ?_⟩
    dsimp only
    rw [htraining]
    exact ⟨bitOf_lor_two_pow _ _, rfl, rfl, rfl, rfl, rfl, rfl, congrArg _ (bit_decide _), rfl, hframe⟩
  case detect =>
    rw [← stepDetect_of_sound t hfault hopen hshort]
    exact does_trainingStateAdvance_detect t hst
  case bridge =>
    have hdoes := fun brick => does_bridgeLinkUp_of_ready brick fast hen hdown hmod hon hfar hsafe hfarSafe
    refine ⟨fun brick hbrick => ?_, ?_⟩
    · simpa only [if_pos hbrick] using hdoes brick
    · simpa only [ne_eq, not_true_eq_false, if_false] using hdoes (bridgePeer b q).val

end Sys2Proof.Machine
end

section
/-! PROOFS. The own seat's field shows what the seat table gives after every step (R174, R215). -/
namespace Sys2Proof.Machine
open Sys2Proof

/-- Every command is brought to its end: each arm of `exec` is an effect followed by `ended`. -/
theorem exec_eq_ended (c : Instr) (s : State) : ∃ o, exec c s = ended s o := by
  unfold exec
  split <;> exact ⟨_, rfl⟩

theorem step_eq_ended (s : State) : ∃ q o, step s = ended { s with pending := q } o := by
  unfold step
  split
  · exact (exec_eq_ended _ _).imp' _ fun _ h => ⟨_, h⟩
  · exact ⟨s.pending, _, rfl⟩

section
variable {α β : Type} {f : Nat × α → Option β} {k : Nat} (hk : ∀ v, f (k, v) = none)
include hk

theorem filterMap_tabErase (t : Tab α) : (tabErase t k).filterMap f = t.filterMap f := by
  induction t with
  | nil => rfl
  | cons e t ih =>
    obtain ⟨j, w⟩ := e
    rw [tabErase]
    split
    · next hj => rw [ih, List.filterMap_cons_none (hj ▸ hk w)]
    · simp only [List.filterMap_cons, ih]

theorem filterMap_tabPut (v : α) (t : Tab α) : (tabPut t k v).filterMap f = t.filterMap f := by
  induction t with
  | nil => rw [tabPut, List.filterMap_cons_none (hk v)]
  | cons e t ih =>
    obtain ⟨j, w⟩ := e
    rw [tabPut]
    split
    · rw [List.filterMap_cons_none (hk v)]
    · split
      · next hj => rw [List.filterMap_cons_none (hk v), List.filterMap_cons_none (hj ▸ hk w)]
      · simp only [List.filterMap_cons, ih]

/-- A reader of a table that does not look at one key reads alike whatever that key holds. -/
theorem filterMap_tabSet [DecidableEq α] (d : α) (t : Tab α) (v : α) : (tabSet d t k v).filterMap f = t.filterMap f := by
  rw [tabSet]
  split
  · exact filterMap_tabErase hk t
  · exact filterMap_tabPut hk v t

end

/-! ### SEAT_OWN reads what the seat table gives (R174, R215) -/

section
variable (s : State)

theorem settle_ownPid : s.settle.ownPid = s.ownPid := by
  rw [State.ownPid, State.settle, State.rd, State.reg_setReg_other _ _ _ _ (by decide)]; rfl

theorem settle_seatsNamed : s.settle.seatsNamed = s.seatsNamed := by
  rw [State.seatsNamed, settle_ownPid]
  exact filterMap_tabSet (fun v => by simp [Reg.SEAT_OWN, pkgReg]) _ _ _

theorem settle_ownSeat : s.settle.ownSeat = s.ownSeat := by rw [State.ownSeat, settle_seatsNamed, State.ownSeat]

theorem settle_seatEntry (x : Nat) : s.settle.seatEntry x = s.seatEntry x := by
  rw [State.seatEntry, State.settle, State.rd, State.reg_setReg_other _ _ _ _ (by simp [Reg.SEAT_OWN, Reg.SEAT_TBL_ENTRY, Reg.SEAT_TBL, pkgReg])]; rfl

theorem settle_ownGen : s.settle.ownGen = s.ownGen := by
  rw [State.ownGen, settle_ownSeat, State.ownGen]
  simp only [settle_seatEntry]

theorem settle_ownField : ownField s.settle = ownField s := by
  rw [ownField, settle_ownSeat, settle_ownGen, ownField]

theorem seatsNamed_lt {x : Nat} (h : x ∈ s.seatsNamed) : x < 65535 := by
  obtain ⟨e, -, he⟩ := List.mem_filterMap.mp h
  obtain ⟨hcond, heq⟩ := Option.ite_none_right_eq_some.mp he
  simp only [Bool.and_eq_true, decide_eq_true_eq] at hcond
  cases heq
  omega

theorem ownSeat_lt {x : Nat} (h : s.ownSeat = some x) : x < 65535 := by
  rw [State.ownSeat] at h
  split at h
  · next y hy => cases h; exact seatsNamed_lt s (hy ▸ List.mem_singleton_self _)
  · cases h

theorem ownGen_lt : s.ownGen < 256 := by
  rw [State.ownGen]
  split
  · exact bitsOf_lt _ _ _
  · decide

theorem ownField_lt : ownField s < 2 ^ 64 := by
  have hgen := ownGen_lt s
  rw [ownField]
  split
  · next x hx => have := ownSeat_lt s hx; omega
  · decide

theorem seatOwnShown_settle : seatOwnShown s.settle := by
  rw [seatOwnShown, settle_ownField, State.settle, State.reg_setReg_same, Nat.mod_eq_of_lt (ownField_lt s)]

theorem seatOwnShown_done (t : State) : seatOwnShown (s.done t) := seatOwnShown_settle t

end

/-- Settles O3: every command ends in a settled state, so its next state shows SEAT_OWN whether or not the state before it did. -/
theorem seatOwnInvariant : Obligations.SeatOwnInvariant := by
  intro s t hstep _
  obtain ⟨q, o, ho⟩ := step_eq_ended s
  obtain ⟨u, -, rfl⟩ := ended_eq_next _ _ _ (ho ▸ hstep)
  exact seatOwnShown_done _ u

end Sys2Proof.Machine
end

section
/-! PROOFS. The bytes of a packet spell the packet (R154, R155). -/
namespace Sys2Proof.Machine
open Sys2Proof

/-- The upper half of a packet's header, from SEQ up. -/
def headerHigh (p : Packet) : Nat :=
  p.acks.toNat * 2 ^ 128 + p.tis.toNat * 2 ^ 112 + p.dpid.toNat * 2 ^ 96 + p.inc.toNat * 2 ^ 80 + p.att.toNat * 2 ^ 72 + p.size.toNat * 2 ^ 62 +
  p.via.toNat * 2 ^ 56 + p.sgen.toNat * 2 ^ 48 + p.aux.toNat * 2 ^ 40 + p.ph.toNat * 2 ^ 38 + p.rsv.toNat * 2 ^ 32 + p.seq.toNat

/-- The lower half, up to FEP. -/
def headerLow (p : Packet) : Nat :=
  p.fep.toNat * 2 ^ 152 + p.gen.toNat * 2 ^ 144 + p.sseat.toNat * 2 ^ 128 + p.addr.toNat * 2 ^ 64 + p.ecrc.toNat * 2 ^ 32 + p.opc.toNat * 2 ^ 24 +
  p.lbl.toNat * 2 ^ 20 + p.ptype.toNat * 2 ^ 16 + p.len.toNat * 2 ^ 9 + p.hops.toNat * 2 ^ 6 + bit p.nm * 2 ^ 5 + p.sbrk.toNat * 2 ^ 3 +
  p.dbrk.toNat * 2 + bit p.opn

theorem packetHeader_eq (p : Packet) : packetHeader p = headerHigh p * 2 ^ 160 + headerLow p := by
  simp only [packetHeader, headerHigh, headerLow]
  omega

theorem headerHigh_lt (p : Packet) : headerHigh p < 2 ^ 160 := by
  simp only [headerHigh]
  omega

theorem headerLow_lt (p : Packet) : headerLow p < 2 ^ 160 := by
  have hnm := bit_lt_two p.nm
  have hopn := bit_lt_two p.opn
  simp only [headerLow]
  omega

theorem packetHeader_lt (p : Packet) : packetHeader p < 256 ^ 40 := by
  have hhigh := headerHigh_lt p
  have hlow := headerLow_lt p
  rw [packetHeader_eq]
  omega

/-- A field of the header is one of the half it lies in. -/
theorem bitsOf_packetHeader_high (p : Packet) (hi lo : Nat) : bitsOf (packetHeader p) (hi + 160) (lo + 160) = bitsOf (headerHigh p) hi lo := by
  have hhalf : packetHeader p / 2 ^ 160 = headerHigh p := by
    rw [packetHeader_eq, Nat.mul_comm, Nat.mul_add_div (by positivity), Nat.div_eq_of_lt (headerLow_lt p), Nat.add_zero]
  have hwidth : hi + 160 + 1 - (lo + 160) = hi + 1 - lo := by omega
  rw [bitsOf, Nat.add_comm lo, pow_add, Nat.add_comm 160, ← Nat.div_div_eq_div_mul, hhalf, hwidth, bitsOf]

theorem bitsOf_packetHeader_low (p : Packet) (hi lo : Nat) (hlo : lo ≤ hi) (h : hi < 160) :
    bitsOf (packetHeader p) hi lo = bitsOf (headerLow p) hi lo := by
  have hhalf : packetHeader p % 2 ^ 160 = headerLow p := by
    rw [packetHeader_eq, Nat.mul_comm, Nat.mul_add_mod, Nat.mod_eq_of_lt (headerLow_lt p)]
  have hwidth : 2 ^ 160 = 2 ^ lo * 2 ^ (160 - lo) := by
    rw [← pow_add]
    congr 1
    omega
  rw [bitsOf, bitsOf, ← hhalf, hwidth, Nat.mod_mul_right_div_self, Nat.mod_mod_of_dvd _ (pow_dvd_pow 2 (by omega))]

theorem headerHigh_fields (p : Packet) :
    bitsOf (headerHigh p) 159 128 = p.acks.toNat ∧ bitsOf (headerHigh p) 127 112 = p.tis.toNat ∧ bitsOf (headerHigh p) 111 96 = p.dpid.toNat ∧
    bitsOf (headerHigh p) 95 80 = p.inc.toNat ∧ bitsOf (headerHigh p) 79 72 = p.att.toNat ∧ bitsOf (headerHigh p) 71 62 = p.size.toNat ∧
    bitsOf (headerHigh p) 61 56 = p.via.toNat ∧ bitsOf (headerHigh p) 55 48 = p.sgen.toNat ∧ bitsOf (headerHigh p) 47 40 = p.aux.toNat ∧
    bitsOf (headerHigh p) 39 38 = p.ph.toNat ∧ bitsOf (headerHigh p) 37 32 = p.rsv.toNat ∧ bitsOf (headerHigh p) 31 0 = p.seq.toNat := by
  refine ⟨?_, ?_, ?_, ?_, ?_, ?_, ?_, ?_, ?_, ?_, ?_, ?_⟩ <;> simp only [headerHigh, bitsOf] <;> omega

theorem headerLow_fields (p : Packet) :
    bitsOf (headerLow p) 159 152 = p.fep.toNat ∧ bitsOf (headerLow p) 151 144 = p.gen.toNat ∧ bitsOf (headerLow p) 143 128 = p.sseat.toNat ∧
    bitsOf (headerLow p) 127 64 = p.addr.toNat ∧ bitsOf (headerLow p) 63 32 = p.ecrc.toNat ∧ bitsOf (headerLow p) 31 24 = p.opc.toNat ∧
    bitsOf (headerLow p) 23 20 = p.lbl.toNat ∧ bitsOf (headerLow p) 19 16 = p.ptype.toNat ∧ bitsOf (headerLow p) 15 9 = p.len.toNat ∧
    bitsOf (headerLow p) 8 6 = p.hops.toNat ∧ bitsOf (headerLow p) 5 5 = bit p.nm ∧ bitsOf (headerLow p) 4 3 = p.sbrk.toNat ∧
    bitsOf (headerLow p) 2 1 = p.dbrk.toNat ∧ bitsOf (headerLow p) 0 0 = bit p.opn := by
  have hnm := bit_lt_two p.nm
  have hopn := bit_lt_two p.opn
  refine ⟨?_, ?_, ?_, ?_, ?_, ?_, ?_, ?_, ?_, ?_, ?_, ?_, ?_, ?_⟩ <;> simp only [headerLow, bitsOf] <;> omega

/-- What follows the zeros is stripped of them and nothing else -/
theorem stripZeros_append_replicate {bs : Bytes} (h : bs.getLast? ≠ some 0) (n : Nat) : stripZeros (bs ++ List.replicate n 0) = bs := by
  have hzero : (List.replicate n (0 : Byte)).dropWhile (fun b => b == 0) = [] := List.dropWhile_eq_nil_iff.mpr (by simp)
  have hkeep : bs.reverse.dropWhile (fun b => b == 0) = bs.reverse := by
    cases hrev : bs.reverse with
    | nil => rfl
    | cons b rest =>
      have : bs.getLast? = some b := by rw [List.getLast?_eq_head?_reverse, hrev]; rfl
      rw [List.dropWhile_cons_of_neg]
      rintro hb
      exact h (by rw [this, beq_iff_eq.mp hb])
  rw [stripZeros, List.reverse_append, List.reverse_replicate, List.dropWhile_append, hzero, List.isEmpty_nil, if_pos rfl, hkeep, List.reverse_reverse]

theorem padTo_of_le {n : Nat} {bs : Bytes} (h : bs.length ≤ n) : padTo n bs = bs ++ List.replicate (n - bs.length) 0 :=
  List.take_of_length_le (by rw [List.length_append, List.length_replicate]; omega)

theorem packetBytes_header (p : Packet) : leNat ((packetBytes p).take 40) = packetHeader p := by
  rw [packetBytes, List.take_left' (length_leBytes _ _), leNat_leBytes, Nat.mod_eq_of_lt (packetHeader_lt p)]

theorem packetBytes_area {p : Packet} (hfit : p.payload.length + p.pad.length ≤ 8 * (p.len.toNat - 5)) :
    (packetBytes p).drop 40 = p.payload ++ (p.pad ++ List.replicate (8 * (p.len.toNat - 5) - (p.payload.length + p.pad.length)) 0) := by
  rw [packetBytes, List.drop_left' (length_leBytes _ _), padTo_of_le (by rwa [List.length_append]), List.length_append, List.append_assoc]

/-- The two fields of one bit are read as flags. -/
theorem packetHeader_flags (p : Packet) : bitOf (packetHeader p) 5 = p.nm ∧ bitOf (packetHeader p) 0 = p.opn := by
  obtain ⟨-, -, -, -, -, -, -, -, -, -, hnm, -, -, hopn⟩ := headerLow_fields p
  exact ⟨bitOf_eq_of_bit ((bitsOf_packetHeader_low p 5 5 le_rfl (by decide)).trans hnm),
    bitOf_eq_of_bit ((bitsOf_packetHeader_low p 0 0 le_rfl (by decide)).trans hopn)⟩

/-- Settles O6. The header's fields are read from its two halves; the payload and the padding from what follows it. -/
theorem packetRoundTrip : Obligations.PacketRoundTrip := by
  intro p hsize hfit hpad
  obtain ⟨hacks, htis, hdpid, hinc, hatt, hsz, hvia, hsgen, haux, hph, hrsv, hseq⟩ := headerHigh_fields p
  obtain ⟨hfep, hgen, hsseat, haddr, hecrc, hopc, hlbl, hptype, hlen, hhops, -, hsbrk, hdbrk, -⟩ := headerLow_fields p
  obtain ⟨hnm, hopn⟩ := packetHeader_flags p
  simp only [packetOf, packetBytes_header, packetBytes_area hfit, bitsOf_packetHeader_high, bitsOf_packetHeader_low, Nat.reduceLeDiff, Nat.reduceLT,
    hacks, htis, hdpid, hinc, hatt, hsz, hvia, hsgen, haux, hph, hrsv, hseq, hfep, hgen, hsseat, haddr, hecrc, hopc, hlbl, hptype, hlen, hhops,
    hnm, hsbrk, hdbrk, hopn, ← hsize, List.take_left, List.drop_left, stripZeros_append_replicate hpad, BitVec.ofNat_toNat, BitVec.setWidth_eq]

end Sys2Proof.Machine
end

section
/-! PROOFS. Writes of the seat table, casts, the end of the quarantine and the transport timeouts (R173 to R177, R183, R203, R204, R215, R939). -/
namespace Sys2Proof.Machine
open Sys2Proof

theorem exec_seatCast (v : Word) (wide : Bool) (s : State) : exec (.seatCast v wide) s = execSeatCast v wide s := rfl
theorem exec_seatTblWrite (seat : BitVec 16) (entry : BitVec 32) (s : State) : exec (.seatTblWrite seat entry) s = execSeatTblWrite seat entry s := rfl
theorem exec_castReceive (b : Brick) (p : Packet) (s : State) : exec (.castReceive b p) s = execCastReceive b p s := rfl
theorem exec_incarnationQuarantineEnd (s : State) : exec .incarnationQuarantineEnd s = execIncarnationQuarantineEnd s := rfl
theorem exec_mrtTtmoWrite (b : Brick) (v : Word) (s : State) : exec (.mrtTtmoWrite b v) s = execMrtTtmoWrite b v s := rfl

@[simp] theorem State.takeArrived_tooOld (s : State) (b c : Brick) (p q : Packet) : (s.takeArrived b p).tooOld c q = s.tooOld c q := rfl

/-! ### Entries that name nobody (R176) -/

/-- The state of the entry that the low half of a write of SEAT_CAST carries. -/
theorem entryState_cast (v : Nat) : entryState (bitsOf v 31 0) = bitsOf v 7 6 := by
  simp only [entryState, bitsOf]
  omega

theorem writeSeat_of_nobody {seat entry : Nat} (s : State) (h : entryState entry = 3) : writeSeat seat entry s = s := by simp [writeSeat, h]

theorem castEntry_of_nobody {v : Nat} (wide : Bool) (s : State) (h : bitsOf v 7 6 = 3 ∨ bitsOf v 47 32 = 0xFFFF) : castEntry v wide s = s := by
  rw [← entryState_cast] at h
  rcases h with h | h <;> simp [castEntry, h]

section
variable {s : State} {b : Brick} {p : Packet} (harr : (s.brick b).arrived.contains p = true) (htype : p.ptype.toNat = ptCast)
  (hsound : packetSound p = true) (hsize : p.size = 8) (hold : s.tooOld b p = false)
include harr htype hsound hsize hold

/-- A cast that names nobody is taken and told of, and nothing else (R176). -/
theorem does_castReceive_of_nobody (h : bitsOf (leNat ((p.payload.drop 4).take 4)) 7 6 = 3 ∨ leNat (p.payload.take 2) = 0xFFFF) :
    Does (.castReceive b p) s ((s.takeArrived b p).raise 0x1109 [b.val]) := by
  have hnobody : entryState (leNat ((p.payload.drop 4).take 4)) = 3 ∨ leNat (p.payload.take 2) = 0xFFFF := h
  simp [Does, exec_castReceive, execCastReceive, List.contains_iff_mem.mp harr, htype, hsound, hsize, hold, hnobody]

/-- A cast that is newer is applied, and goes on by the other ports (R177). -/
theorem does_castReceive_of_applied {t : State} (hstate : bitsOf (leNat ((p.payload.drop 4).take 4)) 7 6 ≠ 3) (hseat : leNat (p.payload.take 2) ≠ 0xFFFF)
    (happ : applyCast (leNat (p.payload.take 2)) (leNat ((p.payload.drop 4).take 4)) (s.takeArrived b p) = some t) :
    Does (.castReceive b p) s (flood { p with via := 0 } (some p.via.toNat) t) := by
  have hstate' : entryState (leNat ((p.payload.drop 4).take 4)) ≠ 3 := hstate
  simp [Does, exec_castReceive, execCastReceive, List.contains_iff_mem.mp harr, htype, hsound, hsize, hold, hstate', hseat, happ]

end

/-- Settles O12: `writeSeat` and `castEntry` answer the state they were given, and a received cast is refused before its entry is applied. -/
theorem nobodysSeatEntries : Obligations.NobodysSeatEntries := by
  intro s v wide seat entry b p
  refine ⟨fun h => ?_, fun h => ?_, does_castReceive_of_nobody⟩
  · rw [Does, exec_seatCast, execSeatCast, castEntry_of_nobody wide s h, ended_next]
  · rw [Does, exec_seatTblWrite, execSeatTblWrite, writeSeat_of_nobody s h, ended_next]

/-! ### The seat table (R173, R177, R215) -/

theorem State.done_seatEntry (s t : State) (x : Nat) : (s.done t).seatEntry x = t.seatEntry x := settle_seatEntry t x

@[simp] theorem State.seatConflict_seatEntry (s : State) (x : Nat) : s.seatConflict.seatEntry x = s.seatEntry x := by
  rw [State.seatConflict]
  split
  · rfl
  · rfl

/-- The table with an entry put in, and told of where the package's seats change (R174). -/
def putEntry (seat entry : Nat) (s : State) : State :=
  let t := s.wr (Reg.SEAT_TBL_ENTRY seat) (entry / 64 * 64)
  if t.seatsNamed = s.seatsNamed then t else t.seatConflict

theorem writeSeat_eq {seat entry : Nat} (s : State) (hstate : entryState entry ≠ 3) (hseat : seat < 0xFFFF) :
    writeSeat seat entry s = putEntry seat entry
      (if (entryHolder (s.seatEntry seat)).isSome && entryHolder (s.seatEntry seat) ≠ entryHolder entry then remapSeat seat s else s) := by
  simp only [writeSeat, hstate, Nat.not_le.mpr hseat, decide_false, Bool.or_self, Bool.false_eq_true, if_false]
  rfl

/-- An entry put in is read as it was put in, less its reserved bits. -/
theorem putEntry_same (s : State) (seat : Nat) {entry : Nat} (h : entry < 2 ^ 32) : (putEntry seat entry s).seatEntry seat = entry / 64 * 64 := by
  have hwr : (s.wr (Reg.SEAT_TBL_ENTRY seat) (entry / 64 * 64)).seatEntry seat = entry / 64 * 64 := by
    rw [State.seatEntry, State.rd_wr_same _ _ _ (by simp [Reg.SEAT_TBL_ENTRY]) (by simp [Reg.SEAT_TBL_ENTRY]), Nat.mod_eq_of_lt]
    simp only [Reg.SEAT_TBL_ENTRY]
    omega
  rw [putEntry, apply_ite (State.seatEntry · seat), State.seatConflict_seatEntry, ite_self, hwr]

/-- The other entries stay. -/
theorem putEntry_other (s : State) {seat x : Nat} (entry : Nat) (h : x ≠ seat) : (putEntry seat entry s).seatEntry x = s.seatEntry x := by
  have hreg : (Reg.SEAT_TBL_ENTRY x).reg ≠ (Reg.SEAT_TBL_ENTRY seat).reg := by
    simp only [Reg.SEAT_TBL_ENTRY, Reg.SEAT_TBL, pkgReg]
    omega
  rw [putEntry, apply_ite (State.seatEntry · x), State.seatConflict_seatEntry, ite_self, State.seatEntry, State.rd_wr_other _ _ _ _ hreg, State.seatEntry]

/-- Nothing but registers and events changes. -/
theorem putEntry_frame (seat entry : Nat) (s : State) : ∃ regs events, putEntry seat entry s = { s with regs := regs, events := events } := by
  simp only [putEntry, State.seatConflict]
  split
  · exact ⟨_, _, rfl⟩
  · split
    · exact ⟨_, _, rfl⟩
    · exact ⟨_, _, rfl⟩

theorem does_seatTblWrite {seat : BitVec 16} {entry : BitVec 32} (s : State) (hseat : seat ≠ 0xFFFF) (hstate : bitsOf entry.toNat 7 6 ≠ 3) :
    Does (.seatTblWrite seat entry) s (putEntry seat.toNat entry.toNat
      (if (entryHolder (s.seatEntry seat.toNat)).isSome && entryHolder (s.seatEntry seat.toNat) ≠ entryHolder entry.toNat then
        remapSeat seat.toNat s else s)) := by
  have hlt : seat.toNat < 0xFFFF := by bv_omega
  rw [Does, exec_seatTblWrite, execSeatTblWrite, writeSeat_eq s hstate hlt, ended_next]

/-- What a direct write leaves (R215). -/
theorem leaves_seatTblWrite {seat : BitVec 16} {entry : BitVec 32} (s : State) (hseat : seat ≠ 0xFFFF) (hstate : bitsOf entry.toNat 7 6 ≠ 3) :
    Leaves (.seatTblWrite seat entry) s (fun u => u.seatEntry seat.toNat = entry.toNat / 64 * 64 ∧
      (entryHolder (s.seatEntry seat.toNat) = none ∨ entryHolder (s.seatEntry seat.toNat) = entryHolder entry.toNat →
        (∀ x, x < 65535 → x ≠ seat.toNat → u.seatEntry x = s.seatEntry x) ∧ u.mem = s.mem ∧ u.ports = s.ports ∧ u.bricks = s.bricks ∧ u.tiles = s.tiles)) := by
  refine ⟨_, does_seatTblWrite s hseat hstate, ?_, fun hkeep => ?_⟩
  · rw [State.done_seatEntry, putEntry_same _ _ entry.isLt]
  · rw [if_neg (by rcases hkeep with h | h <;> simp [h])]
    obtain ⟨regs, events, hframe⟩ := putEntry_frame seat.toNat entry.toNat s
    refine ⟨fun x _ hx => ?_, ?_⟩
    · rw [State.done_seatEntry, putEntry_other s _ hx]
    · rw [State.done_mem, State.done_ports, State.done_bricks, State.done_tiles, hframe]
      exact ⟨rfl, rfl, rfl, rfl⟩

/-! ### Casts (R177, R939) -/

theorem does_seatCast_of_applied {v : Word} {s t : State} (hstate : bitsOf v.toNat 7 6 ≠ 3) (hseat : bitsOf v.toNat 47 32 ≠ 0xFFFF)
    (happ : applyCast (bitsOf v.toNat 47 32) (bitsOf v.toNat 31 0) s = some t) :
    Does (.seatCast v true) s (flood (t.form (castPacket t (bitsOf v.toNat 47 32) (bitsOf v.toNat 31 0))) none t) := by
  rw [← entryState_cast] at hstate
  simp [Does, exec_seatCast, execSeatCast, castEntry, hstate, hseat, happ]

/-! ### The end of the quarantine (R183) -/

/-- A change of every brick changes each of them, -/
theorem onBrick_all (s : State) (f : BrickState → BrickState) (b : Brick) :
    (s.each ([0, 1, 2, 3] : List Brick) (fun s b => s.onBrick b f)).brick b = f (s.brick b) := by
  simp only [State.each, List.foldl_cons, List.foldl_nil]
  fin_cases b <;> simp [State.onBrick_brick_other]

/-- and nothing else. -/
theorem onBrick_all_frame (s : State) (f : BrickState → BrickState) :
    ∃ bricks, s.each ([0, 1, 2, 3] : List Brick) (fun s b => s.onBrick b f) = { s with bricks := bricks } := ⟨_, rfl⟩

theorem does_incarnationQuarantineEnd (s : State) : Does .incarnationQuarantineEnd s
    (s.each ([0, 1, 2, 3] : List Brick) (fun s b => s.onBrick b (fun B => { B with quarantine := false }))) := by
  rw [Does, exec_incarnationQuarantineEnd, execIncarnationQuarantineEnd, ended_next]

theorem leaves_incarnationQuarantineEnd (s : State) : Leaves .incarnationQuarantineEnd s (fun u =>
    (∀ d : Brick, (u.brick d).quarantine = false ∧ { u.brick d with quarantine := true } = { s.brick d with quarantine := true }) ∧
    u.ports = s.ports ∧ u.tiles = s.tiles ∧ u.mem = s.mem ∧ u.events = s.events) := by
  refine ⟨_, does_incarnationQuarantineEnd s, fun d => ?_, ?_⟩
  · have hd := onBrick_all s (fun B => { B with quarantine := false }) d
    rw [State.brick, State.done_bricks, ← State.brick, hd]
    exact ⟨rfl, rfl⟩
  · obtain ⟨bricks, hframe⟩ := onBrick_all_frame s (fun B => { B with quarantine := false })
    rw [State.done_ports, State.done_tiles, State.done_mem, State.done_events, hframe]
    exact ⟨rfl, rfl, rfl, rfl⟩

/-! ### The transport timeouts (R203, R204, R213) -/

theorem State.wr_reg_other (s : State) (f : FieldRef) (v : Nat) {off : Nat} (h : off ≠ f.reg) : (s.wr f v).reg off = s.reg off :=
  State.reg_setReg_other s f.reg off _ h

theorem State.done_reg_other (s t : State) {off : Nat} (h : off ≠ Reg.SEAT_OWN) : (s.done t).reg off = t.reg off :=
  State.reg_setReg_other t Reg.SEAT_OWN off _ h

theorem nestingRefused_frame (b : Brick) (s : State) :
    (nestingRefused b s).mem = s.mem ∧ (nestingRefused b s).bricks = s.bricks ∧ (nestingRefused b s).ports = s.ports :=
  ⟨(State.raise_mem ..).trans (State.flag_mem ..), (State.raise_bricks ..).trans (State.flag_bricks ..),
    (State.raise_ports ..).trans (State.flag_ports ..)⟩

/-- The register MRT_TTMO of the register map. -/
def ttmoSpec : RegSpec :=
  ⟨"MRT_TTMO", 0x10000, 64, 0x100000, 1, 0x100000, 1,
    [⟨47, 32, .rw, 0x3e8, .upto 100 8000⟩, ⟨31, 28, .rw, 4, .upto 1 15⟩, ⟨19, 0, .rw, 0x190, .upto 0x28 0x186A0⟩]⟩

theorem regAt_ttmo (b : Brick) : regAt (Reg.MRT_TTMO b) = some (ttmoSpec, Reg.MRT_TTMO b) := by revert b; decide

theorem regScope_ttmo (b : Brick) : regScope (Reg.MRT_TTMO b) = (.brick b.val 0, 0x10000) := by revert b; decide

theorem ttmo_ne_seatOwn (b : Brick) : Reg.MRT_TTMO b ≠ Reg.SEAT_OWN := by revert b; decide

theorem ttmo_ne_terr (b : Brick) : Reg.MRT_TTMO b ≠ Reg.MRT_TERR b := by revert b; decide

theorem pctlPoint_ttmo (b : Brick) : pctlPoint (Reg.MRT_TTMO b) = none := by revert b; decide

theorem brickOf_val (b : Brick) : brickOf b.val = b := Fin.ext (Nat.mod_eq_of_lt b.isLt)

/-- What a field of MRT_TTMO reads once a command has set the register. -/
theorem done_rd_ttmo {b : Brick} (s : State) (v hi lo : Nat) (h : hi < 64) :
    (s.done (s.setReg (Reg.MRT_TTMO b) v)).rd ⟨Reg.MRT_TTMO b, hi, lo⟩ = bitsOf v hi lo := by
  rw [State.done_rd_other _ _ (ttmo_ne_seatOwn b), State.rd, State.reg_setReg_same, bitsOf_mod64 _ _ _ h]

/-- What a write of `v` gives MRT_TTMO of brick `b`, field by field. -/
def ttmoNew (b : Brick) (v : Nat) (s : State) : Nat := ttmoSpec.write s.sealed (s.reg (Reg.MRT_TTMO b)) v allBits

theorem land_allBits {v : Nat} (h : v < 2 ^ 64) : Nat.land v allBits = v := by
  rw [Nat.land_eq, allBits, Nat.and_two_pow_sub_one_eq_mod, Nat.mod_eq_of_lt h]

/-- A write of MRT_TTMO keeps the budgets, or leaves the register as it was (R203, R204). -/
theorem writeReg_ttmo (src : RegSource) (b : Brick) (v : Word) (e : MemEnv) (s : State) :
    writeReg src (Reg.MRT_TTMO b) 8 v.toNat e s =
      if te2eCovers s b (bitsOf (ttmoNew b v.toNat s) 19 0) && nestingOk (ttmoNew b v.toNat s) (s.reg (Reg.MRT_TFLOW b)) then
        s.setReg (Reg.MRT_TTMO b) (ttmoNew b v.toNat s)
      else nestingRefused b s := by
  have hcast : Reg.MRT_TTMO b ≠ Reg.SEAT_CAST := by revert b; decide
  have hsealed : ∀ old w mask, ttmoSpec.writesSealed old w mask = false := fun _ _ _ => rfl
  have hfixed : ∀ new, brickFixed s b 0 0x10000 (Reg.MRT_TTMO b) new = 0 := fun _ => rfl
  have hwidth : ttmoSpec.width = 64 := rfl
  rw [writeReg, if_neg (by decide), regAt_ttmo]
  dsimp only
  rw [if_pos hwidth, if_neg hcast, writeAt, regScope_ttmo]
  simp only [hsealed, brickOf_val, hfixed, pctlPoint_ttmo, land_allBits v.isLt, Bool.and_false, Bool.false_eq_true, if_false, if_true, Nat.sub_zero]
  rfl

/-- An RW field that a write covers takes the value written, where its rule lets it. -/
theorem FieldSpec.write_of_allowed {f : FieldSpec} {mask v : Nat} (hmask : bitsOf mask f.hi f.lo = 2 ^ (f.hi + 1 - f.lo) - 1) (hle : f.lo ≤ f.hi)
    (hacc : f.acc = .rw) (hrule : f.rule.apply (bitsOf v f.hi f.lo) = some (bitsOf v f.hi f.lo)) (closed : Bool) (old cur : Nat) :
    f.write closed old v mask cur = withBits cur f.hi f.lo (bitsOf v f.hi f.lo) := by
  have hsome : 2 ^ (f.hi + 1 - f.lo) - 1 ≠ 0 := by
    have := Nat.one_lt_two_pow (n := f.hi + 1 - f.lo) (by omega)
    omega
  simp [FieldSpec.write, hacc, hrule, hmask, hsome]

/-- A field of MRT_TTMO that is written in range reads what was written. -/
theorem ttmoNew_field (b : Brick) {v : Nat} (s : State) {f : FieldSpec} (hf : f ∈ ttmoSpec.fields)
    (hrule : f.rule.apply (bitsOf v f.hi f.lo) = some (bitsOf v f.hi f.lo)) : bitsOf (ttmoNew b v s) f.hi f.lo = bitsOf v f.hi f.lo := by
  have hlaid := wellLaid_of_regAt (regAt_ttmo b)
  obtain ⟨hle, h64⟩ := hlaid.1 f hf
  have hacc : f.acc = .rw := (by decide : ∀ f ∈ ttmoSpec.fields, f.acc = .rw) f hf
  rw [ttmoNew, RegSpec.bitsOf_write hlaid hf, FieldSpec.write_of_allowed (mask := allBits) (bitsOf_ones _ _ h64) hle hacc hrule,
    bitsOf_withBits_same _ _ _ _ (by omega), bitsOf_mod_width]

section
variable {s : State} {b : Brick} {v : Word} (hon : uncoreOn s b = true) (hlo : 0x28 ≤ bitsOf v.toNat 19 0) (hhi : bitsOf v.toNat 19 0 ≤ 0x186A0)
  (hmost : 1 ≤ bitsOf v.toNat 31 28) (hplo : 100 ≤ bitsOf v.toNat 47 32) (hphi : bitsOf v.toNat 47 32 ≤ 8000)
include hlo hhi hmost hplo hphi

/-- Every field of MRT_TTMO takes a write in range. -/
theorem ttmoNew_fields : bitsOf (ttmoNew b v.toNat s) 19 0 = bitsOf v.toNat 19 0 ∧ bitsOf (ttmoNew b v.toNat s) 31 28 = bitsOf v.toNat 31 28 ∧
    bitsOf (ttmoNew b v.toNat s) 47 32 = bitsOf v.toNat 47 32 := by
  have hmost' : bitsOf v.toNat 31 28 ≤ 15 := Nat.lt_succ_iff.mp (bitsOf_lt v.toNat 31 28)
  refine ⟨ttmoNew_field (f := ⟨19, 0, .rw, 0x190, .upto 0x28 0x186A0⟩) b s (by decide) ?_,
    ttmoNew_field (f := ⟨31, 28, .rw, 4, .upto 1 15⟩) b s (by decide) ?_,
    ttmoNew_field (f := ⟨47, 32, .rw, 0x3e8, .upto 100 8000⟩) b s (by decide) ?_⟩
  · simp [WriteRule.apply, hlo, hhi]
  · simp [WriteRule.apply, hmost, hmost']
  · simp [WriteRule.apply, hplo, hphi]

include hon

/-- A write in range is taken where it keeps the budgets, and else refused (R203, R204). -/
theorem does_mrtTtmoWrite : Does (.mrtTtmoWrite b v) s
    (if te2eCovers s b (bitsOf v.toNat 19 0) && decide (bitsOf v.toNat 47 32 * 10 < 256 * bitsOf v.toNat 19 0) &&
        decide (bitsOf v.toNat 47 32 ≤ s.rd (Reg.MRT_TFLOW_FIDLE b)) then
      s.setReg (Reg.MRT_TTMO b) (ttmoNew b v.toNat s)
    else nestingRefused b s) := by
  obtain ⟨hte2e, -, hplife⟩ := ttmoNew_fields (s := s) (b := b) hlo hhi hmost hplo hphi
  rw [Does, exec_mrtTtmoWrite, execMrtTtmoWrite, hon, if_pos rfl, writeReg_ttmo, nestingOk, hte2e, hplife, ended_next, Bool.and_assoc]
  rfl

theorem leaves_mrtTtmoWrite_of_nested (hcover : te2eCovers s b (bitsOf v.toNat 19 0) = true) (hnest : bitsOf v.toNat 47 32 * 10 < 256 * bitsOf v.toNat 19 0)
    (hidle : bitsOf v.toNat 47 32 ≤ s.rd (Reg.MRT_TFLOW_FIDLE b)) : Leaves (.mrtTtmoWrite b v) s (fun u =>
      u.rd (Reg.MRT_TTMO_TE2E b) = bitsOf v.toNat 19 0 ∧ u.rd (Reg.MRT_TTMO_PROBEMAX b) = bitsOf v.toNat 31 28 ∧
      u.rd (Reg.MRT_TTMO_PLIFE b) = bitsOf v.toNat 47 32 ∧ u.events = s.events ∧ u.mem = s.mem ∧ u.bricks = s.bricks ∧ u.ports = s.ports) := by
  obtain ⟨hte2e, hprobe, hplife⟩ := ttmoNew_fields (s := s) (b := b) hlo hhi hmost hplo hphi
  have hdoes := does_mrtTtmoWrite hon hlo hhi hmost hplo hphi
  rw [if_pos (by simp [hcover, hnest, hidle])] at hdoes
  refine ⟨_, hdoes, (done_rd_ttmo s _ 19 0 (by decide)).trans hte2e, (done_rd_ttmo s _ 31 28 (by decide)).trans hprobe,
    (done_rd_ttmo s _ 47 32 (by decide)).trans hplife, ?_⟩
  rw [State.done_events, State.done_mem, State.done_bricks, State.done_ports]
  exact ⟨State.setReg_events .., State.setReg_mem .., State.setReg_bricks .., State.setReg_ports ..⟩

theorem leaves_mrtTtmoWrite_of_broken (h : te2eCovers s b (bitsOf v.toNat 19 0) = false ∨ 256 * bitsOf v.toNat 19 0 ≤ bitsOf v.toNat 47 32 * 10 ∨
      s.rd (Reg.MRT_TFLOW_FIDLE b) < bitsOf v.toNat 47 32) : Leaves (.mrtTtmoWrite b v) s (fun u =>
      u.reg (Reg.MRT_TTMO b) = s.reg (Reg.MRT_TTMO b) ∧ lastEvent u 0x110C [b.val] ∧ u.mem = s.mem ∧ u.bricks = s.bricks ∧ u.ports = s.ports) := by
  have hdoes := does_mrtTtmoWrite hon hlo hhi hmost hplo hphi
  rw [if_neg (by rcases h with h | h | h <;> simp [h])] at hdoes
  refine ⟨_, hdoes, ?_, ?_, ?_⟩
  · rw [State.done_reg_other _ _ (ttmo_ne_seatOwn b), nestingRefused, State.raise_reg, State.flag,
      State.wr_reg_other _ _ _ (by simpa only [Reg.MRT_TERR_CFG] using ttmo_ne_terr b)]
  · rw [lastEvent, State.done_events, nestingRefused, State.raise_events, List.getLast?_concat]
    rfl
  · rw [State.done_mem, State.done_bricks, State.done_ports]
    exact nestingRefused_frame b s

end

/-- Settles O13, clause by clause, from what each command does (`does_…`) and leaves (`leaves_…`). -/
theorem seatCommands : Obligations.SeatCommands := by
  intro s b
  refine ⟨fun seat entry => leaves_seatTblWrite s, fun v t => does_seatCast_of_applied, fun seat entry => ⟨rfl, rfl, rfl, rfl, rfl, rfl⟩,
    fun seat entry _ _ => ?_, fun p t harr htype hsound hsize hold => does_castReceive_of_applied harr htype hsound hsize hold,
    leaves_incarnationQuarantineEnd s, fun v hon hlo hhi hmost hplo hphi => ⟨leaves_mrtTtmoWrite_of_nested hon hlo hhi hmost hplo hphi,
      leaves_mrtTtmoWrite_of_broken hon hlo hhi hmost hplo hphi⟩⟩
  rw [applyCast]
  refine if_congr ?_ rfl rfl
  rw [Bool.and_eq_true, decide_eq_true_eq, decide_eq_true_eq]
  rfl

end Sys2Proof.Machine
end

section
/-! PROOFS. Packets that the routing tables send on, that wait, and that are discarded (R164, R166, R171, R184). -/
namespace Sys2Proof.Machine
open Sys2Proof

theorem exec_packetRoute (b : Brick) (p : Packet) (draw : Nat) (s : State) : exec (.packetRoute b p draw) s = execPacketRoute b p draw s := rfl
theorem exec_waitingPacketSend (b : Brick) (s : State) : exec (.waitingPacketSend b) s = execWaitingPacketSend b s := rfl
theorem exec_waitingPacketAgeOut (b : Brick) (s : State) : exec (.waitingPacketAgeOut b) s = execWaitingPacketAgeOut b s := rfl

theorem State.onBrick_congr (s : State) {b : Brick} {f g : BrickState → BrickState} (h : f (s.brick b) = g (s.brick b)) :
    s.onBrick b f = s.onBrick b g := by
  rw [State.brick] at h
  rw [State.onBrick, h, State.onBrick]

/-- A packet leaves the list of those that have no route decided. -/
def State.takeRouted (s : State) (b : Brick) (p : Packet) : State := s.onBrick b (fun B => { B with routeQ := B.routeQ.erase p })

section
variable {b : Brick} {p : Packet} {s : State}

/-- A packet that is not too old, of a type that is routed and with hops left, goes where the routing tables decide (R166). -/
theorem does_packetRoute_of_fresh (draw : Nat) (htype : p.ptype.toNat ≠ 0) (hcast : p.ptype.toNat < ptCast)
    (hhops : p.hops.toNat = 7 → p.dpid.toNat = (s.takeRouted b p).ownPid)
    (hage : p.hops = 0 ∨ (s.takeRouted b p).tooOld b p = false) :
    Does (.packetRoute b p draw) s (carryOut b p (decideRoute (s.takeRouted b p) b p draw (decide (p.hops = 0)))
      (s.takeRouted b p)) := by
  rw [Does, exec_packetRoute, execPacketRoute, ← State.takeRouted]
  generalize s.takeRouted b p = s1 at hhops hage ⊢
  have hold : (!decide (p.hops = 0) && s1.tooOld b p) = false := by rcases hage with h | h <;> simp [h]
  have hknown : (decide (p.ptype.toNat = 0) || decide (ptCast < p.ptype.toNat)) = false := by simp [htype, hcast.le]
  have hspent : (decide (p.hops = 7) && decide (p.dpid.toNat ≠ s1.ownPid)) = false := by
    by_cases h : p.hops = 7
    · simp [hhops (by rw [h]; rfl)]
    · rw [decide_eq_false h, Bool.false_and]
  simp only [hold, hknown, hspent, hcast.ne, Bool.false_eq_true, if_false, ended_next]

/-- A packet of another package that is too old is discarded (R184). -/
theorem does_packetRoute_of_old (draw : Nat) (hhops : p.hops ≠ 0)
    (hold : (s.takeRouted b p).tooOld b p = true) :
    Does (.packetRoute b p draw) s ((s.takeRouted b p).agedOut b) := by
  rw [Does, exec_packetRoute, execPacketRoute, ← State.takeRouted]
  simp only [hhops, hold, decide_false, Bool.not_false, Bool.and_self, if_true, ended_next]

theorem portOf_val (q : Port) : portOf q.val = q := Fin.ext (Nat.mod_eq_of_lt q.isLt)

/-- A packet that goes minimally by a port of its own brick joins the port's transmit queue as it stands (R164, R168). -/
theorem carryOut_send_own {q : Port} (hq : portBrick q = b) (hnm : p.nm = false) (hph : p.ph ≠ 3) :
    carryOut b p (.send q.val false none) s =
      markLeft b p (enqueue (.port q) p (s.onBrick b (fun B => { B with noRoute := B.noRoute.erase p.dpid.toNat }))) := by
  have hvia : viaOf s p none = p := by simp [viaOf, hnm]
  simp only [carryOut, hph, if_false, decide_false, Bool.false_and, Bool.false_eq_true, hvia, toPort, portOf_val, hq, if_true]

/-- The one packet that waits goes once it can (R171). -/
theorem does_waitingPacketSend_of_canGo (hwait : (s.brick b).waitPkts = [p]) (htype : p.ptype.toNat ≠ ptCast) (hgo : canGo s b p = true) :
    Does (.waitingPacketSend b) s (carryOut b p (decideRoute s b p 0 false) (s.onBrick b (fun B => { B with waitPkts := [] }))) := by
  have hrest : s.onBrick b (fun B => { B with waitPkts := B.waitPkts.erase p }) = s.onBrick b (fun B => { B with waitPkts := [] }) :=
    s.onBrick_congr (by rw [hwait, List.erase_cons_head])
  simp only [Does, exec_waitingPacketSend, execWaitingPacketSend, hwait, List.find?_singleton, hgo, if_true, htype, if_false, ended_next]
  rw [hrest]

theorem does_waitingPacketAgeOut (h : (s.brick b).waitPkts.find? (fun p => !ownUnsent b p && s.tooOld b p) = some p) :
    Does (.waitingPacketAgeOut b) s ((s.onBrick b (fun B => { B with waitPkts := B.waitPkts.erase p })).agedOut b) := by
  simp only [Does, exec_waitingPacketAgeOut, execWaitingPacketAgeOut, h, ended_next]

end

/-- Settles O18, a clause for each way of a packet: routed, aged out, put in a port's queue, sent once it can go. -/
theorem routingCommands : Obligations.RoutingCommands := fun _ _ _ draw =>
  ⟨does_packetRoute_of_fresh draw, does_packetRoute_of_old draw, fun _ => carryOut_send_own, does_waitingPacketSend_of_canGo, does_waitingPacketAgeOut⟩

end Sys2Proof.Machine
end

section
/-! PROOFS. What a source brick keeps of its operations, and how a flow takes and sends one (R180, R181). -/
namespace Sys2Proof.Machine
open Sys2Proof

/-! ### What a source brick keeps -/

/-- What a brick keeps of the operations it has issued: its source flows, the requests that wait, and the packets that have no route decided. -/
def BrickState.source (B : BrickState) : List SrcFlow × List WaitOp × List Packet := (B.srcFlows, B.waitOps, B.routeQ)

/-- What the bricks keep of their operations, with memory and the ports. -/
def State.source (s : State) : List Host.Cell × Vector Link 24 × Vector (List SrcFlow × List WaitOp × List Packet) 4 :=
  (s.mem, s.ports, s.bricks.map BrickState.source)

section
variable {s t : State}

theorem source_mem (h : t.source = s.source) : t.mem = s.mem := congrArg Prod.fst h
theorem source_ports (h : t.source = s.source) : t.ports = s.ports := congrArg (fun x => x.2.1) h

theorem source_brick (h : t.source = s.source) (b : Brick) : (t.brick b).source = (s.brick b).source := by
  have hb := congrArg (fun x => x.2.2[b]) h
  simpa [State.source, State.brick] using hb

theorem source_flow (h : t.source = s.source) (b : Brick) (i : FlowId) : t.flow b i = s.flow b i := by
  have : (t.brick b).srcFlows = (s.brick b).srcFlows := congrArg Prod.fst (source_brick h b)
  rw [State.flow, this, State.flow]

theorem source_waitOps (h : t.source = s.source) (b : Brick) : (t.brick b).waitOps = (s.brick b).waitOps := congrArg (fun x => x.2.1) (source_brick h b)
theorem source_routeQ (h : t.source = s.source) (b : Brick) : (t.brick b).routeQ = (s.brick b).routeQ := congrArg (fun x => x.2.2) (source_brick h b)

end

theorem source_congr {s t : State} (hmem : t.mem = s.mem) (hports : t.ports = s.ports) (hbricks : t.bricks = s.bricks) : t.source = s.source := by
  rw [State.source, hmem, hports, hbricks, State.source]

section
variable (s : State)

@[simp] theorem source_wr (f : FieldRef) (v : Nat) : (s.wr f v).source = s.source := source_congr (State.wr_mem ..) (State.wr_ports ..) (State.wr_bricks ..)
@[simp] theorem source_flag (f : FieldRef) : (s.flag f).source = s.source := source_wr s f 1
@[simp] theorem source_count (f : FieldRef) (n : Nat) : (s.count f n).source = s.source := source_wr s f _
@[simp] theorem source_raise (code : Nat) (args : List Nat) : (s.raise code args).source = s.source :=
  source_congr (State.raise_mem ..) (State.raise_ports ..) (State.raise_bricks ..)

@[simp] theorem source_emit (o : Output) : (s.emit o).source = s.source := source_congr (State.emit_mem ..) (State.emit_ports ..) (State.emit_bricks ..)
@[simp] theorem source_onTile (t : Tile) (f : TileState → TileState) : (s.onTile t f).source = s.source :=
  source_congr (State.onTile_mem ..) (State.onTile_ports ..) (State.onTile_bricks ..)

@[simp] theorem source_onSlot (t : Tile) (k : Nat) (f : Slot → Slot) : (s.onSlot t k f).source = s.source := source_onTile s t _
theorem source_done (t : State) : (s.done t).source = t.source := source_congr (State.done_mem ..) (State.done_ports ..) (State.done_bricks ..)
theorem source_results (rs : List Result) : ({ s with results := rs } : State).source = s.source := source_congr (by rfl) (by rfl) (by rfl)

theorem source_onBrick (b : Brick) {f : BrickState → BrickState} (hf : ∀ B, (f B).source = B.source) : (s.onBrick b f).source = s.source := by
  have : (s.onBrick b f).bricks.map BrickState.source = s.bricks.map BrickState.source := by
    apply Vector.ext
    intro k hk
    by_cases h : b.val = k
    · subst h; simp [State.onBrick, hf]
    · simp [State.onBrick, h]
  rw [State.source, this]
  rfl

theorem source_each {α : Type} (xs : List α) {f : State → α → State} (hf : ∀ s x, (f s x).source = s.source) : (s.each xs f).source = s.source :=
  List.foldlRecOn xs f (motive := fun t => t.source = s.source) rfl fun t ht x _ => (hf t x).trans ht

@[simp] theorem source_tally (t : Tile) (i n : Nat) : (tally t i n s).source = s.source := by
  rw [tally, apply_ite State.source, source_wr, ite_self]

@[simp] theorem source_acquireFlush (b : Brick) : (acquireFlush b s).source = s.source := by
  rw [acquireFlush, source_count, source_each _ _ (fun _ _ => source_onTile ..)]
  exact source_onBrick _ _ fun _ => rfl

@[simp] theorem source_fullAcquire (t : Tile) : (fullAcquire t s).source = s.source := by
  simp only [fullAcquire, source_count, source_onTile]
  split
  · exact source_acquireFlush ..
  · exact source_onBrick _ _ fun _ => rfl

@[simp] theorem source_wakeSlot (t : Tile) (k status : Nat) (count : Word) : (wakeSlot t k status count s).source = s.source := by
  rw [wakeSlot]
  simp only [apply_ite State.source, source_fullAcquire, source_onSlot, ite_self]

@[simp] theorem source_loseWait (t : Tile) (k : Nat) : (loseWait t k s).source = s.source := by
  simp only [loseWait, apply_ite State.source, source_count, source_flag, source_wakeSlot, ite_self]

@[simp] theorem source_answerFill (t : Tile) (no : Nat) (good : Bool) : (answerFill t no good s).source = s.source :=
  source_onBrick _ _ fun _ => rfl

@[simp] theorem source_storeFailedCopies (t : Tile) (a n : Nat) : (storeFailedCopies t a n s).source = s.source := source_onTile ..
@[simp] theorem source_waitAnswered (t : Tile) (k status : Nat) (data : Bytes) : (waitAnswered t k status data s).source = s.source := by
  simp only [waitAnswered, apply_ite State.source, source_tally, source_onSlot, source_wakeSlot, ite_self]

@[simp] theorem source_noteFailure (issuer : Issuer) (no : Nat) (op : Op) : (noteFailure issuer no op s).source = s.source := by
  rw [noteFailure]
  split
  · rfl
  · exact source_onTile ..

@[simp] theorem source_relmAnswered (b : Brick) (i : FlowId) (o : SrcOp) : (relmAnswered b i o s).source = s.source := by
  rw [relmAnswered]
  split
  · exact source_onTile ..
  · rfl

@[simp] theorem source_deliver (r : Result) : (deliver r s).source = s.source := by
  cases hissuer : r.issuer <;>
    simp only [deliver, hissuer, issuerTile, apply_ite State.source, source_results, source_tally, source_storeFailedCopies, source_waitAnswered,
      source_onSlot, source_loseWait, source_emit, source_answerFill, ite_self]

end

section
variable (s : State)

@[simp] theorem source_obsDrop (b : Brick) (r : ObsRec) : (obsDrop b r s).source = s.source := by
  have hbrick : ∀ (t : State) (f : BrickState → ObsLost), (t.onBrick b (fun B => { B with obsLost := f B })).source = t.source :=
    fun t f => source_onBrick _ _ fun _ => rfl
  simp only [obsDrop, apply_ite State.source, hbrick, source_flag, source_count, source_tally, ite_self]

@[simp] theorem source_obsPush (b : Brick) (r : ObsRec) : (obsPush b r s).source = s.source := by
  rw [obsPush]
  split
  · exact source_onBrick _ _ fun _ => rfl
  · exact source_obsDrop ..

@[simp] theorem source_pushMarker (b : Brick) : (pushMarker b s).source = s.source := by
  have hbrick : ∀ l : ObsLost, (s.onBrick b (fun B => { B with obsLost := l })).source = s.source := fun l => source_onBrick _ _ fun _ => rfl
  simp only [pushMarker, apply_ite State.source, source_obsPush, hbrick, ite_self]

@[simp] theorem source_traceRec (b : Brick) (typ src tile : Nat) (body : Bytes) : (traceRec b typ src tile body s).source = s.source := by
  rw [traceRec, traceRecAt, apply_ite State.source, source_obsPush, source_pushMarker, ite_self]

@[simp] theorem source_traceIssued (b : Brick) (f : SrcFlow) (seq : Nat) (issuer : Issuer) (op : Op) :
    (traceIssued b f seq issuer op s).source = s.source := by
  rw [traceIssued]
  split
  · rfl
  · rw [apply_ite State.source, source_traceRec, ite_self]

end

/-! ### Flows -/

/-- A change of a flow that leaves it under its name is seen where the flow is looked up. -/
theorem find?_named_map {i : FlowId} {g : SrcFlow → SrcFlow} (hg : ∀ f, (g f).named i = f.named i) (fs : List SrcFlow) :
    (fs.map (fun f => if f.named i then g f else f)).find? (fun f => f.named i) = (fs.find? (fun f => f.named i)).map g := by
  induction fs with
  | nil => rfl
  | cons f fs ih =>
    by_cases h : f.named i = true
    · simp [h, hg f]
    · simp [h, ih]

theorem State.onFlow_flow_same {s : State} {b : Brick} {i : FlowId} {g : SrcFlow → SrcFlow} (hg : ∀ f, (g f).named i = f.named i := by exact fun _ => rfl) :
    (s.onFlow b i g).flow b i = (s.flow b i).map g := by
  rw [State.flow, State.onFlow, State.onBrick_brick_same]
  exact find?_named_map hg _

theorem State.onFlow_flow_of {s : State} {b : Brick} {i : FlowId} {f : SrcFlow} (hflow : s.flow b i = some f) {g : SrcFlow → SrcFlow}
    (hg : ∀ f, (g f).named i = f.named i := by exact fun _ => rfl) : (s.onFlow b i g).flow b i = some (g f) := by
  rw [State.onFlow_flow_same hg, hflow, Option.map_some]

section
variable (s : State) (b : Brick) (i : FlowId) (g : SrcFlow → SrcFlow)

@[simp] theorem State.onFlow_mem : (s.onFlow b i g).mem = s.mem := State.onBrick_mem ..
@[simp] theorem State.onFlow_ports : (s.onFlow b i g).ports = s.ports := State.onBrick_ports ..
@[simp] theorem State.onFlow_events : (s.onFlow b i g).events = s.events := State.onBrick_events ..
@[simp] theorem State.onFlow_tiles : (s.onFlow b i g).tiles = s.tiles := State.onBrick_tiles ..
@[simp] theorem State.onFlow_results : (s.onFlow b i g).results = s.results := State.onBrick_results ..
@[simp] theorem State.onFlow_routeQ : ((s.onFlow b i g).brick b).routeQ = (s.brick b).routeQ := by rw [State.onFlow, State.onBrick_brick_same]
@[simp] theorem State.onFlow_waitOps : ((s.onFlow b i g).brick b).waitOps = (s.brick b).waitOps := by rw [State.onFlow, State.onBrick_brick_same]

variable (p : Packet)
@[simp] theorem State.sendFrom_mem : (s.sendFrom b p).mem = s.mem := State.onBrick_mem ..
@[simp] theorem State.sendFrom_ports : (s.sendFrom b p).ports = s.ports := State.onBrick_ports ..
@[simp] theorem State.sendFrom_routeQ : ((s.sendFrom b p).brick b).routeQ = (s.brick b).routeQ ++ [s.form p] := by
  rw [State.sendFrom, State.onBrick_brick_same]

@[simp] theorem State.sendFrom_waitOps : ((s.sendFrom b p).brick b).waitOps = (s.brick b).waitOps := by rw [State.sendFrom, State.onBrick_brick_same]
@[simp] theorem State.sendFrom_flow : (s.sendFrom b p).flow b i = s.flow b i := by
  rw [State.flow, State.sendFrom, State.onBrick_brick_same, State.flow]

end

/-! ### A request is formed and sent -/

/-- The request of an operation as it is formed: under the flow's attempt number, with a fresh timer. -/
def SrcOp.formed (o : SrcOp) (f : SrcFlow) (s : State) : SrcOp :=
  { o with att := f.attMin, inDoubt := false, waitStale := false, waitCast := false, left := false, sentAt := s.now }

/-- The state in which a flow has formed request `o` for its place `seq`. -/
def State.formedOp (s : State) (b : Brick) (i : FlowId) (seq : Nat) (o : SrcOp) : State :=
  (s.onOp b i seq (fun _ => o)).onFlow b i (fun f => { f with lastSent := s.now, acksSent := f.acks, owesFack := false })

theorem sendOp_of_op {b : Brick} {i : FlowId} {seq : Nat} {s : State} {f : SrcFlow} {o : SrcOp} (hflow : s.flow b i = some f) (hop : f.opAt seq = some o) :
    sendOp b i seq s = (s.formedOp b i seq (o.formed f s)).sendFrom b (reqPacket b f (o.formed f s)) := by
  rw [sendOp, hflow]
  dsimp only
  rw [hop]
  rfl

theorem opAt_isSome_of_mem {f : SrcFlow} {o : SrcOp} (h : o ∈ f.ops) : ∃ x, f.opAt o.seq = some x :=
  Option.isSome_iff_exists.mp (List.find?_isSome.mpr ⟨o, h, decide_eq_true rfl⟩)

/-- A request that is sent goes to the router; its flow keeps its next SEQ and its operations. -/
theorem sendOp_took {s : State} {b : Brick} {i : FlowId} {seq n k : Nat} {f : SrcFlow} {o : SrcOp} (hflow : s.flow b i = some f) (hop : f.opAt seq = some o)
    (hn : f.next = n + 1) (hk : f.ops.length = k + 1) : FlowTook s (sendOp b i seq s) b i n k := by
  rw [sendOp_of_op hflow hop]
  refine ⟨?_, ⟨(s.formedOp b i seq (o.formed f s)).form (reqPacket b f (o.formed f s)), ?_, rfl⟩, ?_, ?_⟩
  · rw [State.sendFrom_flow, State.formedOp, State.onOp, State.onFlow_flow_of (State.onFlow_flow_of hflow)]
    simp [hn, hk]
  · rw [State.sendFrom_routeQ, State.formedOp, State.onOp, State.onFlow_routeQ, State.onFlow_routeQ]
  · rw [State.sendFrom_mem, State.formedOp, State.onOp, State.onFlow_mem, State.onFlow_mem]
  · rw [State.sendFrom_ports, State.formedOp, State.onOp, State.onFlow_ports, State.onFlow_ports]

/-- What a flow takes from one state it takes from another in which the router, memory and the ports are the same. -/
theorem FlowTook.of_same {s t u : State} {b : Brick} {i : FlowId} {n k : Nat} (h : FlowTook t u b i n k) (hroute : (t.brick b).routeQ = (s.brick b).routeQ)
    (hmem : t.mem = s.mem) (hports : t.ports = s.ports) : FlowTook s u b i n k := by
  rwa [FlowTook, hroute, hmem, hports] at h

/-- The flow that has taken an operation under its next SEQ (R180). -/
def SrcFlow.took (f : SrcFlow) (issuer : Issuer) (no : Nat) (op : Op) (g : SrcFlow) : SrcFlow :=
  { g with next := g.next + 1, ops := g.ops ++ [{ seq := f.next, no := no, att := f.attMin, op := op, issuer := issuer }], region := addrRegion op.addr.toNat }

section
variable {s : State} {b : Brick} {i : FlowId} {f : SrcFlow} (hflow : s.flow b i = some f) (issuer : Issuer) (no : Nat) (op : Op)
include hflow

theorem assignSeq_of_flow : assignSeq b i issuer no op s =
    sendOp b i f.next (traceIssued b f f.next issuer op (s.onFlow b i (f.took issuer no op))) := by
  rw [assignSeq, hflow]
  rfl

/-- A flow that takes an operation gives it its next SEQ and sends it (R180, R181). -/
theorem assignSeq_took : FlowTook s (assignSeq b i issuer no op s) b i f.next f.ops.length := by
  rw [assignSeq_of_flow hflow]
  have hsource := source_traceIssued (s.onFlow b i (f.took issuer no op)) b f f.next issuer op
  have hflow' : (traceIssued b f f.next issuer op (s.onFlow b i (f.took issuer no op))).flow b i = some (f.took issuer no op f) := by
    rw [source_flow hsource, State.onFlow_flow_of hflow]
  obtain ⟨o, hop⟩ := opAt_isSome_of_mem (f := f.took issuer no op f) (List.mem_append_right f.ops (List.mem_singleton_self _))
  refine (sendOp_took hflow' hop rfl (by simp [SrcFlow.took])).of_same ?_ ?_ ?_
  · rw [source_routeQ hsource, State.onFlow_routeQ]
  · rw [source_mem hsource, State.onFlow_mem]
  · rw [source_ports hsource, State.onFlow_ports]

end

theorem sendOp_waitOps (s : State) (b : Brick) (i : FlowId) (seq : Nat) : ((sendOp b i seq s).brick b).waitOps = (s.brick b).waitOps := by
  rw [sendOp]
  split
  · rfl
  · split
    · rfl
    · dsimp only
      rw [State.sendFrom_waitOps, State.onFlow_waitOps, State.onOp, State.onFlow_waitOps]

theorem assignSeq_waitOps (s : State) (b : Brick) (i : FlowId) (issuer : Issuer) (no : Nat) (op : Op) :
    ((assignSeq b i issuer no op s).brick b).waitOps = (s.brick b).waitOps := by
  rw [assignSeq]
  split
  · rfl
  · dsimp only
    rw [sendOp_waitOps, source_waitOps (source_traceIssued ..), State.onFlow_waitOps]

/-- A change of what is not kept of the operations changes nothing of it. -/
theorem FlowTook.of_source {s u v : State} {b : Brick} {i : FlowId} {n k : Nat} (h : FlowTook s u b i n k) (hsource : v.source = u.source) :
    FlowTook s v b i n k := by
  rwa [FlowTook, ← source_flow hsource, ← source_routeQ hsource, ← source_mem hsource, ← source_ports hsource] at h

theorem FlowTook.done {r s u : State} {b : Brick} {i : FlowId} {n k : Nat} (h : FlowTook s u b i n k) : FlowTook s (r.done u) b i n k :=
  h.of_source (source_done r u)

end Sys2Proof.Machine
end

section
/-! PROOFS. Answers to a source, and the outcomes they give (R190, R195, R201, R202, R206). -/
namespace Sys2Proof.Machine
open Sys2Proof

theorem exec_rspReceive (b : Brick) (p : Packet) (s : State) : exec (.rspReceive b p) s = execRspReceive b p s := rfl
theorem exec_praReceive (b : Brick) (p : Packet) (s : State) : exec (.praReceive b p) s = execPraReceive b p s := rfl
theorem exec_fcaReceive (b : Brick) (p : Packet) (s : State) : exec (.fcaReceive b p) s = execFcaReceive b p s := rfl
theorem exec_fraReceive (b : Brick) (p : Packet) (s : State) : exec (.fraReceive b p) s = execFraReceive b p s := rfl

/-! ### Flows of a source brick -/

theorem State.flow_congr {s t : State} {b : Brick} (h : (t.brick b).srcFlows = (s.brick b).srcFlows) (i : FlowId) : t.flow b i = s.flow b i := by
  rw [State.flow, h, State.flow]

@[simp] theorem State.takeArrived_flow (s : State) (b : Brick) (p : Packet) (i : FlowId) : (s.takeArrived b p).flow b i = s.flow b i :=
  State.flow_congr (by rw [State.takeArrived, State.onBrick_brick_same]) i

/-! ### Packets that answer (R190, R195, R202, R206) -/

section
variable {s : State} {b : Brick} {p : Packet} {f : SrcFlow} (hsound : packetSound p = true) (hold : s.tooOld b p = false)
  (hflow : s.flow b (packetFlow p) = some f)
include hsound hold hflow

/-- A response with a final status gives its operation the outcome (R195). -/
theorem does_rspReceive_of_final {o : SrcOp} (htype : p.ptype.toNat = ptRsp) (hfep : f.fep = p.fep.toNat) (hop : f.opAt p.seq.toNat = some o)
    (hfinal : p.aux.toNat ≤ 0x7F) :
    Does (.rspReceive b p) s (probeNext b (packetFlow p) (endOp b (packetFlow p) o
      (if statusCompletes o.op.opc.toNat p.aux.toNat then .completed else .rejected) p.aux.toNat p.payload
      (flowShown b (packetFlow p) p.inc.toNat ((s.takeArrived b p).onFlow b (packetFlow p) (fun f => { f with owesFack := true }))))) := by
  simp [Does, exec_rspReceive, execRspReceive, hsound, hold, hflow, htype, hfep, hop, hfinal]

section
variable (htype : p.ptype.toNat = ptPra)
include htype

/-- An answer of no outstanding probe is discarded (R195). -/
theorem does_praReceive_of_noProbe (hprobe : f.probe ≠ some p.seq.toNat) : Does (.praReceive b p) s (s.takeArrived b p) := by
  simp [Does, exec_praReceive, execPraReceive, hsound, hold, hflow, htype, hprobe]

variable (hfep : f.fep = p.fep.toNat) {o : SrcOp} (hop : f.opAt p.seq.toNat = some o) (hprobe : f.probe = some p.seq.toNat)
include hfep hop hprobe

/-- A retained answer gives the operation its outcome (R195). -/
theorem does_praReceive_of_retained (hstatus : p.aux.toNat = 0x90) :
    Does (.praReceive b p) s (probeNext b (packetFlow p) (endOp b (packetFlow p) o
      (if statusCompletes o.op.opc.toNat p.att.toNat then .completed else .rejected) p.att.toNat p.payload
      (flowShown b (packetFlow p) p.inc.toNat ((s.takeArrived b p).onFlow b (packetFlow p) (fun f =>
        { f with owesFack := true, answered := true, probe := none }))))) := by
  simp [Does, exec_praReceive, execPraReceive, hsound, hold, hflow, htype, hfep, hop, hprobe, hstatus]

/-- A request that was not performed goes back, and every later one with it (R195). -/
theorem does_praReceive_of_goBack (hstatus : p.aux.toNat = 0x91) :
    Does (.praReceive b p) s (probeNext b (packetFlow p) (goBack b (packetFlow p) p.acks.toNat (((flowShown b (packetFlow p) p.inc.toNat
      ((s.takeArrived b p).onFlow b (packetFlow p) (fun f => { f with owesFack := true, answered := true, probe := none }))).onFlow b (packetFlow p)
        (fun f => { f with attMin := p.att.toNat })).count (Reg.MRT_TCNT1_GOBACKS b) 1))) := by
  simp [Does, exec_praReceive, execPraReceive, hsound, hold, hflow, htype, hfep, hop, hprobe, hstatus]

/-- A lost history leaves the operation Unsettled (R195, R206). -/
theorem does_praReceive_of_lost (hstatus : p.aux.toNat = 0x92) :
    Does (.praReceive b p) s (probeNext b (packetFlow p) (endOp b (packetFlow p) o .unsettled 0x92 []
      ((s.takeArrived b p).onFlow b (packetFlow p) (fun f => { f with owesFack := true, answered := true, probe := none })))) := by
  simp [Does, exec_praReceive, execPraReceive, hsound, hold, hflow, htype, hfep, hop, hprobe, hstatus]

end

/-- An answered FCLS frees the flow (R190). -/
theorem does_fcaReceive_of_awaited (htype : p.ptype.toNat = ptFca) (hphase : f.phase = .awaitFca) (hfep : f.fep = p.fep.toNat) :
    Does (.fcaReceive b p) s (releaseWaiting b .reset ((s.takeArrived b p).onBrick b (fun B =>
      { B with srcFlows := B.srcFlows.filter (fun g => !g.named (packetFlow p)) }))) := by
  simp [Does, exec_fcaReceive, execFcaReceive, hsound, hold, hflow, htype, hphase, hfep]

/-- An FRST that was carried out begins the next epoch (R201). -/
theorem does_fraReceive_of_done (htype : p.ptype.toNat = ptFra) (hphase : f.phase = .awaitFra) (hstatus : p.aux = 0) :
    Does (.fraReceive b p) s (releaseWaiting b .reset ((s.takeArrived b p).onFlow b (packetFlow p) (fun g =>
      { g with fep := (f.fep + 1) % 256, next := 0, acks := 0, acksSent := 0, attMin := 0, opens := false, phase := .active }))) := by
  simp [Does, exec_fraReceive, execFraReceive, hsound, hold, hflow, htype, hphase, hstatus]

end

/-! ### Outcomes (R57, R180) -/

/-- The flow that an operation with sequence number `seq` has left. -/
def SrcFlow.without (f : SrcFlow) (seq : Nat) : SrcFlow :=
  let f := { f with ops := f.ops.filter (fun x => x.seq ≠ seq), probe := if f.probe = some seq then none else f.probe }
  { f with acks := f.acksNow }

theorem SrcFlow.without_opAt (f : SrcFlow) (seq : Nat) : (f.without seq).opAt seq = none := by
  rw [SrcFlow.opAt, List.find?_eq_none]
  intro x hx
  have := List.of_mem_filter hx
  simpa using this

/-- An operation with an outcome is no longer one of its flow. -/
theorem endOp_flow (b : Brick) (i : FlowId) (o : SrcOp) (kind : Outcome57) (status : Nat) (data : Bytes) (s : State) :
    (endOp b i o kind status data s).flow b i = (s.flow b i).map (fun f => f.without o.seq) := by
  have hstart : ∀ t : State, t.source = s.source → ∀ u : State, u.source = (t.onFlow b i (fun f => f.without o.seq)).source →
      u.flow b i = (s.flow b i).map (fun f => f.without o.seq) := fun t ht u hu => by
    rw [source_flow hu, State.onFlow_flow_same, source_flow ht]
  cases kind with
  | completed => exact hstart _ (source_relmAnswered s b i o) _ (source_deliver ..)
  | unsettled => exact hstart _ (source_noteFailure s o.issuer o.no o.op) _ ((source_deliver ..).trans ((source_raise ..).trans (source_flag ..)))
  | unreachable => exact hstart _ (source_noteFailure s o.issuer o.no o.op) _ ((source_deliver ..).trans (source_raise ..))
  | rejected | inDoubt => exact hstart s rfl _ (source_deliver ..)

theorem relmAnswered_of_noTile {o : SrcOp} (htile : issuerTile o.issuer = none) (b : Brick) (i : FlowId) (s : State) : relmAnswered b i o s = s := by
  rw [relmAnswered]
  split
  · next t hissuer => rw [hissuer, issuerTile] at htile; cases htile
  · rfl

/-- The result of a unit that takes its results itself is left to it. -/
theorem deliver_of_taker {r : Result} (htile : issuerTile r.issuer = none) (houtside : ∀ n, r.issuer ≠ .outside n)
    (hengine : ∀ n, r.issuer ≠ .engine n) (hwake : ∀ n, r.issuer ≠ .wake n) (s : State) : deliver r s = { s with results := s.results ++ [r] } := by
  cases hissuer : r.issuer with
  | masonLoad | masonPosted | masonWait | masonRelm | wchk | sieve => rw [hissuer] at htile; cases htile
  | wake n => exact absurd hissuer (hwake n)
  | engine n => exact absurd hissuer (hengine n)
  | outside n => exact absurd hissuer (houtside n)
  | host | drop | hdm | ring | pull | walk | hod => simp only [deliver, hissuer, issuerTile]

/-- A completed operation of such a unit leaves one result, and no other (R57). -/
theorem endOp_completed_results {b : Brick} {i : FlowId} {o : SrcOp} {status : Nat} {data : Bytes} {s : State} (htile : issuerTile o.issuer = none)
    (houtside : ∀ n, o.issuer ≠ .outside n) (hengine : ∀ n, o.issuer ≠ .engine n) (hwake : ∀ n, o.issuer ≠ .wake n) :
    (endOp b i o .completed status data s).results = s.results ++ [⟨o.issuer, .completed, status, data, o.op⟩] := by
  have hdeliver := deliver_of_taker (r := ⟨o.issuer, .completed, status, data, o.op⟩) htile houtside hengine hwake
  simp only [endOp, if_true, relmAnswered_of_noTile htile, hdeliver, State.onFlow_results]

/-- Settles O16: what each answer does, and what becomes of the operation that it ends. -/
theorem sourceAnswers : Obligations.SourceAnswers := by
  refine ⟨fun s b p f o hsound hold hflow => ⟨fun htype hfep hop hfinal => does_rspReceive_of_final hsound hold hflow htype hfep hop hfinal,
    fun htype hfep hop => ⟨does_praReceive_of_noProbe hsound hold hflow htype, fun hprobe =>
      ⟨does_praReceive_of_retained hsound hold hflow htype hfep hop hprobe, does_praReceive_of_lost hsound hold hflow htype hfep hop hprobe,
        does_praReceive_of_goBack hsound hold hflow htype hfep hop hprobe⟩⟩,
    does_fcaReceive_of_awaited hsound hold hflow, does_fraReceive_of_done hsound hold hflow⟩, fun s b i o kind status data => ⟨?_, ?_⟩⟩
  · rw [endOp_flow, Option.bind_map, Option.bind_eq_none_iff]
    exact fun f _ => f.without_opAt o.seq
  · rintro rfl htile houtside hengine hwake
    exact endOp_completed_results htile houtside hengine hwake

end Sys2Proof.Machine
end

section
/-! PROOFS. The timers, resends, closing and reset of a source flow (R189 to R202). -/
namespace Sys2Proof.Machine
open Sys2Proof

theorem exec_te2eExpiry (b : Brick) (i : FlowId) (seq : Nat) (s : State) : exec (.te2eExpiry b i seq) s = execTe2eExpiry b i seq s := rfl
theorem exec_probeResend (b : Brick) (i : FlowId) (s : State) : exec (.probeResend b i) s = execProbeResend b i s := rfl
theorem exec_staleSourceResend (b : Brick) (i : FlowId) (seq : Nat) (s : State) :
    exec (.staleSourceResend b i seq) s = execStaleSourceResend b i seq s := rfl
theorem exec_flowReopen (b : Brick) (i : FlowId) (s : State) : exec (.flowReopen b i) s = execFlowReopen b i s := rfl
theorem exec_wrongSeatCastWaitExpiry (b : Brick) (i : FlowId) (seq : Nat) (s : State) :
    exec (.wrongSeatCastWaitExpiry b i seq) s = execWrongSeatCastWaitExpiry b i seq s := rfl
theorem exec_fackSend (b : Brick) (i : FlowId) (s : State) : exec (.fackSend b i) s = execFackSend b i s := rfl
theorem exec_flowClose (b : Brick) (i : FlowId) (s : State) : exec (.flowClose b i) s = execFlowClose b i s := rfl
theorem exec_fclsRepeat (b : Brick) (i : FlowId) (s : State) : exec (.fclsRepeat b i) s = execFclsRepeat b i s := rfl
theorem exec_flowResetStart (b : Brick) (i : FlowId) (s : State) : exec (.flowResetStart b i) s = execFlowResetStart b i s := rfl
theorem exec_frstSend (b : Brick) (i : FlowId) (s : State) : exec (.frstSend b i) s = execFrstSend b i s := rfl
theorem exec_frstRepeat (b : Brick) (i : FlowId) (s : State) : exec (.frstRepeat b i) s = execFrstRepeat b i s := rfl

section
variable {s : State} {b : Brick} {i : FlowId} {f : SrcFlow} (hflow : s.flow b i = some f)
include hflow

/-! ### Timers and probes (R192, R193, R197) -/

section
variable {o : SrcOp} {seq : Nat} (hop : f.opAt seq = some o)
include hop

/-- A request whose timer expires goes in doubt, is counted, and its flow is probed (R192). -/
theorem does_te2eExpiry_of_left (hdoubt : o.inDoubt = false) (hstale : o.waitStale = false) (hcast : o.waitCast = false) (hleft : o.left = true)
    (htile : issuerTile o.issuer = none) :
    Does (.te2eExpiry b i seq) s (probeNext b i (((s.onOp b i seq (fun o => { o with inDoubt := true, everDoubt := true, refused := false })).flag
      (Reg.MRT_TERR_INDOUBT b)).count (Reg.MRT_TCNT0_DOUBTS b) 1)) := by
  simp only [Does, exec_te2eExpiry, execTe2eExpiry, hflow, Option.bind_some, hop, hdoubt, hstale, hcast, hleft, htile, Bool.not_true, Bool.or_self,
    Bool.false_eq_true, if_false, ended_next]

/-- After RSP 0x81 an operation that was refused too often ends Seat unreachable (R198). -/
theorem does_staleSourceResend_of_spent (hstale : o.waitStale = true) (hrefused : o.refused = true)
    (hmost : s.rd (Reg.MRT_TTMO_PROBEMAX b) ≤ o.refusals) :
    Does (.staleSourceResend b i seq) s (giveUp b i o (endOp b i o .unreachable 0x81 [] s)) := by
  simp only [Does, exec_staleSourceResend, execStaleSourceResend, hflow, Option.bind_some, hop, hstale, hrefused, hmost, Bool.not_true,
    Bool.false_eq_true, if_false, if_true, ended_next]

/-- and until then it is sent again (R195). -/
theorem does_staleSourceResend_of_refused (hstale : o.waitStale = true) (hmost : o.refusals < s.rd (Reg.MRT_TTMO_PROBEMAX b))
    (hseat : f.sseat ≠ 0xFFFF ∨ s.ownSeat = none) : Does (.staleSourceResend b i seq) s (sendOp b i seq s) := by
  have hstay : (decide (f.sseat = 0xFFFF) && s.ownSeat.isSome) = false := by rcases hseat with h | h <;> simp [h]
  simp only [Does, exec_staleSourceResend, execStaleSourceResend, hflow, Option.bind_some, hop, hstale, Nat.not_le.mpr hmost, Option.any_some, hstay,
    Bool.not_true, Bool.false_eq_true, if_false, ended_next]

/-- What is sent is the operation's request, under the flow's attempt number (R155, R195). -/
theorem sendOp_sends : ∃ q, ((sendOp b i seq s).brick b).routeQ = (s.brick b).routeQ ++ [q] ∧ q.ptype.toNat = ptReq ∧ q.seq = BitVec.ofNat 32 o.seq ∧
    q.att = BitVec.ofNat 8 f.attMin ∧ q.opc = o.op.opc ∧ q.payload = o.op.payload := by
  refine ⟨(s.formedOp b i seq (o.formed f s)).form (reqPacket b f (o.formed f s)), ?_, rfl, rfl, rfl, rfl, rfl⟩
  rw [sendOp_of_op hflow hop, State.sendFrom_routeQ, State.formedOp, State.onOp, State.onFlow_routeQ, State.onFlow_routeQ]

/-- A wait for a cast that none ended makes an operation that was never in doubt Seat unreachable (R195). -/
theorem does_wrongSeatCastWaitExpiry_of_noCast (hcast : o.waitCast = true) (hgen : newerGen (entryGen (s.seatEntry f.dseat)) f.dgen = false)
    (hdoubt : o.everDoubt = false) : Does (.wrongSeatCastWaitExpiry b i seq) s (giveUp b i o (endOp b i o .unreachable 0x80 [] s)) := by
  simp only [Does, exec_wrongSeatCastWaitExpiry, execWrongSeatCastWaitExpiry, hflow, hop, hcast, hgen, hdoubt, Bool.not_true, Bool.false_eq_true, if_false,
    ended_next]

end

section
variable {o : SrcOp} (hprobe : f.probe.bind f.opAt = some o) (hleft : f.probeLeft = true) (hreported : o.reported = false)
include hprobe hleft hreported

/-- An unanswered probe is sent again (R193), -/
theorem does_probeResend_of_more (hmost : o.probes < s.rd (Reg.MRT_TTMO_PROBEMAX b)) :
    Does (.probeResend b i) s (probeNext b i (s.onFlow b i (fun f => { f with probe := none }))) := by
  simp only [Does, exec_probeResend, execProbeResend, hflow, hprobe, hleft, hreported, Nat.not_le.mpr hmost, decide_false, Bool.not_true,
    Bool.false_and, Bool.false_eq_true, if_false, ended_next]

/-- and after PROBEMAX of them the operation is reported as still in doubt (R197). -/
theorem does_probeResend_of_last (hmost : s.rd (Reg.MRT_TTMO_PROBEMAX b) ≤ o.probes) :
    Does (.probeResend b i) s (probeNext b i ((deliver { issuer := o.issuer, kind := .inDoubt, status := 0, data := [], op := o.op }
      ((s.onOp b i o.seq (fun o => { o with reported := true })).raise 0x1102 [f.dseat, o.seq])).onFlow b i (fun f => { f with probe := none }))) := by
  simp only [Does, exec_probeResend, execProbeResend, hflow, hprobe, hleft, hreported, hmost, decide_true, Bool.not_true, Bool.not_false, Bool.and_self,
    Bool.false_and, Bool.false_eq_true, if_false, if_true, ended_next]

end

/-- The oldest operation in doubt is probed where no probe is outstanding and the seat's entry lets it leave (R193). -/
theorem probeNext_of_doubt {o : SrcOp} (hprobe : f.probe = none) (hdoubt : f.ops.find? (fun o => o.inDoubt) = some o)
    (hseat : f.sseat = 0xFFFF ∨ f.dseat = s.ownSeatNo ∨ entryState (s.seatEntry f.dseat) = 1) :
    probeNext b i s = (s.onFlow b i (fun f => { f with probe := some o.seq, probeLeft := false, lastSent := s.now })).sendFrom b
      (flowPacket (s.onFlow b i (fun f => { f with probe := some o.seq, probeLeft := false, lastSent := s.now })) b f ptPrb 0 o.seq o.att
        o.op.addr.toNat) := by
  have hleave : (decide (f.sseat ≠ 0xFFFF) && decide (f.dseat ≠ s.ownSeatNo) && decide (entryState (s.seatEntry f.dseat) ≠ 1)) = false := by
    rcases hseat with h | h | h <;> simp [h]
  simp only [probeNext, hflow, hprobe, ne_eq, not_true_eq_false, if_false, hdoubt, hleave, Bool.false_eq_true]

theorem does_flowReopen_of_reopening (hphase : f.phase = .reopening) :
    Does (.flowReopen b i) s (releaseWaiting b .reset (openAnew b i f.fep s)) := by
  simp only [Does, exec_flowReopen, execFlowReopen, hflow, hphase, if_true, ended_next]

/-! ### Acknowledgement, closing and reset (R189, R190, R200 to R202) -/

theorem does_fackSend_of_owed (howes : f.owesFack = true) :
    Does (.fackSend b i) s ((s.sendFrom b (flowPacket s b f ptFack f.acks 0 0 (brickAddr f.dbrk))).onFlow b i (fun f =>
      { f with acksSent := f.acks, owesFack := false, lastSent := s.now })) := by
  simp only [Does, exec_fackSend, execFackSend, hflow, howes, Bool.not_true, Bool.false_eq_true, if_false, ended_next]

theorem does_fackSend_of_settled (howes : f.owesFack = false) : Does (.fackSend b i) s s := by
  simp only [Does, exec_fackSend, execFackSend, hflow, howes, Bool.not_false, if_true, ended_next]

/-- An idle flow with nothing unsettled is closed (R190). -/
theorem does_flowClose_of_idle (hops : f.ops = []) (hacks : f.acksSent = f.acksNow) (hphase : f.phase = .active) (hwaits : (s.brick b).waitOps = [])
    (hidle : f.lastSent + s.rd (Reg.MRT_TFLOW_FIDLE b) * 1000 ≤ s.now) :
    Does (.flowClose b i) s ((s.onFlow b i (fun f => { f with phase := .awaitFca, lastSent := s.now })).sendFrom b
      (flowPacket (s.onFlow b i (fun f => { f with phase := .awaitFca, lastSent := s.now })) b f ptFcls f.acksNow 0 0 (brickAddr f.dbrk))) := by
  simp only [Does, exec_flowClose, execFlowClose, hflow, hops, hacks, hphase, hwaits, hidle, List.any_nil, List.isEmpty_nil, decide_true, Bool.and_self,
    Bool.false_eq_true, if_false, if_true, ended_next]

theorem does_fclsRepeat_of_awaited (hphase : f.phase = .awaitFca) :
    Does (.fclsRepeat b i) s (s.sendFrom b (flowPacket s b f ptFcls f.acksNow 0 0 (brickAddr f.dbrk))) := by
  simp only [Does, exec_fclsRepeat, execFclsRepeat, hflow, hphase, if_true, ended_next]

/-- A flow to be reset stops taking sequence numbers, and nothing else changes (R200, R201). -/
theorem leaves_flowResetStart_of_active (hphase : f.phase = .active) : Leaves (.flowResetStart b i) s (fun u =>
    u.flow b i = some { f with phase := .draining } ∧ u.mem = s.mem ∧ u.events = s.events ∧ u.ports = s.ports ∧ u.tiles = s.tiles) := by
  have hdoes : Does (.flowResetStart b i) s (s.onFlow b i (fun f => if f.phase = .active then { f with phase := .draining } else f)) := by
    rw [Does, exec_flowResetStart, execFlowResetStart, ended_next]
  refine ⟨_, hdoes, ?_, ?_⟩
  · rw [source_flow (source_done ..), State.onFlow_flow_of hflow fun f => by rw [apply_ite (SrcFlow.named · i)]; exact ite_self _, if_pos hphase]
  · rw [State.done_mem, State.done_events, State.done_ports, State.done_tiles]
    exact ⟨State.onFlow_mem .., State.onFlow_events .., State.onFlow_ports .., State.onFlow_tiles ..⟩

theorem does_frstSend_of_drained (hphase : f.phase = .draining) (hops : f.ops = []) :
    Does (.frstSend b i) s ((s.sendFrom b (frstPacket s b f)).onFlow b i (fun f => { f with phase := .awaitFra, lastSent := s.now })) := by
  simp only [Does, exec_frstSend, execFrstSend, hflow, hphase, hops, List.isEmpty_nil, decide_true, Bool.and_self, if_true, ended_next]

theorem does_frstRepeat_of_awaited (hphase : f.phase = .awaitFra) : Does (.frstRepeat b i) s (s.sendFrom b (frstPacket s b f)) := by
  simp only [Does, exec_frstRepeat, execFrstRepeat, hflow, hphase, if_true, ended_next]

end

/-- Settles O15: the first part is of a flow's operations, the second of the flow itself. -/
theorem sourceFlows : Obligations.SourceFlows :=
  ⟨fun _ _ _ _ _ _ hflow => ⟨does_te2eExpiry_of_left hflow, does_probeResend_of_more hflow, does_probeResend_of_last hflow, probeNext_of_doubt hflow,
    does_staleSourceResend_of_spent hflow, does_staleSourceResend_of_refused hflow, sendOp_sends hflow, does_flowReopen_of_reopening hflow,
    does_wrongSeatCastWaitExpiry_of_noCast hflow⟩,
   fun _ _ _ _ hflow => ⟨does_fackSend_of_owed hflow, does_fackSend_of_settled hflow, does_flowClose_of_idle hflow, does_fclsRepeat_of_awaited hflow,
    leaves_flowResetStart_of_active hflow, does_frstSend_of_drained hflow, does_frstRepeat_of_awaited hflow, rfl, rfl, rfl⟩⟩

end Sys2Proof.Machine
end

section
/-! PROOFS. Operations that a source takes, keeps waiting, or ends (R36, R45, R67, R175, R181, R191, R198). -/
namespace Sys2Proof.Machine
open Sys2Proof

theorem exec_operationIssue (b : Brick) (issuer : Issuer) (op : Op) (s : State) : exec (.operationIssue b issuer op) s = execOperationIssue b issuer op s := rfl
theorem exec_flowEntryFreedSend (b : Brick) (s : State) : exec (.flowEntryFreedSend b) s = execFlowEntryFreedSend b s := rfl
theorem exec_outmaxRelease (b : Brick) (i : FlowId) (s : State) : exec (.outmaxRelease b i) s = execOutmaxRelease b i s := rfl
theorem exec_heldOperationSend (b : Brick) (s : State) : exec (.heldOperationSend b) s = execHeldOperationSend b s := rfl
theorem exec_heldOperationUnreachable (b : Brick) (routed : Bool) (k : Nat) (s : State) :
    exec (.heldOperationUnreachable b routed k) s = execHeldOperationUnreachable b routed k s := rfl

/-! ### Taking an operation -/

section
variable {s : State} {b : Brick} {issuer : Issuer} {no : Nat} {op : Op} {ahead : List WaitOp}

/-- An operation that belongs to a flow is given to it (R175). -/
theorem tryIssue_of_goesToFlow {i : FlowId} (h : GoesToFlow s op i) :
    ∃ seat gen d, i = flowOf s seat gen d op.lbl ∧ tryIssue b issuer no op ahead s = toFlow b seat gen d issuer no op ahead s := by
  obtain ⟨d, hdest, ⟨hseat, rfl⟩ | ⟨hseat, hregion, hown, hlive, rfl⟩⟩ := h
  · refine ⟨_, _, d, rfl, ?_⟩
    simp only [tryIssue, hdest, hseat, if_true]
  · refine ⟨_, _, d, rfl, ?_⟩
    simp [tryIssue, hdest, hseat, hregion, hlive, Option.isSome_iff_ne_none.mp hown]

section
variable {seat gen : Nat} {d : Brick}

/-- A flow that may take an operation takes it where no request waits before it. -/
theorem toFlow_of_flow {f : SrcFlow} (hflow : s.flow b (flowOf s seat gen d op.lbl) = some f) (hwait : flowWait s b f = none) :
    toFlow b seat gen d issuer no op [] s = (none, assignSeq b (flowOf s seat gen d op.lbl) issuer no op s) := by
  rw [toFlow, List.filter_nil, List.getLast?_nil]
  dsimp only
  rw [hflow]
  dsimp only
  rw [hwait]

/-- The flow that an operation opens (R180, R191). -/
def openedFlow (s : State) (seat gen : Nat) (d : Brick) (l : Label) : SrcFlow :=
  { dseat := (flowOf s seat gen d l).seat.toNat, dgen := (flowOf s seat gen d l).gen.toNat, dbrk := d.val, lbl := l.val,
    sseat := (flowOf s seat gen d l).sseat.toNat, sgen := (flowOf s seat gen d l).sgen.toNat,
    dpid := if seat = s.ownSeatNo then s.ownPid else entryPid (s.seatEntry seat), lastSent := s.now }

theorem openedFlow_named (l : Label) : (openedFlow s seat gen d l).named (flowOf s seat gen d l) = true := by
  simp [SrcFlow.named, openedFlow, flowOf]

/-- Where there is no flow and an entry is free the operation opens one. -/
theorem toFlow_of_room (hflow : s.flow b (flowOf s seat gen d op.lbl) = none) (hroom : (s.brick b).srcFlows.length < 65536) :
    toFlow b seat gen d issuer no op [] s = (none, assignSeq b (flowOf s seat gen d op.lbl) issuer no op
      (s.onBrick b (fun B => { B with srcFlows := B.srcFlows ++ [openedFlow s seat gen d op.lbl] }))) := by
  rw [toFlow, List.filter_nil, List.getLast?_nil]
  dsimp only
  rw [hflow]
  simp only [Nat.not_le.mpr hroom, List.any_nil, decide_false, Bool.or_self, Bool.false_eq_true, if_false]
  rfl

end

variable {i : FlowId} (h : GoesToFlow s op i)
include h

theorem tryIssue_of_flow {f : SrcFlow} (hflow : s.flow b i = some f) (hwait : flowWait s b f = none) :
    tryIssue b issuer no op [] s = (none, assignSeq b i issuer no op s) := by
  obtain ⟨seat, gen, d, rfl, htry⟩ := tryIssue_of_goesToFlow (b := b) (issuer := issuer) (no := no) (ahead := []) h
  rw [htry, toFlow_of_flow hflow hwait]

/-- An operation that opens a flow is its first (R182). -/
theorem tryIssue_of_room (hflow : s.flow b i = none) (hroom : (s.brick b).srcFlows.length < 65536) :
    ∃ u, tryIssue b issuer no op [] s = (none, u) ∧ FlowTook s u b i 0 0 ∧ (u.brick b).waitOps = (s.brick b).waitOps := by
  obtain ⟨seat, gen, d, rfl, htry⟩ := tryIssue_of_goesToFlow (b := b) (issuer := issuer) (no := no) (ahead := []) h
  refine ⟨_, htry.trans (toFlow_of_room hflow hroom), ?_⟩
  have hopened : (s.onBrick b (fun B => { B with srcFlows := B.srcFlows ++ [openedFlow s seat gen d op.lbl] })).flow b (flowOf s seat gen d op.lbl) =
      some (openedFlow s seat gen d op.lbl) := by
    rw [State.flow] at hflow
    rw [State.flow, State.onBrick_brick_same, List.find?_append, hflow, Option.none_or, List.find?_singleton, openedFlow_named]
    rfl
  refine ⟨(assignSeq_took hopened issuer no op).of_same ?_ ?_ ?_, ?_⟩
  · rw [State.onBrick_brick_same]
  · exact State.onBrick_mem ..
  · exact State.onBrick_ports ..
  · rw [assignSeq_waitOps, State.onBrick_brick_same]

end

/-! ### A new operation (R175) -/

section
variable {s : State} {b : Brick} {issuer : Issuer} {op : Op} (htile : issuerTile issuer = none)
include htile

theorem does_operationIssue_of_noTile : Does (.operationIssue b issuer op) s (issueNumbered b issuer 0 op s) := by
  rw [Does, exec_operationIssue, execOperationIssue, issueOp, htile, ended_next]

/-- An operation that transport does not keep waiting is over, or on its way, at once. -/
theorem does_operationIssue_of_taken {u : State} (htry : tryIssue b issuer 0 op (s.brick b).waitOps s = (none, u)) :
    Does (.operationIssue b issuer op) s u := by
  have h := does_operationIssue_of_noTile (s := s) (b := b) (op := op) htile
  rwa [issueNumbered, htry] at h

/-- One that has to wait does so behind those that wait already. -/
theorem does_operationIssue_of_waiting {u : State} {why : WaitWhy} (htry : tryIssue b issuer 0 op (s.brick b).waitOps s = (some why, u)) :
    Does (.operationIssue b issuer op) s (u.onBrick b (fun B =>
      { B with waitOps := B.waitOps ++ [{ op := op, no := 0, issuer := issuer, why := why, readyAt := u.now }] })) := by
  have h := does_operationIssue_of_noTile (s := s) (b := b) (op := op) htile
  rwa [issueNumbered, htry] at h

theorem does_operationIssue_of_noBrick (hdest : destBrick op.addr.toNat = none) : Does (.operationIssue b issuer op) s (rejectNow issuer op 0x01 s) :=
  does_operationIssue_of_taken htile (by simp only [tryIssue, hdest])

section
variable {d : Brick} (hdest : destBrick op.addr.toNat = some d) (hseat : s.realSeat op.addr.toNat ≠ s.ownSeatNo)
include hdest hseat

theorem does_operationIssue_of_host (hregion : addrRegion op.addr.toNat = 0xB) : Does (.operationIssue b issuer op) s (rejectNow issuer op 0x01 s) :=
  does_operationIssue_of_taken htile (by simp only [tryIssue, hdest, hseat, hregion, if_true, if_false])

variable (hregion : addrRegion op.addr.toNat ≠ 0xB)
include hregion

theorem does_operationIssue_of_vacant (hstate : entryState (s.seatEntry (s.realSeat op.addr.toNat)) = 0) :
    Does (.operationIssue b issuer op) s (rejectNow issuer op 0x85 s) :=
  does_operationIssue_of_taken htile (by simp [tryIssue, hdest, hseat, hregion, hstate])

theorem does_operationIssue_of_noSeat (hstate : entryState (s.seatEntry (s.realSeat op.addr.toNat)) = 1) (hown : s.ownSeat = none) :
    Does (.operationIssue b issuer op) s (unreachableNow issuer 0 op s) :=
  does_operationIssue_of_taken htile (by simp [tryIssue, hdest, hseat, hregion, hstate, hown])

theorem does_operationIssue_of_held (hstate : entryState (s.seatEntry (s.realSeat op.addr.toNat)) = 2) (hown : s.ownSeat.isSome = true) :
    Does (.operationIssue b issuer op) s (s.onBrick b (fun B =>
      { B with waitOps := B.waitOps ++ [{ op := op, no := 0, issuer := issuer, why := .held, readyAt := s.now }] })) :=
  does_operationIssue_of_waiting htile (by simp [tryIssue, hdest, hseat, hregion, hstate, Option.isSome_iff_ne_none.mp hown])

end

variable {i : FlowId} (hgoes : GoesToFlow s op i) (hwaits : (s.brick b).waitOps = [])
include hgoes hwaits

theorem does_operationIssue_of_flow {f : SrcFlow} (hflow : s.flow b i = some f) (hwait : flowWait s b f = none) :
    Does (.operationIssue b issuer op) s (assignSeq b i issuer 0 op s) :=
  does_operationIssue_of_taken htile (by rw [hwaits, tryIssue_of_flow hgoes hflow hwait])

theorem leaves_operationIssue_of_flow {f : SrcFlow} (hflow : s.flow b i = some f) (hwait : flowWait s b f = none) :
    Leaves (.operationIssue b issuer op) s (fun u => FlowTook s u b i f.next f.ops.length) :=
  ⟨_, does_operationIssue_of_flow htile hgoes hwaits hflow hwait, (assignSeq_took hflow issuer 0 op).done⟩

theorem leaves_operationIssue_of_room (hflow : s.flow b i = none) (hroom : (s.brick b).srcFlows.length < 65536) :
    Leaves (.operationIssue b issuer op) s (fun u => FlowTook s u b i 0 0) := by
  obtain ⟨u, htry, htook, -⟩ := tryIssue_of_room (b := b) (issuer := issuer) (no := 0) hgoes hflow hroom
  exact ⟨_, does_operationIssue_of_taken htile (by rw [hwaits, htry]), htook.done⟩

end

/-- An operation of a tile takes the tile's next number and is counted; a store acts on the copies of its brick (R222, R223, R225, R894). -/
theorem does_operationIssue_of_tile {s : State} {b : Brick} {issuer : Issuer} {op : Op} {t : Nat} (htile : issuerTile issuer = some t) :
    Does (.operationIssue b issuer op) s (issueNumbered b issuer (s.tile (tileOf t)).opNo op
      (tally (tileOf t) (if s.realSeat op.addr.toNat = s.ownSeatNo then 59 else 60) 1
        (if op.opc = 0x02 then storeCopies (tileOf t) (s.canon op.addr.toNat) op.payload (s.onTile (tileOf t) (fun x => { x with opNo := x.opNo + 1 }))
         else s.onTile (tileOf t) (fun x => { x with opNo := x.opNo + 1 })))) := by
  rw [Does, exec_operationIssue, execOperationIssue, issueOp, htile, ended_next]
  rfl

/-! ### A request that waits is taken again -/

section
variable {s : State} {b : Brick} {w : WaitOp} (hwaits : (s.brick b).waitOps = [w])
include hwaits

/-- The one request that waits leaves the list where its flow takes it. -/
theorem retake_of_taken {u : State} (htry : tryIssue b w.issuer w.no w.op [] (s.onBrick b (fun B => { B with waitOps := [] })) = (none, u)) :
    retake b w s = u := by
  simp only [retake, hwaits, List.idxOf_cons_self, List.take_zero, List.eraseIdx_zero, List.tail_cons, htry]

variable {i : FlowId} (hgoes : GoesToFlow s w.op i)
include hgoes

theorem retake_of_flow {f : SrcFlow} (hflow : s.flow b i = some f) (hwait : flowWait s b f = none) :
    FlowTook s (retake b w s) b i f.next f.ops.length ∧ ((retake b w s).brick b).waitOps = [] := by
  have hflow' : (s.onBrick b (fun B => { B with waitOps := [] })).flow b i = some f := by
    rw [State.flow, State.onBrick_brick_same, ← hflow, State.flow]
  have hgoes' : GoesToFlow (s.onBrick b (fun B => { B with waitOps := [] })) w.op i := hgoes
  rw [retake_of_taken hwaits (tryIssue_of_flow hgoes' hflow' hwait)]
  refine ⟨(assignSeq_took hflow' w.issuer w.no w.op).of_same ?_ (State.onBrick_mem ..) (State.onBrick_ports ..), ?_⟩
  · rw [State.onBrick_brick_same]
  · rw [assignSeq_waitOps, State.onBrick_brick_same]

theorem retake_of_room (hflow : s.flow b i = none) (hroom : (s.brick b).srcFlows.length < 65536) :
    FlowTook s (retake b w s) b i 0 0 ∧ ((retake b w s).brick b).waitOps = [] := by
  have hgoes' : GoesToFlow (s.onBrick b (fun B => { B with waitOps := [] })) w.op i := hgoes
  have hflow' : (s.onBrick b (fun B => { B with waitOps := [] })).flow b i = none := by
    rw [State.flow, State.onBrick_brick_same, ← hflow, State.flow]
  obtain ⟨u, htry, htook, hwait⟩ := tryIssue_of_room (b := b) (issuer := w.issuer) (no := w.no) hgoes' hflow' (by rwa [State.onBrick_brick_same])
  rw [retake_of_taken hwaits htry, hwait, State.onBrick_brick_same]
  refine ⟨htook.of_same ?_ (State.onBrick_mem ..) (State.onBrick_ports ..), rfl⟩
  rw [State.onBrick_brick_same]

end

/-! ### The commands that take a request again (R175, R181, R191) -/

theorem addrSeat_lt (a : Nat) : addrSeat a < 65536 := bitsOf_lt a 63 48

theorem State.ownSeatNo_lt (s : State) : s.ownSeatNo < 65536 := by
  rw [State.ownSeatNo]
  cases hown : s.ownSeat with
  | none => decide
  | some x => exact (ownSeat_lt s hown).trans (by decide)

theorem State.realSeat_lt (s : State) (a : Nat) : s.realSeat a < 65536 := by
  rw [State.realSeat]
  split
  · exact s.ownSeatNo_lt
  · exact addrSeat_lt a

/-- A request of a flow goes to the seat, brick and label that the flow's name gives. -/
theorem goesTo_of_goesToFlow {s : State} {w : WaitOp} {i : FlowId} (h : GoesToFlow s w.op i) : WaitOp.goesTo s i.seat.toNat i.brk i.lbl w = true := by
  have hlt := s.realSeat_lt w.op.addr.toNat
  obtain ⟨d, hdest, ⟨hseat, rfl⟩ | ⟨-, -, -, -, rfl⟩⟩ := h
  · rw [hseat] at hlt
    simp [WaitOp.goesTo, flowOf, hdest, hseat, Nat.mod_eq_of_lt hlt]
  · simp [WaitOp.goesTo, flowOf, hdest, Nat.mod_eq_of_lt hlt]

section
variable {s : State} {b : Brick} {w : WaitOp} {i : FlowId} (hgoes : GoesToFlow s w.op i) (hwaits : (s.brick b).waitOps = [w])
include hgoes hwaits

theorem leaves_flowEntryFreedSend_of_room (hflow : s.flow b i = none) (hroom : (s.brick b).srcFlows.length < 65536) (hwhy : w.why = .entry) :
    Leaves (.flowEntryFreedSend b) s (fun u => FlowTook s u b i 0 0 ∧ (u.brick b).waitOps = [] ∧ (u.brick b).tableFull = false) := by
  have hrelease : releaseWaiting b .entry s = retake b w s := by simp [releaseWaiting, hwaits, hwhy, State.each]
  obtain ⟨htook, hrest⟩ := retake_of_room hwaits hgoes hflow hroom
  refine ⟨s.done ((retake b w s).onBrick b (fun B => { B with tableFull := B.waitOps.any (fun w => w.why = .entry) })), ?_, ?_⟩
  · rw [exec_flowEntryFreedSend, execFlowEntryFreedSend, if_neg (Nat.not_le.mpr hroom), hrelease, ended_next]
  · have hsource : (s.done ((retake b w s).onBrick b (fun B => { B with tableFull := B.waitOps.any (fun w => w.why = .entry) }))).source =
      (retake b w s).source := (source_done _ _).trans (source_onBrick _ _ fun _ => rfl)
    refine ⟨htook.of_source hsource, (source_waitOps hsource b).trans hrest, ?_⟩
    rw [State.brick, State.done_bricks, ← State.brick, State.onBrick_brick_same]
    simp [hrest]

variable {f : SrcFlow} (hflow : s.flow b i = some f) (hwait : flowWait s b f = none)
include hflow hwait

/-- What a command leaves that takes the one waiting request again. -/
theorem leaves_of_retake {c : Instr} (h : Does c s (retake b w s)) :
    Leaves c s (fun u => FlowTook s u b i f.next f.ops.length ∧ (u.brick b).waitOps = []) := by
  obtain ⟨htook, hrest⟩ := retake_of_flow hwaits hgoes hflow hwait
  exact ⟨_, h, htook.done, (source_waitOps (source_done _ _) b).trans hrest⟩

theorem leaves_outmaxRelease_of_flow : Leaves (.outmaxRelease b i) s (fun u => FlowTook s u b i f.next f.ops.length ∧ (u.brick b).waitOps = []) := by
  refine leaves_of_retake hgoes hwaits hflow hwait ?_
  rw [Does, exec_outmaxRelease, execOutmaxRelease, hwaits, List.find?_cons_of_pos (goesTo_of_goesToFlow hgoes), ended_next]

theorem leaves_heldOperationSend_of_live (hwhy : w.why = .held) (hlive : entryState (s.seatEntry (addrSeat w.op.addr.toNat)) = 1) :
    Leaves (.heldOperationSend b) s (fun u => FlowTook s u b i f.next f.ops.length ∧ (u.brick b).waitOps = []) := by
  refine leaves_of_retake hgoes hwaits hflow hwait ?_
  rw [Does, exec_heldOperationSend, execHeldOperationSend, hwaits, List.find?_cons_of_pos (by simp [hwhy, hlive]), ended_next]

end

/-! ### Requests that have waited too long (R175, R198) -/

section
variable {s : State} {b : Brick} {k : Nat}

theorem does_heldOperationUnreachable_of_held {w : WaitOp} (hw : ((s.brick b).waitOps.filter (fun w => w.why = .held))[k]? = some w)
    (hheld : entryState (s.seatEntry (addrSeat w.op.addr.toNat)) = 2) :
    Does (.heldOperationUnreachable b false k) s (unreachableNow w.issuer w.no w.op (s.onBrick b (fun B => { B with waitOps := B.waitOps.erase w }))) := by
  simp only [Does, exec_heldOperationUnreachable, execHeldOperationUnreachable, Bool.false_eq_true, if_false, hw, hheld, if_true, ended_next]

theorem does_heldOperationUnreachable_of_unsent {p : Packet} {f : SrcFlow} {o : SrcOp} (hp : (s.brick b).waitPkts[k]? = some p)
    (htype : p.ptype.toNat = ptReq) (hhops : p.hops = 0) (hbrick : p.sbrk.toNat = b.val) (hflow : s.flow b (packetFlow p) = some f)
    (hop : f.opAt p.seq.toNat = some o) (hleft : o.left = false) :
    Does (.heldOperationUnreachable b true k) s (giveUp b (packetFlow p) o (endOp b (packetFlow p) o .unreachable 0 []
      (s.onBrick b (fun B => { B with waitPkts := B.waitPkts.erase p })))) := by
  have hown : (decide (p.ptype.toNat = ptReq) && decide (p.hops = 0) && decide (p.sbrk.toNat = b.val)) = true := by
    rw [decide_eq_true htype, decide_eq_true hhops, decide_eq_true hbrick]
    rfl
  simp only [Does, exec_heldOperationUnreachable, execHeldOperationUnreachable, if_true, hp, hown, hflow, Option.bind_some, hop, hleft,
    Bool.false_eq_true, if_false, ended_next]

end

/-- Settles O14: what becomes of a new operation, of one that waits, and of one that has waited too long. That an operation toward another seat ends
unreachable where the package holds no seat is the model's choice (log entry 187). -/
theorem operationsAtSource : Obligations.OperationsAtSource := by
  refine ⟨fun s b issuer op t => ⟨fun htile => ⟨does_operationIssue_of_noBrick htile, fun d hdest hseat =>
      ⟨does_operationIssue_of_host htile hdest hseat, does_operationIssue_of_vacant htile hdest hseat, does_operationIssue_of_noSeat htile hdest hseat,
        does_operationIssue_of_held htile hdest hseat⟩,
      fun i f hgoes hflow hwait hwaits => ⟨does_operationIssue_of_flow htile hgoes hwaits hflow hwait,
        leaves_operationIssue_of_flow htile hgoes hwaits hflow hwait⟩,
      fun i hgoes hflow hroom hwaits => leaves_operationIssue_of_room htile hgoes hwaits hflow hroom⟩, does_operationIssue_of_tile⟩,
    fun s b w i hgoes hwaits => ⟨leaves_flowEntryFreedSend_of_room hgoes hwaits, fun f => leaves_outmaxRelease_of_flow hgoes hwaits,
      fun f => leaves_heldOperationSend_of_live hgoes hwaits⟩,
    fun s b k => ⟨fun w => does_heldOperationUnreachable_of_held, fun p f o => does_heldOperationUnreachable_of_unsent⟩⟩

end Sys2Proof.Machine
end

section
/-! PROOFS. What a destination does with packets (R183 to R188, R190, R194, R201). -/
namespace Sys2Proof.Machine
open Sys2Proof

theorem exec_reqReceive (b : Brick) (p : Packet) (e : MemEnv) (s : State) : exec (.reqReceive b p e) s = execReqReceive b p e s := rfl
theorem exec_fackReceive (b : Brick) (p : Packet) (s : State) : exec (.fackReceive b p) s = execFackReceive b p s := rfl
theorem exec_prbReceive (b : Brick) (p : Packet) (s : State) : exec (.prbReceive b p) s = execPrbReceive b p s := rfl
theorem exec_fclsReceive (b : Brick) (p : Packet) (s : State) : exec (.fclsReceive b p) s = execFclsReceive b p s := rfl
theorem exec_frstReceive (b : Brick) (p : Packet) (s : State) : exec (.frstReceive b p) s = execFrstReceive b p s := rfl
theorem exec_retentionStoreResume (b : Brick) (e : MemEnv) (s : State) : exec (.retentionStoreResume b e) s = execRetentionStoreResume b e s := rfl

/-! ### Packets that a destination takes (R183, R185) -/

/-- An answer acknowledges nothing. -/
theorem answer_acks_zero (s : State) (p : Packet) (ptype status : Nat) (data : Bytes) :
    (s.answer p ptype status data).map (fun q => { q with acks := BitVec.ofNat 32 0 }) = s.answer p ptype status data := by
  simp only [State.answer]
  split
  · rfl
  · rfl

section
variable {s : State} {b : Brick} {p : Packet} (hsound : packetSound p = true) (hold : s.tooOld b p = false)
include hsound hold

theorem takePacket_of_sound : takePacket b p s = (true, s.takeArrived b p) := by
  simp only [takePacket, hsound, State.takeArrived_tooOld, hold, Bool.not_true, Bool.false_eq_true, if_false]

/-! ### Requests (R185) -/

section
variable {e : MemEnv} (htype : p.ptype.toNat = ptReq)
include htype

theorem does_reqReceive_of_wrongSeat (hholds : holdsSeat (memReports e (s.takeArrived b p)) p = false) :
    Does (.reqReceive b p e) s (wrongSeat b p ptRsp (memReports e (s.takeArrived b p))) := by
  simp only [Does, exec_reqReceive, execReqReceive, htype, takePacket_of_sound hsound hold, hholds, ne_eq, not_true_eq_false, if_false, Bool.not_false,
    Bool.true_or, if_true, ended_next]

variable (hholds : holdsSeat (memReports e (s.takeArrived b p)) p = true) (hgen : genCurrent (memReports e (s.takeArrived b p)) p = true)
include hholds hgen

theorem does_reqReceive_of_staleSource (hsource : sourceCurrent (memReports e (s.takeArrived b p)) p = false) :
    Does (.reqReceive b p e) s (staleSource b p ptRsp 0x81 (memReports e (s.takeArrived b p))) := by
  simp only [Does, exec_reqReceive, execReqReceive, htype, takePacket_of_sound hsound hold, hholds, hgen, hsource, ne_eq, not_true_eq_false, if_false,
    Bool.not_true, Bool.or_self, Bool.false_eq_true, Bool.not_false, if_true, ended_next]

variable (hsource : sourceCurrent (memReports e (s.takeArrived b p)) p = true)
include hsource

theorem does_reqReceive_of_staleIncarnation (hinc : incCurrent (memReports e (s.takeArrived b p)) p = false) :
    Does (.reqReceive b p e) s (staleSource b p ptRsp 0x82 (memReports e (s.takeArrived b p))) := by
  simp only [Does, exec_reqReceive, execReqReceive, htype, takePacket_of_sound hsound hold, hholds, hgen, hsource, hinc, ne_eq, not_true_eq_false, if_false,
    Bool.not_true, Bool.or_self, Bool.false_eq_true, Bool.not_false, if_true, ended_next]

variable (hinc : incCurrent (memReports e (s.takeArrived b p)) p = true)
include hinc

/-- A request of no known flow that opens none is told so (R185 step 6). -/
theorem does_reqReceive_of_unopened (hflow : (memReports e (s.takeArrived b p)).dstFlow b p = none) (hopn : p.opn = false) :
    Does (.reqReceive b p e) s (reply b p ptRsp 0x83 [] (memReports e (s.takeArrived b p))) := by
  simp only [Does, exec_reqReceive, execReqReceive, htype, takePacket_of_sound hsound hold, hholds, hgen, hsource, hinc, hflow, hopn, ne_eq,
    not_true_eq_false, if_false, Bool.not_true, Bool.or_self, Bool.false_eq_true, Bool.not_false, if_true, ended_next]

theorem does_reqReceive_of_opening (hflow : (memReports e (s.takeArrived b p)).dstFlow b p = none) (hopn : p.opn = true)
    (hfresh : ((memReports e (s.takeArrived b p)).brick b).quarantine = false)
    (hroom : ((memReports e (s.takeArrived b p)).brick b).dstFlows.length < 65536) :
    Does (.reqReceive b p e) s (takeInFlow b p e (openFlow b p (memReports e (s.takeArrived b p)))) := by
  simp only [Does, exec_reqReceive, execReqReceive, htype, takePacket_of_sound hsound hold, hholds, hgen, hsource, hinc, hflow, hopn, hfresh,
    Nat.not_le.mpr hroom, ne_eq, not_true_eq_false, if_false, Bool.not_true, Bool.or_self, Bool.false_eq_true, decide_false, Bool.false_and, ended_next]

theorem does_reqReceive_of_flow {f : DstFlow} (hflow : (memReports e (s.takeArrived b p)).dstFlow b p = some f) (hfep : f.fep = p.fep.toNat)
    (hfresh : ((memReports e (s.takeArrived b p)).brick b).quarantine = false) :
    Does (.reqReceive b p e) s (takeInFlow b p e (memReports e (s.takeArrived b p))) := by
  simp only [Does, exec_reqReceive, execReqReceive, htype, takePacket_of_sound hsound hold, hholds, hgen, hsource, hinc, hflow, hfep, hfresh, ne_eq,
    not_true_eq_false, if_false, Bool.not_true, Bool.or_self, Bool.false_eq_true, decide_false, ended_next]

end

/-! ### Acknowledgements and probes (R187, R189, R194) -/

theorem does_fackReceive_of_flow {f : DstFlow} (htype : p.ptype.toNat = ptFack) (hflow : (s.takeArrived b p).dstFlow b p = some f)
    (hfep : f.fep = p.fep.toNat) : Does (.fackReceive b p) s (takeAcks b p (s.takeArrived b p)) := by
  simp only [Does, exec_fackReceive, execFackReceive, htype, takePacket_of_sound hsound hold, hflow, hfep, ne_eq, not_true_eq_false, if_false, if_true,
    ended_next]

section
variable (htype : p.ptype.toNat = ptPrb) (hfresh : ((s.takeArrived b p).brick b).quarantine = false) (hholds : holdsSeat (s.takeArrived b p) p = true)
include htype hfresh hholds

/-- A probe of a flow that is not known finds its history lost (R194). -/
theorem does_prbReceive_of_noFlow (hflow : (s.takeArrived b p).dstFlow b p = none) :
    Does (.prbReceive b p) s (reply b p ptPra 0x92 [] (s.takeArrived b p)) := by
  simp only [Does, exec_prbReceive, execPrbReceive, htype, takePacket_of_sound hsound hold, hfresh, hholds, hflow, Option.elim_none, answer_acks_zero,
    ne_eq, not_true_eq_false, if_false, Bool.not_true, Bool.false_eq_true, ite_self, ended_next, reply]

variable (hgen : genOld (s.takeArrived b p) p = false) (hinc : incCurrent (s.takeArrived b p) p = true) {f : DstFlow}
  (hflow : (s.takeArrived b p).dstFlow b p = some f) (hfep : f.fep = p.fep.toNat)
include hgen hinc hflow hfep

/-- A probe of a request that was not performed sends its source back (R194). -/
theorem does_prbReceive_of_unperformed (hseq : f.begun ≤ p.seq.toNat) :
    Does (.prbReceive b p) s (((s.takeArrived b p).onDst b p (fun f' => { f' with attMin := (f.attMin + 1) % 256, held := [] })).answerFrom b
      ((((s.takeArrived b p).onDst b p (fun f' => { f' with attMin := (f.attMin + 1) % 256, held := [] })).answer p ptPra 0x91 []).map (fun q =>
        { q with acks := BitVec.ofNat 32 f.begun, att := BitVec.ofNat 8 ((f.attMin + 1) % 256) }))) := by
  simp only [Does, exec_prbReceive, execPrbReceive, htype, takePacket_of_sound hsound hold, hfresh, hholds, hgen, hinc, hflow, hfep, hseq,
    ne_eq, not_true_eq_false, if_false, if_true, Bool.not_true, Bool.or_self, Bool.false_eq_true, ended_next]

/-- A probe of a request whose answer is retained is answered with it (R194). -/
theorem does_prbReceive_of_retained {r : Retained} (hseq : p.seq.toNat < f.begun)
    (hretained : f.retained.find? (fun r => r.seq = p.seq.toNat) = some r) :
    Does (.prbReceive b p) s ((s.takeArrived b p).answerFrom b (((s.takeArrived b p).answer p ptPra 0x90 r.data).map (fun q =>
      { q with acks := BitVec.ofNat 32 f.begun, att := BitVec.ofNat 8 r.status }))) := by
  simp only [Does, exec_prbReceive, execPrbReceive, htype, takePacket_of_sound hsound hold, hfresh, hholds, hgen, hinc, hflow, hfep, Nat.not_le.mpr hseq,
    hretained, ne_eq, not_true_eq_false, if_false, Bool.not_true, Bool.or_self, Bool.false_eq_true, ended_next]

end

/-! ### The end and the reset of a flow (R190, R201) -/

theorem does_fclsReceive_of_flow {f : DstFlow} (htype : p.ptype.toNat = ptFcls) (hholds : holdsSeat (s.takeArrived b p) p = true)
    (hgen : genOld (s.takeArrived b p) p = false) (hflow : (s.takeArrived b p).dstFlow b p = some f) :
    Does (.fclsReceive b p) s (reply b p ptFca 0x00 []
      (if f.fep = p.fep.toNat ∧ f.nxt = p.acks.toNat then dropFlow b p (s.takeArrived b p) else s.takeArrived b p)) := by
  simp only [Does, exec_fclsReceive, execFclsReceive, htype, takePacket_of_sound hsound hold, hholds, hgen, hflow, ne_eq, not_true_eq_false, if_false,
    Bool.not_true, Bool.or_self, Bool.false_eq_true, Bool.and_eq_true, decide_eq_true_eq, ended_next]

/-- A reset of a flow all of whose requests are performed and acknowledged begins the next epoch (R201). -/
theorem does_frstReceive_of_settled {f : DstFlow} (htype : p.ptype.toNat = ptFrst) (hholds : holdsSeat (s.takeArrived b p) p = true)
    (hsource : sourceCurrent (s.takeArrived b p) p = true) (hinc : incCurrent (s.takeArrived b p) p = true)
    (hflow : (s.takeArrived b p).dstFlow b p = some f) (hfep : f.fep = p.fep.toNat) (hnxt : f.nxt = p.seq.toNat + 1)
    (hacks : max f.ackd p.acks.toNat = f.nxt) :
    let fep := (p.fep.toNat + 1) % 256
    let u := (s.takeArrived b p).onDst b p (fun f =>
      { f with fep := fep, nxt := 0, ackd := 0, attMin := 0, held := [], retained := [], performing := none })
    Does (.frstReceive b p) s (u.answerFrom b ((u.answer p ptFra 0x00 []).map (fun q => { q with fep := BitVec.ofNat 8 fep }))) := by
  have hepoch : f.fep ≠ (p.fep.toNat + 1) % 256 := by
    have := p.fep.isLt
    omega
  have hsettled : (decide (f.fep = p.fep.toNat) && decide (f.nxt = p.seq.toNat + 1) && decide (max f.ackd p.acks.toNat = f.nxt)) = true := by
    rw [decide_eq_true hfep, decide_eq_true hnxt, decide_eq_true hacks]
    rfl
  simp only [Does, exec_frstReceive, execFrstReceive, htype, takePacket_of_sound hsound hold, hholds, hsource, hinc, hflow, hepoch, hsettled, ne_eq,
    not_true_eq_false, if_false, if_true, Bool.not_true, Bool.false_eq_true, ended_next]

end

/-! ### A request in its flow (R185 steps 8 to 12) -/

section
variable {s : State} {b : Brick} {p : Packet} {e : MemEnv} {f : DstFlow} (hflow : (takeAcks b p s).dstFlow b p = some f)
include hflow

/-- A request that was performed before is answered again (R187). -/
theorem takeInFlow_of_retained {r : Retained} (hseq : p.seq.toNat < f.nxt)
    (hretained : f.retained.find? (fun r => r.seq = p.seq.toNat) = some r) :
    takeInFlow b p e s = reply b p ptRsp r.status r.data ((takeAcks b p s).count (Reg.MRT_TCNT1_DUPS b) 1) := by
  simp only [takeInFlow, hflow, hseq, if_true, hretained]

/-- The request that is next is performed (R185 step 10). -/
theorem takeInFlow_of_next (hseq : p.seq.toNat = f.nxt) (hperforming : f.performing = none) (hheld : f.held = []) (hatt : p.att.toNat = f.attMin)
    (hmay : mayPerform (takeAcks b p s) b = true) (hfull : retentionFull (takeAcks b p s) b = false) :
    takeInFlow b p e s = runFlow b p e 1 ((takeAcks b p s).onDst b p (fun f => { f with held := f.held ++ [p] })) := by
  simp [takeInFlow, hflow, hseq, hperforming, hheld, hatt, hmay, hfull]

end

/-! ### A full retention store resumes (R188) -/

theorem does_retentionStoreResume (b : Brick) (e : MemEnv) (s : State) : Does (.retentionStoreResume b e) s (resumeFlows b e (memReports e s)) := by
  rw [Does, exec_retentionStoreResume, execRetentionStoreResume, ended_next]

/-! ### Destination flows -/

theorem find?_mine_map {p : Packet} {g : DstFlow → DstFlow} (hg : ∀ f, (g f).mine p = f.mine p) (fs : List DstFlow) :
    (fs.map (fun f => if f.mine p then g f else f)).find? (fun f => f.mine p) = (fs.find? (fun f => f.mine p)).map g := by
  induction fs with
  | nil => rfl
  | cons f fs ih =>
    by_cases h : f.mine p = true
    · simp [h, hg f]
    · simp [h, ih]

/-- A change of a flow that leaves it under its name is seen where the flow is looked up. -/
theorem State.onDst_dstFlow_of {s : State} {b : Brick} {p : Packet} {f : DstFlow} (hflow : s.dstFlow b p = some f) {g : DstFlow → DstFlow}
    (hg : ∀ f, (g f).mine p = f.mine p := by exact fun _ => rfl) : (s.onDst b p g).dstFlow b p = some (g f) := by
  rw [State.dstFlow] at hflow
  rw [State.dstFlow, State.onDst, State.onBrick_brick_same, find?_mine_map hg, hflow, Option.map_some]

theorem State.dstFlow_congr {s t : State} {b : Brick} (h : (t.brick b).dstFlows = (s.brick b).dstFlows) (p : Packet) : t.dstFlow b p = s.dstFlow b p := by
  rw [State.dstFlow, h, State.dstFlow]

theorem State.answerFrom_dstFlow (s : State) (b : Brick) (q : Option Packet) (p : Packet) : (s.answerFrom b q).dstFlow b p = s.dstFlow b p := by
  cases q with
  | none => rfl
  | some q => exact State.dstFlow_congr (by rw [State.answerFrom, State.sendFrom, State.onBrick_brick_same]) p

/-- The answer of the request that a flow performs is kept, and the flow moves on (R187). -/
theorem answerRequest_dstFlow {s : State} {b : Brick} {q : Packet} {f : DstFlow} (hflow : s.dstFlow b q = some f) (hperforming : f.performing = some q)
    (r : Reply) : (answerRequest b q r s).dstFlow b q = some { f with
      performing := none, nxt := f.nxt + 1, retained := f.retained ++ [{ seq := q.seq.toNat, status := r.1, data := r.2 }] } := by
  rw [answerRequest, hflow]
  dsimp only
  rw [if_pos hperforming, State.answerFrom_dstFlow, State.onDst_dstFlow_of hflow]

/-- A flow that holds no request performs none. -/
theorem runFlow_of_empty {s : State} {b : Brick} {q : Packet} {f : DstFlow} (hflow : s.dstFlow b q = some f) (hheld : f.held = []) (e : MemEnv) (n : Nat) :
    runFlow b q e n s = s := by
  cases n with
  | zero => rfl
  | succ n => simp only [runFlow, hflow, hheld, List.find?_nil]

theorem State.dstFlow_of_one {s : State} {b : Brick} {q : Packet} {f : DstFlow} (hflows : (s.brick b).dstFlows = [f]) (hmine : f.mine q = true) :
    s.dstFlow b q = some f := by
  simp [State.dstFlow, hflows, hmine]

/-- The request that is next is performed, and its answer, where it fits, is kept and sent before its successors are (R185 step 10, R188). -/
theorem runFlow_of_reply {s t : State} {b : Brick} {q : Packet} {e : MemEnv} {f : DstFlow} {r : Reply} (n : Nat) (hflow : s.dstFlow b q = some f)
    (hnext : f.held.find? (fun x => x.seq.toNat = f.nxt) = some q) (hperforming : f.performing = none) (hmay : mayPerform s b = true)
    (hfull : retentionFull s b = false)
    (hperform : perform b q e (s.onDst b q (fun f => { f with held := f.held.erase q, performing := some q })) = (.reply r, t))
    (hroom : retentionUsed (s.brick b) + (1 + r.2.length) ≤ retentionSize) :
    runFlow b q e (n + 1) s = runFlow b q e n (answerRequest b q r (t.onBrick b (fun B => { B with retNeed := 0 }))) := by
  simp only [runFlow, hflow, hnext, hperforming, hmay, hfull, hperform, Nat.not_lt.mpr hroom, Option.isSome_none, Bool.not_true, Bool.or_self,
    Bool.false_eq_true, if_false]

section
variable {s t : State} {b : Brick} {q : Packet} {e : MemEnv} {f : DstFlow} {r : Reply} (hflows : (s.brick b).dstFlows = [f]) (hmine : f.mine q = true)
  (hheld : f.held = [q]) (hseq : q.seq.toNat = f.nxt)
include hflows hmine hheld hseq

/-- A brick with one flow, which holds its next request, resumes that one. -/
theorem resumeFlows_of_one : resumeFlows b e s = runFlow b q e 2 s := by
  have hflow : s.dstFlow b q = some f := State.dstFlow_of_one hflows hmine
  simp [resumeFlows, hflows, hheld, hseq, State.each, heldCount, hflow]

theorem resumeFlows_answers (hperforming : f.performing = none) (hmay : mayPerform s b = true) (hfull : retentionFull s b = false)
    (hperform : perform b q e (s.onDst b q (fun f => { f with held := [], performing := some q })) = (.reply r, t))
    (hkept : t.dstFlow b q = some { f with held := [], performing := some q }) (hroom : retentionUsed (s.brick b) + (1 + r.2.length) ≤ retentionSize) :
    (resumeFlows b e s).dstFlow b q = some { f with
      held := [], performing := none, nxt := f.nxt + 1, retained := f.retained ++ [{ seq := q.seq.toNat, status := r.1, data := r.2 }] } := by
  have hflow : s.dstFlow b q = some f := State.dstFlow_of_one hflows hmine
  have hbegun : s.onDst b q (fun f => { f with held := f.held.erase q, performing := some q }) =
      s.onDst b q (fun f => { f with held := [], performing := some q }) :=
    s.onBrick_congr (by simp [hflows, hmine, hheld])
  have hnext : f.held.find? (fun x => x.seq.toNat = f.nxt) = some q := by rw [hheld, List.find?_cons_of_pos (by simpa using hseq)]
  have hkept' : (t.onBrick b (fun B => { B with retNeed := 0 })).dstFlow b q = some { f with held := [], performing := some q } :=
    (State.dstFlow_congr (by rw [State.onBrick_brick_same]) q).trans hkept
  have hanswered := answerRequest_dstFlow hkept' rfl r
  rw [resumeFlows_of_one hflows hmine hheld hseq, runFlow_of_reply 1 hflow hnext hperforming hmay hfull (hbegun ▸ hperform) hroom,
    runFlow_of_empty hanswered rfl, hanswered]

end

theorem State.done_dstFlow (s t : State) (b : Brick) (p : Packet) : (s.done t).dstFlow b p = t.dstFlow b p :=
  State.dstFlow_congr (by rw [State.brick, State.done_bricks, State.brick]) p

/-- Settles O17. That a request is answered 0x80 to 0x83 also while the brick is in quarantine is the model's choice (log entry 91). -/
theorem destinationAnswers : Obligations.DestinationAnswers := by
  intro s b p e hsound hold
  exact ⟨does_reqReceive_of_wrongSeat hsound hold, does_reqReceive_of_staleSource hsound hold, does_reqReceive_of_staleIncarnation hsound hold,
    fun htype hholds hgen hsource hinc hflow => ⟨does_reqReceive_of_unopened hsound hold htype hholds hgen hsource hinc hflow,
      does_reqReceive_of_opening hsound hold htype hholds hgen hsource hinc hflow⟩,
    fun f htype hholds hgen hsource hinc => does_reqReceive_of_flow hsound hold htype hholds hgen hsource hinc,
    fun f hflow => ⟨fun r => takeInFlow_of_retained hflow, takeInFlow_of_next hflow⟩,
    fun f => does_fackReceive_of_flow hsound hold, does_prbReceive_of_noFlow hsound hold,
    fun f htype hfresh hholds hgen hinc hflow hfep => ⟨does_prbReceive_of_unperformed hsound hold htype hfresh hholds hgen hinc hflow hfep,
      fun r => does_prbReceive_of_retained hsound hold htype hfresh hholds hgen hinc hflow hfep⟩,
    fun f => does_fclsReceive_of_flow hsound hold, fun f => does_frstReceive_of_settled hsound hold, does_retentionStoreResume b e s,
    fun f q r t hflows hmine hheld hseq hperforming hmay hfull hperform hkept hroom => ⟨_, does_retentionStoreResume b e s,
      (State.done_dstFlow ..).trans (resumeFlows_answers hflows hmine hheld hseq hperforming hmay hfull hperform hkept hroom)⟩⟩

end Sys2Proof.Machine
end

section
/-! PROOFS. What the operations shared by copies, wakes, checks and releases leave as it was: lists of changes, trace records, acquires and wait slots. -/
namespace Sys2Proof.Machine
open Sys2Proof

/-! ### Lists of changes -/

section
variable {α : Type} {P Q : State → Prop} {f : State → α → State}

theorem State.each_keeps (hP : ∀ s x, P s → P (f s x)) (xs : List α) {s : State} (hs : P s) : P (s.each xs f) :=
  List.foldlRecOn xs f hs fun t ht x _ => hP t x ht

/-- A change that brings about `Q` from wherever the others may come leaves `Q`, where they keep it. -/
theorem State.each_of_mem {a : α} (hP : ∀ s x, P s → P (f s x)) (hQ : ∀ s x, Q s → Q (f s x)) (ha : ∀ s, P s → Q (f s a)) {xs : List α}
    (hmem : a ∈ xs) {s : State} (hs : P s) : Q (s.each xs f) := by
  obtain ⟨before, after, rfl⟩ := List.append_of_mem hmem
  rw [State.each, List.foldl_append, List.foldl_cons]
  exact State.each_keeps hQ after (ha _ (State.each_keeps hP before hs))

end

/-! ### Readings of the state -/

section
variable {α β : Type}

theorem State.each_view {V : State → β} {f : State → α → State} (hf : ∀ s x, V (f s x) = V s) (xs : List α) (s : State) : V (s.each xs f) = V s :=
  State.each_keeps (P := fun t => V t = V s) (fun t x ht => (hf t x).trans ht) xs rfl

theorem State.onTile_view {p : TileState → β} (s : State) (t u : Tile) {f : TileState → TileState}
    (hf : ∀ T, p (f T) = p T := by exact fun _ => rfl) : p ((s.onTile t f).tile u) = p (s.tile u) := by
  by_cases h : u = t
  · rw [h, State.onTile_tile_same, hf]
  · rw [State.onTile_tile_other _ _ _ _ h]

theorem State.onBrick_view {p : BrickState → β} (s : State) (b c : Brick) {f : BrickState → BrickState}
    (hf : ∀ B, p (f B) = p B := by exact fun _ => rfl) : p ((s.onBrick b f).brick c) = p (s.brick c) := by
  by_cases h : c = b
  · rw [h, State.onBrick_brick_same, hf]
  · rw [State.onBrick_brick_other _ _ _ _ h]

end

theorem tileOf_val (t : Tile) : tileOf t.val = t := Fin.ext (Nat.mod_eq_of_lt t.isLt)

theorem State.onBrick_tile (s : State) (b : Brick) (f : BrickState → BrickState) (u : Tile) : (s.onBrick b f).tile u = s.tile u := rfl
theorem State.count_tile (s : State) (f : FieldRef) (n : Nat) (u : Tile) : (s.count f n).tile u = s.tile u := rfl

theorem State.done_tile (s t : State) (u : Tile) : (s.done t).tile u = t.tile u := by rw [State.tile, State.done_tiles, State.tile]

theorem tally_tiles (t : Tile) (i n : Nat) (s : State) : (tally t i n s).tiles = s.tiles := by
  rw [tally, apply_ite State.tiles, State.wr_tiles, ite_self]

theorem tally_tile (t : Tile) (i n : Nat) (s : State) (u : Tile) : (tally t i n s).tile u = s.tile u := by
  rw [State.tile, tally_tiles, State.tile]

theorem tally_events (t : Tile) (i n : Nat) (s : State) : (tally t i n s).events = s.events := by
  rw [tally, apply_ite State.events, State.wr_events, ite_self]

theorem tally_now (t : Tile) (i n : Nat) (s : State) : (tally t i n s).now = s.now := by
  rw [tally, apply_ite State.now, State.wr_now, ite_self]

/-- The seat a package holds depends on its identity and on the seat table alone (R174), whose registers end below 0x50000. -/
theorem State.ownSeatNo_wr (s : State) (f : FieldRef) (v : Nat) (h : 0x50000 ≤ f.reg) : (s.wr f v).ownSeatNo = s.ownSeatNo := by
  have hpid : (s.wr f v).ownPid = s.ownPid := State.rd_wr_other s f Reg.SEAT_PID_PID v (by
    have : Reg.SEAT_PID_PID.reg < 0x50000 := by decide
    omega)
  have hnamed : (s.wr f v).seatsNamed = s.seatsNamed := by
    rw [State.seatsNamed, hpid]
    refine filterMap_tabSet (fun v => if_neg ?_) _ _ _
    simp only [Bool.and_eq_true, decide_eq_true_eq]
    omega
  rw [State.ownSeatNo, State.ownSeat, hnamed, State.ownSeatNo, State.ownSeat]

/-! ### Trace records (R907, R911) -/

/-- The offset lies among the registers of observation or of the tiles: there lie the counters of dropped records (R894, R900). -/
def ObsReg (off : Nat) : Prop := 0x500000 ≤ off ∧ (off < 0x600000 ∨ 0x80000000 ≤ off)

/-- A reading of the state that sees neither the observation buffers nor the counters of dropped records. -/
structure TraceBlind {α : Type} (V : State → α) : Prop where
  wr : ∀ s (f : FieldRef) v, ObsReg f.reg → V (s.wr f v) = V s
  buffer : ∀ s b (recs : BrickState → List ObsRec), V (s.onBrick b (fun B => { B with obsBuf := recs B })) = V s
  lost : ∀ s b (l : BrickState → ObsLost), V (s.onBrick b (fun B => { B with obsLost := l B })) = V s

theorem obsReg_cnt (t : Tile) (i : Nat) : ObsReg (Reg.OBS_CNT t i) := by
  simp only [ObsReg, Reg.OBS_CNT, tileReg]
  omega

theorem obsReg_drops (b : Brick) : ObsReg (Reg.OBS_DROPS b) := by
  have := b.isLt
  simp only [ObsReg, Reg.OBS_DROPS, pkgReg]
  omega

theorem obsReg_err (b : Brick) : ObsReg (Reg.OBS_ERR b) := by
  have := b.isLt
  simp only [ObsReg, Reg.OBS_ERR, pkgReg]
  omega

section
variable {α : Type} {V : State → α} (h : TraceBlind V) (s : State)
include h

theorem TraceBlind.tally (t : Tile) (i n : Nat) : V (tally t i n s) = V s := by
  rw [Machine.tally, apply_ite V, h.wr _ (Reg.OBS_CNT_COUNT t i) _ (obsReg_cnt t i), ite_self]

theorem TraceBlind.obsDrop (b : Brick) (r : ObsRec) : V (obsDrop b r s) = V s := by
  have hcount : ∀ (s : State) (f : FieldRef), f.reg = Reg.OBS_DROPS b → V (s.count f 1) = V s := fun s f hf => h.wr s f _ (hf ▸ obsReg_drops b)
  have hflag : ∀ (s : State) (f : FieldRef), f.reg = Reg.OBS_ERR b → V (s.flag f) = V s := fun s f hf => h.wr s f _ (hf ▸ obsReg_err b)
  have htally : V (if r.tile < 128 then Machine.tally (tileOf r.tile) 63 1 s else s) = V s := by rw [apply_ite V, h.tally, ite_self]
  rw [Machine.obsDrop]
  split
  · exact (h.lost ..).trans ((hflag _ _ rfl).trans ((hcount _ _ rfl).trans htally))
  · exact (h.lost ..).trans ((hflag _ _ rfl).trans ((hcount _ _ rfl).trans htally))

theorem TraceBlind.obsPush (b : Brick) (r : ObsRec) : V (obsPush b r s) = V s := by
  rw [Machine.obsPush]
  split
  · exact h.buffer ..
  · exact h.obsDrop ..

theorem TraceBlind.pushMarker (b : Brick) : V (pushMarker b s) = V s := by
  rw [Machine.pushMarker]
  dsimp only
  split
  · rfl
  · exact (h.obsPush ..).trans (h.lost ..)

theorem TraceBlind.traceRec (b : Brick) (typ src tile : Nat) (body : Bytes) : V (traceRec b typ src tile body s) = V s := by
  rw [Machine.traceRec, traceRecAt]
  split
  · exact (h.obsPush ..).trans (h.pushMarker ..)
  · rfl

theorem TraceBlind.traceIssued (b : Brick) (f : SrcFlow) (seq : Nat) (issuer : Issuer) (op : Op) : V (traceIssued b f seq issuer op s) = V s := by
  rw [Machine.traceIssued]
  split
  · rfl
  · rw [apply_ite V, h.traceRec, ite_self]

theorem TraceBlind.traceWake (b : Brick) (k : Nat) (w : BondWait) (status : Nat) (count : Word) (cause : Option Requester) :
    V (traceWake b k w status count cause s) = V s := by
  rw [Machine.traceWake.eq_def]
  split
  · rfl
  · exact h.traceRec ..

end

theorem traceBlind_tiles : TraceBlind State.tiles := ⟨fun _ _ _ _ => rfl, fun _ _ _ => rfl, fun _ _ _ => rfl⟩

theorem traceBlind_ownSeatNo : TraceBlind State.ownSeatNo :=
  ⟨fun s f v hreg => s.ownSeatNo_wr f v (by unfold ObsReg at hreg; omega), fun _ _ _ => rfl, fun _ _ _ => rfl⟩

theorem traceBlind_rd {g : FieldRef} (hg : ¬ ObsReg g.reg) : TraceBlind (fun s => s.rd g) :=
  ⟨fun s f v hreg => State.rd_wr_other s f g v fun heq => hg (heq ▸ hreg), fun _ _ _ => rfl, fun _ _ _ => rfl⟩

theorem traceBlind_brick {β : Type} {p : BrickState → β}
    (hp : ∀ (B : BrickState) (recs : List ObsRec) (l : ObsLost), p { B with obsBuf := recs, obsLost := l } = p B) (c : Brick) :
    TraceBlind (fun s => p (s.brick c)) :=
  ⟨fun _ _ _ _ => rfl, fun s b recs => s.onBrick_view b c fun B => hp B (recs B) B.obsLost,
    fun s b l => s.onBrick_view b c fun B => hp B B.obsBuf (l B)⟩

/-! ### Acquires and slots -/

section
variable {β : Type} {p : TileState → β}
  (hp : ∀ (T : TileState) (stamp : Nat) (mirror : List CopyLine), p { T with stamp := stamp, mirror := mirror } = p T)
include hp

/-- A flush changes the stamps of its brick's tiles alone (R236). -/
theorem acquireFlush_tile (b : Brick) (s : State) (u : Tile) : p ((acquireFlush b s).tile u) = p (s.tile u) := by
  rw [acquireFlush, State.count_tile,
    State.each_view (V := fun s => p (s.tile u)) fun s t => s.onTile_view t u fun T => hp T 0 T.mirror, State.onBrick_tile]

/-- A full acquire changes stamps and mirror lines of tiles alone (R235, R236). -/
theorem fullAcquire_tile (t : Tile) (s : State) (u : Tile) : p ((fullAcquire t s).tile u) = p (s.tile u) := by
  rw [fullAcquire, State.count_tile, State.onTile_view _ t u fun T => hp T _ []]
  split
  · exact acquireFlush_tile hp ..
  · rw [State.onBrick_tile]

end

theorem acquireFlush_events (b : Brick) (s : State) : (acquireFlush b s).events = s.events := by
  rw [acquireFlush, State.count_events, State.each_view fun s t => State.onTile_events .., State.onBrick_events]

theorem fullAcquire_events (t : Tile) (s : State) : (fullAcquire t s).events = s.events := by
  rw [fullAcquire, State.count_events, State.onTile_events]
  split
  · exact acquireFlush_events ..
  · exact State.onBrick_events ..

theorem State.slot_congr {s u : State} {t : Tile} (h : (u.tile t).slots = (s.tile t).slots) (k : Nat) : u.slot t k = s.slot t k := by
  rw [State.slot, h, State.slot]

theorem State.onSlot_slot_same (s : State) (t : Tile) (k : Nat) (f : Slot → Slot) (h : k < (s.tile t).slots.length) :
    (s.onSlot t k f).slot t k = f (s.slot t k) := by
  simp [State.slot, State.onSlot, List.getD_eq_getElem?_getD, h]

theorem State.onSlot_slot_other (s : State) {t u : Tile} {k j : Nat} (f : Slot → Slot) (h : u = t → j ≠ k) :
    (s.onSlot t k f).slot u j = s.slot u j := by
  by_cases hu : u = t
  · subst hu
    simp [State.slot, State.onSlot, List.getD_eq_getElem?_getD, (h rfl).symm]
  · rw [State.slot, State.onSlot, State.onTile_tile_other _ _ _ _ hu, State.slot]

/-- A slot that is not Free is one of its tile's slots. -/
theorem State.slot_lt_length {s : State} {t : Tile} {k : Nat} (h : (s.slot t k).st ≠ .free) : k < (s.tile t).slots.length := by
  by_contra hle
  exact h (by rw [State.slot, List.getD_eq_default _ _ (Nat.not_lt.mp hle)])

end Sys2Proof.Machine
end

section
/-! PROOFS. What the issue of an operation leaves as it was (R175, R191). -/
namespace Sys2Proof.Machine
open Sys2Proof

/-- A reading of the state that sees nothing of what a new operation of an issuer does: neither the bricks nor the events, nor the record of a signal
issued, nor the outcome where transport never takes it. -/
structure IssueBlind {α : Type} (V : State → α) (issuer : Issuer) (op : Op) : Prop where
  brick : ∀ s b f, V (s.onBrick b f) = V s
  raise : ∀ s code args, V (s.raise code args) = V s
  trace : ∀ s b f seq, V (traceIssued b f seq issuer op s) = V s
  reject : ∀ s status, status ≠ 0x14 → V (rejectNow issuer op status s) = V s
  unreachable : ∀ s no, V (unreachableNow issuer no op s) = V s

section
variable {α : Type} {V : State → α} {issuer : Issuer} {op : Op} (h : IssueBlind V issuer op) (b : Brick) (no : Nat) (s : State)
include h

theorem IssueBlind.onFlow (i : FlowId) (g : SrcFlow → SrcFlow) : V (s.onFlow b i g) = V s := h.brick ..

theorem IssueBlind.sendOp (i : FlowId) (seq : Nat) : V (sendOp b i seq s) = V s := by
  rw [Machine.sendOp]
  split
  · rfl
  · split
    · rfl
    · exact (h.brick ..).trans ((h.onFlow ..).trans (h.onFlow ..))

theorem IssueBlind.assignSeq (i : FlowId) : V (assignSeq b i issuer no op s) = V s := by
  rw [Machine.assignSeq]
  split
  · rfl
  · exact (h.sendOp ..).trans ((h.trace ..).trans (h.brick ..))

theorem IssueBlind.toFlow (seat gen : Nat) (d : Brick) (ahead : List WaitOp) : V (toFlow b seat gen d issuer no op ahead s).2 = V s := by
  rw [Machine.toFlow]
  split
  · rfl
  · split
    · split
      · rfl
      · exact h.assignSeq ..
    · split
      · dsimp only
        split
        · rfl
        · exact (h.raise ..).trans (h.brick ..)
      · exact (h.assignSeq ..).trans (h.brick ..)

theorem IssueBlind.tryIssue (ahead : List WaitOp) : V (tryIssue b issuer no op ahead s).2 = V s := by
  rw [Machine.tryIssue]
  dsimp only
  split
  · exact h.reject _ _ (by decide)
  · split
    · exact h.toFlow ..
    · split
      · exact h.reject _ _ (by decide)
      · split
        · exact h.reject _ _ (by decide)
        · split
          · exact h.unreachable ..
          · split
            · rfl
            · exact h.toFlow ..

theorem IssueBlind.issueNumbered : V (issueNumbered b issuer no op s) = V s := by
  have htry := h.tryIssue b no s (s.brick b).waitOps
  rw [Machine.issueNumbered]
  split
  · next u heq => rwa [heq] at htry
  · next why u heq =>
    rw [heq] at htry
    exact (h.brick ..).trans htry

end

/-! ### The check of a wait (R262) -/

/-- Transport's refusal of a check ends no wait: only the answer 0x14 of the bond's home does. -/
theorem rejectNow_wchk {op : Op} (hopc : op.opc = 0x3B) (t k : Nat) {status : Nat} (hstatus : status ≠ 0x14) (s : State) :
    rejectNow (.wchk t k) op status s = s := by
  simp [rejectNow, deliver, issuerTile, hopc, wchkLost, hstatus]

theorem unreachableNow_wchk {op : Op} (hopc : op.opc = 0x3B) (t k no : Nat) (s : State) :
    unreachableNow (.wchk t k) no op s = s.raise 0x1104 [addrSeat op.addr.toNat] := by
  simp [unreachableNow, noteFailure, ownTile, deliver, issuerTile, hopc, wchkLost]

theorem traceIssued_wchk {op : Op} (hopc : op.opc = 0x3B) (b : Brick) (f : SrcFlow) (seq t k : Nat) (s : State) :
    traceIssued b f seq (.wchk t k) op s = s := by
  simp [traceIssued, issuerTile, hopc]

theorem issueBlind_wchk {α : Type} {V : State → α} (hbrick : ∀ s b f, V (s.onBrick b f) = V s) (hraise : ∀ s code args, V (s.raise code args) = V s)
    {op : Op} (hopc : op.opc = 0x3B) (t k : Nat) : IssueBlind V (.wchk t k) op where
  brick := hbrick
  raise := hraise
  trace := fun s b f seq => by rw [traceIssued_wchk hopc]
  reject := fun s status hstatus => by rw [rejectNow_wchk hopc t k hstatus]
  unreachable := fun s no => by rw [unreachableNow_wchk hopc, hraise]

/-- A check that is issued takes the next number of its tile, and changes nothing else of any tile. -/
theorem issueOp_wchk {op : Op} (hopc : op.opc = 0x3B) (b : Brick) (t : Tile) (k : Nat) (s : State) :
    (issueOp b (.wchk t.val k) op s).tiles = (s.onTile t (fun T => { T with opNo := T.opNo + 1 })).tiles ∧
    (issueOp b (.wchk t.val k) op s).now = s.now ∧ (issueOp b (.wchk t.val k) op s).ownSeatNo = s.ownSeatNo := by
  have hblind := fun {α : Type} {V : State → α} hbrick hraise => issueBlind_wchk (V := V) hbrick hraise hopc t.val k
  have hne : op.opc ≠ 0x02 := by rw [hopc]; decide
  simp only [issueOp, issuerTile, tileOf_val, if_neg hne]
  refine ⟨?_, ?_, ?_⟩
  · rw [(hblind (V := State.tiles) State.onBrick_tiles State.raise_tiles).issueNumbered, tally_tiles]
  · rw [(hblind (V := State.now) State.onBrick_now State.raise_now).issueNumbered, tally_now, State.onTile_now]
  · rw [(hblind (V := State.ownSeatNo) (fun _ _ _ => rfl) (fun _ _ _ => rfl)).issueNumbered, traceBlind_ownSeatNo.tally]
    rfl

/-! ### The releases of a tile (R230) -/


/-- The releases of tile `t` that wait for their drain. -/
def State.releasesOf (t : Tile) (s : State) : List Release := (s.tile t).releases

section
variable (t : Tile) (s : State)

theorem releasesOf_congr {s u : State} (h : u.tiles = s.tiles) : u.releasesOf t = s.releasesOf t := by
  rw [State.releasesOf, State.tile, h, State.releasesOf, State.tile]

@[simp] theorem releasesOf_count (f : FieldRef) (n : Nat) : (s.count f n).releasesOf t = s.releasesOf t := releasesOf_congr t (State.count_tiles ..)
@[simp] theorem releasesOf_flag (f : FieldRef) : (s.flag f).releasesOf t = s.releasesOf t := releasesOf_congr t (State.flag_tiles ..)
@[simp] theorem releasesOf_onBrick (b : Brick) (f : BrickState → BrickState) : (s.onBrick b f).releasesOf t = s.releasesOf t := rfl

theorem releasesOf_onTile (u : Tile) {f : TileState → TileState} (hf : ∀ T, (f T).releases = T.releases := by exact fun _ => rfl) :
     (s.onTile u f).releasesOf t = s.releasesOf t :=
  State.onTile_view (p := TileState.releases) s u t hf

@[simp] theorem releasesOf_tally (u : Tile) (i n : Nat) : (tally u i n s).releasesOf t = s.releasesOf t := releasesOf_congr t (tally_tiles ..)

@[simp] theorem releasesOf_onSlot (u : Tile) (k : Nat) (f : Slot → Slot) : (s.onSlot u k f).releasesOf t = s.releasesOf t :=
  releasesOf_onTile t s u

@[simp] theorem releasesOf_fullAcquire (u : Tile) : (fullAcquire u s).releasesOf t = s.releasesOf t :=
  fullAcquire_tile (p := TileState.releases) (fun _ _ _ => rfl) u s t

@[simp] theorem releasesOf_wakeSlot (u : Tile) (k status : Nat) (count : Word) : (wakeSlot u k status count s).releasesOf t = s.releasesOf t := by
  simp only [wakeSlot, apply_ite (State.releasesOf t), releasesOf_fullAcquire, releasesOf_onSlot, ite_self]

@[simp] theorem releasesOf_loseWait (u : Tile) (k : Nat) : (loseWait u k s).releasesOf t = s.releasesOf t := by
  simp only [loseWait, apply_ite (State.releasesOf t), releasesOf_count, releasesOf_flag, releasesOf_wakeSlot, ite_self]

@[simp] theorem releasesOf_waitAnswered (u : Tile) (k status : Nat) (data : Bytes) :
    (waitAnswered u k status data s).releasesOf t = s.releasesOf t := by
  simp only [waitAnswered, apply_ite (State.releasesOf t), releasesOf_tally, releasesOf_onSlot, releasesOf_wakeSlot, ite_self]

@[simp] theorem releasesOf_storeFailedCopies (u : Tile) (a n : Nat) : (storeFailedCopies u a n s).releasesOf t = s.releasesOf t :=
  releasesOf_onTile t s u

@[simp] theorem releasesOf_answerFill (u : Tile) (no : Nat) (good : Bool) : (answerFill u no good s).releasesOf t = s.releasesOf t := rfl

theorem releasesOf_noteFailure (issuer : Issuer) (no : Nat) (op : Op) : (noteFailure issuer no op s).releasesOf t = s.releasesOf t := by
  rw [noteFailure]
  split
  · rfl
  · exact releasesOf_onTile t s _

theorem releasesOf_results (rs : List Result) : ({ s with results := rs } : State).releasesOf t = s.releasesOf t := rfl
theorem releasesOf_emit (o : Output) : (s.emit o).releasesOf t = s.releasesOf t := rfl

theorem releasesOf_deliver (r : Result) : (deliver r s).releasesOf t = s.releasesOf t := by
  cases hissuer : r.issuer <;>
    simp only [deliver, hissuer, issuerTile, apply_ite (State.releasesOf t), releasesOf_results, releasesOf_tally, releasesOf_storeFailedCopies,
      releasesOf_waitAnswered, releasesOf_onSlot, releasesOf_loseWait, releasesOf_emit, releasesOf_answerFill, ite_self]

theorem storeCopies_releasesOf (u : Tile) (a : Nat) (data : Bytes) : (storeCopies u a data s).releasesOf t = s.releasesOf t := by
  rw [storeCopies, releasesOf_onTile, State.each_view fun s v => releasesOf_onTile t s v, releasesOf_onBrick]

theorem storeCopies_mem (u : Tile) (a : Nat) (data : Bytes) : (storeCopies u a data s).mem = s.mem := by
  rw [storeCopies, State.onTile_mem, State.each_view fun s v => State.onTile_mem .., State.onBrick_mem]

end

theorem issueBlind_releasesOf (t : Tile) (issuer : Issuer) (op : Op) : IssueBlind (State.releasesOf t) issuer op where
  brick := fun _ _ _ => rfl
  raise := fun _ _ _ => rfl
  trace := fun s b f seq => releasesOf_congr t (traceBlind_tiles.traceIssued s b f seq issuer op)
  reject := fun s _ _ => releasesOf_deliver t s _
  unreachable := fun s no => (releasesOf_deliver ..).trans (releasesOf_noteFailure t s issuer no op)

theorem issueBlind_mem (issuer : Issuer) (op : Op) : IssueBlind State.mem issuer op where
  brick := State.onBrick_mem
  raise := State.raise_mem
  trace := fun _ _ _ _ => source_mem (source_traceIssued ..)
  reject := fun _ _ _ => source_mem (source_deliver ..)
  unreachable := fun _ _ => source_mem ((source_deliver ..).trans ((source_raise ..).trans (source_noteFailure ..)))

/-- The issue of an operation leaves memory and the releases that wait. -/
theorem issueOp_releasesOf_mem (b : Brick) (issuer : Issuer) (op : Op) (t : Tile) (s : State) :
    (issueOp b issuer op s).releasesOf t = s.releasesOf t ∧ (issueOp b issuer op s).mem = s.mem := by
  have hrel := fun no s => (issueBlind_releasesOf t issuer op).issueNumbered b no s
  have hmem := fun no s => (issueBlind_mem issuer op).issueNumbered b no s
  rw [issueOp]
  split
  · exact ⟨hrel .., hmem ..⟩
  · next u _ =>
    dsimp only
    rw [hrel, hmem, releasesOf_tally, source_mem (source_tally ..)]
    split
    · exact ⟨(storeCopies_releasesOf ..).trans (releasesOf_onTile ..), (storeCopies_mem ..).trans (State.onTile_mem ..)⟩
    · exact ⟨releasesOf_onTile .., State.onTile_mem ..⟩

end Sys2Proof.Machine
end

section
/-! PROOFS. Copies, wakes, timeouts, wait checks and releases (R223, R224, R230, R233, R256, R260, R262, R942). -/
namespace Sys2Proof.Machine
open Sys2Proof

theorem exec_copyFill (t : Tile) (addr : Word) (data : Bytes) (poisoned mirror remote : Bool) (e : MemEnv) (s : State) :
    exec (.copyFill t addr data poisoned mirror remote e) s = execCopyFill t addr data poisoned mirror remote e s := rfl
theorem exec_wake (c : Brick) (s : State) : exec (.wake c) s = execWake c s := rfl
theorem exec_waitTimeout (c : Brick) (k : Fin 16384) (seat : BitVec 16) (t : Tile) (slot : Fin 16) (s : State) :
    exec (.waitTimeout c k seat t slot) s = execWaitTimeout c k seat t slot s := rfl
theorem exec_wchkSend (c : Brick) (s : State) : exec (.wchkSend c) s = execWchkSend c s := rfl
theorem exec_releaseSend (t : Tile) (s : State) : exec (.releaseSend t) s = execReleaseSend t s := rfl

/-! ### Copies (R223, R224, R942) -/

section
variable {t : Tile} {s : State} {addr : Word} {f : Fill} (hfills : (s.brick (tileBrick t)).fills = [f]) (htile : f.tile = t.val)
  (hline : f.line = lineOf (s.canon addr.toNat)) (hready : f.ready = true)
include hfills htile hline hready

theorem find_fill : (s.brick (tileBrick t)).fills.find? (fun f => f.tile = t.val && f.line = lineOf (s.canon addr.toNat) && f.ready) = some f := by
  simp [hfills, htile, hline, hready]

omit htile hline hready in
theorem erase_fill : s.onBrick (tileBrick t) (fun B => { B with fills := B.fills.erase f }) = s.onBrick (tileBrick t) (fun B => { B with fills := [] }) :=
  State.onBrick_congr s (by rw [hfills, List.erase_cons_head])

/-- A fill that a store or a flush has overtaken is dropped (R224, R943). -/
theorem does_copyFill_of_stale (data : Bytes) (poisoned mirror remote : Bool) (e : MemEnv) (hstale : f.stale = true) :
    Does (.copyFill t addr data poisoned mirror remote e) s (s.onBrick (tileBrick t) (fun B => { B with fills := [] })) := by
  simp only [Does, exec_copyFill, execCopyFill, find_fill hfills htile hline hready, hstale, if_true, ended_next, erase_fill hfills]

/-- A fill that nothing overtook installs the bytes of its line as a mirror line of the tile, with its stamp (R223). -/
theorem does_copyFill_mirror {data d : Bytes} {poisoned : Bool} {e : MemEnv} {x : State} (hfresh : f.stale = false)
    (hgot : (if addrSeat (lineOf (s.canon addr.toNat) * 128) = 0xFFFF then
        lineAtHome (lineOf (s.canon addr.toNat) * 128) e (memReports e (s.onBrick (tileBrick t) (fun B => { B with fills := [] })))
      else (if poisoned then none else some (padTo 128 data), memReports e (s.onBrick (tileBrick t) (fun B => { B with fills := [] })))) = (some d, x))
    (hstamp : (x.tile t).stamp ≤ f.stamp) :
    Does (.copyFill t addr data poisoned true false e) s (x.onTile t (fun T => { T with mirror :=
      { line := lineOf (s.canon addr.toNat), stamp := f.stamp, data := d } :: T.mirror.filter (fun c => c.line ≠ lineOf (s.canon addr.toNat)) })) := by
  simp [Does, exec_copyFill, execCopyFill, find_fill hfills htile hline hready, hfresh, erase_fill hfills, hgot, hstamp]

end

/-! ### Wakes (R256, R257) -/

/-- The open slot is Done with the wake's status and count (R256). -/
theorem wakeSlot_slot {t : Tile} {k : Nat} {s : State} (status : Nat) (count : Word) (hopen : (s.slot t k).st = .opened) :
    (wakeSlot t k status count s).slot t k = { s.slot t k with st := .done, status := status, count := count, registered := false } := by
  have hlt : k < (s.tile t).slots.length := State.slot_lt_length (by simp [hopen])
  have hdone := s.onSlot_slot_same t k (fun w => { w with st := .done, status := status, count := count, registered := false }) hlt
  simp only [wakeSlot, if_pos hopen]
  split
  · rw [State.slot_congr (fullAcquire_tile (p := TileState.slots) (fun _ _ _ => rfl) ..), hdone]
  · exact hdone

theorem wakeSlot_events (t : Tile) (k status : Nat) (count : Word) (s : State) : (wakeSlot t k status count s).events = s.events := by
  simp only [wakeSlot, apply_ite State.events, fullAcquire_events, State.onSlot, State.onTile_events, ite_self]

/-- A wake for the bond that an open slot waits for ends its wait, and leaves memory, ports and events (R257). -/
theorem takeWake_of_opened {t : Tile} {k : Nat} {bond : Word} {s : State} (status : Nat) (count : Word) (hopen : (s.slot t k).st = .opened)
    (hseat : s.realSeat (s.slot t k).bond.toNat = s.realSeat bond.toNat)
    (haddr : bitsOf (s.slot t k).bond.toNat 47 0 = bitsOf bond.toNat 47 0) :
    let u := takeWake t k status count bond s
    u.slot t k = { s.slot t k with st := .done, status := status, count := count, registered := false } ∧
      u.mem = s.mem ∧ u.ports = s.ports ∧ u.events = s.events := by
  have htake : takeWake t k status count bond s = tally t 58 1 (wakeSlot t k status count s) := by
    simp [takeWake, hopen, hseat, haddr]
  have hsource := (source_tally (wakeSlot t k status count s) t 58 1).trans (source_wakeSlot ..)
  dsimp only
  rw [htake]
  refine ⟨?_, source_mem hsource, source_ports hsource, ?_⟩
  · rw [State.slot_congr (congrArg TileState.slots (tally_tile ..)), wakeSlot_slot status count hopen]
  · rw [tally_events, wakeSlot_events]

/-- The oldest wake of a brick ends the wait that its slot keeps open (R256). -/
theorem leaves_wake_of_opened {c : Brick} {s : State} {w : WakeMsg} {ws : List WakeMsg} (hwakes : (s.brick c).wakes = w :: ws)
    (hopen : (s.slot (tileOf w.tile) w.slot).st = .opened)
    (hseat : s.realSeat (s.slot (tileOf w.tile) w.slot).bond.toNat = s.realSeat w.bond.toNat)
    (haddr : bitsOf (s.slot (tileOf w.tile) w.slot).bond.toNat 47 0 = bitsOf w.bond.toNat 47 0) :
    Leaves (.wake c) s (fun u => u.slot (tileOf w.tile) w.slot =
        { s.slot (tileOf w.tile) w.slot with st := .done, status := w.status, count := w.count, registered := false } ∧
      u.mem = s.mem ∧ u.ports = s.ports ∧ u.events = s.events) := by
  have htake := takeWake_of_opened (s := s.onBrick c (fun B => { B with wakes := ws })) w.status w.count hopen hseat haddr
  have hdoes : Does (.wake c) s (takeWake (tileOf w.tile) w.slot w.status w.count w.bond (s.onBrick c (fun B => { B with wakes := ws }))) := by
    simp only [Does, exec_wake, execWake, hwakes, ended_next]
  exact ⟨_, hdoes, htake⟩


/-! ### Timeouts (R260) -/

/-- The waits of bond `k` without `w`, whose timeout has come: the flag and the counter of timeouts tell of it. -/
def timeoutTold (c : Brick) (k : Nat) (w : BondWait) (s : State) : State :=
  ((s.onBond c k (fun B => { B with waits := B.waits.erase w })).flag (Reg.BND_ERR_TIMEOUT c)).count (Reg.BND_CNT1_TIMEOUTS c) 1

theorem does_waitTimeout_of_elapsed {c : Brick} {k : Fin 16384} {seat : BitVec 16} {t : Tile} {slot : Fin 16} {w : BondWait} {s : State}
    (hfind : (s.bond c k).waits.find? (fun w => w.seat = seat.toNat && w.tile = t.val && w.slot = slot.val) = some w) (harmed : w.timeout ≠ 0)
    (helapsed : w.since + w.timeout * 1000 ≤ s.plumb.toNat) :
    Does (.waitTimeout c k seat t slot) s (issueWake c k w 1 none (timeoutTold c k w s)) := by
  have hnone : ¬ (w.timeout = 0 || s.plumb.toNat < w.since + w.timeout * 1000) = true := by
    simp [harmed, Nat.not_lt.mpr helapsed]
  simp only [Does, exec_waitTimeout, execWaitTimeout, hfind, if_neg hnone, ended_next, timeoutTold]

/-- The state in which the wake of a wait is counted and traced (R257, R907). -/
def wakeTold (b : Brick) (k : Nat) (w : BondWait) (status : Nat) (cause : Option Requester) (s : State) : State :=
  traceWake b k w status (s.bond b k).count cause (s.count (Reg.BND_CNT0_WAKES b) 1)

theorem bndReg_seat_free (b : Brick) (off : Nat) : 0x50000 ≤ brickReg b 1 off := by
  simp only [brickReg]
  omega

theorem bndReg_not_obsReg (b : Brick) {off : Nat} (h : off < 0x100000) : ¬ ObsReg (brickReg b 1 off) := by
  have := b.isLt
  simp only [ObsReg, brickReg]
  omega

section
variable (b : Brick) (k : Nat) (w : BondWait) (status : Nat) (cause : Option Requester) (s : State)

theorem wakeTold_ownSeatNo : (wakeTold b k w status cause s).ownSeatNo = s.ownSeatNo := by
  rw [wakeTold, traceBlind_ownSeatNo.traceWake, State.count, State.ownSeatNo_wr _ _ _ (bndReg_seat_free b 0x18)]

theorem wakeTold_wakes : ((wakeTold b k w status cause s).brick b).wakes = (s.brick b).wakes := by
  rw [wakeTold, (traceBlind_brick (p := BrickState.wakes) (fun _ _ _ => rfl) b).traceWake, State.brick, State.count_bricks, State.brick]

theorem wakeTold_bonds : ((wakeTold b k w status cause s).brick b).bonds = (s.brick b).bonds := by
  rw [wakeTold, (traceBlind_brick (p := BrickState.bonds) (fun _ _ _ => rfl) b).traceWake, State.brick, State.count_bricks, State.brick]

theorem wakeTold_err : (wakeTold b k w status cause s).rd (Reg.BND_ERR_TIMEOUT b) = s.rd (Reg.BND_ERR_TIMEOUT b) := by
  have hne : (Reg.BND_ERR_TIMEOUT b).reg ≠ (Reg.BND_CNT0_WAKES b).reg := by
    simp [Reg.BND_ERR_TIMEOUT, Reg.BND_CNT0_WAKES, Reg.BND_ERR, Reg.BND_CNT0, brickReg]
  rw [wakeTold, (traceBlind_rd (g := Reg.BND_ERR_TIMEOUT b) (bndReg_not_obsReg b (by decide))).traceWake, State.count,
    State.rd_wr_other _ _ _ _ hne]

theorem wakeTold_mem : (wakeTold b k w status cause s).mem = s.mem := by
  rw [wakeTold, TraceBlind.traceWake (V := State.mem) ⟨fun _ _ _ _ => rfl, fun _ _ _ => rfl, fun _ _ _ => rfl⟩, State.count_mem]

theorem wakeTold_tiles : (wakeTold b k w status cause s).tiles = s.tiles := by
  rw [wakeTold, traceBlind_tiles.traceWake, State.count_tiles]

end

/-- A wake of a wait in the bond's own brick goes to the brick's own list, without a packet (R256). -/
theorem issueWake_of_own {b : Brick} {w : BondWait} {s : State} (k status : Nat) (cause : Option Requester) (hbrk : w.brk = b.val)
    (hseat : w.seat = 0xFFFF ∨ w.seat = s.ownSeatNo) :
    issueWake b k w status cause s = (wakeTold b k w status cause s).onBrick b (fun B => { B with wakes := B.wakes ++
      [⟨w.tile, w.slot, status, (s.bond b k).count, BitVec.ofNat 64 (bondAddr s.ownSeatNo b k)⟩] }) := by
  have hown := wakeTold_ownSeatNo b k w status cause s
  simp only [wakeTold] at hown
  simp only [issueWake, hown, wakeTold]
  rw [if_pos (by simpa [hbrk] using hseat.symm)]

theorem State.bond_congr {s u : State} {b : Brick} (h : (u.brick b).bonds = (s.brick b).bonds) (k : Nat) : u.bond b k = s.bond b k := by
  rw [State.bond, h, State.bond]

theorem State.onBond_bond_same (s : State) (b : Brick) (k : Nat) (f : Bond → Bond) : (s.onBond b k f).bond b k = f (s.bond b k) := by
  rw [State.bond, State.onBond, State.onBrick_brick_same, tabGet_tabSet_same, State.bond]

section
variable (c : Brick) (k : Nat) (w : BondWait) (s : State)

theorem timeoutTold_ownSeatNo : (timeoutTold c k w s).ownSeatNo = s.ownSeatNo := by
  rw [timeoutTold, State.count, State.ownSeatNo_wr _ _ _ (bndReg_seat_free c 0x20), State.flag, State.ownSeatNo_wr _ _ _ (bndReg_seat_free c 0x10)]
  rfl

theorem timeoutTold_brick : (timeoutTold c k w s).brick c = (s.onBond c k (fun B => { B with waits := B.waits.erase w })).brick c := by
  rw [timeoutTold, State.brick, State.count_bricks, State.flag_bricks, State.brick]

theorem timeoutTold_bond : (timeoutTold c k w s).bond c k = { s.bond c k with waits := (s.bond c k).waits.erase w } := by
  rw [State.bond, timeoutTold_brick, ← State.bond, State.onBond_bond_same]

theorem timeoutTold_wakes : ((timeoutTold c k w s).brick c).wakes = (s.brick c).wakes := by
  rw [timeoutTold_brick, State.onBond, State.onBrick_brick_same]

theorem timeoutTold_flag : (timeoutTold c k w s).rd (Reg.BND_ERR_TIMEOUT c) = 1 := by
  have hne : (Reg.BND_ERR_TIMEOUT c).reg ≠ (Reg.BND_CNT1_TIMEOUTS c).reg := by
    simp [Reg.BND_ERR_TIMEOUT, Reg.BND_CNT1_TIMEOUTS, Reg.BND_ERR, Reg.BND_CNT1, brickReg]
  rw [timeoutTold, State.count, State.rd_wr_other _ _ _ _ hne, State.rd_flag_same _ _ rfl (show 2 < 64 by decide)]

end

/-- What the timeout of a wait in the bond's own brick leaves (R256, R260). -/
theorem issueWake_timeout {c : Brick} {w : BondWait} {s : State} (k : Nat) (hbrk : w.brk = c.val) (hseat : w.seat = 0xFFFF ∨ w.seat = s.ownSeatNo) :
    let u := issueWake c k w 1 none (timeoutTold c k w s)
    (u.brick c).wakes = (s.brick c).wakes ++ [⟨w.tile, w.slot, 1, (s.bond c k).count, BitVec.ofNat 64 (bondAddr s.ownSeatNo c k)⟩] ∧
      u.bond c k = { s.bond c k with waits := (s.bond c k).waits.erase w } ∧ u.rd (Reg.BND_ERR_TIMEOUT c) = 1 ∧ u.mem = s.mem ∧ u.tiles = s.tiles := by
  have hwake := issueWake_of_own (s := timeoutTold c k w s) k 1 none hbrk (by rwa [timeoutTold_ownSeatNo])
  rw [timeoutTold_ownSeatNo, timeoutTold_bond] at hwake
  dsimp only
  rw [hwake]
  refine ⟨?_, ?_, ?_, ?_, ?_⟩
  · rw [State.onBrick_brick_same, wakeTold_wakes, timeoutTold_wakes]
  · exact (State.bond_congr ((State.onBrick_view (p := BrickState.bonds) _ c c).trans (wakeTold_bonds ..)) k).trans (timeoutTold_bond ..)
  · rw [State.onBrick_rd, wakeTold_err, timeoutTold_flag]
  · rw [State.onBrick_mem, wakeTold_mem, timeoutTold, State.count_mem, State.flag_mem, State.onBond, State.onBrick_mem]
  · rw [State.onBrick_tiles, wakeTold_tiles, timeoutTold, State.count_tiles, State.flag_tiles, State.onBond, State.onBrick_tiles]

theorem leaves_waitTimeout_of_own {c : Brick} {k : Fin 16384} {seat : BitVec 16} {t : Tile} {slot : Fin 16} {w : BondWait} {s : State}
    (hdoes : Does (.waitTimeout c k seat t slot) s (issueWake c k w 1 none (timeoutTold c k w s))) (hbrk : w.brk = c.val)
    (hseat : w.seat = 0xFFFF ∨ w.seat = s.ownSeatNo) :
    Leaves (.waitTimeout c k seat t slot) s (fun u =>
      (u.brick c).wakes = (s.brick c).wakes ++ [⟨w.tile, w.slot, 1, (s.bond c k).count, BitVec.ofNat 64 (bondAddr s.ownSeatNo c k)⟩] ∧
      u.bond c k = { s.bond c k with waits := (s.bond c k).waits.erase w } ∧ u.isSet (Reg.BND_ERR_TIMEOUT c) = true ∧ u.mem = s.mem ∧
      u.tiles = s.tiles) := by
  obtain ⟨hwakes, hbond, herr, hmem, htiles⟩ := issueWake_timeout k hbrk hseat
  have hne : (Reg.BND_ERR_TIMEOUT c).reg ≠ Reg.SEAT_OWN := by
    have := bndReg_seat_free c 0x10
    have hown : Reg.SEAT_OWN < 0x50000 := by decide
    exact fun h => absurd (h ▸ this : 0x50000 ≤ Reg.SEAT_OWN) (by omega)
  refine ⟨_, hdoes, hwakes, hbond, ?_, hmem, htiles⟩
  rw [State.isSet, State.done_rd_other _ _ hne, herr]
  rfl

/-! ### Wait checks (R262) -/

/-- The check of the wait in slot `k` of tile `u` (R249, R262). -/
def waitCheck (s : State) (u : Tile) (k : Nat) : Op :=
  { addr := (s.slot u k).bond, opc := 0x3B, aux := 0, lbl := labelOf (s.slot u k).lbl, size := 10,
    payload := List.replicate 8 0 ++ [BitVec.ofNat 8 u.val, BitVec.ofNat 8 k] }

/-- What a WCHK_SEND of brick `c` does at slot `k` of tile `u`: a remote wait that is registered and has been open, and unchecked, for the
interval is checked. -/
def checkWait (c : Brick) (int : Nat) (s : State) (u : Tile) (k : Nat) : State :=
  if (s.slot u k).st = .opened ∧ (s.slot u k).registered = true ∧ max (s.slot u k).openedAt (s.slot u k).checkedAt + int ≤ s.now ∧
      ¬(s.realSeat (s.slot u k).bond.toNat = s.ownSeatNo ∧ destBrick (s.slot u k).bond.toNat = some c)
  then issueOp c (.wchk u k) (waitCheck s u k) (s.onSlot u k (fun w => { w with checkedAt := s.now }))
  else s

/-- What a WCHK_SEND does at the 16 slots of tile `u`. -/
def checkTile (c : Brick) (int : Nat) (s : State) (u : Tile) : State := s.each (List.range 16) (fun s k => checkWait c int s u k)

theorem does_wchkSend_of_off {c : Brick} {s : State} (hoff : s.rd (Reg.BND_CTL_WCHKINT c) = 0) : Does (.wchkSend c) s s := by
  simp [Does, exec_wchkSend, execWchkSend, hoff]

theorem does_wchkSend_of_on {c : Brick} {s : State} (hon : s.rd (Reg.BND_CTL_WCHKINT c) ≠ 0) :
    Does (.wchkSend c) s (s.each (brickTiles c) (checkTile c (s.rd (Reg.BND_CTL_WCHKINT c) * 1000))) := by
  have hint : s.rd (Reg.BND_CTL_WCHKINT c) * 1000 ≠ 0 := by omega
  simp only [Does, exec_wchkSend, execWchkSend, if_neg hint, ended_next]
  refine congrArg (fun f => Host.Outcome.next (s.done (s.each (brickTiles c) f))) ?_
  funext s u
  refine congrArg (s.each (List.range 16)) ?_
  funext s k
  refine if_congr ?_ rfl rfl
  simp only [Bool.and_eq_true, Bool.or_eq_true, decide_eq_true_eq, ne_eq, not_and_or]
  tauto

theorem checkWait_cases (c : Brick) (int : Nat) (s : State) (u : Tile) (k : Nat) :
    checkWait c int s u k = s ∨ (s.slot u k).st = .opened ∧ 
      checkWait c int s u k = issueOp c (.wchk u k) (waitCheck s u k) (s.onSlot u k (fun w => { w with checkedAt := s.now })) := by
  rw [checkWait]
  split
  · next h => exact .inr ⟨h.1, rfl⟩
  · exact .inl rfl


/-- A check that is sent: its slot notes the time and its tile's next operation number is taken; no other slot changes. -/
theorem issueOp_waitCheck (c : Brick) (s : State) (u : Tile) (j : Nat) (hj : j < (s.tile u).slots.length) :
    let x := issueOp c (.wchk u j) (waitCheck s u j) (s.onSlot u j (fun w => { w with checkedAt := s.now }))
    x.now = s.now ∧ x.ownSeatNo = s.ownSeatNo ∧ x.slot u j = { s.slot u j with checkedAt := s.now } ∧ (x.tile u).opNo = (s.tile u).opNo + 1 ∧
      ∀ v k, (v = u → k ≠ j) → x.slot v k = s.slot v k ∧ (s.tile v).opNo ≤ (x.tile v).opNo := by
  obtain ⟨htiles, hnow, hown⟩ := issueOp_wchk (op := waitCheck s u j) rfl c u j (s.onSlot u j (fun w => { w with checkedAt := s.now }))
  have htile : ∀ v, State.tile _ v = State.tile _ v := fun v => congrArg (fun ts => ts[v]) htiles
  have hslots := fun v k => (State.slot_congr (congrArg TileState.slots (htile v)) k).trans
    (State.slot_congr (State.onTile_view (p := TileState.slots) _ u v) k)
  have hno : ∀ v, ((s.onSlot u j (fun w => { w with checkedAt := s.now })).tile v).opNo = (s.tile v).opNo := State.onTile_view (p := TileState.opNo) s u
  have hsame := (congrArg TileState.opNo (htile u)).trans (congrArg TileState.opNo (State.onTile_tile_same ..))
  refine ⟨hnow, hown, (hslots u j).trans (s.onSlot_slot_same u j _ hj), hsame.trans (congrArg (· + 1) (hno u)), fun v k hvk => ⟨?_, ?_⟩⟩
  · exact (hslots v k).trans (s.onSlot_slot_other _ hvk)
  · by_cases hv : v = u
    · subst hv
      exact (Nat.le_succ _).trans_eq (hsame.trans (congrArg (· + 1) (hno v))).symm
    · exact ((congrArg TileState.opNo ((htile v).trans (State.onTile_tile_other _ _ _ _ hv))).trans (hno v)).ge

/-- Slot `k` of tile `v` in a state `u` that a WCHK_SEND which found `s` comes through: it has been checked, -/
def WaitChecked (s : State) (v : Tile) (k : Nat) (u : State) : Prop :=
  u.now = s.now ∧ (u.slot v k).checkedAt = s.now ∧ (s.tile v).opNo < (u.tile v).opNo

/-- or is as it was. -/
def WaitKept (s : State) (v : Tile) (k : Nat) (u : State) : Prop :=
  u.now = s.now ∧ u.ownSeatNo = s.ownSeatNo ∧ u.slot v k = s.slot v k ∧ (s.tile v).opNo ≤ (u.tile v).opNo

section
variable {c : Brick} {int : Nat} {s x : State} {v : Tile} {k : Nat}

theorem WaitChecked.step (h : WaitChecked s v k x) (u : Tile) (j : Nat) : WaitChecked s v k (checkWait c int x u j) := by
  rcases checkWait_cases c int x u j with heq | ⟨hopen, heq⟩
  · rwa [heq]
  · obtain ⟨hnow, hown, hsame, hno, hother⟩ := issueOp_waitCheck c x u j (State.slot_lt_length (by simp [hopen]))
    obtain ⟨hnow', hat, hlt⟩ := h
    rw [heq]
    refine ⟨hnow.trans hnow', ?_⟩
    by_cases hv : v = u ∧ k = j
    · obtain ⟨rfl, rfl⟩ := hv
      rw [hsame, hno]
      exact ⟨hnow', by omega⟩
    · obtain ⟨hslot, hle⟩ := hother v k (fun hu hk => hv ⟨hu, hk⟩)
      rw [hslot]
      exact ⟨hat, by omega⟩

theorem WaitKept.step (h : WaitKept s v k x) (u : Tile) (j : Nat) :
    WaitKept s v k (checkWait c int x u j) ∨ WaitChecked s v k (checkWait c int x u j) := by
  rcases checkWait_cases c int x u j with heq | ⟨hopen, heq⟩
  · rw [heq]
    exact .inl h
  · obtain ⟨hnow, hown, hsame, hno, hother⟩ := issueOp_waitCheck c x u j (State.slot_lt_length (by simp [hopen]))
    obtain ⟨hnow', hown', hslot', hle'⟩ := h
    rw [heq]
    by_cases hv : v = u ∧ k = j
    · obtain ⟨rfl, rfl⟩ := hv
      refine .inr ⟨hnow.trans hnow', ?_⟩
      rw [hsame, hno]
      exact ⟨hnow', by omega⟩
    · obtain ⟨hslot, hle⟩ := hother v k (fun hu hk => hv ⟨hu, hk⟩)
      exact .inl ⟨hnow.trans hnow', hown.trans hown', hslot.trans hslot', hle'.trans hle⟩

end


/-- The check of slot `k` itself, where the wait there is still as it was. -/
theorem WaitKept.checked {c : Brick} {int : Nat} {s x : State} {v : Tile} {k : Nat} (h : WaitKept s v k x) (hopen : (s.slot v k).st = .opened)
    (hreg : (s.slot v k).registered = true) (hdue : max (s.slot v k).openedAt (s.slot v k).checkedAt + int ≤ s.now)
    (hfar : s.realSeat (s.slot v k).bond.toNat ≠ s.ownSeatNo) : WaitChecked s v k (checkWait c int x v k) := by
  obtain ⟨hnow, hown, hslot, hle⟩ := h
  have hseat : x.realSeat (x.slot v k).bond.toNat = s.realSeat (s.slot v k).bond.toNat := by rw [hslot, State.realSeat, hown, State.realSeat]
  have hcond : (x.slot v k).st = .opened ∧ (x.slot v k).registered = true ∧ max (x.slot v k).openedAt (x.slot v k).checkedAt + int ≤ x.now ∧
      ¬(x.realSeat (x.slot v k).bond.toNat = x.ownSeatNo ∧ destBrick (x.slot v k).bond.toNat = some c) := by
    rw [hseat, hslot, hnow, hown]
    exact ⟨hopen, hreg, hdue, fun h => hfar h.1⟩
  obtain ⟨hnow', -, hsame, hno, -⟩ := issueOp_waitCheck c x v k (State.slot_lt_length (by simp [hcond.1]))
  rw [checkWait, if_pos hcond]
  refine ⟨hnow'.trans hnow, ?_⟩
  rw [hsame, hno]
  exact ⟨hnow, by omega⟩


/-- Every registered remote wait that is due has been checked in the end (R262). -/
theorem leaves_wchkSend_of_due {c : Brick} {s : State} {v : Tile} {k : Nat} (hon : s.rd (Reg.BND_CTL_WCHKINT c) ≠ 0) (hv : v ∈ brickTiles c) (hk : k < 16)
    (hopen : (s.slot v k).st = .opened) (hreg : (s.slot v k).registered = true)
    (hdue : max (s.slot v k).openedAt (s.slot v k).checkedAt + s.rd (Reg.BND_CTL_WCHKINT c) * 1000 ≤ s.now)
    (hfar : s.realSeat (s.slot v k).bond.toNat ≠ s.ownSeatNo) :
    Leaves (.wchkSend c) s (fun u => (u.slot v k).checkedAt = s.now ∧ (u.tile v).opNo > (s.tile v).opNo) := by
  have hkept : ∀ x u j, WaitKept s v k x ∨ WaitChecked s v k x → WaitKept s v k (checkWait c (s.rd (Reg.BND_CTL_WCHKINT c) * 1000) x u j) ∨
      WaitChecked s v k (checkWait c (s.rd (Reg.BND_CTL_WCHKINT c) * 1000) x u j) := fun x u j h => h.elim (fun h => h.step u j) fun h => .inr (h.step u j)
  have hself : ∀ x, WaitKept s v k x ∨ WaitChecked s v k x → WaitChecked s v k (checkWait c (s.rd (Reg.BND_CTL_WCHKINT c) * 1000) x v k) :=
    fun x h => h.elim (fun h => h.checked hopen hreg hdue hfar) fun h => h.step v k
  have hend : WaitChecked s v k (s.each (brickTiles c) (checkTile c (s.rd (Reg.BND_CTL_WCHKINT c) * 1000))) :=
    State.each_of_mem (P := fun x => WaitKept s v k x ∨ WaitChecked s v k x) (fun x u => State.each_keeps (fun y j => hkept y u j) _)
      (fun x u => State.each_keeps (fun y j h => h.step u j) _)
      (fun x => State.each_of_mem (fun y j => hkept y v j) (fun y j h => h.step v j) hself (List.mem_range.mpr hk)) hv (.inl ⟨rfl, rfl, rfl, le_rfl⟩)
  obtain ⟨-, hat, hno⟩ := hend
  refine ⟨_, does_wchkSend_of_on hon, ?_, ?_⟩
  · rwa [State.slot_congr (congrArg TileState.slots (State.done_tile ..))]
  · rwa [State.done_tile]

/-! ### Releases (R230, R233) -/

section
variable {t : Tile} {s : State} {rel : Release} (hfind : (s.tile t).releases.find? (fun rel => drained s t rel) = some rel)
include hfind

/-- The state without a release that is over, and without the failures that it reports. -/
def releaseOver (t : Tile) (rel : Release) (s : State) : State :=
  s.onTile t (fun T => { T with releases := T.releases.erase rel, failed := T.failed.filter (fun f => !rel.covers f) })

omit hfind in
theorem releaseOver_releases : ((releaseOver t rel s).tile t).releases = (s.tile t).releases.erase rel := by
  rw [releaseOver, State.onTile_tile_same]

theorem does_releaseSend_of_bond (hfailed : scopeFailed s t rel = false) (hbond : rel.range = false) :
    Does (.releaseSend t) s (issueOp (tileBrick t) rel.issuer rel.op (releaseOver t rel s)) := by
  simp [Does, exec_releaseSend, execReleaseSend, hfind, hfailed, hbond, releaseOver]

theorem leaves_releaseSend_of_bond (hfailed : scopeFailed s t rel = false) (hbond : rel.range = false) :
    Leaves (.releaseSend t) s (fun v => (v.tile t).releases = (s.tile t).releases.erase rel ∧ v.mem = s.mem) := by
  obtain ⟨hrel, hmem⟩ := issueOp_releasesOf_mem (tileBrick t) rel.issuer rel.op t (releaseOver t rel s)
  exact ⟨_, does_releaseSend_of_bond hfind hfailed hbond, hrel.trans releaseOver_releases, hmem⟩

/-- A REL whose drain is over is complete (R232). -/
theorem does_releaseSend_of_range (hfailed : scopeFailed s t rel = false) (hrange : rel.range = true) :
    Does (.releaseSend t) s { releaseOver t rel s with results := (releaseOver t rel s).results ++ [⟨rel.issuer, .completed, 0, [], rel.op⟩] } := by
  simp [Does, exec_releaseSend, execReleaseSend, hfind, hfailed, hrange, releaseOver]

/-- A release in whose scope an operation failed completes with 0x16 (R233). -/
theorem does_releaseSend_of_failed (hfailed : scopeFailed s t rel = true) :
    Does (.releaseSend t) s { (releaseOver t rel s).flag (Reg.BND_ERR_DRAINF (tileBrick t)) with
      results := (releaseOver t rel s).results ++ [⟨rel.issuer, .rejected, 0x16, [], rel.op⟩] } := by
  simp only [Does, exec_releaseSend, execReleaseSend, hfind]
  rw [if_pos hfailed, ended_next, releaseOver, State.flag_results]
  rfl

end

/-! ### Assembly -/

/-- Settles O22. The label of a WCHK (log entry 25), and that the failures a release covers are reported once, when it would leave (29), are the model's
choices. -/
theorem copiesAndWakes : Obligations.CopiesAndWakes := by
  intro t s addr data e
  refine ⟨fun f hfills htile hline hready hfresh => ⟨fun hseat hstamp => ?far, fun d x poisoned hseat hgot hstamp => ?home⟩,
    fun f poisoned mirror remote hfills htile hline hready => does_copyFill_of_stale hfills htile hline hready data poisoned mirror remote e, rfl, rfl,
    fun c w ws hwakes _ hopen hseat haddr => leaves_wake_of_opened hwakes hopen hseat haddr,
    fun c k seat slot w hfind harmed helapsed => ⟨does_waitTimeout_of_elapsed hfind harmed helapsed,
      leaves_waitTimeout_of_own (does_waitTimeout_of_elapsed hfind harmed helapsed)⟩,
    fun c => does_wchkSend_of_off, fun c => does_wchkSend_of_on, fun c v k => leaves_wchkSend_of_due,
    fun rel hfind => ⟨fun hfailed hbond => ⟨does_releaseSend_of_bond hfind hfailed hbond, leaves_releaseSend_of_bond hfind hfailed hbond⟩,
      does_releaseSend_of_range hfind, does_releaseSend_of_failed hfind⟩⟩
  case far => exact does_copyFill_mirror hfills htile hline hready hfresh (by rw [if_neg hseat]; rfl) hstamp
  case home => exact does_copyFill_mirror hfills htile hline hready hfresh (by rw [if_pos hseat, hgot]) hstamp

end Sys2Proof.Machine
end

section
/-! PROOFS. The mason's bond, ordering, waiting and summary instructions, and tile commands (R499 to R504, R512). -/
namespace Sys2Proof.Machine
open Sys2Proof

theorem execute_of_masonAt {t : Tile} {e : MemEnv} {s s' : State} {op : MOp} {w : Nat} (h : MasonAt t e s op w s') (f : Nat → State → State) :
    execute t op e f s = .next (f w s') := by
  rw [execute, h]
  exact if_pos rfl

/-- A command that executes a mason instruction leaves what the instruction makes of the state in which the mason reaches it. -/
theorem does_of_masonAt {t : Tile} {e : MemEnv} {s s' : State} {op : MOp} {w : Nat} {i : Instr} {f : Nat → State → State} {u : State}
    (hexec : exec i s = ended s (execute t op e f s)) (h : MasonAt t e s op w s') (hu : f w s' = u) : Does i s u := by
  rw [Does, hexec, execute_of_masonAt h, ended_next, hu]

theorem tally_mason (t u : Tile) (i n : Nat) (s : State) : (tally t i n s).mason u = s.mason u := by rw [State.mason, tally_tile, State.mason]

theorem State.onMason_mason (s : State) (t : Tile) (f : Mason → Mason) : (s.onMason t f).mason t = f (s.mason t) := by
  rw [State.onMason, State.mason, State.onTile_tile_same, State.mason]

theorem homesOfRange_onMason (s : State) (t : Tile) (f : Mason → Mason) (a n : Nat) : homesOfRange (s.onMason t f) a n = homesOfRange s a n := rfl

theorem State.onSlot_mason (s : State) (t : Tile) (k : Nat) (f : Slot → Slot) : (s.onSlot t k f).mason t = s.mason t := by
  rw [State.onSlot, State.mason, State.onTile_tile_same, State.mason]

theorem logSignal_mason (t : Tile) (a : Word) (s : State) : (logSignal t a s).mason t = s.mason t := by
  rw [State.mason, logSignal, State.onTile_tile_same]
  split
  · rfl
  · split <;> rfl

theorem underLabel_of_permitted {t : Tile} {s : State} (hlabel : labelPermitted s t = true) (f : State → State) : underLabel t f s = f s :=
  if_pos hlabel

/-! ### Bond instructions (R499 to R501) -/

/-- The operation of a bond instruction (R499). -/
def bondInstrOp (t : Tile) (opc w : Nat) (s : State) : Op :=
  masonOp s t (s.mreg t (iRa w)) opc 0 (bondPayload t opc (s.mreg t (iRb w)) (bitsOf w 6 3) (bitsOf w 2 0) (s.mason t).wto)

/-- The state in which the mason waits for the answer to a bond operation at address `a` (R499). -/
def blockOnBond (t : Tile) (opc w a : Nat) (s : State) : State :=
  (block t stallAnswer (fun n => .bond n (iRd w) opc (bitsOf w 6 3) (bitsOf w 2 0) a) s).2

section
variable {t : Tile} {s : State} (hlabel : labelPermitted s t = true) (hroom : queueFull s t = false) (w : Nat)
include hlabel hroom

/-- A wait takes its free slot and blocks (R501). -/
theorem bondInstr_of_wait {opc : Nat} (hwait : opc = 0x32 ∨ opc = 0x33) (hfree : (s.slot t (bitsOf w 6 3)).st = .free) :
    bondInstr t opc w s = issueOp (tileBrick t) (.masonWait t.val (bitsOf w 6 3) (s.mason t).blockNo) (bondInstrOp t opc w s)
      (blockOnBond t opc w (s.mreg t (iRa w)) ((tally t 56 1 s).onSlot t (bitsOf w 6 3)
        (fun _ => { st := .opened, bond := (bondInstrOp t opc w s).addr, lbl := (bondInstrOp t opc w s).lbl.val }))) := by
  rw [bondInstr, underLabel_of_permitted hlabel]
  rcases hwait with rfl | rfl <;>
    simp [hfree, hroom, block, blockOnBond, bondInstrOp, State.onSlot_mason, tally_mason]

/-- TEST blocks always (R499, R500). -/
theorem bondInstr_of_test : bondInstr t 0x34 w s = issueOp (tileBrick t) (.masonLoad t.val (s.mason t).blockNo) (bondInstrOp t 0x34 w s)
    (blockOnBond t 0x34 w (s.mreg t (iRa w)) (tally t 56 1 s)) := by
  rw [bondInstr, underLabel_of_permitted hlabel]
  simp [hroom, block, blockOnBond, bondInstrOp, tally_mason]

/-- An operation that is no wait, no TEST and no release blocks where its answer goes to a register and is posted otherwise (R499, R500). -/
theorem bondInstr_of_plain {opc : Nat} (hopc : opc ∈ [0x36, 0x37, 0x38, 0x39, 0x3A]) (harm : opc = 0x38 → (armedOrAsked s t).length < 16) :
    bondInstr t opc w s = if iRd w = 0 then issueOp (tileBrick t) (.masonPosted t.val) (bondInstrOp t opc w s) (complete t (tally t 56 1 s))
      else issueOp (tileBrick t) (.masonLoad t.val (s.mason t).blockNo) (bondInstrOp t opc w s)
        (blockOnBond t opc w (s.mreg t (iRa w)) (tally t 56 1 s)) := by
  have hfull : ¬ (opc = 0x38 ∧ 16 ≤ (armedOrAsked s t).length) := fun ⟨hopc, hlen⟩ => absurd (harm hopc) (by omega)
  have hwait : ¬ (opc = 0x32 ∨ opc = 0x33) ∧ opc ≠ 0x31 ∧ opc ≠ 0x35 ∧ opc ≠ 0x34 := by
    simp only [List.mem_cons, List.not_mem_nil, or_false] at hopc
    omega
  obtain ⟨hwait, hsig, hreset, htest⟩ := hwait
  rw [bondInstr, underLabel_of_permitted hlabel]
  by_cases hrd : iRd w = 0
  · simp [hfull, hroom, hwait, hsig, hreset, htest, hrd, bondInstrOp]
  · simp [hfull, hroom, hwait, hsig, hreset, htest, hrd, bondInstrOp, block, blockOnBond, tally_mason]

/-- SIGADD and RESET leave as releases (R230, R508); SIGADD enters its bond in the signal log (R267). -/
theorem bondInstr_of_release {opc : Nat} (hopc : opc = 0x31 ∨ opc = 0x35) (hidle : unitsIdle s t 4 = true) :
    let u := if opc = 0x31 then logSignal t (bondInstrOp t opc w s).addr (tally t 56 1 s) else tally t 56 1 s
    bondInstr t opc w s = if iRd w = 0 then beginRelease t (bondInstrOp t opc w s) false [] (.masonPosted t.val) (complete t u)
      else beginRelease t (bondInstrOp t opc w s) false [] (.masonLoad t.val (s.mason t).blockNo) (blockOnBond t opc w (s.mreg t (iRa w)) u) := by
  rw [bondInstr, underLabel_of_permitted hlabel]
  rcases hopc with rfl | rfl <;> by_cases hrd : iRd w = 0 <;>
    simp [hroom, hidle, hrd, block, blockOnBond, bondInstrOp, logSignal_mason, tally_mason]

end

/-! ### Fences, releases and acquires (R503) -/

section
variable {t : Tile} {e : MemEnv} {s s' : State} {w : Nat}

theorem does_cfence_of_idle (h : MasonAt t e s .cfence w s') (hidle : unitsIdle s' t 4 = true) : Does (.cfence t e) s (complete t s') :=
  does_of_masonAt rfl h (if_pos hidle)

theorem does_twait_of_idle (h : MasonAt t e s .twait w s') (hidle : unitsIdle s' t (bitsOf w 5 3) = true) : Does (.twait t e) s (complete t s') :=
  does_of_masonAt rfl h (if_pos hidle)

theorem does_drain_of_settled (h : MasonAt t e s .drain w s') (hnone : masonOutstanding s' t = false) : Does (.drain t e) s (complete t s') :=
  does_of_masonAt rfl h (if_neg (by simp [hnone]))

theorem does_acqf (h : MasonAt t e s .acqf w s') : Does (.acqf t e) s (complete t (fullAcquire t s')) := does_of_masonAt rfl h rfl

section
variable (hrange : rangeOk (s'.mreg t (iRa w)) (s'.mreg t (iRb w)) = true)
include hrange

theorem does_acq_of_range (h : MasonAt t e s .acq w s') : Does (.acq t e) s (complete t (if s'.mreg t (iRb w) = 0 then s'
    else rangeAcquire t (s'.canon (s'.mreg t (iRa w))) (s'.mreg t (iRb w)) s')) :=
  does_of_masonAt rfl h (if_neg (by simp [hrange]))

theorem does_rel_of_range (h : MasonAt t e s .rel w s') (hlabel : labelPermitted s' t = true) (hidle : unitsIdle s' t 4 = true) :
    Does (.rel t e) s (beginRelease t (masonOp s' t (s'.mreg t (iRa w)) 0x41 0 []) true (homesOfRange s' (s'.mreg t (iRa w)) (s'.mreg t (iRb w)))
      (.masonLoad t.val (s'.mason t).blockNo) (block t stallOrd (fun k => .rel k (s'.mreg t (iRa w))) s').2) := by
  refine does_of_masonAt rfl h ?_
  simp only [underLabel_of_permitted hlabel, hrange, hidle]
  simp [block, masonOp, State.onMason_mason, homesOfRange_onMason]

end

/-! ### Slots and summary registers (R502, R512) -/

theorem bitsOf_iFn (hi : Nat) (h : hi ≤ 10) : bitsOf w hi 0 = iFn w % 2 ^ (hi + 1) := by
  simp only [iFn, bitsOf, pow_zero, Nat.div_one, Nat.sub_zero]
  exact (Nat.mod_mod_of_dvd _ (pow_dvd_pow 2 (by omega))).symm

theorem does_rds_of_settled (h : MasonAt t e s .rds w s') (hnone : (s'.mason t).pending (iFn w % 16) = 0) :
    Does (.rds t e) s (completeWith t (iRd w) (tabGet 0 (s'.mason t).sums (iFn w % 16)).toNat s') := by
  refine does_of_masonAt rfl h ?_
  simp [bitsOf_iFn 3, hnone]

section
variable (h : MasonAt t e s .wsl w s') (hone : bitOf w 5 = false)
include h hone

/-- A WSL of one slot that is Done collects it; with FN[4] its status traps in no case (R502). -/
theorem does_wsl_of_done (hquiet : bitOf w 4 = true) (hdone : (s'.slot t (iFn w % 16)).st = .done) :
    Does (.wsl t e) s (completeWith t (iRd w) (s'.slot t (iFn w % 16)).count.toNat
      ((s'.onSlot t (iFn w % 16) (fun _ => {})).onMason t (fun m => { m with bstat := (s'.slot t (iFn w % 16)).status }))) := by
  refine does_of_masonAt rfl h ?_
  simp [wslDone, wslSlots, bitsOf_iFn 3, hone, hquiet, hdone]

/-- A WSL of one slot that is Open sleeps, where no suspend request is pending (R502, R527). -/
theorem does_wsl_of_opened (hopen : (s'.slot t (iFn w % 16)).st = .opened) (hsreq : (s'.mason t).sreq = false) :
    Does (.wsl t e) s (s'.onMason t (fun m => { m with run := .sleeping, stall := stallSleep })) := by
  refine does_of_masonAt rfl h ?_
  simp [bitsOf_iFn 3, hone, hopen, hsreq, sleepOn]

end

end


/-! ### Tile commands (R504, R512) -/

/-- The command queue of each unit of a tile, the commands that it holds at most, and the tile with one more in it. -/
def unitQueue (T : TileState) : Nat → List TileCmd
  | 0 => T.press.queue
  | 1 => T.glaze.queue
  | _ => T.sieve.queue
def unitDepth : Nat → Nat
  | 0 | 1 => 32
  | _ => 16
def queueCommand (cmd : TileCmd) (T : TileState) : Nat → TileState
  | 0 => { T with press := { T.press with queue := T.press.queue ++ [cmd] } }
  | 1 => { T with glaze := { T.glaze with queue := T.glaze.queue ++ [cmd] } }
  | _ => { T with sieve := { T.sieve with queue := T.sieve.queue ++ [cmd] } }

/-- The command that a TCMD gives its unit: RA below, RB above (R504). -/
def tcmdWord (s : State) (t : Tile) (w : Nat) : Nat := s.mreg t (iRa w) + s.mreg t (iRb w) * 2 ^ 64

/-- A command with SUMEN is a pending writer of its summary register (R512). -/
def countWriter (t : Tile) (c : Nat) (s : State) : State :=
  if cSumen c then s.onMason t (fun m => { m with pend := tabSet 0 m.pend (cSreg c) (m.pending (cSreg c) + 1) }) else s

section
variable {t : Tile} {e : MemEnv} {s s' : State} {w unit : Nat} (h : MasonAt t e s .tcmd w s') (hlabel : labelPermitted s' t = true)
  (hunit : iFn w % 4 = unit) (hok : commandOk (tcmdWord s' t w) unit = true) (hroom : (unitQueue (s'.tile t) unit).length < unitDepth unit)
include h hlabel hunit hok hroom

theorem does_tcmd_of_room (hwriters : cSumen (tcmdWord s' t w) = true → (s'.mason t).pending (cSreg (tcmdWord s' t w)) < 255) :
    Does (.tcmd t e) s (complete t ((countWriter t (tcmdWord s' t w) s').onTile t
      (fun T => queueCommand (captureCommand s' t (tcmdWord s' t w)) T unit))) := by
  have hbits : bitsOf w 1 0 = unit := (bitsOf_iFn 1 (by decide)).trans hunit
  refine does_of_masonAt rfl h ?_
  unfold tcmdWord at hok hwriters ⊢
  generalize s'.mreg t (iRa w) + s'.mreg t (iRb w) * 2 ^ 64 = c at hok hwriters ⊢
  have hwriters : (cSumen c && decide (255 ≤ (s'.tile t).mason.pending (cSreg c))) = false := by
    rw [Bool.and_eq_false_imp]
    exact fun hsum => decide_eq_false (Nat.not_le.mpr (hwriters hsum))
  simp only [hbits, hok, underLabel_of_permitted hlabel, hwriters]
  match unit with
  | 0 | 1 | _ + 2 =>
    have hroom := Nat.not_le.mpr hroom
    simp only [unitQueue, unitDepth] at hroom
    simp [hroom, queueCommand, countWriter]

/-- Without SUMEN no summary register gains a writer. -/
theorem does_tcmd_of_noSummary (hsum : cSumen (tcmdWord s' t w) = false) :
    Does (.tcmd t e) s (complete t (s'.onTile t (fun T => queueCommand (captureCommand s' t (tcmdWord s' t w)) T unit))) := by
  have hnone : ¬ cSumen (tcmdWord s' t w) = true := by simp [hsum]
  have hdoes := does_tcmd_of_room h hlabel hunit hok hroom fun hs => absurd hs hnone
  rwa [countWriter, if_neg hnone] at hdoes

/-- With SUMEN the command's summary register gains a writer (R512). -/
theorem does_tcmd_of_summary (hsum : cSumen (tcmdWord s' t w) = true) (hwriters : (s'.mason t).pending (cSreg (tcmdWord s' t w)) < 255) :
    Does (.tcmd t e) s (complete t ((s'.onMason t (fun m => { m with
      pend := tabSet 0 m.pend (cSreg (tcmdWord s' t w)) (m.pending (cSreg (tcmdWord s' t w)) + 1) })).onTile t
        (fun T => queueCommand (captureCommand s' t (tcmdWord s' t w)) T unit))) := by
  have hdoes := does_tcmd_of_room h hlabel hunit hok hroom fun _ => hwriters
  rwa [countWriter, if_pos hsum] at hdoes

end

/-! ### Assembly -/

/-- Settles O32. That a slot is Open from the issue of its WAIT (log entry 138), that SIGADD, RESET and REL wait for the tile's earlier commands (33),
that a REL blocks until its RELM ends (160) and that an ARMSIG without its answer counts in the armed list (210) are the model's choices. -/
theorem signalAndOrderInstructions : Obligations.SignalAndOrderInstructions := by
  refine ⟨fun t e s s' w hlabel hroom => ?bond, fun t e s s' w => ?order⟩
  case bond =>
    have hplain := fun opc (hopc : opc ∈ [0x36, 0x37, 0x38, 0x39, 0x3A]) (hne : opc ≠ 0x38) =>
      bondInstr_of_plain hlabel hroom w hopc fun h => absurd h hne
    exact ⟨fun h hfree => does_of_masonAt rfl h (bondInstr_of_wait hlabel hroom w (.inl rfl) hfree),
      fun h hfree => does_of_masonAt rfl h (bondInstr_of_wait hlabel hroom w (.inr rfl) hfree),
      fun h => does_of_masonAt rfl h (bondInstr_of_test hlabel hroom w),
      fun h => does_of_masonAt rfl h (hplain 0x36 (by decide) (by decide)),
      fun h => does_of_masonAt rfl h (hplain 0x37 (by decide) (by decide)),
      fun h harm => does_of_masonAt rfl h (bondInstr_of_plain hlabel hroom w (by decide) fun _ => harm),
      fun h => does_of_masonAt rfl h (hplain 0x39 (by decide) (by decide)),
      fun h => does_of_masonAt rfl h (hplain 0x3A (by decide) (by decide)),
      fun h hidle => does_of_masonAt rfl h (bondInstr_of_release hlabel hroom w (.inl rfl) hidle),
      fun h hidle => does_of_masonAt rfl h (bondInstr_of_release hlabel hroom w (.inr rfl) hidle)⟩
  case order =>
    exact ⟨does_cfence_of_idle, does_twait_of_idle, does_drain_of_settled, fun h hlabel hrange => does_rel_of_range hrange h hlabel,
      fun h hrange => does_acq_of_range hrange h, does_acqf, does_rds_of_settled, fun h hone => does_wsl_of_done h hone,
      fun h hone => does_wsl_of_opened h hone, does_tcmd_of_noSummary, does_tcmd_of_summary, does_tcmd_of_noSummary⟩

end Sys2Proof.Machine
end

section
/-! PROOFS. What the state of Hod, the power domains and the start sequence hold stays when parts of the package lose their power or are reset (R292, R411,
R655, R676, R815, R816). -/
namespace Sys2Proof.Machine
open Sys2Proof

/-! ### Operations of an engine -/

section
variable {α : Type} {V : State → α} (hbrick : ∀ s b f, V (s.onBrick b f) = V s) (hraise : ∀ s code args, V (s.raise code args) = V s)
include hbrick hraise

/-- An operation that the package issues on its own authority has no tile that its outcome goes to. -/
theorem issueBlind_engine (x : Nat) (op : Op) : IssueBlind V (.engine x) op where
  brick := hbrick
  raise := hraise
  trace := fun _ _ _ _ => rfl
  reject := fun _ _ _ => rfl
  unreachable := fun s _ => hraise s _ _

theorem issueOp_engine_view (b : Brick) (x : Nat) (op : Op) (s : State) : V (issueOp b (.engine x) op s) = V s :=
  (issueBlind_engine hbrick hraise x op).issueNumbered b 0 s

end

/-! ### Hod, the domains and the start sequence -/

/-- What Hod, the power domains' requests and the start sequence hold. -/
def State.control (s : State) : HodState × PowerState × StartState := (s.hod, s.power, s.start)

section
variable {s t : State} (h : t.control = s.control)
include h

theorem control_hod : t.hod = s.hod := congrArg Prod.fst h
theorem control_power : t.power = s.power := congrArg (fun x => x.2.1) h
theorem control_start : t.start = s.start := congrArg (fun x => x.2.2) h

end

section
variable (s : State)

theorem control_wr (f : FieldRef) (v : Nat) : (s.wr f v).control = s.control := rfl
theorem control_flag (f : FieldRef) : (s.flag f).control = s.control := rfl
theorem control_raise (code : Nat) (args : List Nat) : (s.raise code args).control = s.control := rfl
theorem control_store (a : Nat) (bs : Bytes) : (s.store a bs).control = s.control := rfl
theorem control_onBrick (b : Brick) (f : BrickState → BrickState) : (s.onBrick b f).control = s.control := rfl
theorem control_onTile (t : Tile) (f : TileState → TileState) : (s.onTile t f).control = s.control := rfl
theorem control_onStack (st : Stack) (f : StackState → StackState) : (s.onStack st f).control = s.control := rfl
theorem control_onLink (l : LinkId) (f : Link → Link) : (s.onLink l f).control = s.control := by cases l <;> rfl
theorem control_resetRegs (lo hi : Nat) : (resetRegs lo hi s).control = s.control := rfl
theorem control_setDomain (d v : Nat) : (setDomain d v s).control = s.control := by
  rw [setDomain]
  refine (control_wr ..).trans ?_
  split
  · exact control_wr ..
  · exact (control_wr ..).trans (control_wr ..)

theorem control_host (x : HostState) : ({ s with host := x } : State).control = s.control := rfl
theorem control_safety (x : SafetyState) : ({ s with safety := x } : State).control = s.control := rfl
theorem control_results (x : List Result) : ({ s with results := x } : State).control = s.control := rfl
theorem control_observe (x : ObservationState) : ({ s with observe := x } : State).control = s.control := rfl
theorem control_points (x : Vector LabelPoint 58) : ({ s with points := x } : State).control = s.control := rfl

theorem control_issueOp_engine (b : Brick) (x : Nat) (op : Op) : (issueOp b (.engine x) op s).control = s.control :=
  issueOp_engine_view control_onBrick control_raise b x op s

theorem control_traffic {s t : State} (h : TrafficOnly s t) : t.control = s.control := by
  obtain ⟨_, _, _, _, _, rfl⟩ := h
  rfl

/-! ### Losses and resets of a part -/

theorem control_endHostOp (id : Option Nat) (done : Bool) (status : Nat) (result : Bytes) :
    (endHostOp id done status result s).control = s.control := by
  rw [endHostOp.eq_def]
  split <;> rfl

theorem control_endPass (st : Stack) (x : Pass) (endState : Nat) (record : Bool) : (endPass st x endState record s).control = s.control := by
  refine ((control_raise ..).trans (control_wr ..)).trans ((control_endHostOp ..).trans ((control_onStack ..).trans ?_))
  split
  · exact control_issueOp_engine ..
  · rfl

theorem control_endJob (b : Brick) (j : YardJob) (endState : Nat) (record : Bool) : (endJob b j endState record s).control = s.control := by
  refine ((control_raise ..).trans (control_wr ..)).trans ((control_endHostOp ..).trans ((control_onBrick ..).trans ?_))
  split
  · exact control_issueOp_engine ..
  · rfl

theorem control_failPass (st : Stack) : (failPass st s).control = s.control := by
  rw [failPass]
  split
  · exact control_endPass ..
  · rfl

theorem control_failJob (b : Brick) (record : Bool) : (failJob b record s).control = s.control := by
  rw [failJob]
  split
  · exact control_endJob ..
  · rfl

theorem control_stackLost (st : Stack) : (stackLost st s).control = s.control := by
  have hpass := control_failPass s st
  refine ((control_host ..).trans ((control_onStack ..).trans (control_onBrick ..))).trans ?_
  split
  · exact (control_failJob ..).trans hpass
  · exact hpass

theorem control_tileLost (t : Tile) : (tileLost t s).control = s.control := rfl

theorem control_returnPins (t : Tile) : (returnPins t s).control = s.control :=
  (control_onTile ..).trans (State.each_view (fun s _ => control_issueOp_engine s ..) _ _)

theorem control_seedBytes (key bound : Nat) (held : List (Nat × Bytes)) : (seedBytes key bound held s).control = s.control :=
  State.each_view (fun s x => by rw [apply_ite State.control, control_store, ite_self]) held s

theorem control_abortPull (b : Brick) : (abortPull b s).control = s.control := by
  rw [abortPull]
  split
  · split
    · exact (control_flag ..).trans ((control_wr ..).trans (control_observe ..))
    · rfl
  · rfl

theorem control_hostReset : (hostReset s).control = s.control := rfl

theorem control_latchSites (b : Brick) : (latchSites b s).control = s.control :=
  (control_wr ..).trans ((control_wr ..).trans (control_wr ..))

theorem control_keepFences (b : Brick) (old : Nat) : (keepFences b old s).control = s.control := control_wr ..

theorem control_resetUncore (b : Brick) : (resetUncore b s).control = s.control := by
  refine (control_keepFences ..).trans ((control_latchSites ..).trans ((control_wr ..).trans ((control_safety ..).trans ?_)))
  have hhost (u : State) : (if b.val = 0 then hostReset (resetPkgBlock 7 u) else u).control = u.control := by
    rw [apply_ite State.control, control_hostReset, resetPkgBlock, control_resetRegs, ite_self]
  refine (hhost _).trans ((control_results ..).trans ((control_abortPull ..).trans ((control_resetRegs ..).trans ((control_points ..).trans ?_))))
  refine (State.each_view (fun s k => control_wr s ..) _ _).trans ((State.each_view (fun s l => control_onLink s ..) _ _).trans ?_)
  refine (State.each_view (fun s t => control_onTile s ..) _ _).trans ((State.each_view (fun s st => control_onStack s ..) _ _).trans ?_)
  refine (control_onBrick ..).trans ((control_resetRegs ..).trans ((State.each_view (fun s blk => ?_) _ _).trans (control_failJob ..)))
  split <;> rfl

end
end Sys2Proof.Machine
end

section
/-! PROOFS. The power-on sequence (R819 to R824): it takes back neither a domain fault that was recorded nor an event, and never says that main power is
good or lost. -/
namespace Sys2Proof.Machine
open Sys2Proof

/-- From `s` to `t` the flag of domain faults and MAIN_PWRGD have kept their values, and no event raised has gone. -/
def SequenceKeeps (s t : State) : Prop := Keeps Reg.PWR_ERR_DOMFLT s t ∧ t.start.mainGood = s.start.mainGood

section
variable {s t u : State}

theorem SequenceKeeps.refl (s : State) : SequenceKeeps s s := ⟨.refl s, rfl⟩

theorem SequenceKeeps.trans (h : SequenceKeeps s t) (htu : SequenceKeeps t u) : SequenceKeeps s u := ⟨h.1.trans htu.1, htu.2.trans h.2⟩

theorem SequenceKeeps.hod (h : SequenceKeeps s t) (x : HodState) : SequenceKeeps s { t with hod := x } := h

theorem SequenceKeeps.power (h : SequenceKeeps s t) (x : PowerState) : SequenceKeeps s { t with power := x } := h

theorem SequenceKeeps.start (h : SequenceKeeps s t) (x : StartState) (hgood : x.mainGood = t.start.mainGood) :
    SequenceKeeps s { t with start := x } :=
  ⟨h.1, hgood.trans h.2⟩

theorem SequenceKeeps.sealed (h : SequenceKeeps s t) (x : Bool) : SequenceKeeps s { t with sealed := x } := h

theorem SequenceKeeps.emit (h : SequenceKeeps s t) (o : Output) : SequenceKeeps s (t.emit o) := h

theorem SequenceKeeps.onBrick (h : SequenceKeeps s t) (b : Brick) (f : BrickState → BrickState) : SequenceKeeps s (t.onBrick b f) := h

theorem SequenceKeeps.onLink (h : SequenceKeeps s t) (l : LinkId) (f : Link → Link) : SequenceKeeps s (t.onLink l f) :=
  ⟨h.1.onLink l f, by rw [State.onLink_start, h.2]⟩

theorem SequenceKeeps.raise (h : SequenceKeeps s t) (code : Nat) (args : List Nat) : SequenceKeeps s (t.raise code args) :=
  ⟨h.1.raise code args, h.2⟩

theorem SequenceKeeps.wr {f : FieldRef} (h : SequenceKeeps s t) (hreg : Reg.PWR_ERR ≠ f.reg) (v : Nat) : SequenceKeeps s (t.wr f v) :=
  ⟨h.1.wr hreg v, h.2⟩

theorem SequenceKeeps.each {α : Type} {f : State → α → State} {xs : List α} (hf : ∀ t, ∀ x ∈ xs, SequenceKeeps t (f t x)) (h : SequenceKeeps s t) :
    SequenceKeeps s (t.each xs f) :=
  List.foldlRecOn xs f h fun t ht x hx => ht.trans (hf t x hx)

end

/-! ### The registers that the sequence writes -/

theorem pwrErr_ne_dom (d : Nat) : Reg.PWR_ERR ≠ Reg.PWR_DOM d := by
  simp only [Reg.PWR_ERR, Reg.PWR_DOM, pkgReg]
  omega

theorem pwrErr_ne_sitemap (b : Nat) : Reg.PWR_ERR ≠ Reg.PWR_SITEMAP b := by
  simp only [Reg.PWR_ERR, Reg.PWR_SITEMAP, pkgReg]
  omega

theorem pwrErr_ne_rail {g : Nat} (h : g < 8) : Reg.PWR_ERR ≠ Reg.HOD_RAIL g := by
  simp only [Reg.PWR_ERR, Reg.HOD_RAIL, pkgReg]
  omega

theorem pwrErr_ne_pdelta (p : Nat) : Reg.PWR_ERR ≠ Reg.PLB_PDELTA p := by
  simp only [Reg.PWR_ERR, Reg.PLB_PDELTA, pkgReg]
  omega

theorem pwrErr_ne_brickReg (b blk off : Nat) : Reg.PWR_ERR ≠ brickReg b blk off := by
  simp only [Reg.PWR_ERR, pkgReg, brickReg]
  omega

/-! ### Requests of domains -/

section
variable (s : State)

theorem setDomain_keeps (d v : Nat) : SequenceKeeps s (setDomain d v s) := by
  have hcur := (SequenceKeeps.refl s).wr (f := Reg.PWR_DOM_CUR d) (pwrErr_ne_dom d) v
  rw [setDomain]
  refine SequenceKeeps.wr (f := Reg.PWR_DOM_BUSY d) ?_ (pwrErr_ne_dom d) 0
  split
  · exact hcur
  · exact hcur.wr (pwrErr_ne_dom d) v

/-- REFUSED lies beside the flag of domain faults. -/
theorem flag_refused_keeps : SequenceKeeps s (s.flag Reg.PWR_ERR_REFUSED) :=
  ⟨(Keeps.refl s).wr_apart (g := Reg.PWR_ERR_DOMFLT) (f := Reg.PWR_ERR_REFUSED) rfl (by decide) (by decide) (by decide) 1, rfl⟩

theorem refuseDomain_keeps (d why : Nat) : SequenceKeeps s (refuseDomain d why s) :=
  (((SequenceKeeps.refl s).wr (f := Reg.PWR_DOM_WHY d) (pwrErr_ne_dom d) why).trans (setDomain_keeps _ d _)).trans (flag_refused_keeps _)

/-- What a request of a domain comes to (R293, R302). -/
theorem requestDomain_cases (d v : Nat) :
    requestDomain d v s = s ∨ requestDomain d v s = (s.wr (Reg.PWR_DOM_WHY d) 3).flag Reg.PWR_ERR_REFUSED ∨
    requestDomain d v s = refuseDomain d (judge s d v) s ∨ requestDomain d v s = s.wr (Reg.PWR_DOM_REQ d) v ∨
    requestDomain d v s = { s.wr (Reg.PWR_DOM_REQ d) v with power := { s.power with queue := s.power.queue ++ [(d, v)] } } := by
  by_cases hd : 144 ≤ d
  · exact .inl (by simp [requestDomain, hd])
  · refine .inr ?_
    cases hlater : domMoving s d || s.power.queue.any (fun x => x.1 = d) || inLockstep s d with
    | true =>
      by_cases hsup : domSupports (domKind d) v = true
      · exact .inr (.inr (.inr (by simp [requestDomain, hd, hlater, hsup])))
      · exact .inl (by simp [requestDomain, hd, hlater, hsup])
    | false =>
      by_cases hwhy : judge s d v = 0
      · by_cases hcur : v = domCur (s.wr (Reg.PWR_DOM_REQ d) v) d
        · exact .inr (.inr (.inl (by simp [requestDomain, hd, hlater, hwhy, ← hcur])))
        · exact .inr (.inr (.inr (by simp [requestDomain, hd, hlater, hwhy, hcur])))
      · exact .inr (.inl (by simp [requestDomain, hd, hlater, hwhy]))

theorem requestDomain_keeps (d v : Nat) : SequenceKeeps s (requestDomain d v s) := by
  have hreq := (SequenceKeeps.refl s).wr (f := Reg.PWR_DOM_REQ d) (pwrErr_ne_dom d) v
  rcases requestDomain_cases s d v with h | h | h | h | h <;> rw [h]
  · exact .refl s
  · exact ((SequenceKeeps.refl s).wr (f := Reg.PWR_DOM_WHY d) (pwrErr_ne_dom d) 3).trans (flag_refused_keeps _)
  · exact refuseDomain_keeps s d _
  · exact hreq
  · exact hreq.power _

/-! ### Links enabled (R103) -/

theorem control_toPortState (p : Port) (st : Nat) : (s.toPortState p st).control = s.control := by
  rw [State.toPortState]
  split
  · exact (control_wr ..).trans (control_wr ..)
  · exact control_wr ..

theorem control_loadSettings (l : LinkId) : (loadSettings l s).control = s.control := by
  rw [loadSettings, apply_ite State.control, control_raise, control_onLink, ite_self]

theorem control_enterState (p : Port) (st : Nat) : (enterState p st s).control = s.control := by
  rw [enterState]
  split
  · exact (control_traffic (sendWords_trafficOnly ..)).trans ((control_onLink ..).trans (control_toPortState ..))
  · exact (control_onLink ..).trans ((control_onLink ..).trans (control_toPortState ..))

theorem control_trainingBegun (p : Port) (fast : Bool) : (trainingBegun p fast s).control = s.control := by
  refine (control_loadSettings ..).trans ((control_wr ..).trans ((control_wr ..).trans ?_))
  exact (control_wr ..).trans ((control_wr ..).trans ((control_wr ..).trans ((control_wr ..).trans (control_onLink ..))))

theorem control_startTraining (p : Port) (fast : Bool) : (startTraining p fast s).control = s.control := by
  rw [startTraining_eq]
  split
  · rfl
  · split
    · exact (control_enterState ..).trans (control_trainingBegun ..)
    · exact (control_toPortState ..).trans (control_trainingBegun ..)

theorem loadSettings_keeps (l : LinkId) : SequenceKeeps s (loadSettings l s) :=
  ⟨(Keeps.refl s).loadSettings l, by rw [control_start (control_loadSettings s l)]⟩

theorem toPortState_keeps (p : Port) (st : Nat) : SequenceKeeps s (s.toPortState p st) :=
  ⟨(Keeps.refl s).toPortState (pwrErr_ne_pdelta p) (pwrErr_ne_brickReg _ _ _) st, by rw [control_start (control_toPortState s p st)]⟩

theorem startTraining_keeps (p : Port) (fast : Bool) : SequenceKeeps s (startTraining p fast s) :=
  ⟨(Keeps.refl s).startTraining (pwrErr_ne_pdelta p) (pwrErr_ne_brickReg _ _ _) fast, by rw [control_start (control_startTraining s p fast)]⟩

theorem rejectModule_keeps (p : Port) : SequenceKeeps s (rejectModule p s) := by
  have hflag := (SequenceKeeps.refl s).wr (f := Reg.MRT_PERR_MODREJ p) (pwrErr_ne_brickReg _ _ _) 1
  rw [rejectModule]
  refine SequenceKeeps.raise ?_ _ _
  split
  · exact hflag.trans (toPortState_keeps _ p _)
  · exact hflag

theorem enableLink_keeps (l : LinkId) : SequenceKeeps s (enableLink l s) := by
  cases l with
  | bridge b q => exact ((SequenceKeeps.refl s).wr (f := Reg.MRT_BCTL_EN b q) (pwrErr_ne_brickReg _ _ _) 1).trans (loadSettings_keeps ..)
  | port p =>
    have hpower (s : State) : SequenceKeeps s (powerModule p s) := by
      rw [powerModule]
      split
      · exact .refl s
      · exact ((SequenceKeeps.refl s).emit _).emit _
    have hwith {f : State → State} (hf : ∀ s, SequenceKeeps s (f s)) : SequenceKeeps s (withModule p f s) :=
      (((SequenceKeeps.refl s).emit _).trans (hf _)).emit _
    have henable (s : State) : SequenceKeeps s (s.wr (Reg.MRT_PCTL_EN p) 1) := (SequenceKeeps.refl s).wr (pwrErr_ne_brickReg _ _ _) 1
    rw [enableLink]
    split
    · exact henable s
    · split
      · exact (hwith SequenceKeeps.refl).trans (rejectModule_keeps ..)
      · exact (((hwith hpower).onLink _ _).trans (henable _)).trans (startTraining_keeps ..)

/-! ### Rails, stacks and the seal (R788, R790, R800) -/

theorem stepFailed_keeps (step reason : Nat) : SequenceKeeps s (stepFailed step reason s) :=
  ((SequenceKeeps.refl s).start _ rfl).raise _ _

theorem mismatch_keeps (kind place want got : Nat) : SequenceKeeps s (mismatch kind place want got s) :=
  ((SequenceKeeps.refl s).wr (f := Reg.HOD_ERR_IDMISM) (by decide) 1).raise _ _

theorem raiseIncarnation_keeps : SequenceKeeps s (raiseIncarnation s) := by
  refine SequenceKeeps.each (fun t _ _ => (SequenceKeeps.refl t).onBrick _ _) ?_
  exact ((SequenceKeeps.refl s).hod _).wr (f := Reg.SEAT_INC_INC) (by decide) _

theorem pmbusWrite_keeps (g code : Nat) (data : Bytes) : SequenceKeeps s (pmbusWrite g code data s) := ((SequenceKeeps.refl s).emit _).emit _

theorem setTileVolt_keeps (b : Brick) (f : Nat) : SequenceKeeps s (setTileVolt b f s) := by
  rw [setTileVolt]
  split
  · exact .refl s
  · exact ((SequenceKeeps.refl s).hod _).trans (pmbusWrite_keeps ..)

theorem driveRail_keeps (g level : Nat) : SequenceKeeps s (driveRail g level s) := ((SequenceKeeps.refl s).hod _).emit _

theorem raiseGroup_keeps (bad : BitVec 8) {g : Nat} (hg : g < 8) : SequenceKeeps s (raiseGroup bad s g) := by
  have hoff (want got : Nat) (h : HodState) : SequenceKeeps s (stepFailed 8 g { mismatch 1 g want got s with hod := h }) :=
    ((mismatch_keeps s 1 g want got).hod h).trans (stepFailed_keeps ..)
  have hrail (s : State) {f : FieldRef} (hf : f.reg = Reg.HOD_RAIL g) (n : Nat) : SequenceKeeps s (s.wr f n) :=
    (SequenceKeeps.refl s).wr (hf ▸ pwrErr_ne_rail hg) n
  have hvolt (s : State) (c : Bool) (f : Nat) : SequenceKeeps s (s.when c (setTileVolt (brickOf g) f)) := by
    rw [State.when]
    split
    · exact setTileVolt_keeps ..
    · exact .refl s
  rw [raiseGroup]
  split
  · exact hoff _ _ _
  · split
    · exact hoff _ _ _
    · have hphases (u : State) (n : Nat) : SequenceKeeps u ((u.wr (Reg.HOD_RAIL_PHASES g) n).wr (Reg.HOD_RAIL_PHOK g) n) :=
        (hrail u rfl n).trans (hrail _ rfl n)
      exact ((((SequenceKeeps.refl s).hod _).trans (hphases _ _)).trans (hvolt _ _ _)).trans (driveRail_keeps ..)

theorem checkStack_keeps (n : Nat) : SequenceKeeps s (checkStack s n) := by
  rw [checkStack]
  refine SequenceKeeps.hod ?_ _
  split
  · exact mismatch_keeps ..
  · exact .refl s

theorem sealPackage_keeps : SequenceKeeps s (sealPackage s) := by
  rw [sealPackage]
  split
  · exact .refl s
  · refine SequenceKeeps.raise (SequenceKeeps.wr (f := Reg.HOD_STAT_SEALED) (SequenceKeeps.sealed ?_ _) (by decide) 1) _ _
    refine SequenceKeeps.each (fun t b _ => (SequenceKeeps.refl t).wr (pwrErr_ne_sitemap b) _) (SequenceKeeps.each (fun t p _ => ?_) (.refl s))
    split
    · exact (SequenceKeeps.refl t).wr (pwrErr_ne_brickReg _ _ _) _
    · exact .refl t

/-! ### The three stages -/

theorem startRails_keeps (bad : BitVec 8) : SequenceKeeps s (startRails bad s) := by
  have hgroups : SequenceKeeps s (railOrder.foldl (raiseGroup bad) s) :=
    SequenceKeeps.each (fun t g hg => raiseGroup_keeps t bad (by revert g; decide)) (.refl s)
  rw [startRails]
  split
  · exact .refl s
  · refine SequenceKeeps.each (fun t d _ => requestDomain_keeps t d 3) (SequenceKeeps.start ?_ _ rfl)
    split
    · exact hgroups.trans (raiseIncarnation_keeps _)
    · exact hgroups

theorem startStacks_keeps : SequenceKeeps s (startStacks s) := by
  have huncores : SequenceKeeps s (([0, 1, 2, 3] : List Brick).foldl (fun s b => if uncoreOn s b then s else stepFailed 9 b.val s) s) := by
    refine SequenceKeeps.each (fun t b _ => ?_) (.refl s)
    split
    · exact .refl t
    · exact stepFailed_keeps ..
  have hchecks (u : State) : SequenceKeeps u (measureIdents ((List.range 8).foldl checkStack u)) :=
    (SequenceKeeps.each (fun t n _ => checkStack_keeps t n) (.refl u)).hod _
  have hphase (u : State) (toClear : List Nat) : SequenceKeeps u { u with start := { u.start with phase := 4, toClear := toClear, cleared := [] } } :=
    (SequenceKeeps.refl u).start _ rfl
  rw [startStacks]
  split
  · exact .refl s
  · refine SequenceKeeps.each (fun t n _ => ?_) (SequenceKeeps.trans (SequenceKeeps.trans ?_ (hchecks _)) (hphase _ _))
    · split
      · exact stepFailed_keeps ..
      · split
        · exact requestDomain_keeps ..
        · exact .refl t
    · split
      · exact huncores.trans (sealPackage_keeps _)
      · exact huncores

theorem startPorts_keeps : SequenceKeeps s (startPorts s) := by
  rw [startPorts]
  split
  · exact .refl s
  · refine SequenceKeeps.each (fun t p _ => ?_) (SequenceKeeps.each (fun t b _ => ?_) ((SequenceKeeps.refl s).start _ rfl))
    · split
      · split
        · exact enableLink_keeps ..
        · exact .refl t
      · exact .refl t
    · split
      · exact SequenceKeeps.each (fun t q _ => enableLink_keeps ..) (.refl t)
      · exact .refl t

theorem startSequence_keeps (bad : BitVec 8) : SequenceKeeps s (startSequence bad s) :=
  ((startRails_keeps s bad).trans (startStacks_keeps _)).trans (startPorts_keeps _)

end
end Sys2Proof.Machine
end

section
/-! PROOFS. Power domains and tile clocks: requests, transitions, domain faults and clock changes (R290 to R297, R303, R308, R801, R819). -/
namespace Sys2Proof.Machine
open Sys2Proof

/-! ### The commands -/

theorem exec_domainRequest (d : Fin 144) (v : BitVec 2) (s : State) : exec (.domainRequest d v) s = .next (s.done (requestDomain d.val v.toNat s)) := rfl
theorem exec_domainTransitionStart (s : State) : exec .domainTransitionStart s = execDomainTransitionStart s := rfl
theorem exec_domainTransitionDone (d : Fin 144) (slow : Bool) (held : List (Nat × Bytes)) (e : MemEnv) (s : State) :
    exec (.domainTransitionDone d slow held e) s = execDomainTransitionDone d slow held e s := rfl
theorem exec_domainFault (d : Fin 144) (e : MemEnv) (s : State) : exec (.domainFault d e) s = execDomainFault d e s := rfl
theorem exec_freqWrite (b : Brick) (f : BitVec 7) (s : State) : exec (.freqWrite b f) s = .next (s.done (writeFreq b f.toNat s)) := rfl
theorem exec_tileClockSwitchDone (b : Brick) (s : State) : exec (.tileClockSwitchDone b) s = execTileClockSwitchDone b s := rfl

/-! ### The state of a domain -/

section
variable (s : State)

theorem dom_ne_seatOwn (d : Nat) : Reg.PWR_DOM d ≠ Reg.SEAT_OWN := by
  simp only [Reg.PWR_DOM, Reg.SEAT_OWN, pkgReg]
  omega

theorem dom_ne_brickReg {d : Nat} (h : d < 144) (b blk off : Nat) : Reg.PWR_DOM d ≠ brickReg b blk off := by
  simp only [Reg.PWR_DOM, pkgReg, brickReg]
  omega

theorem dom_ne_dom {d k : Nat} (h : d ≠ k) : Reg.PWR_DOM d ≠ Reg.PWR_DOM k := by
  simp only [Reg.PWR_DOM, pkgReg]
  omega

theorem domCur_lt (d : Nat) : domCur s d < 4 := bitsOf_lt _ 9 8

/-- CUR of a domain changes by a write of CUR in its own register alone. -/
theorem domCur_wr_beside {f : FieldRef} {k : Nat} (hreg : f.reg = Reg.PWR_DOM k) (hwf : f.lo ≤ f.hi + 1) (hbeside : 9 < f.lo ∨ f.hi < 8) (v d : Nat) :
    domCur (s.wr f v) d = domCur s d := by
  rcases eq_or_ne d k with rfl | hne
  · exact State.rd_wr_apart s f (Reg.PWR_DOM_CUR d) v hreg.symm hwf (by decide : 9 < 64) hbeside
  · exact State.rd_wr_other s f (Reg.PWR_DOM_CUR d) v (hreg ▸ dom_ne_dom hne)

theorem domCur_wr_req (k v d : Nat) : domCur (s.wr (Reg.PWR_DOM_REQ k) v) d = domCur s d :=
  domCur_wr_beside s (f := Reg.PWR_DOM_REQ k) rfl (by decide : 0 ≤ 2) (.inr (by decide : 1 < 8)) v d

theorem domCur_wr_busy (k v d : Nat) : domCur (s.wr (Reg.PWR_DOM_BUSY k) v) d = domCur s d :=
  domCur_wr_beside s (f := Reg.PWR_DOM_BUSY k) rfl (by decide : 4 ≤ 5) (.inr (by decide : 4 < 8)) v d

theorem domCur_wr_why (k v d : Nat) : domCur (s.wr (Reg.PWR_DOM_WHY k) v) d = domCur s d :=
  domCur_wr_beside s (f := Reg.PWR_DOM_WHY k) rfl (by decide : 12 ≤ 16) (.inl (by decide : 9 < 12)) v d

theorem domCur_wr_cur (d v : Nat) : domCur (s.wr (Reg.PWR_DOM_CUR d) v) d = v % 4 :=
  State.rd_wr_same s (Reg.PWR_DOM_CUR d) v (by decide : 8 ≤ 10) (by decide : 9 < 64)

theorem domCur_wr_cur_other {d k : Nat} (h : d ≠ k) (v : Nat) : domCur (s.wr (Reg.PWR_DOM_CUR k) v) d = domCur s d :=
  State.rd_wr_other s (Reg.PWR_DOM_CUR k) (Reg.PWR_DOM_CUR d) v (dom_ne_dom h)

theorem domCur_wr_other {f : FieldRef} {d : Nat} (h : Reg.PWR_DOM d ≠ f.reg) (v : Nat) : domCur (s.wr f v) d = domCur s d :=
  State.rd_wr_other s f (Reg.PWR_DOM_CUR d) v h

theorem domCur_done (t : State) (d : Nat) : domCur (s.done t) d = domCur t d := State.done_rd_other s t (g := Reg.PWR_DOM_CUR d) (dom_ne_seatOwn d)

/-- Setting a domain ends with CUR as the write of CUR leaves it. -/
theorem domCur_setDomain (k v d : Nat) : domCur (setDomain k v s) d = domCur (s.wr (Reg.PWR_DOM_CUR k) v) d := by
  rw [setDomain, domCur_wr_busy]
  split
  · rfl
  · exact domCur_wr_req ..

theorem domCur_setDomain_same {d v : Nat} (h : v < 4) : domCur (setDomain d v s) d = v := by
  rw [domCur_setDomain, domCur_wr_cur, Nat.mod_eq_of_lt h]

/-- A request leaves every domain in the state it is in (R293). -/
theorem domCur_requestDomain (k v d : Nat) : domCur (requestDomain k v s) d = domCur s d := by
  have hflag (u : State) : domCur (u.flag Reg.PWR_ERR_REFUSED) d = domCur u d := domCur_wr_other u (pwrErr_ne_dom d).symm 1
  rcases requestDomain_cases s k v with h | h | h | h | h
  · rw [h]
  · rw [h, hflag, domCur_wr_why]
  · rw [h, refuseDomain, hflag, domCur_setDomain]
    rcases eq_or_ne d k with rfl | hne
    · rw [domCur_wr_cur, Nat.mod_eq_of_lt (domCur_lt s d)]
    · rw [domCur_wr_cur_other _ hne, domCur_wr_why]
  · rw [h, domCur_wr_req]
  · exact h ▸ domCur_wr_req s k v d

theorem moving_requestDomain (k v : Nat) : (requestDomain k v s).power.moving = s.power.moving := by
  rcases requestDomain_cases s k v with h | h | h | h | h
  · rw [h]
  · rw [h, State.flag_power, State.wr_power]
  · rw [h, refuseDomain, State.flag_power, control_power (control_setDomain ..), State.wr_power]
  · rw [h, State.wr_power]
  · rw [h]

/-! ### Rotation and the shadow's power -/

/-- The rotation of a brick changes SAF_BSTAT of the brick, the record of its visits and the events (R839 to R841, R924). -/
theorem rotation_view {α : Type} {V : State → α} {b : Brick} (hwr : ∀ s (f : FieldRef) v, f.reg = Reg.SAF_BSTAT b → V (s.wr f v) = V s)
    (hraise : ∀ s code args, V (s.raise code args) = V s) (hsafety : ∀ (s : State) x, V { s with safety := x } = V s) :
    V (rotation b s) = V s := by
  have hbegin (k : Nat) (s : State) : V (beginVisit b k s) = V s := by
    rw [beginVisit]
    split
    · rfl
    · refine (hwr _ _ _ rfl).trans ((hsafety _ _).trans ?_)
      split
      · refine (hsafety _ _).trans ?_
        split
        · exact (hwr _ _ _ rfl).trans (hwr _ _ _ rfl)
        · rfl
      · rfl
  rw [rotation]
  dsimp only
  split
  · rfl
  · split
    · refine (hbegin _ _).trans ?_
      split
      · rfl
      · exact (hraise ..).trans (hwr _ _ _ rfl)
    · split
      · exact (hraise ..).trans (hwr _ _ _ rfl)
      · rfl

theorem domCur_rotation (b : Brick) {d : Nat} (h : d < 144) : domCur (rotation b s) d = domCur s d :=
  rotation_view s (V := fun s => domCur s d) (fun s _ v hf => domCur_wr_other s (hf ▸ dom_ne_brickReg h _ _ _) v) (fun _ _ _ => rfl) (fun _ _ => rfl)

theorem control_rotation (b : Brick) : (rotation b s).control = s.control :=
  rotation_view s (fun s _ v _ => control_wr s _ v) control_raise control_safety

/-- Hod asks for the shadow site to come ON or go OFF, or for nothing (R841). -/
theorem shadowPower_cases (b : Brick) (before : Nat) :
    shadowPower b before s = s ∨ ∃ k v, shadowPower b before s = requestDomain k v s := by
  rw [shadowPower]
  split
  · exact .inl rfl
  · split
    · exact .inr ⟨_, _, rfl⟩
    · split
      · exact .inr ⟨_, _, rfl⟩
      · exact .inl rfl

end

/-! ### Requests -/

section
variable {s : State} {d : Fin 144} {v : BitVec 2}
  (hrest : domMoving s d.val = false) (hqueue : s.power.queue.any (fun x => x.1 = d.val) = false) (hlock : inLockstep s d.val = false)
include hrest hqueue hlock

/-- A request of a domain at rest that breaks a rule is refused at once (R293). -/
theorem does_domainRequest_of_refused (hwhy : judge s d.val v.toNat ≠ 0) :
    Does (.domainRequest d v) s (refuseDomain d.val (judge s d.val v.toNat) s) := by
  have hd : ¬ 144 ≤ d.val := by omega
  rw [Does, exec_domainRequest]
  simp [requestDomain, hd, hrest, hqueue, hlock, hwhy]

/-- One that breaks none is queued where it asks for a change (R297). -/
theorem does_domainRequest_of_allowed (hwhy : judge s d.val v.toNat = 0) (hcur : v.toNat ≠ domCur s d.val) :
    Does (.domainRequest d v) s { s.wr (Reg.PWR_DOM_REQ d.val) v.toNat with
      power := { s.power with queue := s.power.queue ++ [(d.val, v.toNat)] } } := by
  have hd : ¬ 144 ≤ d.val := by omega
  rw [Does, exec_domainRequest]
  simp [requestDomain, hd, hrest, hqueue, hlock, hwhy, domCur_wr_req, hcur]

end

/-! ### Transitions that begin -/

/-- The state whose queue of requests is `rest`. -/
def withRequests (rest : List (Nat × Nat)) (s : State) : State := { s with power := { s.power with queue := rest } }

/-- A transition that has begun, before what works on its stack is held. -/
def transitionBegun (k v : Nat) (s : State) : State :=
  { s with power := { s.power with moving := s.power.moving ++ [(k, v)] } }.wr (Reg.PWR_DOM_BUSY k) 1

/-- What works on a stack that is to leave ON is held (R407, R927). -/
def heldBeforeMove (k : Nat) (s : State) : State :=
  match domKind k with
  | .stack st => if domCur s k = 3 then holdFor st s else s
  | _ => s

section
variable {s : State} {k v : Nat} {rest : List (Nat × Nat)} (hqueue : s.power.queue = (k, v) :: rest) (hmay : mayMove s k = true)
include hqueue hmay

/-- The first request that waits is the one that Hod takes up, where it may start (R297). -/
theorem exec_domainTransitionStart_of_head : exec .domainTransitionStart s = ended s (.next (
    if judge (withRequests rest s) k v ≠ 0 then refuseDomain k (judge (withRequests rest s) k v) (withRequests rest s)
    else if v = domCur (withRequests rest s) k then withRequests rest s
    else heldBeforeMove k (transitionBegun k v (withRequests rest s)))) := by
  have hnext : nextMove s [] s.power.queue = some (k, v) := by simp [hqueue, nextMove, hmay]
  have hdrop : dropFirst (k, v) s.power.queue = rest := by simp [hqueue, dropFirst]
  rw [exec_domainTransitionStart, execDomainTransitionStart, hnext, apply_ite Host.Outcome.next, apply_ite Host.Outcome.next]
  simp only [hdrop]
  rfl

theorem does_domainTransitionStart_of_refused (hwhy : judge (withRequests rest s) k v ≠ 0) :
    Does .domainTransitionStart s (refuseDomain k (judge (withRequests rest s) k v) (withRequests rest s)) := by
  rw [Does, exec_domainTransitionStart_of_head hqueue hmay, if_pos hwhy, ended_next]

theorem does_domainTransitionStart_of_allowed (hwhy : judge (withRequests rest s) k v = 0) (hcur : v ≠ domCur (withRequests rest s) k) :
    Does .domainTransitionStart s (heldBeforeMove k (transitionBegun k v (withRequests rest s))) := by
  rw [Does, exec_domainTransitionStart_of_head hqueue hmay, if_neg (not_not_intro hwhy), if_neg hcur, ended_next]

end

section
variable (s : State)

/-- A pass asked to suspend takes the mark of who asked, and SUSPENDING where it runs (R403). -/
theorem suspendPass_cases (st : Stack) (dev : Bool) :
    ∃ f, suspendPass st dev s = (onPass st f s).wr (Reg.PGC_SSTAT_STATE st) psSuspending ∨ suspendPass st dev s = onPass st f s :=
  ⟨_, ite_eq_or_eq _ _ _⟩

/-- A job asked to suspend likewise (R669). -/
theorem suspendJob_cases (b : Brick) (dev : Bool) :
    ∃ f, suspendJob b dev s = (onJob b f s).wr (Reg.SLB_JSTAT_STATE b) psSuspending ∨ suspendJob b dev s = onJob b f s :=
  ⟨_, ite_eq_or_eq _ _ _⟩

theorem control_suspendPass (st : Stack) (dev : Bool) : (suspendPass st dev s).control = s.control := by
  obtain ⟨f, h | h⟩ := suspendPass_cases s st dev <;> rw [h]
  · exact (control_wr ..).trans (control_onStack ..)
  · exact control_onStack ..

theorem control_suspendJob (b : Brick) (dev : Bool) : (suspendJob b dev s).control = s.control := by
  obtain ⟨f, h | h⟩ := suspendJob_cases s b dev <;> rw [h]
  · exact (control_wr ..).trans (control_onBrick ..)
  · exact control_onBrick ..

theorem rd_suspendPass {g : FieldRef} (st : Stack) (dev : Bool) (hg : g.reg ≠ Reg.PGC_SSTAT st) : (suspendPass st dev s).rd g = s.rd g := by
  obtain ⟨f, h | h⟩ := suspendPass_cases s st dev <;> rw [h]
  · exact State.rd_wr_other _ (Reg.PGC_SSTAT_STATE st) g _ hg
  · rfl

theorem rd_suspendJob {g : FieldRef} (b : Brick) (dev : Bool) (hg : g.reg ≠ Reg.SLB_JSTAT b) : (suspendJob b dev s).rd g = s.rd g := by
  obtain ⟨f, h | h⟩ := suspendJob_cases s b dev <;> rw [h]
  · exact State.rd_wr_other _ (Reg.SLB_JSTAT_STATE b) g _ hg
  · rfl

/-- What is held for a stack is its pass, its yard's job and operations of the host: a reading that sees no change of these sees none at all. -/
theorem holdFor_view {α : Type} {V : State → α} {st : Stack} (hpass : ∀ s, V (suspendPass st true s) = V s)
    (hjob : ∀ s, V (suspendJob (stackBrick st) true s) = V s) (hhost : ∀ (s : State) x, V { s with host := x } = V s) :
    V (holdFor st s) = V s := by
  rw [holdFor]
  refine (hhost _ _).trans ?_
  split
  · split
    · exact (hjob _).trans (hpass _)
    · exact hpass _
  · split
    · exact hjob _
    · rfl

theorem control_holdFor (st : Stack) : (holdFor st s).control = s.control :=
  holdFor_view s (fun s => control_suspendPass s st true) (fun s => control_suspendJob s _ true) control_host

/-- The registers of a domain are none of those that show a pass or a job. -/
theorem rd_holdFor {g : FieldRef} {d : Nat} (hd : d < 144) (hg : g.reg = Reg.PWR_DOM d) (st : Stack) : (holdFor st s).rd g = s.rd g :=
  holdFor_view s (V := fun s => s.rd g) (fun s => rd_suspendPass s st true (hg ▸ dom_ne_brickReg hd _ _ _))
    (fun s => rd_suspendJob s _ true (hg ▸ dom_ne_brickReg hd _ _ _)) (fun _ _ => rfl)

theorem domKind_lt {d : Nat} {st : Stack} (h : domKind d = .stack st) : d < 144 := by
  by_contra hd
  have h132 : ¬ d < 132 := by omega
  have h136 : ¬ d < 136 := by omega
  simp [domKind, h132, h136, hd] at h

theorem control_heldBeforeMove (k : Nat) : (heldBeforeMove k s).control = s.control := by
  rw [heldBeforeMove]
  split
  · split
    · exact control_holdFor ..
    · rfl
  · rfl

theorem rd_busy_heldBeforeMove (k : Nat) : (heldBeforeMove k s).rd (Reg.PWR_DOM_BUSY k) = s.rd (Reg.PWR_DOM_BUSY k) := by
  rw [heldBeforeMove]
  split
  · next hkind =>
    split
    · exact rd_holdFor s (g := Reg.PWR_DOM_BUSY k) (domKind_lt hkind) rfl _
    · rfl
  · rfl

end

/-- A transition that begins stands among those that run, has left the queue, and shows BUSY (R297). -/
theorem leaves_domainTransitionStart_of_allowed {s : State} {k v : Nat} {rest : List (Nat × Nat)} (hqueue : s.power.queue = (k, v) :: rest)
    (hmay : mayMove s k = true) (hwhy : judge (withRequests rest s) k v = 0) (hcur : v ≠ domCur (withRequests rest s) k) :
    Leaves .domainTransitionStart s (fun u => u.power.moving = s.power.moving ++ [(k, v)] ∧ u.power.queue = rest ∧ u.rd (Reg.PWR_DOM_BUSY k) = 1) := by
  refine ⟨_, does_domainTransitionStart_of_allowed hqueue hmay hwhy hcur, ?_⟩
  have hpower := control_power (control_heldBeforeMove (transitionBegun k v (withRequests rest s)) k)
  beta_reduce
  rw [State.done_power, hpower, State.done_rd_other _ _ (g := Reg.PWR_DOM_BUSY k) (dom_ne_seatOwn k), rd_busy_heldBeforeMove]
  exact ⟨rfl, rfl, State.rd_flag_same _ (Reg.PWR_DOM_BUSY k) rfl (by decide : 4 < 64)⟩

/-! ### Transitions that end -/

/-- The state in which the transition of domain `d` no longer runs. -/
def transitionOver (d : Nat) (s : State) : State := { s with power := { s.power with moving := s.power.moving.filter (fun x => x.1 ≠ d) } }

/-- Why a domain may not reach the state `v` that it was asked for (R293, R294; log entry 212): OFF is judged again. -/
def arrivalWhy (d v : Nat) (s : State) : Nat := if v = 0 then judge (transitionOver d s) d 0 else 0

/-- A domain that is to go OFF needs no rails; any other has them up (R809). -/
theorem not_downRails {s : State} {d v : Nat} (hrails : v = 0 ∨ railsUp s d = true) : ¬ (v ≠ 0 && !railsUp s d) = true := by
  simpa using fun h => hrails.resolve_left h

section
variable {s : State} {d : Fin 144} {v : Nat} {slow : Bool} {held : List (Nat × Bytes)} {e : MemEnv}
  (hmoves : s.power.moving.find? (fun x => x.1 = d.val) = some (d.val, v)) (hrails : v = 0 ∨ railsUp s d.val = true)
include hmoves hrails

theorem does_domainTransitionDone_of_refused (hwhy : arrivalWhy d.val v s ≠ 0) :
    Does (.domainTransitionDone d slow held e) s (startSequence 0 (refuseDomain d.val (arrivalWhy d.val v s) (transitionOver d.val s))) := by
  have hup := not_downRails hrails
  rw [Does, exec_domainTransitionDone, execDomainTransitionDone, hmoves]
  simp only [if_neg hup]
  exact congrArg (ended s) (if_pos hwhy)

section
variable (hwhy : arrivalWhy d.val v s = 0)
include hwhy

theorem does_domainTransitionDone_site {b : Brick} {k : Nat} (hkind : domKind d.val = .site b k) :
    Does (.domainTransitionDone d slow held e) s (siteArrives b k v held (transitionOver d.val s)) := by
  have hup := not_downRails hrails
  rw [Does, exec_domainTransitionDone, execDomainTransitionDone, hmoves]
  simp only [if_neg hup, hkind]
  exact congrArg (ended s) (if_neg (not_not_intro hwhy))

theorem does_domainTransitionDone_uncore {b : Brick} (hkind : domKind d.val = .uncore b) :
    Does (.domainTransitionDone d slow held e) s
      (startSequence 0 (if v = 0 then uncoreLeaves b (transitionOver d.val s) else uncoreUp b (transitionOver d.val s))) := by
  have hup := not_downRails hrails
  rw [Does, exec_domainTransitionDone, execDomainTransitionDone, hmoves]
  simp only [if_neg hup, hkind]
  exact congrArg (ended s) (if_neg (not_not_intro hwhy))

theorem does_domainTransitionDone_stack {st : Stack} (hkind : domKind d.val = .stack st) (hquiet : domCur s d.val = 3 → stackQuiet s st = true) :
    Does (.domainTransitionDone d slow held e) s (startSequence 0 (stackArrives st v slow held e (transitionOver d.val (memReports e s)))) := by
  have hup := not_downRails hrails
  have hgoes : ¬ (domCur s d.val = 3 && !stackQuiet s st) = true := by simpa using hquiet
  rw [Does, exec_domainTransitionDone, execDomainTransitionDone, hmoves]
  simp only [if_neg hup, hkind, if_neg hgoes]
  exact congrArg (ended s) (if_neg (not_not_intro hwhy))

end
end

/-! ### Sites that arrive -/

theorem siteDom_of_domKind {d : Nat} {b : Brick} {k : Nat} (h : domKind d = .site b k) : siteDom b k = d := by
  rw [domKind] at h
  split at h
  · cases h
    simp only [siteDom, brickOf]
    omega
  · split at h
    · cases h
    · split at h <;> cases h

section
variable (s : State) (b : Brick) (k v : Nat) (held : List (Nat × Bytes))

/-- The tile that a site carries as it begins or ends its work there (R292, R655). -/
def siteTileArrives (b : Brick) (k v : Nat) (held : List (Nat × Bytes)) (s : State) : State :=
  match siteTile s b k with
  | none => s
  | some t =>
    if v = 0 then tileLost t (returnPins t s)
    else if domCur s (siteDom b k) = 0 then seedBytes (tileStoreKey t 0) 0x720000 held (tileLost t s)
    else s

theorem siteArrives_eq :
    siteArrives b k v held s = rotation b (shadowPower b (sitesOn s b) (setDomain (siteDom b k) v (siteTileArrives b k v held s))) := rfl

theorem control_siteTileArrives : (siteTileArrives b k v held s).control = s.control := by
  rw [siteTileArrives]
  split
  · rfl
  · split
    · exact (control_tileLost ..).trans (control_returnPins ..)
    · split
      · exact (control_seedBytes ..).trans (control_tileLost ..)
      · rfl

theorem moving_shadowPower (before : Nat) : (shadowPower b before s).power.moving = s.power.moving := by
  rcases shadowPower_cases s b before with h | ⟨k, v, h⟩ <;> rw [h]
  exact moving_requestDomain s k v

theorem domCur_shadowPower (before d : Nat) : domCur (shadowPower b before s) d = domCur s d := by
  rcases shadowPower_cases s b before with h | ⟨k, v, h⟩ <;> rw [h]
  exact domCur_requestDomain s k v d

theorem moving_siteArrives : (siteArrives b k v held s).power.moving = s.power.moving := by
  rw [siteArrives_eq, control_power (control_rotation ..), moving_shadowPower, control_power (control_setDomain ..),
    control_power (control_siteTileArrives ..)]

theorem domCur_siteArrives {d : Nat} (hd : siteDom b k = d) (hlt : d < 144) (hv : v < 4) : domCur (siteArrives b k v held s) d = v := by
  rw [siteArrives_eq, domCur_rotation _ b hlt, domCur_shadowPower, hd, domCur_setDomain_same _ hv]

end

/-- A site is in the state asked for once its transition has ended. -/
theorem leaves_domainTransitionDone_site {s : State} {d : Fin 144} {b : Brick} {k v : Nat} (slow : Bool) (held : List (Nat × Bytes)) (e : MemEnv)
    (hmoves : s.power.moving.find? (fun x => x.1 = d.val) = some (d.val, v)) (hrails : v = 0 ∨ railsUp s d.val = true)
    (hwhy : arrivalWhy d.val v s = 0) (hkind : domKind d.val = .site b k) (hv : v < 4) :
    Leaves (.domainTransitionDone d slow held e) s (fun u => domCur u d.val = v ∧ domMoving u d.val = false) := by
  refine ⟨_, does_domainTransitionDone_site hmoves hrails hwhy hkind, ?_, ?_⟩
  · rw [domCur_done, domCur_siteArrives _ b k v held (siteDom_of_domKind hkind) d.isLt hv]
  · rw [domMoving, State.done_power, moving_siteArrives]
    simp [transitionOver]

/-! ### Domain faults -/

theorem faultDomain_tells (d : Nat) (e : MemEnv) (s : State) : ∃ u : State, faultDomain d e s = (u.flag Reg.PWR_ERR_DOMFLT).raise 0x5011 [d] := ⟨_, rfl⟩

section
variable {s : State} {d : Fin 144} (e : MemEnv) (hmoves : domMoving s d.val = true) (hrails : s.start.phase ≠ 3) (hstacks : s.start.phase ≠ 4)
include hmoves hrails hstacks

theorem does_domainFault_of_moving : Does (.domainFault d e) s (startSequence 0 (faultDomain d.val e s)) := by
  simp only [Does, exec_domainFault, execDomainFault, hmoves, hrails, hstacks]
  rfl

/-- The fault is told, and the sequence that goes on does not take it back (R303). -/
theorem leaves_domainFault_of_moving :
    Leaves (.domainFault d e) s (fun u => u.isSet Reg.PWR_ERR_DOMFLT = true ∧ ∃ x ∈ u.events, x.code = 0x5011 ∧ x.args = [d.val]) := by
  refine ⟨_, does_domainFault_of_moving e hmoves hrails hstacks, ?_⟩
  obtain ⟨u, hfault⟩ := faultDomain_tells d.val e s
  obtain ⟨⟨hflag, hevents⟩, -⟩ := startSequence_keeps ((u.flag Reg.PWR_ERR_DOMFLT).raise 0x5011 [d.val]) 0
  rw [hfault]
  constructor
  · rw [State.isSet, State.done_rd_other _ _ (by decide), hflag, State.raise_rd, State.rd_flag_same _ _ rfl (by decide)]
    rfl
  · rw [State.done_events]
    exact ⟨_, hevents (List.mem_append_right _ (List.mem_singleton_self _)), rfl, rfl⟩

end

/-! ### Tile clocks -/

section
variable {b : Brick} {f : BitVec 7} {s : State}

theorem does_freqWrite_of_range (hlo : 0x30 ≤ f.toNat) (hhi : f.toNat ≤ 0x78) :
    Does (.freqWrite b f) s (seekClock b (s.wr (Reg.PWR_DVFS_FREQ b) f.toNat)) := by
  rw [Does, exec_freqWrite, writeFreq, if_pos (by simp [hlo, hhi])]

theorem does_freqWrite_of_outside (h : f.toNat < 0x30 ∨ 0x78 < f.toNat) : Does (.freqWrite b f) s s := by
  rw [Does, exec_freqWrite, writeFreq, if_neg (by simp; omega)]

theorem setTileVolt_of_held {n : Nat} {t : State} (h : t.hod.busFailed.contains 0 = true) : setTileVolt b n t = t := if_pos h

theorem setTileVolt_of_bus {n : Nat} {t : State} (h : t.hod.busFailed.contains 0 = false) :
    setTileVolt b n t = pmbusWrite b.val 0x21 (leBytes 2 (Config.vfVolt b.val n))
      { t with hod := { t.hod with vset := t.hod.vset.set b.val (Config.vfVolt b.val n) } } :=
  if_neg (by rw [voltsHeld, h]; decide)

/-- The tile clock of a brick runs at the frequency wanted (R290). -/
def clockSwitched (b : Brick) (s : State) : State := (s.wr (Reg.PWR_DVFS_FCUR b) (clockWanted s b)).wr (Reg.PWR_DVFS_CHG b) 0

theorem exec_tileClockSwitchDone_of_changing (h : s.isSet (Reg.PWR_DVFS_CHG b) = true) :
    exec (.tileClockSwitchDone b) s = .next (s.done (setTileVolt b (clockWanted s b) (clockSwitched b s))) := by
  simp only [exec_tileClockSwitchDone, execTileClockSwitchDone, h]
  rfl

theorem clockSwitched_hod : (clockSwitched b s).hod = s.hod := by rw [clockSwitched, State.wr_hod, State.wr_hod]

theorem does_tileClockSwitchDone_of_held (h : s.isSet (Reg.PWR_DVFS_CHG b) = true) (hbus : s.hod.busFailed.contains 0 = true) :
    Does (.tileClockSwitchDone b) s (clockSwitched b s) := by
  rw [Does, exec_tileClockSwitchDone_of_changing h, setTileVolt_of_held (by rw [clockSwitched_hod, hbus])]

theorem does_tileClockSwitchDone_of_bus (h : s.isSet (Reg.PWR_DVFS_CHG b) = true) (hbus : s.hod.busFailed.contains 0 = false) :
    Does (.tileClockSwitchDone b) s (pmbusWrite b.val 0x21 (leBytes 2 (Config.vfVolt b.val (clockWanted s b))) { clockSwitched b s with
      hod := { (clockSwitched b s).hod with vset := (clockSwitched b s).hod.vset.set b.val (Config.vfVolt b.val (clockWanted s b)) } }) := by
  rw [Does, exec_tileClockSwitchDone_of_changing h, setTileVolt_of_bus (by rw [clockSwitched_hod, hbus])]

end

/-- Settles O49: one part for each command, by what the domain and the clock are asked for. The model's choice are that a request is judged again as its
transition starts (log entry 156) and, for OFF, as it ends (212), that REQ of a refused one reads the current state again (235), that an uncore turned ON
outside the power-on sequence comes up as after a power cycle (233), and the form of VOUT_COMMAND's data (222). -/
theorem domainsAndClocks : Obligations.DomainsAndClocks := by
  intro s d b e
  refine ⟨fun v hrest hqueue hlock => ⟨?_, ?_⟩, fun k v rest hqueue hmay => ⟨?_, fun hwhy hcur => ⟨?_, ?_⟩⟩,
    fun v k slow held hmoves hrails => ⟨?_, fun hwhy hkind => ⟨?_, ?_⟩, ?_, fun hwhy st hkind hquiet => ?_⟩, fun hmoves hrails hstacks => ⟨?_, ?_⟩,
    fun f => does_freqWrite_of_range, fun f => does_freqWrite_of_outside, fun hchanging => ⟨?_, ?_⟩⟩
  · exact does_domainRequest_of_refused hrest hqueue hlock
  · exact does_domainRequest_of_allowed hrest hqueue hlock
  · exact does_domainTransitionStart_of_refused hqueue hmay
  · exact does_domainTransitionStart_of_allowed hqueue hmay hwhy hcur
  · exact leaves_domainTransitionStart_of_allowed hqueue hmay hwhy hcur
  · exact does_domainTransitionDone_of_refused hmoves hrails
  · exact does_domainTransitionDone_site hmoves hrails hwhy hkind
  · exact leaves_domainTransitionDone_site slow held e hmoves hrails hwhy hkind
  · exact fun hwhy hkind => does_domainTransitionDone_uncore hmoves hrails hwhy hkind
  · exact does_domainTransitionDone_stack hmoves hrails hwhy hkind hquiet
  · exact does_domainFault_of_moving e hmoves hrails hstacks
  · exact leaves_domainFault_of_moving e hmoves hrails hstacks
  · exact does_tileClockSwitchDone_of_held hchanging
  · exact does_tileClockSwitchDone_of_bus hchanging

end Sys2Proof.Machine
end

section
/-! PROOFS. Resets of the package and of a brick, supplies and reference clocks (R304, R305, R809, R813 to R823, R832, R880). -/
namespace Sys2Proof.Machine
open Sys2Proof

/-! ### The commands -/

theorem exec_coldReset (s : State) : exec .coldReset s = execColdReset s := rfl
theorem exec_coldResetRelease (s : State) : exec .coldResetRelease s = execColdResetRelease s := rfl
theorem exec_mainPowerLoss (s : State) : exec .mainPowerLoss s = execMainPowerLoss s := rfl
theorem exec_mainPwrgdTimeout (s : State) : exec .mainPwrgdTimeout s = execMainPwrgdTimeout s := rfl
theorem exec_breset (b : Brick) (s : State) : exec (.breset b) s = execBreset b s := rfl
theorem exec_brickWarmReset (b : Brick) (e : MemEnv) (s : State) : exec (.brickWarmReset b e) s = execBrickWarmReset b e s := rfl
theorem exec_brickPowerCycle (b : Brick) (s : State) : exec (.brickPowerCycle b) s = execBrickPowerCycle b s := rfl
theorem exec_referenceClockLoss (clk : Fin 3) (e : MemEnv) (s : State) : exec (.referenceClockLoss clk e) s = execReferenceClockLoss clk e s := rfl
theorem exec_referenceClockRestored (clk : Fin 3) (s : State) : exec (.referenceClockRestored clk) s = execReferenceClockRestored clk s := rfl

/-! ### Events of resets (R832) -/

/-- Where no write to a sealed field has been recorded, the record of a reset is its event alone. -/
theorem noteReset_of_unlogged {s : State} (args : List Nat) (h : s.sealLogged = []) : noteReset args s = s.raise 0x5102 args := by
  rw [noteReset, ← h]

theorem lastEvent_raise (s : State) (code : Nat) (args : List Nat) : lastEvent (s.raise code args) code args := by
  simp [lastEvent]

theorem lastEvent_done {s t : State} {code : Nat} {args : List Nat} (h : lastEvent t code args) : lastEvent (s.done t) code args := h

theorem lastEvent_noteReset (args : List Nat) (s : State) : lastEvent (noteReset args s) 0x5102 args := lastEvent_raise ..

/-! ### The package after a power-on or a cold reset -/

section
variable (s : State)

theorem sealLogged_coldState (keepPwr : Bool) : (coldState keepPwr s).sealLogged = [] := rfl

theorem sealed_coldState (keepPwr : Bool) : (coldState keepPwr s).sealed = false := rfl

theorem hod_setDomain (d v : Nat) : (setDomain d v s).hod = s.hod := control_hod (control_setDomain ..)

theorem hod_resetRegs (lo hi : Nat) : (resetRegs lo hi s).hod = s.hod := rfl

theorem hod_dropRequests (d : Nat) : (dropRequests d s).hod = s.hod := rfl

theorem hod_resetPkgBlock (blk : Nat) : (resetPkgBlock blk s).hod = s.hod := rfl

theorem hod_emptied (regs : Tab Word) (results : List Result) (power : PowerState) :
    ({ s with regs := regs, results := results, power := power } : State).hod = s.hod := rfl

theorem hod_unwatched (safety : SafetyState) (observe : ObservationState) : ({ s with safety := safety, observe := observe } : State).hod = s.hod := rfl

/-- The loss of every domain leaves Hod as it is (R815). -/
theorem hod_loseDomains : (loseDomains s).hod = s.hod := by
  refine (hod_unwatched ..).trans ((hod_resetPkgBlock ..).trans ((hod_resetPkgBlock ..).trans ((hod_resetPkgBlock ..).trans ((hod_emptied ..).trans ?_))))
  refine (State.wr_hod ..).trans ((State.wr_hod ..).trans ?_)
  refine (State.each_view (fun s d => (hod_setDomain _ d 0).trans (hod_dropRequests s d)) _ _).trans ?_
  refine (State.each_view (fun s st => ?_) _ _).trans ?_
  · exact (hod_resetRegs ..).trans ((hod_resetRegs ..).trans ((hod_resetRegs ..).trans ((hod_resetRegs ..).trans (hod_resetRegs ..))))
  refine (State.each_view (fun s t => control_hod (control_tileLost s t)) _ _).trans ?_
  refine (State.each_view (fun s b => control_hod (control_resetUncore s b)) _ _).trans ?_
  exact State.each_view (fun s st => control_hod (control_stackLost s st)) _ _

theorem hod_showFuses : (showFuses s).hod = s.hod := (State.wr_hod ..).trans (State.wr_hod ..)

theorem hod_coldState (keepPwr : Bool) : (coldState keepPwr s).hod = hodReset s.hod := by
  rw [coldState, hod_showFuses, hod_loseDomains]

end

/-- The state whose clock and plumb counter begin again. -/
def clocksZeroed (s : State) : State := { s with now := 0, plumb := 0 }

theorem clocksZeroed_sealLogged (s : State) : (clocksZeroed s).sealLogged = s.sealLogged := rfl
theorem clocksZeroed_sealed (s : State) : (clocksZeroed s).sealed = s.sealed := rfl
theorem clocksZeroed_hod (s : State) : (clocksZeroed s).hod = s.hod := rfl
theorem clocksZeroed_now (s : State) : (clocksZeroed s).now = 0 := rfl
theorem clocksZeroed_plumb (s : State) : (clocksZeroed s).plumb = 0 := rfl

/-- The always-on supply has come up (R832): the package after a reset of everything. -/
def poweredOn (s : State) : State := clocksZeroed (coldState false s)

theorem exec_powerOn_none (s : State) : exec (.powerOn none) s = .next (s.done (noteReset [kindPowerOn, 0] (poweredOn s))) := rfl

theorem noteReset_poweredOn (args : List Nat) (s : State) : noteReset args (poweredOn s) = (poweredOn s).raise 0x5102 args :=
  noteReset_of_unlogged args (by rw [poweredOn, clocksZeroed_sealLogged, sealLogged_coldState])

theorem does_powerOn_kept (s : State) : Does (.powerOn none) s ((poweredOn s).raise 0x5102 [kindPowerOn, 0]) := by
  rw [Does, exec_powerOn_none, noteReset_poweredOn]

/-- What the fuses and the NOR hold as a package is made (R305, R811). -/
def factoryHod (f : Factory) : HodState :=
  { fuses := f.fuses, boot := f.boot, bankA := f.bankA, bankB := f.bankB, sheet := f.sheet, incarnation := f.incarnation.toNat, retire := f.retire,
    spare := f.spare, swap := f.swap, norLog := f.log.foldl (fun t (x : Nat × Bytes) => tabPut t (x.1 % 524288) x.2) [] }

/-- A package with them, and with the repairs that its stacks came with (R398). -/
def factoryLoaded (f : Factory) (s : State) : State :=
  { s with hod := factoryHod f }.each (List.finRange 8) (fun s st => s.onStack st (fun S => { S with
    repairs := (f.repairs.filter (fun (r : Nat × Nat × Nat) => r.1 = st.val)).map (fun (r : Nat × Nat × Nat) => (r.2.1, r.2.2)) }))

theorem exec_powerOn_some (f : Factory) (s : State) :
    exec (.powerOn (some f)) s = .next (s.done (noteReset [kindPowerOn, 0] (poweredOn (factoryLoaded f s)))) := rfl

theorem hod_factoryLoaded (f : Factory) (s : State) : (factoryLoaded f s).hod = factoryHod f :=
  State.each_view (V := State.hod) (fun s st => control_hod (control_onStack s st _)) _ _

theorem leaves_powerOn_some (f : Factory) (s : State) : Leaves (.powerOn (some f)) s (fun u => u.hod.sheet = f.sheet ∧ u.hod.bankA = f.bankA ∧
    u.hod.bankB = f.bankB ∧ u.hod.fuses = f.fuses ∧ u.hod.boot = f.boot ∧ u.hod.running = false ∧ u.now = 0 ∧ u.plumb = 0 ∧ u.sealed = false ∧
    lastEvent u 0x5102 [kindPowerOn, 0]) := by
  refine ⟨_, exec_powerOn_some f s, ?_⟩
  have hhod : (poweredOn (factoryLoaded f s)).hod = hodReset (factoryHod f) := by
    rw [poweredOn, clocksZeroed_hod, hod_coldState, hod_factoryLoaded]
  beta_reduce
  rw [noteReset_poweredOn, State.done_hod, State.raise_hod, hhod, State.done_now, State.raise_now, State.done_plumb, State.raise_plumb,
    State.done_sealed, State.raise_sealed, poweredOn, clocksZeroed_now, clocksZeroed_plumb, clocksZeroed_sealed, sealed_coldState]
  exact ⟨rfl, rfl, rfl, rfl, rfl, rfl, rfl, rfl, rfl, lastEvent_done (lastEvent_raise ..)⟩

section
variable {s : State} (hhigh : s.start.rstLow = false)
include hhigh

theorem does_coldReset_of_unaligned (h : s.isSet Reg.PLB_STAT_ALIGNED = false) :
    Does .coldReset s ((coldState true (lowerRails s)).raise 0x5102 [kindCold, 0]) := by
  rw [Does, exec_coldReset, execColdReset, hhigh, h, ← noteReset_of_unlogged _ (sealLogged_coldState _ true)]
  rfl

theorem does_coldReset_of_aligned (h : s.isSet Reg.PLB_STAT_ALIGNED = true) :
    Does .coldReset s (((coldState true (lowerRails s)).raise 0x7004 [3]).raise 0x5102 [kindCold, 0]) := by
  have hlogged : ((coldState true (lowerRails s)).raise 0x7004 [3]).sealLogged = [] := by rw [State.raise_sealLogged, sealLogged_coldState]
  rw [Does, exec_coldReset, execColdReset, hhigh, h, ← noteReset_of_unlogged _ hlogged]
  rfl

end

theorem does_coldResetRelease_of_low {s : State} (haon : s.start.aon = true) (hlow : s.start.rstLow = true) : Does .coldResetRelease s
    (((({ s with start := { s.start with rstLow := false, releasedAt := s.now, phase := 1 } }).wr Reg.PWR_STAT_AONLOCK 1).wr
      Reg.PWR_STAT_HREFOK 1).wr Reg.PWR_STAT_MREFOK 1) := by
  simp only [Does, exec_coldResetRelease, execColdResetRelease, haon, hlow]
  rfl

/-! ### Main power -/

theorem leaves_mainPowerLoss_of_good {s : State} (hgood : s.start.mainGood = true) :
    Leaves .mainPowerLoss s (fun t => lastEvent t 0x5102 [kindMainLoss, 0] ∧ t.start.mainGood = false ∧ t.start.mainLost = true) := by
  simp only [Leaves, exec_mainPowerLoss, execMainPowerLoss, hgood]
  exact ⟨_, rfl, lastEvent_noteReset .., rfl, rfl⟩

section
variable (bad : BitVec 8) (s : State)

theorem does_mainPwrgdRise : Does (.mainPwrgdRise bad) s (startSequence bad { s with start := { s.start with mainGood := true } }) := rfl

theorem leaves_mainPwrgdRise : Leaves (.mainPwrgdRise bad) s (fun u => u.start.mainGood = true) := by
  refine ⟨_, does_mainPwrgdRise bad s, ?_⟩
  beta_reduce
  rw [State.done_start, (startSequence_keeps _ bad).2]

end

theorem does_mainPwrgdTimeout_of_awaited {s : State} (hphase : s.start.phase = 2) (hlost : s.start.mainGood = false) :
    Does .mainPwrgdTimeout s (s.raise 0x5103 [7, 0]) := by
  simp only [Does, exec_mainPwrgdTimeout, execMainPwrgdTimeout, hphase, hlost]
  rfl

theorem does_perstDeassert (s : State) : Does .perstDeassert s { s with host := { s.host with perst := false } } := rfl

/-! ### Resets of a brick -/

section
variable {s : State} {b : Brick}

theorem does_breset_of_new (h : s.safety.resets.contains b.val = false) :
    Does (.breset b) s { s with safety := { s.safety with resets := s.safety.resets ++ [b.val] } } := by
  simp only [Does, exec_breset, execBreset, h]
  rfl

section
variable (e : MemEnv) {rest : List Nat} (hasked : s.safety.resets.filter (fun x => uncoreOn s (brickOf x)) = b.val :: rest) (hacts : hodActs s = true)
  (hsafe : s.isSet Reg.SAF_STAT_PSAFE = false)
include hasked hacts hsafe

theorem does_brickWarmReset_of_asked :
    Does (.brickWarmReset b e) s (warmReset b 0 e (memReports e { s with safety := { s.safety with resets := rest } })) := by
  have hfirst : ¬ ((b.val :: rest).headD 4 ≠ b.val || !hodActs s || s.isSet Reg.SAF_STAT_PSAFE) = true := by simp [hacts, hsafe]
  rw [Does, exec_brickWarmReset, execBrickWarmReset, hasked]
  simp only [if_neg hfirst]
  rfl

theorem leaves_brickWarmReset_of_asked : Leaves (.brickWarmReset b e) s (fun u => lastEvent u 0x5102 [kindWarm, 0, b.val]) :=
  ⟨_, does_brickWarmReset_of_asked e hasked hacts hsafe, lastEvent_noteReset ..⟩

end

theorem uncoreUp_of_cycle {u : State} (h : u.start.phase ≠ 3) : uncoreUp b u = noteReset [kindCycle, 0, b.val] (uncoreArrives b u) := if_neg h

theorem does_brickPowerCycle_of_rising (hmoves : s.power.moving.contains (132 + b.val, 3) = true) (hphase : s.start.phase ≠ 3)
    (hrails : railsUp s (132 + b.val) = true) :
    Does (.brickPowerCycle b) s (noteReset [kindCycle, 0, b.val] (uncoreArrives b (transitionOver (132 + b.val) s))) := by
  have hgoes : ¬ (!s.power.moving.contains (132 + b.val, 3) || decide (s.start.phase = 3) || !railsUp s (132 + b.val)) = true := by
    rw [hmoves, hrails, decide_eq_false hphase]
    decide
  rw [Does, exec_brickPowerCycle, execBrickPowerCycle]
  simp only [if_neg hgoes]
  exact congrArg (fun t => Host.Outcome.next (s.done t)) (uncoreUp_of_cycle hphase)

end

/-! ### Reference clocks -/

section
variable {s : State} (e : MemEnv)

theorem does_referenceClockLoss_mref (h : s.isSet Reg.PWR_STAT_MREFOK = true) : Does (.referenceClockLoss 0 e) s
    ((slowClocks (portsLose ((((memReports e s).wr Reg.PWR_STAT_MREFOK 0).flag Reg.PWR_ERR_CLKLOSS).wr Reg.PWR_STAT_TPLL 0))).raise 0x5052 [0]) := by
  simp only [Does, exec_referenceClockLoss, execReferenceClockLoss, if_pos, h]
  rfl

theorem does_referenceClockLoss_href (h : s.isSet Reg.PWR_STAT_HREFOK = true) : Does (.referenceClockLoss 1 e) s
    ((hostLoss 2 e (((memReports e s).wr Reg.PWR_STAT_HREFOK 0).flag Reg.PWR_ERR_CLKLOSS)).raise 0x5052 [1]) := by
  have hclk : (1 : Fin 3) ≠ 0 := by decide
  simp only [Does, exec_referenceClockLoss, execReferenceClockLoss, if_neg hclk, if_pos, h]
  rfl

theorem does_referenceClockLoss_aon (h : s.isSet Reg.PWR_STAT_AONLOCK = true) : Does (.referenceClockLoss 2 e) s
    ((loseAlignment 2 (enterPackageSafe 1 e (((memReports e s).wr Reg.PWR_STAT_AONLOCK 0).flag Reg.PWR_ERR_CLKLOSS))).raise 0x5052 [2]) := by
  have hmref : (2 : Fin 3) ≠ 0 := by decide
  have hhref : (2 : Fin 3) ≠ 1 := by decide
  simp only [Does, exec_referenceClockLoss, execReferenceClockLoss, if_neg hmref, if_neg hhref, h]
  rfl

end

section
variable {s : State} (haon : s.start.aon = true) (hhigh : s.start.rstLow = false)
include haon hhigh

/-- MREF is back: the PLLs of the uncores that are ON lock, and the ports that went down for want of it train (R809). -/
theorem does_referenceClockRestored_mref (hlost : s.isSet Reg.PWR_STAT_MREFOK = false) :
    let t := s.wr Reg.PWR_STAT_MREFOK 1
    Does (.referenceClockRestored 0) s (((t.wr Reg.PWR_STAT_TPLL (t.rd Reg.PWR_STAT_UNCON)).each (List.finRange 24) (fun s p =>
      if s.portState p = 9 && !(s.link (.port p)).training.failed then startTraining p (s.isSet (Reg.MRT_PCTL_FASTOK p)) s else s)).raise 0x5053 [0]) := by
  simp only [Does, exec_referenceClockRestored, execReferenceClockRestored, if_pos, haon, hhigh, hlost]
  rfl

theorem does_referenceClockRestored_href : Does (.referenceClockRestored 1) s (s.wr Reg.PWR_STAT_HREFOK 1) := by
  have hclk : (1 : Fin 3) ≠ 0 := by decide
  simp only [Does, exec_referenceClockRestored, execReferenceClockRestored, if_neg hclk, if_pos, haon, hhigh]
  rfl

end

/-- Settles O50: one part for each reset, supply and clock. The model's choice are the numbers of the reset kinds in event 0x5102 (log entry 60), of the
step in 0x5103 (63), of the reasons in 0x7004 (79) and of the package's safe state (61), what a loss of MREF and its return do to the ports and the tile
clocks (175), and that a loss of HREF is a host loss with reason 2 at once (176). -/
theorem resetsAndSupplies : Obligations.ResetsAndSupplies := fun s _ e =>
  ⟨does_powerOn_kept s, fun f => leaves_powerOn_some f s, does_coldReset_of_unaligned, does_coldReset_of_aligned, does_coldResetRelease_of_low,
    leaves_mainPowerLoss_of_good, fun bad => ⟨does_mainPwrgdRise bad s, leaves_mainPwrgdRise bad s⟩, does_mainPwrgdTimeout_of_awaited,
    does_perstDeassert s, does_breset_of_new,
    fun _ hasked hacts hsafe => ⟨does_brickWarmReset_of_asked e hasked hacts hsafe, leaves_brickWarmReset_of_asked e hasked hacts hsafe⟩,
    does_brickPowerCycle_of_rising, does_referenceClockLoss_mref e, does_referenceClockLoss_href e, does_referenceClockLoss_aon e,
    fun hlost haon hhigh => does_referenceClockRestored_mref haon hhigh hlost, does_referenceClockRestored_href⟩

end Sys2Proof.Machine
end

section
/-! PROOFS. What the controller of a stack leaves of its fold buffer, and merges and evictions (R323, R337, R343, R359). -/
namespace Sys2Proof.Machine
open Sys2Proof

/-! ### Stacks -/

theorem stackBrick_stackOf (b : Brick) {k : Nat} (hk : k < 2) : stackBrick (stackOf (2 * b.val + k)) = b := by
  apply Fin.ext
  simp only [stackBrick, stackOf]
  omega

theorem State.onStack_stack_same (s : State) (st : Stack) (f : StackState → StackState) : (s.onStack st f).stack st = f (s.stack st) := by
  simp [State.onStack, State.stack]

/-! ### The fold buffer of a stack -/

/-- The entries of a stack's fold buffer, oldest first (R337). -/
def State.folds (s : State) (st : Stack) : List FoldEntry := (s.stack st).fold

theorem foldEntryOf_eq (s : State) (st : Stack) (sector : Nat) : foldEntryOf s st sector = (s.folds st).find? (fun x => x.sector = sector) := rfl

section
variable (s : State) (st : Stack)

theorem folds_congr {s u : State} (h : u.hbm = s.hbm) : u.folds st = s.folds st := by rw [State.folds, State.stack, h, State.folds, State.stack]

theorem folds_wr (f : FieldRef) (v : Nat) : (s.wr f v).folds st = s.folds st := folds_congr st (State.wr_hbm ..)
theorem folds_flag (f : FieldRef) : (s.flag f).folds st = s.folds st := folds_congr st (State.flag_hbm ..)
theorem folds_flagBits (f : FieldRef) (m : Nat) : (s.flagBits f m).folds st = s.folds st := folds_wr ..
theorem folds_count (f : FieldRef) (n : Nat) : (s.count f n).folds st = s.folds st := folds_congr st (State.count_hbm ..)
theorem folds_raise (code : Nat) (args : List Nat) : (s.raise code args).folds st = s.folds st := folds_congr st (State.raise_hbm ..)
theorem folds_store (a : Nat) (bs : Bytes) : (s.store a bs).folds st = s.folds st := folds_congr st (State.store_hbm ..)
theorem folds_putSlot (j : Nat) (slot : List Nat) : (putSlot s st j slot).folds st = s.folds st := folds_store ..

theorem folds_onStack {f : StackState → StackState} (hf : ∀ S, (f S).fold = S.fold := by exact fun _ => rfl) :
    (s.onStack st f).folds st = s.folds st := by rw [State.folds, State.onStack_stack_same, hf, State.folds]

theorem folds_setDegraded (l : List Nat) : (setDegraded st l s).folds st = s.folds st := (folds_wr ..).trans (folds_onStack s st)

theorem folds_deltaWrite (j o : Nat) (bs base : Bytes) (slot : List Nat) : (deltaWrite s st j o bs base slot).folds st = s.folds st := by
  simp only [deltaWrite, apply_ite (State.folds · st), folds_putSlot, folds_store, ite_self]

theorem folds_setPoison (j : Nat) (v : Bool) : (setPoison s st j v).folds st = s.folds st := by
  rw [setPoison, rawWrite, folds_deltaWrite]

theorem folds_poisonPage (j cause : Nat) : (poisonPage st j cause s).folds st = s.folds st := by
  simp only [poisonPage, folds_raise, folds_flag, apply_ite (State.folds · st), folds_count, folds_setPoison, ite_self]

theorem folds_wearSpare (j : Nat) : (wearSpare st j s).folds st = s.folds st := by
  simp only [wearSpare, apply_ite (State.folds · st), folds_raise, folds_flagBits, ite_self]

theorem folds_noteDecode (p trigger : Nat) (d : PageDecode) : (noteDecode st p trigger d s).folds st = s.folds st := by
  cases h : d.cls with
  | clean | uncorrectable => simp only [noteDecode, h]
  | corrected | checkOnly =>
    simp only [noteDecode, h]
    split
    · rw [folds_raise, folds_onStack, folds_flag, folds_count]
    · rw [folds_flag, folds_count]

theorem folds_writeBackPage (p j : Nat) (d : PageDecode) : (writeBackPage st p j d s).folds st = s.folds st := by
  rw [writeBackPage, folds_setDegraded, folds_putSlot, folds_store]

theorem folds_decodeOutcome (p j trigger : Nat) (d : PageDecode) : (decodeOutcome st p j trigger d s).folds st = s.folds st := by
  cases h : d.cls with
  | clean => simp only [decodeOutcome, h]
  | uncorrectable => simp only [decodeOutcome, h, apply_ite (State.folds · st), folds_wearSpare, folds_poisonPage, ite_self]
  | corrected | checkOnly =>
    simp only [decodeOutcome, h, apply_ite (State.folds · st), folds_writeBackPage, folds_setDegraded, folds_raise, folds_flag, folds_noteDecode,
      ite_self]

theorem folds_checkMapPage (p : Nat) (e : MemEnv) : (checkMapPage st p e s).folds st = s.folds st := by
  simp only [checkMapPage, apply_ite (State.folds · st), folds_raise, folds_flag, folds_putSlot, folds_store, folds_decodeOutcome, ite_self]

/-- A write of a stack's controller puts nothing into its fold buffer and takes nothing out. -/
theorem folds_partialUpdate (o n : Nat) (f : Bytes → Bytes) (e : MemEnv) : (partialUpdate st o n f e s).2.folds st = s.folds st := by
  simp only [partialUpdate, apply_ite Prod.snd, apply_ite (State.folds · st), folds_raise, folds_flag, folds_count, folds_deltaWrite,
    folds_decodeOutcome, folds_checkMapPage, ite_self]

/-! ### Merges (R337, R343) -/

/-- A merge takes its entry out of the fold buffer. -/
theorem folds_mergeEntry (x : FoldEntry) (e : MemEnv) : (mergeEntry st x e s).folds st = (s.folds st).erase x := by
  have herase : (s.onStack st (fun S => { S with fold := S.fold.erase x })).folds st = (s.folds st).erase x := by
    rw [State.folds, State.onStack_stack_same, State.folds]
  simp only [mergeEntry, apply_ite (State.folds · st), folds_raise, folds_flag, folds_partialUpdate, folds_count, herase, ite_self]

end

/-- What is left of a list once every element of a kind has been taken out, one by one. -/
theorem foldl_erase_filter {α : Type} [DecidableEq α] (p : α → Bool) (l : List α) : (l.filter p).foldl List.erase l = l.filter (fun x => !p x) := by
  rw [← List.diff_eq_foldl]
  induction l with
  | nil => rfl
  | cons a l ih =>
    cases ha : p a with
    | true => simp [ha, ih]
    | false => rw [List.filter_cons_of_neg (by simp [ha]), List.cons_diff_of_not_mem (by simp [ha]), ih, List.filter_cons_of_pos (by simp [ha])]

section
variable (s : State) (st : Stack) (lo hi : Nat) (e : MemEnv)

theorem folds_each_mergeEntry (xs : List FoldEntry) : (s.each xs (fun s x => mergeEntry st x e s)).folds st = xs.foldl List.erase (s.folds st) := by
  induction xs generalizing s with
  | nil => rfl
  | cons x xs ih => rw [State.each, List.foldl_cons, ← State.each, ih, folds_mergeEntry, List.foldl_cons]

/-- The merge of a range of sectors leaves the entries of the others, in their order. -/
theorem folds_mergeRange :
    (mergeRange st lo hi e s).folds st = (s.folds st).filter (fun x => !decide (lo ≤ x.sector ∧ x.sector < hi)) := by
  rw [mergeRange, folds_each_mergeEntry]
  exact foldl_erase_filter _ _

theorem foldEntryOf_mergeRange_inside {k : Nat} (hlo : lo ≤ k) (hhi : k < hi) : foldEntryOf (mergeRange st lo hi e s) st k = none := by
  rw [foldEntryOf_eq, folds_mergeRange, List.find?_filter, List.find?_eq_none]
  rintro x - hx
  simp only [Bool.not_eq_true', decide_eq_false_iff_not, decide_eq_true_eq] at hx
  omega

theorem foldEntryOf_mergeRange_outside {k : Nat} (hk : k < lo ∨ hi ≤ k) : foldEntryOf (mergeRange st lo hi e s) st k = foldEntryOf s st k := by
  rw [foldEntryOf_eq, folds_mergeRange, List.find?_filter, foldEntryOf_eq]
  congr 1
  funext x
  simp only [Bool.not_eq_true', decide_eq_false_iff_not, decide_eq_true_eq, decide_eq_decide]
  omega

end

end Sys2Proof.Machine
end

section
/-! PROOFS. Reads of a stack, evictions of its bed cache and of its fold buffer, and fold-mode changes (R316, R317, R320, R323, R337, R345 to R348,
R359). -/
namespace Sys2Proof.Machine
open Sys2Proof

theorem exec_groutRead (st : Stack) (off : BitVec 44) (n : Fin 33) (tag : Nat) (e : MemEnv) (s : State) :
    exec (.groutRead st off n tag e) s = execGroutRead st off n tag e s := rfl
theorem exec_granuleChangeDone (st : Stack) (e : MemEnv) (s : State) : exec (.granuleChangeDone st e) s = execGranuleChangeDone st e s := rfl

/-! ### Grout reads (R316, R317, R320) -/

section
variable {st : Stack} {e : MemEnv} {s : State} {off n tag : Nat}

/-- A unit's read that its stack serves is answered with what its home gives it. -/
theorem serveGrout_unit_of_inside (hon : stackOn s st = true) (hin : off + n ≤ winTop s st * 4096) (hok : (homeLoad st off n e s).1.1 ≠ 0x01) :
    serveGrout st e s (groutRead s st off n (.unit tag)) =
      (homeLoad st off n e s).2.emit (.outcome tag 0 (homeLoad st off n e s).1.1 (homeLoad st off n e s).1.2) := by
  simp [serveGrout, groutRead, hon, Nat.not_lt.mpr hin, hok]

/-- A unit's read of a stack that is not ON is rejected. -/
theorem serveGrout_unit_of_off (hoff : stackOn s st = false) :
    serveGrout st e s (groutRead s st off n (.unit tag)) = s.emit (.outcome tag 1 0x01 []) := by
  simp only [serveGrout, groutRead, hoff]
  rfl

/-- A read that the intake and its queue have room for waits in its pseudo-channel's queue. -/
theorem groutEnter_of_room {x : GroutRead} (hin : (s.stack st).groutIn = [])
    (hroom : ((s.stack st).groutQ.filter (fun z => z.pc = x.pc)).length < groutDepth) :
    groutEnter st x s = s.onStack st (fun S => { S with groutQ := S.groutQ ++ [x] }) := by
  rw [State.stack] at hin hroom
  simp only [groutEnter, State.onStack, hin, List.nil_append, List.foldl_cons, List.foldl_nil, if_pos hroom]

end

section
variable {st : Stack} {off : BitVec 44} {n : Fin 33} (hn : 0 < n.val) {tag : Nat} {e : MemEnv} {s : State}
include hn

/-- A read that nothing holds is performed. -/
theorem does_groutRead_of_free (hfree : groutHeld (memReports e s) st (groutRead (memReports e s) st off.toNat n.val (.unit tag)) = false) :
    Does (.groutRead st off n tag e) s (serveGrout st e (memReports e s) (groutRead (memReports e s) st off.toNat n.val (.unit tag))) := by
  have hperformed : (decide (n.val = 0) || !false) = true := Bool.or_true _
  simp only [Does, exec_groutRead, execGroutRead, hfree, if_pos hperformed, if_neg hn.ne']
  rfl

theorem does_groutRead_of_inside (hon : stackOn (memReports e s) st = true) (hfree : homeHeld (memReports e s) st off.toNat 0x01 n.val = false)
    (hin : off.toNat + n.val ≤ winTop (memReports e s) st * 4096) (hok : (homeLoad st off.toNat n.val e (memReports e s)).1.1 ≠ 0x01) :
    Does (.groutRead st off n tag e) s ((homeLoad st off.toNat n.val e (memReports e s)).2.emit
      (.outcome tag 0 (homeLoad st off.toNat n.val e (memReports e s)).1.1 (homeLoad st off.toNat n.val e (memReports e s)).1.2)) := by
  rw [← serveGrout_unit_of_inside hon hin hok]
  exact does_groutRead_of_free hn (Bool.and_eq_false_imp.mpr fun _ => hfree)

theorem does_groutRead_of_off (hoff : stackOn (memReports e s) st = false) :
    Does (.groutRead st off n tag e) s ((memReports e s).emit (.outcome tag 1 0x01 [])) := by
  rw [← serveGrout_unit_of_off hoff]
  exact does_groutRead_of_free hn (by rw [groutHeld, hoff, Bool.false_and])

/-- A read that its home holds enters the grout path, where the intake has room and its granule is not the one that changes. -/
theorem does_groutRead_of_held (hheld : groutHeld (memReports e s) st (groutRead (memReports e s) st off.toNat n.val (.unit tag)) = true)
    (hchange : changeHeld (memReports e s) st off.toNat = false) (hroom : groutRoom (memReports e s) st = true) :
    Does (.groutRead st off n tag e) s (groutEnter st (groutRead (memReports e s) st off.toNat n.val (.unit tag)) (memReports e s)) := by
  have hwaits : ¬ (decide (n.val = 0) || !true) = true := by simp [hn.ne']
  simp only [Does, exec_groutRead, execGroutRead, hheld, hchange, hroom, if_neg hwaits]
  rfl

theorem does_groutRead_of_room (hon : stackOn (memReports e s) st = true) (hheld : homeHeld (memReports e s) st off.toNat 0x01 n.val = true)
    (hchange : changeHeld (memReports e s) st off.toNat = false) (hin : ((memReports e s).stack st).groutIn = [])
    (hroom : (((memReports e s).stack st).groutQ.filter (fun z =>
      z.pc = (groutRead (memReports e s) st off.toNat n.val (.unit tag)).pc)).length < groutDepth) :
    Does (.groutRead st off n tag e) s ((memReports e s).onStack st (fun S =>
      { S with groutQ := S.groutQ ++ [groutRead (memReports e s) st off.toNat n.val (.unit tag)] })) := by
  rw [← groutEnter_of_room hin hroom]
  exact does_groutRead_of_held hn (Bool.and_eq_true_iff.mpr ⟨hon, hheld⟩) hchange (by rw [groutRoom, hin]; decide)

end

/-! ### Evictions and merges (R323, R337, R359) -/

/-- A line that was evicted is in the bed cache no more. -/
theorem tabFind_bed_evictHome (k : Nat) (e : MemEnv) (s : State) :
    tabFind ((evictHome k e s).brick (stackBrick (keyStack k))).bed k = none := by
  cases h : tabFind (s.brick (stackBrick (keyStack k))).bed k with
  | none => simp only [evictHome, h]
  | some l => simp only [evictHome, h, State.onBrick_brick_same, tabFind_tabErase_same]

theorem keyStack_bedKey (st : Stack) (off : Nat) : keyStack (bedKey st (off % 2 ^ 36)) = st := by
  apply Fin.ext
  simp only [keyStack, bedKey, stackOf]
  omega

theorem does_bedLineEvict (st : Stack) (off : BitVec 44) (e : MemEnv) (s : State) :
    Does (.bedLineEvict st off e) s (evictHome (bedKey st (off.toNat % 2 ^ 36)) e (memReports e s)) := rfl

theorem leaves_bedLineEvict (st : Stack) (off : BitVec 44) (e : MemEnv) (s : State) :
    Leaves (.bedLineEvict st off e) s (fun u => tabFind (u.brick (stackBrick st)).bed (bedKey st (off.toNat % 2 ^ 36)) = none) := by
  refine ⟨_, does_bedLineEvict st off e s, ?_⟩
  have hgone := tabFind_bed_evictHome (bedKey st (off.toNat % 2 ^ 36)) e (memReports e s)
  rwa [keyStack_bedKey] at hgone

theorem does_foldEntryEvict (st : Stack) (sector : BitVec 30) (e : MemEnv) (s : State) :
    Does (.foldEntryEvict st sector e) s (mergeRange st sector.toNat (sector.toNat + 1) e (memReports e s)) := rfl

theorem leaves_foldEntryEvict (st : Stack) (sector : BitVec 30) (e : MemEnv) (s : State) :
    Leaves (.foldEntryEvict st sector e) s (fun u => foldEntryOf u st sector.toNat = none ∧
      ∀ k, k ≠ sector.toNat → foldEntryOf u st k = foldEntryOf (memReports e s) st k) :=
  ⟨_, does_foldEntryEvict st sector e s, foldEntryOf_mergeRange_inside _ st _ _ e le_rfl (Nat.lt_succ_self _),
    fun k hk => foldEntryOf_mergeRange_outside _ st _ _ e (by omega)⟩

theorem does_drain0 (b : Brick) (e : MemEnv) (s : State) : Does (.drain0 b e) s (drainFolds (stackOf (2 * b.val)) e (memReports e s)) := rfl
theorem does_drain1 (b : Brick) (e : MemEnv) (s : State) : Does (.drain1 b e) s (drainFolds (stackOf (2 * b.val + 1)) e (memReports e s)) := rfl

/-- A stack that was drained holds no fold of a sector of its own. -/
theorem foldEntryOf_drainFolds (st : Stack) (e : MemEnv) (s : State) {k : Nat} (hk : k < 2 ^ 30) : foldEntryOf (drainFolds st e s) st k = none :=
  foldEntryOf_mergeRange_inside s st 0 (2 ^ 40) e (Nat.zero_le k) (by omega)

/-- A command that drains a stack leaves no fold in it. -/
theorem leaves_no_folds {i : Instr} {s t : State} {st : Stack} {e : MemEnv} (h : Does i s (drainFolds st e t)) :
    Leaves i s (fun u => ∀ k, k < 2 ^ 30 → foldEntryOf u st k = none) := ⟨_, h, fun _ hk => foldEntryOf_drainFolds st e t hk⟩

/-! ### Fold-mode changes (R345 to R348) -/

section
variable {st : Stack} {mode : Bool} {first count : Nat} {s : State}

theorem startFoldChange_of_busy (hbusy : s.isSet (Reg.FOLD_CHGST_BUSY (stackBrick st)) = true) :
    startFoldChange st mode first count s = s.flag (Reg.FOLD_ERR_CHGREF (stackBrick st)) := by
  simp only [startFoldChange, hbusy, Bool.true_or, if_true]

theorem startFoldChange_of_free (hbusy : s.isSet (Reg.FOLD_CHGST_BUSY (stackBrick st)) = false) (hon : stackOn s st = true) (hcount : count ≠ 0)
    (hfit : first + count ≤ ceilDiv (winTop s st * 4096) granuleSize) :
    startFoldChange st mode first count s =
      ((s.onStack st (fun S => { S with change := some (first, first + count, mode), changeFrom := first })).wr
        (Reg.FOLD_CHGST_BUSY (stackBrick st)) 1).wr (Reg.FOLD_CHGST_NEXT (stackBrick st)) first := by
  have hstarts : ¬ (s.isSet (Reg.FOLD_CHGST_BUSY (stackBrick st)) || !stackOn s st || decide (count = 0) ||
      decide (ceilDiv (winTop s st * 4096) granuleSize < first + count)) = true := by simp [hbusy, hon, hcount, hfit]
  simp only [startFoldChange, if_neg hstarts]

end

section
variable {b : Brick} {v : Word} {s : State}

theorem does_foldChg (b : Brick) (v : Word) (s : State) : Does (.foldChg b v) s
    (startFoldChange (stackOf (2 * b.val + bitsOf v.toNat 49 49)) (bitOf v.toNat 48) (bitsOf v.toNat 14 0) (bitsOf v.toNat 47 32) s) := rfl

/-- The stack that a write to FOLD_CHG names is one of the brick's. -/
theorem stackBrick_foldChg (b : Brick) (v : Word) : stackBrick (stackOf (2 * b.val + bitsOf v.toNat 49 49)) = b :=
  stackBrick_stackOf b (bitsOf_lt v.toNat 49 49)

theorem does_foldChg_of_busy (hbusy : s.isSet (Reg.FOLD_CHGST_BUSY b) = true) : Does (.foldChg b v) s (s.flag (Reg.FOLD_ERR_CHGREF b)) := by
  have h := does_foldChg b v s
  rwa [startFoldChange_of_busy (by rwa [stackBrick_foldChg]), stackBrick_foldChg] at h

theorem does_foldChg_of_free (hbusy : s.isSet (Reg.FOLD_CHGST_BUSY b) = false)
    (hon : stackOn s (stackOf (2 * b.val + bitsOf v.toNat 49 49)) = true) (hcount : bitsOf v.toNat 47 32 ≠ 0)
    (hfit : bitsOf v.toNat 14 0 + bitsOf v.toNat 47 32 ≤ ceilDiv (winTop s (stackOf (2 * b.val + bitsOf v.toNat 49 49)) * 4096) granuleSize) :
    Does (.foldChg b v) s (((s.onStack (stackOf (2 * b.val + bitsOf v.toNat 49 49)) (fun S =>
      { S with change := some (bitsOf v.toNat 14 0, bitsOf v.toNat 14 0 + bitsOf v.toNat 47 32, bitOf v.toNat 48),
               changeFrom := bitsOf v.toNat 14 0 })).wr (Reg.FOLD_CHGST_BUSY b) 1).wr (Reg.FOLD_CHGST_NEXT b) (bitsOf v.toNat 14 0)) := by
  have h := does_foldChg b v s
  rwa [startFoldChange_of_free (by rwa [stackBrick_foldChg]) hon hcount hfit, stackBrick_foldChg] at h

end

/-- A granule of a FOLD_CHG has changed, and NEXT names the one after it (R345). -/
def granuleChanged (st : Stack) (g : Nat) (mode : Bool) (e : MemEnv) (s : State) : State :=
  (changeGranule st g mode e (memReports e s)).wr (Reg.FOLD_CHGST_NEXT (stackBrick st)) (g + 1)

section
variable {st : Stack} {g last : Nat} {mode : Bool} {s : State} (e : MemEnv) (hchange : (s.stack st).change = some (g, last, mode))
  (hphy : (s.stack st).phyLost = false)
include hchange hphy

theorem does_granuleChangeDone_of_more (hmore : g + 1 < last) : Does (.granuleChangeDone st e) s (retryHeld (stackBrick st) e
    ((granuleChanged st g mode e s).onStack st (fun S => { S with change := some (g + 1, last, mode) }))) := by
  simp only [Does, exec_granuleChangeDone, execGranuleChangeDone, hchange, hphy, if_pos hmore]
  rfl

theorem does_granuleChangeDone_of_last (hlast : last ≤ g + 1) : Does (.granuleChangeDone st e) s (retryHeld (stackBrick st) e
    (((((granuleChanged st g mode e s).onStack st (fun S => { S with change := none })).wr (Reg.FOLD_CHGST_BUSY (stackBrick st)) 0).flag
      (Reg.FOLD_CHGST_DONE (stackBrick st))).raise 0x2007 [st.val, ((granuleChanged st g mode e s).stack st).changeFrom,
        last - ((granuleChanged st g mode e s).stack st).changeFrom])) := by
  simp only [Does, exec_granuleChangeDone, execGranuleChangeDone, hchange, hphy, if_neg (Nat.not_lt.mpr hlast)]
  rfl

end

/-- Settles O41: one part for each command. That a grout read waits in its stack's queue only while its home holds it is the model's choice (log entry
229). -/
theorem stackReadsAndFolds : Obligations.StackReadsAndFolds := fun st s e =>
  ⟨fun _ _ _ hn => ⟨does_groutRead_of_inside hn, does_groutRead_of_room hn, does_groutRead_of_off hn⟩,
    fun sector => ⟨does_foldEntryEvict st sector e s, leaves_foldEntryEvict st sector e s⟩,
    fun off => ⟨does_bedLineEvict st off e s, leaves_bedLineEvict st off e s⟩,
    fun b => ⟨does_drain0 b e s, does_drain1 b e s, leaves_no_folds (does_drain0 b e s), leaves_no_folds (does_drain1 b e s)⟩,
    fun _ _ => ⟨does_foldChg_of_busy, does_foldChg_of_free⟩,
    fun _ _ _ hchange hphy => ⟨does_granuleChangeDone_of_more e hchange hphy, does_granuleChangeDone_of_last e hchange hphy⟩⟩

end Sys2Proof.Machine
end

section
/-! PROOFS. The temperature of a stack, its PHY training and its page clears (R315, R350, R351, R389, R862). -/
namespace Sys2Proof.Machine
open Sys2Proof

theorem exec_phyTrainingLoss (st : Stack) (s : State) : exec (.phyTrainingLoss st) s = execPhyTrainingLoss st s := rfl
theorem exec_stackPhyRetrainDone (st : Stack) (ok : Bool) (e : MemEnv) (s : State) :
    exec (.stackPhyRetrainDone st ok e) s = execStackPhyRetrainDone st ok e s := rfl
theorem exec_pgcClr (st : Stack) (v : Word) (s : State) : exec (.pgcClr st v) s = execPgcClr st v s := rfl
theorem exec_pageClearDone (st : Stack) (s : State) : exec (.pageClearDone st) s = execPageClearDone st s := rfl

/-! ### Temperature bands (R315, R350) -/

theorem does_temperatureBandChange (st : Stack) (t : BitVec 16) (s : State) : Does (.temperatureBandChange st t) s (reportBand st t s) := rfl

section
variable {st : Stack} {t : BitVec 16} {s : State}

/-- A stack that grew hotter by a band records it, flags it and tells it. -/
theorem does_temperatureBandChange_of_hotter (h : s.rd (Reg.STK_STAT_TEMPBAND st) < tempBand t) : Does (.temperatureBandChange st t) s
    (((s.wr (Reg.STK_STAT_TEMPBAND st) (tempBand t)).flag (Reg.STK_ERR_HOT st)).raise 0x2008 [st.val, tempBand t]) := by
  have hdoes := does_temperatureBandChange st t s
  simp only [reportBand, if_neg h.ne, if_pos h] at hdoes
  exact hdoes

/-- One that grew cooler by a band records it and tells it. -/
theorem does_temperatureBandChange_of_cooler (h : tempBand t < s.rd (Reg.STK_STAT_TEMPBAND st)) : Does (.temperatureBandChange st t) s
    ((s.wr (Reg.STK_STAT_TEMPBAND st) (tempBand t)).raise 0x2008 [st.val, tempBand t]) := by
  have hdoes := does_temperatureBandChange st t s
  simp only [reportBand, if_neg h.ne', if_neg h.not_gt] at hdoes
  exact hdoes

end

/-! ### PHY training (R351, R862) -/

section
variable {st : Stack} {s : State}

theorem does_phyTrainingLoss_of_on (hon : stackOn s st = true) :
    Does (.phyTrainingLoss st) s (s.onStack st (fun S => { S with phyLost := true })) := by
  simp only [Does, exec_phyTrainingLoss, execPhyTrainingLoss, hon]
  rfl

section
variable (e : MemEnv) (hlost : (s.stack st).phyLost = true)
include hlost

theorem does_stackPhyRetrainDone_good : Does (.stackPhyRetrainDone st true e) s
    (retryHeld (stackBrick st) e (memReports e (s.onStack st (fun S => { S with phyLost := false })))) := by
  simp only [Does, exec_stackPhyRetrainDone, execStackPhyRetrainDone, hlost]
  rfl

theorem does_stackPhyRetrainDone_failed : Does (.stackPhyRetrainDone st false e) s (retryHeld (stackBrick st) e
    (memReports e (fenceStack st ((s.onStack st (fun S => { S with phyLost := false })).raise 0x2009 [st.val])))) := by
  simp only [Does, exec_stackPhyRetrainDone, execStackPhyRetrainDone, hlost]
  rfl

end

/-! ### Page clears (R389) -/

section
variable {v : Word} (hon : stackOn s st = true)
include hon

theorem does_pgcClr_of_busy (hbusy : s.isSet (Reg.PGC_CLRST_BUSY st) = true) : Does (.pgcClr st v) s (s.flag (Reg.PGC_ERR_REFUSED st)) := by
  simp only [Does, exec_pgcClr, execPgcClr, hon, hbusy, Bool.true_or]
  rfl

theorem does_pgcClr_of_range (hbusy : s.isSet (Reg.PGC_CLRST_BUSY st) = false) (hall : bitOf v.toNat 63 = false) (hcount : bitsOf v.toNat 47 24 ≠ 0)
    (hfit : bitsOf v.toNat 23 0 + bitsOf v.toNat 47 24 ≤ winTop s st) :
    Does (.pgcClr st v) s (((s.onStack st (fun S => { S with clearing := some (bitsOf v.toNat 23 0, bitsOf v.toNat 47 24, false) })).wr
      (Reg.PGC_CLRST_BUSY st) 1).wr (Reg.PGC_CLRST_NEXT st) (bitsOf v.toNat 23 0)) := by
  have hstarts : ¬ (s.isSet (Reg.PGC_CLRST_BUSY st) || !false &&
      (decide (bitsOf v.toNat 47 24 = 0) || decide (winTop s st < bitsOf v.toNat 23 0 + bitsOf v.toNat 47 24))) = true := by simp [hbusy, hcount, hfit]
  simp only [Does, exec_pgcClr, execPgcClr, hon, hall, if_neg hstarts]
  rfl

end

theorem does_pageClearDone_of_range {first count : Nat} (hclearing : (s.stack st).clearing = some (first, count, false))
    (hphy : (s.stack st).phyLost = false) :
    Does (.pageClearDone st) s (((((clearRange st first count false s).onStack st (fun S => { S with clearing := none })).wr (Reg.PGC_CLRST_NEXT st)
      (first + count)).wr (Reg.PGC_CLRST_BUSY st) 0).flag (Reg.PGC_CLRST_DONE st)) := by
  simp only [Does, exec_pageClearDone, execPageClearDone, hclearing, hphy]
  rfl

end

/-- Settles O42: a stack's temperature, the loss of its PHY training and the end of its retrain, the start of a page clear and its end. -/
theorem stackService : Obligations.StackService := fun _ _ e =>
  ⟨fun _ => ⟨does_temperatureBandChange_of_hotter, does_temperatureBandChange_of_cooler⟩, does_phyTrainingLoss_of_on,
    fun hlost => ⟨does_stackPhyRetrainDone_good e hlost, does_stackPhyRetrainDone_failed e hlost⟩,
    fun _ hon => ⟨does_pgcClr_of_busy hon, does_pgcClr_of_range hon⟩, fun _ _ => does_pageClearDone_of_range⟩

end Sys2Proof.Machine
end

section
/-! PROOFS. The remap table of a stack, soft repair, and the repointing passes (R394 to R399, R401 to R405, R414). -/
namespace Sys2Proof.Machine
open Sys2Proof

theorem exec_remapInstall (st : Stack) (page : BitVec 24) (s : State) : exec (.remapInstall st page) s = execRemapInstall st page s := rfl
theorem exec_remapInstallDone (st : Stack) (e : MemEnv) (s : State) : exec (.remapInstallDone st e) s = execRemapInstallDone st e s := rfl
theorem exec_remapRelease (st : Stack) (entry : Fin 32) (e : MemEnv) (s : State) :
    exec (.remapRelease st entry e) s = execRemapRelease st entry e s := rfl
theorem exec_softRepair (st : Stack) (off : BitVec 36) (e : MemEnv) (s : State) : exec (.softRepair st off e) s = execSoftRepair st off e s := rfl
theorem exec_passStart (st : Stack) (s : State) : exec (.passStart st) s = execPassStart st s := rfl
theorem exec_passPage (st : Stack) (e : MemEnv) (s : State) : exec (.passPage st e) s = execPassPage st e s := rfl
theorem exec_passEnd (st : Stack) (s : State) : exec (.passEnd st) s = execPassEnd st s := rfl

/-! ### The remap table (R394 to R396, R414) -/

section
variable {st : Stack} {s : State} (hon : stackOn s st = true) (hbusy : s.isSet (Reg.RMP_CSTAT_BUSY st) = false)
include hon hbusy

section
variable {page : BitVec 24}

/-- An install that the table has room for holds its page (R394). -/
theorem does_remapInstall_of_plan {entry i : Nat} (hplan : installPlan s st page.toNat = (0, entry, i)) :
    Does (.remapInstall st page) s (((s.onStack st (fun S => { S with install := some (page.toNat, i, entry) })).wr
      (Reg.RMP_CSTAT_BUSY st) 1).wr (Reg.RMP_CSTAT_WHY st) 0) := by
  simp only [Does, exec_remapInstall, execRemapInstall, hon, hbusy, hplan]
  rfl

/-- Any other is refused with its reason (R395). -/
theorem does_remapInstall_of_refusal {why : Nat} {x : Nat × Nat} (hplan : installPlan s st page.toNat = (why, x)) (hwhy : why ≠ 0) :
    Does (.remapInstall st page) s
      (((s.raise 0x2106 [st.val, page.toNat, why]).flag (Reg.RMP_CSTAT_FAIL st)).wr (Reg.RMP_CSTAT_WHY st) why) := by
  obtain ⟨n, rfl⟩ := Nat.exists_eq_succ_of_ne_zero hwhy
  simp only [Does, exec_remapInstall, execRemapInstall, hon, hbusy, hplan]
  rfl

end

section
variable (e : MemEnv) {entry : Fin 32}

theorem does_remapRelease_of_valid (hentry : entry.val < 16) (hvalid : (memReports e s).isSet (Reg.RMP_ENT_VALID st entry.val) = true) :
    Does (.remapRelease st entry e) s
      (((releaseEntry st entry.val e (memReports e s)).flag (Reg.RMP_CSTAT_DONE st)).wr (Reg.RMP_CSTAT_WHY st) 0) := by
  have hreleases : ¬ (decide (16 ≤ entry.val) || !true) = true := by simpa using hentry
  simp only [Does, exec_remapRelease, execRemapRelease, hon, hbusy, hvalid, if_neg hreleases]
  rfl

/-- The table has 16 entries: no other is valid. -/
theorem does_remapRelease_of_beyond (hentry : 16 ≤ entry.val) :
    Does (.remapRelease st entry e) s (((memReports e s).flag (Reg.RMP_CSTAT_FAIL st)).wr (Reg.RMP_CSTAT_WHY st) 5) := by
  simp only [Does, exec_remapRelease, execRemapRelease, hon, hbusy, decide_eq_true hentry, Bool.true_or]
  rfl

end
end

section
variable {st : Stack} {s : State} (e : MemEnv)

theorem does_remapInstallDone_of_install {x : Nat × Nat × Nat} (hinstall : (s.stack st).install = some x) (hphy : (s.stack st).phyLost = false) :
    Does (.remapInstallDone st e) s (retryHeld (stackBrick st) e (finishInstall st e (memReports e s))) := by
  simp only [Does, exec_remapInstallDone, execRemapInstallDone, hinstall, hphy]
  rfl

/-! ### Soft repair (R398) -/

/-- The row that holds an offset of a stack's pseudo-channel is repaired, which is recorded and told (R398). -/
def rowRepaired (st : Stack) (off : Nat) (s : State) : State :=
  (s.onStack st (fun S => { S with repairs := S.repairs ++ [(pseudoChannel off, channelAddr off / 1024)],
                                   repaired := S.repaired ++ [(pseudoChannel off, channelAddr off / 1024)] })).raise 0x210C
    [st.val, pseudoChannel off, bitsOf (channelAddr off) 29 16]

/-- A row whose two window pages are both remapped is repaired, and their entries are released. -/
theorem does_softRepair_of_remapped {off : BitVec 36} {x y : Nat} (hacts : hodActs s = true) (hon : stackOn s st = true)
    (hhigh : withBits off.toNat 15 15 1 / 4096 < winTop s st) (hlow : withBits off.toNat 15 15 0 / 4096 < winTop s st)
    (hx : remapEntry s st (withBits off.toNat 15 15 0 / 4096) = some x) (hy : remapEntry s st (withBits off.toNat 15 15 1 / 4096) = some y) :
    Does (.softRepair st off e) s (releaseEntry st y e (releaseEntry st x e (rowRepaired st off.toNat s))) := by
  have hpages : [withBits off.toNat 15 15 0 / 4096, withBits off.toNat 15 15 1 / 4096].filter (fun p => decide (p < winTop s st)) =
      [withBits off.toNat 15 15 0 / 4096, withBits off.toNat 15 15 1 / 4096] := by simp [hlow, hhigh]
  have hentries : [withBits off.toNat 15 15 0 / 4096, withBits off.toNat 15 15 1 / 4096].filterMap (fun p => remapEntry s st p) = [x, y] := by
    simp [hx, hy]
  simp only [Does, exec_softRepair, execSoftRepair, hacts, hon, hpages, hentries]
  rfl

end

/-! ### The start of a pass (R399, R401, R405) -/

theorem State.done_stack (s t : State) (st : Stack) : (s.done t).stack st = t.stack st := by rw [State.stack, State.done_hbm, State.stack]

theorem passStat_ne_seatOwn (st : Stack) : Reg.PGC_SSTAT st ≠ Reg.SEAT_OWN := by revert st; decide

/-- The end of a command leaves PGC_SSTAT as it is. -/
theorem done_rd_passStat (s t : State) (st : Stack) {g : FieldRef} (hg : g.reg = Reg.PGC_SSTAT st) : (s.done t).rd g = t.rd g :=
  State.done_rd_other s t (hg ▸ passStat_ne_seatOwn st)

section
variable (st : Stack) (d : Bytes) (hostId : Option Nat) (s : State)

theorem stack_wr (f : FieldRef) (v : Nat) : (s.wr f v).stack st = s.stack st := rfl

theorem rd_state_startPass : (startPass st d hostId s).rd (Reg.PGC_SSTAT_STATE st) = psRunning := by
  rw [startPass, State.rd_wr_apart _ (Reg.PGC_SSTAT_NEXT st) (Reg.PGC_SSTAT_STATE st) _ rfl (by decide : 0 ≤ 24) (by decide : 63 < 64)
    (.inr (by decide : 23 < 61)), State.rd_wr_same _ (Reg.PGC_SSTAT_STATE st) _ (by decide : 61 ≤ 64) (by decide : 63 < 64)]
  rfl

/-- NEXT of a pass that starts is its FIRST, of 24 bits. -/
theorem rd_next_startPass (hfirst : leNat (d.take 4) < 2 ^ 24) : (startPass st d hostId s).rd (Reg.PGC_SSTAT_NEXT st) = leNat (d.take 4) := by
  rw [startPass, State.rd_wr_same _ (Reg.PGC_SSTAT_NEXT st) _ (by decide : 0 ≤ 24) (by decide : 23 < 64)]
  exact Nat.mod_eq_of_lt hfirst

/-- The pass that a descriptor starts has its fields; COUNT zero stands for the rest of the window (R399). -/
theorem pass_startPass : ∃ p, ((startPass st d hostId s).stack st).pass = some p ∧ p.first = leNat (d.take 4) ∧
    p.count = (if leNat ((d.drop 4).take 4) = 0 then winTop s st - leNat (d.take 4) else leNat ((d.drop 4).take 4)) ∧
    p.interval = leNat ((d.drop 8).take 4) ∧ p.lbl = leNat ((d.drop 12).take 1) % 16 ∧
    p.remap = bitOf (leNat ((d.drop 13).take 1)) 0 ∧ p.spares = bitOf (leNat ((d.drop 13).take 1)) 1 := by
  rw [startPass, stack_wr, stack_wr, State.onStack_stack_same]
  exact ⟨_, rfl, rfl, rfl, rfl, rfl, rfl, rfl⟩

/-- A pass that starts changes registers and its stack, and nothing else. -/
theorem startPass_regsOnly : ∃ f, RegsOnly (s.onStack st f) (startPass st d hostId s) := ⟨_, (State.wr_regsOnly ..).trans (State.wr_regsOnly ..)⟩

theorem startPass_frame : (startPass st d hostId s).mem = s.mem ∧ (startPass st d hostId s).events = s.events ∧
    (startPass st d hostId s).bricks = s.bricks := by
  obtain ⟨f, regs, h⟩ := startPass_regsOnly st d hostId s
  rw [h]
  exact ⟨rfl, rfl, rfl⟩

end

section
variable {st : Stack} {s : State}

/-- FIRST of a valid descriptor lies in the window, whose size has 24 bits (R400). -/
theorem first_lt_of_passDescOk {d : Bytes} (hok : passDescOk s st d = true) : leNat (d.take 4) < 2 ^ 24 := by
  have hle : leNat (d.take 4) ≤ winTop s st := by
    simp only [passDescOk, Bool.and_eq_true, decide_eq_true_eq] at hok
    tauto
  exact hle.trans_lt (bitsOf_lt _ 39 16)

theorem does_passStart_of_valid (hon : stackOn s st = true) (hfree : passBusy s st = false) (hok : passDescOk s st (sdescBytes s st) = true) :
    Does (.passStart st) s (startPass st (sdescBytes s st) none s) := by
  simp only [Does, exec_passStart, execPassStart, hon, hfree, hok]
  rfl

theorem leaves_passStart_of_valid (hon : stackOn s st = true) (hfree : passBusy s st = false) (hok : passDescOk s st (sdescBytes s st) = true) :
    Leaves (.passStart st) s (fun u => u.rd (Reg.PGC_SSTAT_STATE st) = psRunning ∧ u.rd (Reg.PGC_SSTAT_NEXT st) = leNat ((sdescBytes s st).take 4) ∧
      (u.stack st).pass.map (fun p => (p.first, p.count, p.interval)) = some (leNat ((sdescBytes s st).take 4),
        (if leNat (((sdescBytes s st).drop 4).take 4) = 0 then winTop s st - leNat ((sdescBytes s st).take 4)
          else leNat (((sdescBytes s st).drop 4).take 4)), leNat (((sdescBytes s st).drop 8).take 4)) ∧
      u.mem = s.mem ∧ u.events = s.events ∧ u.bricks = s.bricks) := by
  refine ⟨_, does_passStart_of_valid hon hfree hok, ?_, ?_, ?_, ?_⟩
  · rw [done_rd_passStat s _ st rfl, rd_state_startPass]
  · rw [done_rd_passStat s _ st rfl, rd_next_startPass st _ none s (first_lt_of_passDescOk hok)]
  · obtain ⟨p, hpass, hfirst, hcount, hinterval, -⟩ := pass_startPass st (sdescBytes s st) none s
    rw [State.done_stack, hpass, Option.map_some, hfirst, hcount, hinterval]
  · rw [State.done_mem, State.done_events, State.done_bricks]
    exact startPass_frame st (sdescBytes s st) none s

end

/-! ### A pass that runs (R402, R403) -/

section
variable (st : Stack) (f : Pass → Pass) (s : State)

@[simp] theorem onPass_rd (g : FieldRef) : (onPass st f s).rd g = s.rd g := rfl
@[simp] theorem onPass_mem : (onPass st f s).mem = s.mem := rfl
@[simp] theorem onPass_events : (onPass st f s).events = s.events := rfl
@[simp] theorem onPass_bricks : (onPass st f s).bricks = s.bricks := rfl
@[simp] theorem onPass_pass : ((onPass st f s).stack st).pass = (s.stack st).pass.map f :=
  congrArg StackState.pass (State.onStack_stack_same s st _)

end

section
variable {st : Stack} {s : State} {p : Pass}

/-- The pass that a stack has is replaced. -/
theorem onPass_of_pass (f : Pass → Pass) (hpass : (s.stack st).pass = some p) :
    onPass st f s = s.onStack st (fun S => { S with pass := some (f p) }) := by
  rw [State.stack] at hpass
  simp only [onPass, State.onStack, hpass, Option.map_some]

theorem does_passSuspend_of_running (hpass : (s.stack st).pass = some p) (hstate : s.rd (Reg.PGC_SSTAT_STATE st) = psRunning) :
    Does (.passSuspend st) s
      ((s.onStack st (fun S => { S with pass := some { p with hostSusp := true } })).wr (Reg.PGC_SSTAT_STATE st) psSuspending) := by
  have hsuspend : suspendPass st false s = (onPass st (fun p => { p with hostSusp := true }) s).wr (Reg.PGC_SSTAT_STATE st) psSuspending :=
    if_pos hstate
  rw [← onPass_of_pass (fun p => { p with hostSusp := true }) hpass, ← hsuspend]
  rfl

/-- RESUME runs a suspended pass that its device does not hold. -/
theorem does_passResume_of_suspended (hpass : (s.stack st).pass = some p) (hdev : p.devSusp = false)
    (hstate : s.rd (Reg.PGC_SSTAT_STATE st) = psSuspended) :
    Does (.passResume st) s
      ((s.onStack st (fun S => { S with pass := some { p with hostSusp := false } })).wr (Reg.PGC_SSTAT_STATE st) psRunning) := by
  have hresume : resumePass st false s = (onPass st (fun p => { p with hostSusp := false }) s).wr (Reg.PGC_SSTAT_STATE st) psRunning := by
    simp only [resumePass, onPass_pass, onPass_rd, hpass, hstate, Option.map_some, hdev]
    rfl
  rw [← onPass_of_pass (fun p => { p with hostSusp := false }) hpass, ← hresume]
  rfl

theorem does_passCancel_of_running (hstate : s.rd (Reg.PGC_SSTAT_STATE st) = psRunning) :
    Does (.passCancel st) s (s.wr (Reg.PGC_SSTAT_STATE st) psCancelling) := by
  have hcancel : cancelPass st s = s.wr (Reg.PGC_SSTAT_STATE st) psCancelling := by
    simp only [cancelPass, hstate]
    rfl
  rw [← hcancel]
  rfl

/-- A running pass has read window page `p`, which leaves `u`: its time is kept, and NEXT names the page after it (R402). -/
def pageDone (st : Stack) (x : Pass) (p : Nat) (u : State) : State :=
  (onPass st (fun x' => { x' with pageAt := some u.plumb.toNat, finished := (passNext u st x p).isNone }) u).wr
    (Reg.PGC_SSTAT_NEXT st) ((passNext u st x p).getD (p + 1))

theorem does_passPage_of_window {x : Pass} (e : MemEnv) (hpass : (s.stack st).pass = some x)
    (hstate : s.rd (Reg.PGC_SSTAT_STATE st) = psRunning) (hat : x.pageAt = none) (hfinished : x.finished = false) (hcount : x.count ≠ 0)
    (hin : s.rd (Reg.PGC_SSTAT_NEXT st) < winTop s st) (htop : winTop (memReports e s) st = winTop s st) :
    Does (.passPage st e) s (pageDone st x (s.rd (Reg.PGC_SSTAT_NEXT st)) (passWindowPage st x (s.rd (Reg.PGC_SSTAT_NEXT st))
      (pagePoisoned s st (s.rd (Reg.PGC_SSTAT_NEXT st))) e (memReports e s))) := by
  simp only [Does, exec_passPage, execPassPage, hpass, hstate, hat, hfinished, decide_eq_false hcount, htop, if_pos hin, decide_eq_true hin,
    Bool.true_and]
  rfl

end

/-! ### The end of a pass (R403 to R405) -/

section
variable {st : Stack} {s : State}

section
variable {x : Pass} (hpass : (s.stack st).pass = some x)
include hpass

theorem does_passEnd_of_finished (hfinished : x.finished = true) (hhod : x.byHod = false) :
    Does (.passEnd st) s (endPass st x 0 true s) := by
  simp only [Does, exec_passEnd, execPassEnd, hpass, hfinished, hhod, Bool.true_or]
  rfl

theorem does_passEnd_of_cancelling (hfinished : x.finished = false) (hcount : x.count ≠ 0)
    (hstate : s.rd (Reg.PGC_SSTAT_STATE st) = psCancelling) : Does (.passEnd st) s (endPass st x 1 true s) := by
  simp only [Does, exec_passEnd, execPassEnd, hpass, hfinished, decide_eq_false hcount, if_pos hstate]
  rfl

end

/-- Hod's default pass reads the stack from its first page. -/
theorem first_defaultPass : leNat ((defaultPass s st).take 4) = 0 := rfl

/-- Its COUNT stands for the whole window. -/
theorem count_defaultPass : leNat (((defaultPass s st).drop 4).take 4) = 0 := rfl

/-- Its LABEL is 15. -/
theorem label_defaultPass : leNat (((defaultPass s st).drop 12).take 1) = 15 := rfl

/-- It has REMAP and SPARES. -/
theorem options_defaultPass : leNat (((defaultPass s st).drop 13).take 1) = 3 := rfl

/-- Its INTERVAL spreads the window and the 64 spares over 24 h, and has 32 bits. -/
theorem interval_defaultPass : leNat (((defaultPass s st).drop 8).take 4) = 86400000000 / (winTop s st + 64) := by
  have hfield : ((defaultPass s st).drop 8).take 4 = leBytes 4 (86400000000 / (winTop s st + 64)) := rfl
  have hlt : 86400000000 / (winTop s st + 64) < 256 ^ 4 := Nat.div_lt_of_lt_mul (by omega)
  rw [hfield, leNat_leBytes, Nat.mod_eq_of_lt hlt]

/-- The pass that Hod starts by default covers the whole window once in 24 h, with REMAP and SPARES (R405). -/
theorem pass_start_defaultPass (st : Stack) (s : State) : ∃ p, ((startPass st (defaultPass s st) none s).stack st).pass = some p ∧ p.first = 0 ∧
    p.count = winTop s st ∧ p.interval = 86400000000 / (winTop s st + 64) ∧ p.lbl = 15 ∧ p.remap = true ∧ p.spares = true := by
  have h := pass_startPass st (defaultPass s st) none s
  rw [first_defaultPass, count_defaultPass, interval_defaultPass, label_defaultPass, options_defaultPass] at h
  exact h

variable (hnone : (s.stack st).pass = none) (hacts : hodActs s = true) (hon : stackOn s st = true) (hfree : passBusy s st = false)
  (hclear : (s.stack st).clearing = none)
include hnone hacts hon hfree hclear

/-- On a stack that has no pass Hod starts its default pass. -/
theorem does_passEnd_of_noPass :
    Does (.passEnd st) s (onPass st (fun p => { p with byHod := true }) (startPass st (defaultPass s st) none s)) := by
  simp only [Does, exec_passEnd, execPassEnd, hnone, startHodPass, hacts, hon, hfree, hclear]
  rfl

theorem leaves_passEnd_of_noPass :
    Leaves (.passEnd st) s (fun u => u.rd (Reg.PGC_SSTAT_STATE st) = psRunning ∧ u.rd (Reg.PGC_SSTAT_NEXT st) = 0 ∧
      (u.stack st).pass.map (fun p => (p.first, p.count, p.interval, p.lbl, p.remap && p.spares && p.byHod)) =
        some (0, winTop s st, 86400000000 / (winTop s st + 64), 15, true) ∧ u.mem = s.mem ∧ u.events = s.events ∧ u.bricks = s.bricks) := by
  refine ⟨_, does_passEnd_of_noPass hnone hacts hon hfree hclear, ?_, ?_, ?_, ?_⟩
  · rw [done_rd_passStat s _ st rfl, onPass_rd, rd_state_startPass]
  · rw [done_rd_passStat s _ st rfl, onPass_rd, rd_next_startPass st _ none s (by rw [first_defaultPass]; decide), first_defaultPass]
  · obtain ⟨p, hpass, hfirst, hcount, hinterval, hlbl, hremap, hspares⟩ := pass_start_defaultPass st s
    rw [State.done_stack, onPass_pass, hpass, Option.map_some, Option.map_some, hfirst, hcount, hinterval, hlbl, hremap, hspares]
    rfl
  · rw [State.done_mem, State.done_events, State.done_bricks, onPass_mem, onPass_events, onPass_bricks]
    exact startPass_frame st (defaultPass s st) none s

end

/-- Settles O43: the commands of the remap table and soft repair, then the commands of a pass, its pages and its end. That Hod starts its default pass
where a stack has none is the model's choice (log entry 215). -/
theorem remappingAndRepointing : Obligations.RemappingAndRepointing :=
  ⟨fun _ _ e => ⟨fun _ hon hbusy => ⟨fun _ _ => does_remapInstall_of_plan hon hbusy, fun _ _ => does_remapInstall_of_refusal hon hbusy⟩,
      fun _ => does_remapInstallDone_of_install e,
      fun _ hon hbusy => ⟨does_remapRelease_of_valid hon hbusy e, does_remapRelease_of_beyond hon hbusy e⟩,
      fun _ _ _ => does_softRepair_of_remapped e⟩,
    fun _ _ e => ⟨leaves_passStart_of_valid, fun _ => does_passSuspend_of_running, fun _ => does_passResume_of_suspended, does_passCancel_of_running,
      fun _ => does_passPage_of_window e, fun _ => does_passEnd_of_finished, leaves_passEnd_of_noPass, fun _ => does_passEnd_of_cancelling⟩⟩

end Sys2Proof.Machine
end

section
/-! PROOFS. The accumulation of a press element (R454, R455, R457, R459, R461): the groups cover the reduction, in order, and an INT32 accumulator that
wraps after each group holds the exact sum, modulo 2^32. -/
namespace Sys2Proof.Machine
open Sys2Proof

/-! ### Words modulo 2^w -/

theorem wrapNat_of_modEq {w : Nat} {x y : Int} (h : x ≡ y [ZMOD 2 ^ w]) : wrapNat w x = wrapNat w y := congrArg Int.toNat h

theorem natCast_wrapNat (w : Nat) (x : Int) : (wrapNat w x : Int) = x % 2 ^ w := Int.toNat_of_nonneg (Int.emod_nonneg x (by positivity))

theorem sextInt_modEq (w v : Nat) : sextInt w v ≡ v [ZMOD 2 ^ w] := by
  have hmod : ((v % 2 ^ w : Nat) : Int) ≡ v [ZMOD 2 ^ w] := by
    rw [Int.natCast_mod, Int.natCast_pow]
    exact Int.mod_modEq v _
  rw [sextInt]
  split
  · exact hmod
  · exact (Int.sub_modulus_modEq_iff).mpr hmod

/-- Wrapping a number and reading it back as signed moves it by a multiple of the modulus. -/
theorem sextInt_wrapNat_modEq (w : Nat) (x : Int) : sextInt w (wrapNat w x) ≡ x [ZMOD 2 ^ w] := by
  have h := sextInt_modEq w (wrapNat w x)
  rw [natCast_wrapNat] at h
  exact h.trans (Int.mod_modEq x _)

/-! ### The groups along the reduction (R454) -/

theorem foldl_add_eq_add_sum {α : Type} (f : α → Int) (c : Int) (l : List α) : l.foldl (fun acc x => acc + f x) c = c + (l.map f).sum := by
  induction l generalizing c with
  | nil => simp
  | cons x xs ih => rw [List.foldl_cons, ih, List.map_cons, List.sum_cons, add_assoc]

section
variable (d : PressDesc)

/-- The first j groups hold the first 32j indices, or all of them where there are fewer. -/
theorem flatMap_group_range (j : Nat) : (List.range j).flatMap d.group = List.range (min (32 * j) d.k) := by
  induction j with
  | zero => simp
  | succ j ih =>
    rw [List.range_succ, List.flatMap_append, ih, List.flatMap_singleton, PressDesc.group]
    rcases le_total (32 * j) d.k with hle | hle
    · rw [min_eq_left hle, ← List.range_add, show 32 * j + min 32 (d.k - 32 * j) = min (32 * (j + 1)) d.k by omega]
    · rw [Nat.sub_eq_zero_of_le hle, min_eq_right hle, min_eq_right (by omega : d.k ≤ 32 * (j + 1))]
      simp

theorem flatMap_group : (List.range d.groups).flatMap d.group = List.range d.k := by
  rw [flatMap_group_range, min_eq_right]
  rw [PressDesc.groups, ceilDiv]
  omega

/-- A sum over the reduction is the sum of its group sums. -/
theorem sum_group_sums (f : Nat → Int) : ((List.range d.groups).map (fun g => ((d.group g).map f).sum)).sum = ((List.range d.k).map f).sum := by
  rw [← flatMap_group, List.map_flatMap, List.flatMap, List.sum_flatten, List.map_map]
  rfl

end

/-! ### The INT32 accumulator (R457, R459) -/

/-- The product of an element at one index of the reduction: each operand's element less its zero point (R459, R460). -/
def pressProduct (s : State) (t : Tile) (d : PressDesc) (m n k : Nat) : Int :=
  let za := if d.zma = 0 then 0 else intElem d.fmtA (storeNumAt s t (d.offZA m) 1)
  let zb := if d.zmb = 0 then 0 else intElem d.fmtB (storeNumAt s t (d.offZB n) 1)
  (intElem d.fmtA (storeNumAt s t (d.offA m k) 1) - za) * (intElem d.fmtB (storeNumAt s t (d.offB k n) 1) - zb)

/-- What an INT32 accumulator starts at: C, or zero. -/
def startInt (s : State) (t : Tile) (d : PressDesc) (m n : Nat) : Int := if d.loadc then sextInt 32 (storeNumAt s t (d.offC m n) 4) else 0

section
variable (s : State) (t : Tile) (d : PressDesc) (m n : Nat)

theorem groupInt_eq_sum (g : Nat) : groupInt s t d m n g = ((d.group g).map (pressProduct s t d m n)).sum :=
  (foldl_add_eq_add_sum (pressProduct s t d m n) 0 (d.group g)).trans (zero_add _)

/-- One group added to the accumulator, which wraps and remembers whether it did. -/
def accumStep (a : Int × Bool) (g : Nat) : Int × Bool :=
  let x := a.1 + groupInt s t d m n g
  (sextInt 32 (wrapNat 32 x), a.2 || decide (x < -(2 ^ 31) ∨ 2 ^ 31 ≤ x))

theorem accumInt_eq_foldl : accumInt s t d m n = (List.range d.groups).foldl (accumStep s t d m n) (startInt s t d m n, false) := rfl

/-- Wherever the accumulator wraps, it holds the exact sum modulo 2^32. -/
theorem foldl_accumStep_modEq (gs : List Nat) (a : Int × Bool) :
    (gs.foldl (accumStep s t d m n) a).1 ≡ a.1 + (gs.map (groupInt s t d m n)).sum [ZMOD 2 ^ 32] := by
  induction gs generalizing a with
  | nil => simp
  | cons g gs ih =>
    rw [List.foldl_cons, List.map_cons, List.sum_cons, ← add_assoc]
    exact (ih _).trans ((sextInt_wrapNat_modEq 32 _).add_right _)

theorem accumInt_modEq : (accumInt s t d m n).1 ≡ startInt s t d m n + ((List.range d.k).map (pressProduct s t d m n)).sum [ZMOD 2 ^ 32] := by
  have h := foldl_accumStep_modEq s t d m n (List.range d.groups) (startInt s t d m n, false)
  rw [funext (groupInt_eq_sum s t d m n), sum_group_sums] at h
  exact h

end

/-! ### Results without scales (R455, R461) -/

section
variable {s : State} {t : Tile} {d : PressDesc} {m n : Nat} (hout : d.outScaled = false)
include hout

theorem pressResult_of_accInt (hacc : d.accInt = true) : (pressResult s t d m n).1 = wrapNat 32 (accumInt s t d m n).1 := by
  simp only [pressResult, hacc, hout]
  rfl

theorem pressResult_of_accFloat (hacc : d.accInt = false) : (pressResult s t d m n).1 = accumFloat s t d m n := by
  simp only [pressResult, hacc, hout]
  rfl

end

/-- Without block scales the group sums of a floating pair are added as they are. -/
theorem accumFloat_of_unblocked {s : State} {t : Tile} {d : PressDesc} {m n : Nat} (hint : d.isInt = false) (hblocked : d.blocked = false) :
    accumFloat s t d m n = (List.range d.groups).foldl (fun acc g => f32add acc (groupFloat s t d m n g))
      (if d.loadc then storeNumAt s t (d.offC m n) 4 else 0x80000000) := by
  simp only [accumFloat, hint, hblocked]
  rfl

/-- Settles O35: the integer element by the accumulator's value modulo 2^32 (R457, R459), the floating one by its fold over the groups (R455). -/
theorem pressArithmetic : Obligations.PressArithmetic := by
  intro s t d m n
  refine ⟨fun hacc hout => ?_, fun hacc hint hblocked hout => ?_⟩
  · have hsum := foldl_add_eq_add_sum (pressProduct s t d m n) (startInt s t d m n) (List.range d.k)
    calc (pressResult s t d m n).1
      _ = wrapNat 32 (accumInt s t d m n).1 := pressResult_of_accInt hout hacc
      _ = wrapNat 32 ((List.range d.k).foldl (fun acc k => acc + pressProduct s t d m n k) (startInt s t d m n)) :=
        wrapNat_of_modEq (hsum ▸ accumInt_modEq s t d m n)
  · rw [pressResult_of_accFloat hout hacc, accumFloat_of_unblocked hint hblocked]

end Sys2Proof.Machine
end

section
/-! PROOFS. Register 0 of a mason (R482), and the traps that a mason takes (R515, R516, R521). -/
namespace Sys2Proof.Machine
open Sys2Proof

/-! ### Masons -/

theorem State.onTile_congr (s : State) {t : Tile} {f g : TileState → TileState} (h : f (s.tile t) = g (s.tile t)) : s.onTile t f = s.onTile t g := by
  rw [State.tile] at h
  rw [State.onTile, h, State.onTile]

theorem State.onMason_congr (s : State) {t : Tile} {f g : Mason → Mason} (h : f (s.mason t) = g (s.mason t)) : s.onMason t f = s.onMason t g :=
  s.onTile_congr (by rw [State.mason] at h; rw [h])

theorem State.onTile_self (s : State) (t : Tile) : s.onTile t (fun T => T) = s := by
  rw [State.onTile, Fin.getElem_fin, Vector.set_getElem_self]

/-- Settles O5: a write to register 0 changes the mason into itself. -/
theorem registerK0 : Obligations.RegisterK0 := fun s t v =>
  ⟨rfl, calc s.putReg t 0 v
    _ = s.onMason t (fun m => m) := s.onMason_congr rfl
    _ = s := s.onTile_self t⟩

/-! ### Traps -/

theorem State.tile_congr {s u : State} (h : u.tiles = s.tiles) (t : Tile) : u.tile t = s.tile t := by rw [State.tile, h, State.tile]

theorem State.mason_congr {s u : State} (h : u.tiles = s.tiles) (t : Tile) : u.mason t = s.mason t := by
  rw [State.mason, State.tile_congr h, State.mason]

theorem tally_mem (t : Tile) (i n : Nat) (s : State) : (tally t i n s).mem = s.mem := by rw [tally, apply_ite State.mem, State.wr_mem, ite_self]

theorem tally_bricks (t : Tile) (i n : Nat) (s : State) : (tally t i n s).bricks = s.bricks := by
  rw [tally, apply_ite State.bricks, State.wr_bricks, ite_self]

/-- What a trap outside a handler makes of the mason (R515). -/
theorem trapEntry_mason (t : Tile) (cause sub status xpc xval : Nat) (s : State) :
    (trapEntry t cause sub status xpc xval s).mason t = { s.mason t with
      xstate := (s.mason t).cwin + 16 * (s.mason t).lbl, xpc := xpc, xcause := cause + 256 * sub + 65536 * status, xval := BitVec.ofNat 64 xval,
      trap := true, pc := vbase s t + 0x80 * cause, run := .running, blocked := none, stall := stallTrap } :=
  (tally_mason ..).trans ((State.mason_congr (State.count_tiles ..) t).trans (s.onMason_mason t _))

theorem trapEntry_frame (t : Tile) (cause sub status xpc xval : Nat) (s : State) :
    (trapEntry t cause sub status xpc xval s).mem = s.mem ∧ (trapEntry t cause sub status xpc xval s).events = s.events ∧
    (trapEntry t cause sub status xpc xval s).bricks = s.bricks := by
  rw [trapEntry, tally_mem, tally_events, tally_bricks, State.count_mem, State.count_events, State.count_bricks]
  exact ⟨State.onTile_mem .., State.onTile_events .., State.onTile_bricks ..⟩

theorem takeTrap_of_handling {t : Tile} {s : State} (htrap : (s.mason t).trap = true) (cause sub status xpc xval : Nat) :
    takeTrap t cause sub status xpc xval s = doubleFault t cause sub xpc s := if_pos htrap

theorem takeTrap_of_free {t : Tile} {s : State} (htrap : (s.mason t).trap = false) (cause sub status xpc xval : Nat) :
    takeTrap t cause sub status xpc xval s = trapEntry t cause sub status xpc xval s := if_neg (by simp [htrap])

/-- The causes that a double fault writes to MSN_DFLT: its own, and that of the trap being handled (R521). -/
def dfltCauses (t : Tile) (cause sub : Nat) (s : State) : State :=
  (((s.wr (Reg.MSN_DFLT_VALID t) 1).wr (Reg.MSN_DFLT_CAUSE2 t) cause).wr (Reg.MSN_DFLT_SUB2 t) sub).wr (Reg.MSN_DFLT_CAUSE1 t) (bitsOf (s.mason t).xcause 7 0)

/-- What a double fault records in MSN_DFLT and MSN_ERR (R521). -/
def causesRecorded (t : Tile) (cause sub xpc : Nat) (s : State) : State :=
  ((dfltCauses t cause sub s).wr (Reg.MSN_DFLT_PC t) (bitsOf xpc 16 2)).flag (Reg.MSN_ERR_DFAULT t)

/-- A double fault before its report and the poisoning: the causes are recorded, and the mason is Faulted (R521). -/
def doubleFaulted (t : Tile) (cause sub xpc : Nat) (s : State) : State :=
  ((causesRecorded t cause sub xpc s).onMason t (fun m => { m with run := .faulted, blocked := none, stall := 0xD })).raise 0x3001
    [t.val, bitsOf (s.mason t).xcause 7 0, bitsOf (s.mason t).xcause 15 8, cause, sub, (s.mason t).xpc, (s.mason t).xval.toNat]

section
variable (t : Tile) (cause sub xpc : Nat) (s : State)

theorem causesRecorded_regsOnly : RegsOnly s (causesRecorded t cause sub xpc s) :=
  (State.wr_regsOnly ..).trans ((State.wr_regsOnly ..).trans ((State.wr_regsOnly ..).trans ((State.wr_regsOnly ..).trans
    ((State.wr_regsOnly ..).trans (State.wr_regsOnly ..)))))

theorem causesRecorded_frame : (causesRecorded t cause sub xpc s).tiles = s.tiles ∧ (causesRecorded t cause sub xpc s).mem = s.mem ∧
    (causesRecorded t cause sub xpc s).bricks = s.bricks := by
  obtain ⟨_, h⟩ := causesRecorded_regsOnly t cause sub xpc s
  rw [h]
  exact ⟨rfl, rfl, rfl⟩

theorem doubleFaulted_armedBonds : ((doubleFaulted t cause sub xpc s).tile t).armedBonds = (s.tile t).armedBonds := by
  obtain ⟨htiles, -, -⟩ := causesRecorded_frame t cause sub xpc s
  rw [doubleFaulted, State.tile_congr (State.raise_tiles ..), State.onMason, State.onTile_tile_same, State.tile_congr htiles]

theorem doubleFaulted_frame : (doubleFaulted t cause sub xpc s).mem = s.mem ∧ (doubleFaulted t cause sub xpc s).bricks = s.bricks := by
  obtain ⟨-, hmem, hbricks⟩ := causesRecorded_frame t cause sub xpc s
  rw [doubleFaulted, State.raise_mem, State.raise_bricks, State.onMason, State.onTile_mem, State.onTile_bricks]
  exact ⟨hmem, hbricks⟩

theorem doubleFaulted_run : ((doubleFaulted t cause sub xpc s).mason t).run = .faulted := by
  rw [doubleFaulted, State.mason_congr (State.raise_tiles ..), State.onMason_mason]

theorem doubleFault_eq : doubleFault t cause sub xpc s =
    tileFault t 0x7 (poisonBonds t 0x02 (s.tile t).armedBonds (doubleFaulted t cause sub xpc s)) := by
  rw [← doubleFaulted_armedBonds t cause sub xpc s, doubleFaulted, causesRecorded, dfltCauses, doubleFault]

theorem doubleFaulted_rd (g : FieldRef) : (doubleFaulted t cause sub xpc s).rd g = (causesRecorded t cause sub xpc s).rd g := by
  rw [doubleFaulted, State.raise_rd, State.onMason, State.onTile_rd]

theorem causesRecorded_dfault : (causesRecorded t cause sub xpc s).rd (Reg.MSN_ERR_DFAULT t) = 1 := by
  rw [causesRecorded, State.rd_flag_same _ _ rfl (by simp [Reg.MSN_ERR_DFAULT])]

/-- The PC takes the low bits of MSN_DFLT, and MSN_ERR is another register. -/
theorem causesRecorded_rd {g : FieldRef} (hreg : g.reg = Reg.MSN_DFLT t) (hlo : 16 < g.lo) (hhi : g.hi < 64) :
    (causesRecorded t cause sub xpc s).rd g = (dfltCauses t cause sub s).rd g := by
  have hne : g.reg ≠ (Reg.MSN_ERR_DFAULT t).reg := by
    simp only [hreg, Reg.MSN_DFLT, Reg.MSN_ERR_DFAULT, Reg.MSN_ERR, tileReg]
    omega
  rw [causesRecorded, State.flag, State.rd_wr_other _ _ _ _ hne]
  exact State.rd_wr_apart _ (Reg.MSN_DFLT_PC t) _ _ hreg (by simp [Reg.MSN_DFLT_PC]) hhi (.inr hlo)

/-- The fields of MSN_DFLT do not meet. -/
theorem dfltCauses_rd : (dfltCauses t cause sub s).rd (Reg.MSN_DFLT_VALID t) = 1 ∧ (dfltCauses t cause sub s).rd (Reg.MSN_DFLT_CAUSE2 t) = cause % 256 ∧
    (dfltCauses t cause sub s).rd (Reg.MSN_DFLT_CAUSE1 t) = bitsOf (s.mason t).xcause 7 0 := by
  rw [dfltCauses]
  refine ⟨?valid, ?cause2, ?cause1⟩
  case valid =>
    rw [State.rd_wr_apart, State.rd_wr_apart, State.rd_wr_apart, State.rd_wr_same] <;>
      simp [Reg.MSN_DFLT_VALID, Reg.MSN_DFLT_CAUSE2, Reg.MSN_DFLT_SUB2, Reg.MSN_DFLT_CAUSE1]
  case cause2 =>
    rw [State.rd_wr_apart, State.rd_wr_apart, State.rd_wr_same] <;> simp [Reg.MSN_DFLT_CAUSE2, Reg.MSN_DFLT_SUB2, Reg.MSN_DFLT_CAUSE1]
  case cause1 =>
    exact (State.rd_wr_same _ (Reg.MSN_DFLT_CAUSE1 t) _ (by simp [Reg.MSN_DFLT_CAUSE1]) (by simp [Reg.MSN_DFLT_CAUSE1])).trans (bitsOf_mod_width _ 7 0)

theorem doubleFaulted_causes : (doubleFaulted t cause sub xpc s).rd (Reg.MSN_DFLT_VALID t) = 1 ∧
    (doubleFaulted t cause sub xpc s).rd (Reg.MSN_DFLT_CAUSE2 t) = cause % 256 ∧
    (doubleFaulted t cause sub xpc s).rd (Reg.MSN_DFLT_CAUSE1 t) = bitsOf (s.mason t).xcause 7 0 := by
  obtain ⟨hvalid, hcause2, hcause1⟩ := dfltCauses_rd t cause sub s
  simp only [doubleFaulted_rd]
  refine ⟨(causesRecorded_rd _ _ _ _ _ rfl ?_ ?_).trans hvalid, (causesRecorded_rd _ _ _ _ _ rfl ?_ ?_).trans hcause2,
    (causesRecorded_rd _ _ _ _ _ rfl ?_ ?_).trans hcause1⟩ <;> simp [Reg.MSN_DFLT_VALID, Reg.MSN_DFLT_CAUSE2, Reg.MSN_DFLT_CAUSE1]

theorem doubleFaulted_dfault : (doubleFaulted t cause sub xpc s).isSet (Reg.MSN_ERR_DFAULT t) = true := by
  rw [State.isSet, doubleFaulted_rd, causesRecorded_dfault]
  rfl

end

end Sys2Proof.Machine

namespace Sys2Proof.Proofs
open Sys2Proof Sys2Proof.Machine

/-- Settles O30: outside a handler by what the trap's entry makes of the mason, inside one by what the double fault records before it is reported. -/
theorem trapEntry : Obligations.TrapEntry := by
  intro t cause sub status xpc xval s u hu
  refine ⟨fun htrap => ?free, fun htrap => ⟨doubleFaulted t cause sub xpc s, ?handling⟩⟩
  case free =>
    rw [hu, takeTrap_of_free htrap, trapEntry_mason]
    exact ⟨rfl, rfl, rfl, rfl, rfl, rfl, rfl, rfl, trapEntry_frame ..⟩
  case handling =>
    obtain ⟨hvalid, hcause2, hcause1⟩ := doubleFaulted_causes t cause sub xpc s
    rw [hu, takeTrap_of_handling htrap]
    exact ⟨doubleFault_eq .., doubleFaulted_run .., doubleFaulted_dfault .., fun hcause => hcause2.trans (Nat.mod_eq_of_lt hcause), hcause1, hvalid,
      doubleFaulted_frame ..⟩

end Sys2Proof.Proofs
end

section
/-! PROOFS. The mason's arithmetic on numbers is the arithmetic of 64-bit words (R491 to R493). -/
namespace Sys2Proof.Machine
open Sys2Proof

/-! ### Signed values -/

theorem sextInt_eq_toInt (w v : Nat) : sextInt w v = (BitVec.ofNat w v).toInt := by
  rw [BitVec.toInt_eq_toNat_cond, BitVec.toNat_ofNat]
  unfold sextInt
  cases w with
  | zero => simp [Nat.mod_one]
  | succ w =>
    have : 2 ^ (w + 1) = 2 * 2 ^ w := pow_succ' 2 w
    simp only [Nat.add_sub_cancel]
    split <;> split <;> simp <;> omega

theorem wrapNat_eq_toNat (w : Nat) (i : Int) : wrapNat w i = (BitVec.ofInt w i).toNat := (BitVec.toNat_ofInt ..).symm

@[simp] theorem sextInt_toNat (a : Word) : sextInt 64 a.toNat = a.toInt := by rw [sextInt_eq_toInt, BitVec.ofNat_toNat, BitVec.setWidth_eq]

theorem addSigned_eq_toNat (x n f : Nat) : addSigned x n f = (BitVec.ofNat 64 x + (BitVec.ofNat n f).signExtend 64).toNat := by
  rw [addSigned, wrapNat_eq_toNat, BitVec.ofInt_add, BitVec.ofInt_natCast, sextInt_eq_toInt, BitVec.signExtend]

theorem bitOf_eq_testBit (v n : Nat) : bitOf v n = v.testBit n := by
  rw [bitOf, Nat.testBit_eq_decide_div_mod_eq]; rfl

@[simp] theorem bitOf_toNat (a : Word) (n : Nat) : bitOf a.toNat n = a.getLsbD n := bitOf_eq_testBit ..

theorem low64_eq_toNat (n : Nat) : low64 n = (BitVec.ofNat 64 n).toNat := (BitVec.toNat_ofNat ..).symm

theorem bitsOf_shiftCount (v : Nat) : bitsOf v 5 0 = v % 64 := by simp [bitsOf]

theorem sra64_eq_toNat (a : Word) (n : Nat) : sra64 a.toNat n = (a.sshiftRight n).toNat := by
  rw [sra64, wrapNat_eq_toNat, sextInt_toNat, BitVec.sshiftRight, Int.shiftRight_eq_div_pow]
  norm_cast

theorem sext32_eq_toNat (n : Nat) : sext32 n = (((BitVec.ofNat 64 n).setWidth 32).signExtend 64).toNat := by
  rw [sext32, wrapNat_eq_toNat, sextInt_eq_toInt, BitVec.signExtend, BitVec.setWidth_ofNat_of_le (by decide)]

theorem mulHigh_eq_toNat (a b : Word) :
    wrapNat 64 (a.toInt * b.toInt / 2 ^ 64) = ((a.signExtend 128 * b.signExtend 128).extractLsb' 64 64).toNat := by
  rw [BitVec.signExtend, BitVec.signExtend, ← BitVec.ofInt_mul, BitVec.extractLsb'_toNat, BitVec.toNat_ofInt, Nat.shiftRight_eq_div_pow, wrapNat]
  omega

theorem toNat_ne_zero {b : Word} (hb : b ≠ 0) : b.toNat ≠ 0 := fun h => hb (BitVec.eq_of_toNat_eq h)

theorem divSigned_eq_toNat (a b : Word) : divSigned a.toNat b.toNat = (if b = 0 then BitVec.allOnes 64 else a.sdiv b).toNat := by
  by_cases hb : b = 0
  · simp [hb, divSigned]
  · rw [divSigned, if_neg (toNat_ne_zero hb), if_neg hb, wrapNat_eq_toNat, sextInt_toNat, sextInt_toNat]
    refine congrArg BitVec.toNat (BitVec.eq_of_toInt_eq ?_)
    rw [BitVec.toInt_ofInt, BitVec.toInt_sdiv]

theorem divUnsigned_eq_toNat (a b : Word) :
    (if b.toNat = 0 then 2 ^ 64 - 1 else a.toNat / b.toNat) = (if b = 0 then BitVec.allOnes 64 else a / b).toNat := by
  by_cases hb : b = 0
  · simp [hb]
  · rw [if_neg (toNat_ne_zero hb), if_neg hb, BitVec.toNat_udiv]

theorem remUnsigned_eq_toNat (a b : Word) : (if b.toNat = 0 then a.toNat else a.toNat % b.toNat) = (if b = 0 then a else a % b).toNat := by
  by_cases hb : b = 0
  · simp [hb]
  · rw [if_neg (toNat_ne_zero hb), if_neg hb, BitVec.toNat_umod]

theorem remSigned_eq_toNat (a b : Word) : remSigned a.toNat b.toNat = (if b = 0 then a else a.srem b).toNat := by
  by_cases hb : b = 0
  · simp [hb, remSigned]
  · rw [remSigned, if_neg (toNat_ne_zero hb), if_neg hb, wrapNat_eq_toNat, sextInt_toNat, sextInt_toNat, ← BitVec.toInt_srem, BitVec.ofInt_toInt]

/-! ### Counts of bits (R493) -/

theorem popcount_eq_toNat (a : Word) : popcount 64 a.toNat = (BitVec.ofNat 64 ((List.range 64).countP (fun i => a.getLsbD i))).toNat := by
  have hle : (List.range 64).countP (fun i => a.getLsbD i) ≤ 64 := List.countP_le_length.trans_eq List.length_range
  rw [BitVec.toNat_ofNat, Nat.mod_eq_of_lt (by omega), popcount, setBits, List.countP_eq_length_filter, funext (bitOf_toNat a)]

section
variable {p : Nat → Bool} {n k : Nat} (hbelow : ∀ i < k, p i = false) (hat : k < n → p k = true)
include hbelow hat

/-- The numbers below `n` as far as the first that satisfies a test. -/
theorem length_takeWhile_range (hk : k ≤ n) : ((List.range n).takeWhile (fun i => !p i)).length = k := by
  obtain ⟨m, rfl⟩ := Nat.exists_eq_add_of_le hk
  have hrest : ((List.range m).map (k + ·)).takeWhile (fun i => !p i) = [] := by
    cases m with
    | zero => rfl
    | succ m => rw [List.range_succ_eq_map, List.map_cons, List.takeWhile_cons_of_neg (by simp [hat])]
  rw [List.range_add, List.takeWhile_append_of_pos (by simpa using hbelow), hrest, List.append_nil, List.length_range]

theorem toNat_takeWhile_range (hk : k ≤ n) (hn : n < 2 ^ 64) : (BitVec.ofNat 64 ((List.range n).takeWhile (fun i => !p i)).length).toNat = k := by
  rw [length_takeWhile_range hbelow hat hk, BitVec.toNat_ofNat, Nat.mod_eq_of_lt (by omega)]

end

theorem ctz64_eq_toNat (a : Word) : ctz64 a.toNat = (BitVec.ofNat 64 ((List.range 64).takeWhile (fun i => !a.getLsbD i)).length).toNat := by
  rw [ctz64, funext (bitOf_toNat a)]
  symm
  cases hfind : (List.range 64).find? (fun i => a.getLsbD i) with
  | none => exact toNat_takeWhile_range (by simpa using hfind) (fun h => absurd h (lt_irrefl 64)) le_rfl (by decide)
  | some k =>
    obtain ⟨hat, hmem, hbelow⟩ := List.find?_range_eq_some.mp hfind
    exact toNat_takeWhile_range (by simpa using hbelow) (fun _ => hat) (List.mem_range.mp hmem).le (by decide)

theorem clz64_eq_toNat (a : Word) : clz64 a.toNat = (BitVec.ofNat 64 ((List.range 64).takeWhile (fun i => !a.getMsbD i)).length).toNat := by
  symm
  by_cases ha : a.toNat = 0
  · obtain rfl : a = 0 := BitVec.eq_of_toNat_eq ha
    exact toNat_takeWhile_range (by simp) (fun h => absurd h (lt_irrefl 64)) le_rfl (by decide)
  · have hlog : a.toNat.log2 < 64 := (Nat.log2_lt ha).mpr a.isLt
    rw [clz64, if_neg ha]
    refine toNat_takeWhile_range (fun i hi => ?above) (fun h => ?top) (by omega) (by decide)
    case above =>
      rw [BitVec.getMsbD_eq_getLsbD, BitVec.getLsbD, Nat.testBit_lt_two_pow, Bool.and_false]
      exact Nat.lt_log2_self.trans_le (Nat.pow_le_pow_right (by decide) (by omega))
    case top =>
      rw [BitVec.getMsbD_eq_getLsbD, show 64 - 1 - (63 - a.toNat.log2) = a.toNat.log2 by omega, BitVec.getLsbD, Nat.testBit_log2 ha, decide_eq_true h,
        Bool.and_true]

end Sys2Proof.Machine
end

section
/-! PROOFS. The mason's plain arithmetic instructions: each puts its word into rd and changes nothing else (R491 to R493). -/
namespace Sys2Proof.Machine
open Sys2Proof

/-! ### Registers as words -/

theorem regWord_toNat (s : State) (t : Tile) (r : Nat) : (regWord s t r).toNat = s.mreg t r := by
  have hlt : s.mreg t r < 2 ^ 64 := by
    rw [State.mreg, Mason.get]
    split
    · decide
    · exact BitVec.isLt _
  rw [BitVec.toNat_ofNat, Nat.mod_eq_of_lt hlt]

section
variable {t : Tile} {e : MemEnv} {op : MOp} {i : Instr} {f : Nat → Nat → Nat}

/-- A register operation computes a function of words where its function of numbers agrees with that on the values of words. -/
theorem registerForm_of_toNat {F : Word → Word → Word} (hexec : ∀ s, exec i s = ended s (execute t op e (aluR t f) s))
    (hf : ∀ a b : Word, f a.toNat b.toNat = (F a b).toNat) : RegisterForm t e op i F := fun s s' w h =>
  does_of_masonAt (hexec s) h (by rw [aluR, ← regWord_toNat, ← regWord_toNat, hf])

theorem immediateForm_of_toNat {F : Word → BitVec 16 → Word} (hexec : ∀ s, exec i s = ended s (execute t op e (aluI t f) s))
    (hf : ∀ (a : Word) (i : BitVec 16), f a.toNat i.toNat = (F a i).toNat) : ImmediateForm t e op i F := fun s s' w h =>
  does_of_masonAt (hexec s) h (by
    have himm : (BitVec.ofNat 16 (iImm w)).toNat = iImm w := Nat.mod_eq_of_lt (bitsOf_lt w 15 0)
    simp only [aluI, ← hf, himm, regWord_toNat])

end

/-! ### Each operation on the values of words -/

section
variable (a b : Word)

theorem sub_eq_ofNat : a - b = BitVec.ofNat 64 (a.toNat + 2 ^ 64 - b.toNat) := by
  have := b.isLt
  rw [show a.toNat + 2 ^ 64 - b.toNat = 2 ^ 64 - b.toNat + a.toNat by omega]
  rfl

theorem low64_sub : low64 (a.toNat + 2 ^ 64 - b.toNat) = (a - b).toNat := by rw [sub_eq_ofNat, low64_eq_toNat]

theorem low64_shift (n : Nat) : low64 (a.toNat * 2 ^ n) = (a <<< n).toNat := by rw [BitVec.toNat_shiftLeft, Nat.shiftLeft_eq, low64]

theorem div_shift (n : Nat) : a.toNat / 2 ^ n = (a >>> n).toNat := by rw [BitVec.toNat_ushiftRight, Nat.shiftRight_eq_div_pow]

theorem bit_eq_toNat (c : Bool) : bit c = (if c = true then 1 else 0 : Word).toNat := by cases c <;> rfl

theorem bit_beq : bit (a.toNat == b.toNat) = (if a = b then 1 else 0 : Word).toNat := by
  simp only [bit_eq_toNat, beq_iff_eq, BitVec.toNat_inj]

theorem min_signed : (if sextInt 64 b.toNat < sextInt 64 a.toNat then b.toNat else a.toNat) = (if a.sle b then a else b).toNat := by
  simp only [sextInt_toNat, BitVec.sle_iff_toInt_le, apply_ite BitVec.toNat, ← not_le, ite_not]

theorem max_signed : (if sextInt 64 a.toNat < sextInt 64 b.toNat then b.toNat else a.toNat) = (if a.sle b then b else a).toNat := by
  simp only [sextInt_toNat, BitVec.sle_iff_toInt_le, apply_ite BitVec.toNat]
  by_cases h : a.toInt < b.toInt
  · rw [if_pos h, if_pos h.le]
  · by_cases heq : a.toInt = b.toInt
    · rw [if_neg h, if_pos heq.le, BitVec.eq_of_toInt_eq heq]
    · rw [if_neg h, if_neg (by omega)]

theorem min_unsigned : min a.toNat b.toNat = (if a.ule b then a else b).toNat := by
  simp only [BitVec.ule_iff_toNat_le, apply_ite BitVec.toNat, Nat.min_def]

theorem max_unsigned : max a.toNat b.toNat = (if a.ule b then b else a).toNat := by
  simp only [BitVec.ule_iff_toNat_le, apply_ite BitVec.toNat, Nat.max_def]

theorem mulHighUnsigned_eq_toNat : a.toNat * b.toNat / 2 ^ 64 = ((a.setWidth 128 * b.setWidth 128).extractLsb' 64 64).toNat := by
  have hlt : a.toNat * b.toNat < 2 ^ 128 := (Nat.mul_lt_mul'' a.isLt b.isLt).trans_eq (by decide)
  rw [BitVec.extractLsb'_toNat, BitVec.toNat_mul, BitVec.toNat_setWidth_of_le (by decide), BitVec.toNat_setWidth_of_le (by decide),
    Nat.shiftRight_eq_div_pow, Nat.mod_eq_of_lt hlt, Nat.mod_eq_of_lt (Nat.div_lt_of_lt_mul (n := 2 ^ 64) hlt)]

end

/-- Settles O23: on the values of words each operation on numbers is the one on words (R492). -/
theorem aluRegisterForms : Obligations.AluRegisterForms := by
  refine ⟨fun t e => ⟨?add, ?sub, ?and, ?or, ?xor, ?andn, ?sll, ?srl, ?sra, ?mul, ?addw, ?subw⟩,
    fun t e => ⟨?cmpeq, ?cmplt, ?cmpltu, ?min, ?max, ?minu, ?maxu⟩⟩
  case add => exact registerForm_of_toNat (fun _ => rfl) fun _ _ => rfl
  case sub => exact registerForm_of_toNat (fun _ => rfl) low64_sub
  case and => exact registerForm_of_toNat (fun _ => rfl) fun _ _ => rfl
  case or => exact registerForm_of_toNat (fun _ => rfl) fun _ _ => rfl
  case xor => exact registerForm_of_toNat (fun _ => rfl) fun _ _ => rfl
  case andn => exact registerForm_of_toNat (fun _ => rfl) fun a b => by rw [BitVec.toNat_and, BitVec.toNat_not]; rfl
  case sll => exact registerForm_of_toNat (fun _ => rfl) fun a b => by rw [bitsOf_shiftCount, low64_shift]
  case srl => exact registerForm_of_toNat (fun _ => rfl) fun a b => by rw [bitsOf_shiftCount, div_shift]
  case sra => exact registerForm_of_toNat (fun _ => rfl) fun a b => by rw [bitsOf_shiftCount, sra64_eq_toNat]
  case mul => exact registerForm_of_toNat (fun _ => rfl) fun a b => (BitVec.toNat_mul a b).symm
  case addw => exact registerForm_of_toNat (fun _ => rfl) fun a b => sext32_eq_toNat _
  case subw => exact registerForm_of_toNat (fun _ => rfl) fun a b => by rw [sub_eq_ofNat, sext32_eq_toNat]
  case cmpeq => exact registerForm_of_toNat (fun _ => rfl) bit_beq
  case cmplt => exact registerForm_of_toNat (fun _ => rfl) fun a b => by rw [bit_eq_toNat, sextInt_toNat, sextInt_toNat]; rfl
  case cmpltu => exact registerForm_of_toNat (fun _ => rfl) fun a b => bit_eq_toNat _
  case min => exact registerForm_of_toNat (fun _ => rfl) min_signed
  case max => exact registerForm_of_toNat (fun _ => rfl) max_signed
  case minu => exact registerForm_of_toNat (fun _ => rfl) min_unsigned
  case maxu => exact registerForm_of_toNat (fun _ => rfl) max_unsigned

/-- Settles O24, as O23; the quotient and the remainder of the least number by -1 are evaluated (R492, R493). -/
theorem divisionAndCounts : Obligations.DivisionAndCounts := by
  refine fun t e => ⟨?mulh, ?mulhu, ?div, ?divu, ?rem, ?remu, ?popc, ?clz, ?ctz, ?quotient, ?remainder⟩
  case mulh => exact registerForm_of_toNat (fun _ => rfl) fun a b => by rw [sextInt_toNat, sextInt_toNat, mulHigh_eq_toNat]
  case mulhu => exact registerForm_of_toNat (fun _ => rfl) mulHighUnsigned_eq_toNat
  case div => exact registerForm_of_toNat (fun _ => rfl) divSigned_eq_toNat
  case divu => exact registerForm_of_toNat (fun _ => rfl) divUnsigned_eq_toNat
  case rem => exact registerForm_of_toNat (fun _ => rfl) remSigned_eq_toNat
  case remu => exact registerForm_of_toNat (fun _ => rfl) remUnsigned_eq_toNat
  case popc => exact registerForm_of_toNat (fun _ => rfl) fun a _ => popcount_eq_toNat a
  case clz => exact registerForm_of_toNat (fun _ => rfl) fun a _ => clz64_eq_toNat a
  case ctz => exact registerForm_of_toNat (fun _ => rfl) fun a _ => ctz64_eq_toNat a
  case quotient => decide
  case remainder => decide

/-! ### Immediates and moves (R491) -/

theorem bitsOf_halfword (w : Nat) : bitsOf w 17 16 = iRa w % 4 := by
  simp only [iRa, bitsOf]
  omega

theorem toNat_setWidth_imm (i : BitVec 16) : (i.setWidth 64).toNat = i.toNat := BitVec.toNat_setWidth_of_le (by decide)

theorem testBit_withBits {v hi lo : Nat} (x : Nat) (h : lo ≤ hi + 1) (n : Nat) :
    (withBits v hi lo x).testBit n = if lo ≤ n ∧ n ≤ hi then x.testBit (n - lo) else v.testBit n := by
  have key : ∀ u : Nat, u.testBit n = (bitsOf u n n).testBit 0 := fun u => by rw [testBit_bitsOf]; simp
  by_cases hlo : lo ≤ n
  · by_cases hhi : n ≤ hi
    · rw [if_pos ⟨hlo, hhi⟩]
      have hbit := congrArg (·.testBit (n - lo)) (bitsOf_withBits_same v hi lo x h)
      simp only [testBit_bitsOf, Nat.testBit_mod_two_pow, Nat.sub_add_cancel hlo] at hbit
      simpa [show n - lo < hi + 1 - lo by omega] using hbit
    · rw [if_neg (by omega), key, bitsOf_withBits_above _ _ _ _ _ _ h (by omega), ← key]
  · rw [if_neg (by omega), key, bitsOf_withBits_below _ _ _ _ _ _ h (by omega), ← key]

/-- A halfword of a word replaced. -/
theorem withBits_halfword (a : Word) {x k : Nat} (hx : x < 2 ^ 16) (hk : k < 4) :
    withBits a.toNat (16 * k + 15) (16 * k) x = ((a &&& ~~~(0xFFFF#64 <<< (16 * k))) ||| BitVec.ofNat 64 (x * 2 ^ (16 * k))).toNat := by
  have hfield : ∀ n, 16 ≤ n → x.testBit n = false := fun n hn => Nat.testBit_lt_two_pow (hx.trans_le (Nat.pow_le_pow_right (by decide) hn))
  refine Nat.eq_of_testBit_eq fun n => ?_
  rw [testBit_withBits x (by omega), BitVec.testBit_toNat, BitVec.testBit_toNat]
  simp only [BitVec.getLsbD_or, BitVec.getLsbD_and, BitVec.getLsbD_not, BitVec.getLsbD_shiftLeft, BitVec.getLsbD_ofNat, Nat.testBit_mul_two_pow,
    show 65535 = 2 ^ 16 - 1 from rfl, Nat.testBit_two_pow_sub_one]
  by_cases hlo : 16 * k ≤ n
  · by_cases hhi : n ≤ 16 * k + 15
    · simp [hlo, hhi, hlo.not_gt, show n < 64 by omega, show n - 16 * k < 16 by omega, show n - 16 * k < 64 by omega]
    · by_cases hn : n < 64
      · simp [hhi, hn, hfield (n - 16 * k) (by omega), show ¬ n - 16 * k < 16 by omega]
      · simp [hhi, hn, BitVec.getLsbD_of_ge a n (by omega)]
  · simp [hlo, show n < 16 * k by omega, show n < 64 by omega]

/-- Settles O25, as O23, with IMM16 for RB; MOVK replaces a halfword of rd. -/
theorem immediateResults : Obligations.ImmediateResults := by
  refine fun t e => ⟨?addi, ?andi, ?ori, ?xori, ?sll, ?srl, ?sra, ?movw, ?movk⟩
  case addi => exact immediateForm_of_toNat (fun _ => rfl) fun a i => by rw [addSigned_eq_toNat, BitVec.ofNat_toNat, BitVec.ofNat_toNat]; simp
  case andi => exact immediateForm_of_toNat (fun _ => rfl) fun a i => by rw [BitVec.toNat_and, toNat_setWidth_imm]; rfl
  case ori => exact immediateForm_of_toNat (fun _ => rfl) fun a i => by rw [BitVec.toNat_or, toNat_setWidth_imm]; rfl
  case xori => exact immediateForm_of_toNat (fun _ => rfl) fun a i => by rw [BitVec.toNat_xor, toNat_setWidth_imm]; rfl
  case sll => exact immediateForm_of_toNat (fun _ => rfl) fun a i => by rw [bitsOf_shiftCount, low64_shift]
  case srl => exact immediateForm_of_toNat (fun _ => rfl) fun a i => by rw [bitsOf_shiftCount, div_shift]
  case sra => exact immediateForm_of_toNat (fun _ => rfl) fun a i => by rw [bitsOf_shiftCount, sra64_eq_toNat]
  case movw => exact fun s s' w h => does_of_masonAt rfl h (by rw [bitsOf_halfword])
  case movk =>
    refine fun s s' w h => does_of_masonAt rfl h ?_
    simp only [bitsOf_halfword, ← withBits_halfword _ (show iImm w < 2 ^ 16 from bitsOf_lt w 15 0) (Nat.mod_lt _ (show 0 < 4 by decide)), regWord_toNat]

end Sys2Proof.Machine
end

section
/-! PROOFS. The mason's branches, register windows and system instructions (R484 to R487, R491, R494, R511, R512, R522, R527, R528). -/
namespace Sys2Proof.Machine
open Sys2Proof

/-! ### Branches and jumps (R487, R491, R511, R512) -/

/-- A branch target: the PC and a signed number of words (R491). -/
theorem pcPlus_eq_toNat (pc n f : Nat) : pcPlus pc n f = (BitVec.ofNat 64 pc + ((BitVec.ofNat n f).signExtend 64 <<< 2)).toNat := by
  have hwords : BitVec.ofInt 64 (4 * sextInt n f) = (BitVec.ofNat n f).signExtend 64 <<< 2 := by
    rw [BitVec.ofInt_mul, sextInt_eq_toInt, ← BitVec.signExtend, BitVec.mul_comm]
    exact (BitVec.shiftLeft_eq_mul_twoPow _ 2).symm
  rw [pcPlus, wrapNat_eq_toNat, BitVec.ofInt_add, BitVec.ofInt_natCast, hwords]

theorem branchCond_eq (cond : Nat) (a : Word) : branchCond cond a.toNat = match cond with
    | 0 => a == 0
    | 1 => a != 0
    | 2 => a.slt 0
    | 3 => !a.slt 0
    | 4 => a.sle 0
    | 5 => !a.sle 0
    | c => c == 6 := by
  have hzero : (a.toNat == 0) = (a == 0) := by rw [Bool.eq_iff_iff, beq_iff_eq, beq_iff_eq, ← BitVec.toNat_inj]; rfl
  match cond with
  | 0 => simp only [branchCond, hzero]
  | 1 => simp only [branchCond, bne, hzero]
  | 2 => simp only [branchCond, sextInt_toNat, BitVec.slt_eq_decide, BitVec.ofNat_eq_ofNat, BitVec.toInt_zero]
  | 3 => simp only [branchCond, sextInt_toNat, BitVec.slt_eq_decide, BitVec.ofNat_eq_ofNat, BitVec.toInt_zero, ← decide_not, not_lt]
  | 4 => simp only [branchCond, sextInt_toNat, BitVec.sle_eq_decide, BitVec.ofNat_eq_ofNat, BitVec.toInt_zero]
  | 5 => simp only [branchCond, sextInt_toNat, BitVec.sle_eq_decide, BitVec.ofNat_eq_ofNat, BitVec.toInt_zero, ← decide_not, not_le]
  | 6 => simp only [branchCond]; rfl
  | c + 7 => simp [branchCond]

/-- An address with its low two bits dropped (log entry 137). -/
theorem toNat_aligned (a : Word) : a.toNat / 4 * 4 = (a >>> 2 <<< 2).toNat := by
  rw [BitVec.toNat_shiftLeft, BitVec.toNat_ushiftRight, Nat.shiftLeft_eq, Nat.shiftRight_eq_div_pow]
  omega

theorem bitsOf_summary (w : Nat) : bitsOf w 19 16 = iRa w % 16 := by
  simp only [iRa, bitsOf]
  omega

theorem ofNat_bitsOf (w hi n : Nat) (h : n = hi + 1) : BitVec.ofNat n (bitsOf w hi 0) = BitVec.ofNat n w := by
  subst h
  refine BitVec.eq_of_toNat_eq ?_
  simp [bitsOf]

/-- Settles O27. That JLNK drops the low two bits of its target is the model's choice (log entry 137). -/
theorem branches : Obligations.Branches := by
  refine fun t e => ⟨?br, ?brs, ?call, ?jlnk⟩ <;> refine fun s s' w h => does_of_masonAt rfl h ?_
  case br =>
    have htaken := regWord_toNat s' t (iRa w) ▸ branchCond_eq (iRd w) (regWord s' t (iRa w))
    exact congrArg₂ (fun (taken : Bool) target => completeAt t (if taken then target else (s'.mason t).pc + 4) s') htaken (pcPlus_eq_toNat ..)
  case brs => simp only [bitsOf_summary, pcPlus_eq_toNat]
  case call => simp only [pcPlus_eq_toNat, ofNat_bitsOf]
  case jlnk => simp only [addSigned_eq_toNat, toNat_aligned]

/-! ### Register windows (R484, R485) -/

theorem tileReports_quiet {e : MemEnv} (hunc : e.storeUnc = []) (s : State) : tileReports { e with masonUnc := [], masonCorr := [] } s = s := by
  rw [tileReports, hunc]
  rfl

/-- Settles O28: each instruction takes the branch that the resident frames and the spill bounds select. -/
theorem registerWindows : Obligations.RegisterWindows := by
  refine fun t e => ⟨?enter, ?overflow, ?leave, ?underflow, ?spill, ?fill⟩ <;> intro s s' w h
  case enter =>
    refine fun hres => does_of_masonAt rfl h ?_
    simp only [if_neg hres, addSigned_eq_toNat]
  case overflow => exact fun hres => does_of_masonAt rfl h (if_pos hres)
  case leave =>
    refine fun hres => does_of_masonAt rfl h ?_
    simp only [if_neg hres, addSigned_eq_toNat]
  case underflow => exact fun hres hspill => does_of_masonAt rfl h ((if_pos hres).trans (if_neg hspill.ne'))
  case spill =>
    refine fun hres hbound => does_of_masonAt rfl h ?_
    simp only [hres, hbound.not_gt, decide_false, Bool.or_self, Bool.false_eq_true, if_false]
  case fill =>
    refine fun hres hspill hbound hunc hmark => does_of_masonAt rfl h ?_
    simp only [tileReports_quiet hunc, hmark, hres, hspill, hbound.not_gt, decide_false, Bool.or_self, Bool.false_eq_true, if_false]
    exact congrArg (complete t) (s'.onMason_congr rfl)

/-! ### System instructions (R486, R494, R522, R527, R528) -/

theorem completeAt_mason (t : Tile) (pc : Nat) (s : State) :
    (completeAt t pc s).mason t = { s.mason t with pc := pc, run := .running, blocked := none, stall := stallNone } :=
  (tally_mason ..).trans ((State.mason_congr (State.count_tiles ..) t).trans (s.onMason_mason t _))

/-- Settles O29. That XRET takes a saved window of 7 as window 0 is the model's choice (log entry 38). -/
theorem systemInstructions : Obligations.SystemInstructions := by
  refine fun t e => ⟨?nop, ?yld, ?brk, ?halt, ?susp, ?srd, ?swr, ?xret⟩ <;> refine fun s s' w h => does_of_masonAt rfl h ?_
  case yld =>
    have hmason := completeAt_mason t ((s'.mason t).pc + 4) s'
    simp only [complete, hmason]
  all_goals rfl

end Sys2Proof.Machine
end

section
/-! PROOFS. The mason's loads, stores and atomics (R495 to R498): a mason that reaches an instruction has its own store at hand. -/
namespace Sys2Proof.Machine
open Sys2Proof

/-! ### Whether a tile runs does not depend on the tiles' registers (R292, R848) -/

section
variable {s u : State} (hrd : ∀ g : FieldRef, g.reg < 0x80000000 → u.rd g = s.rd g) (t : Tile)
include hrd

theorem siteOf_congr : siteOf u t = siteOf s t := by
  have hreg : (Reg.PWR_SITEMAP_XCUR (tileBrick t)).reg < 0x80000000 := by
    have := (tileBrick t).isLt
    simp only [Reg.PWR_SITEMAP_XCUR, Reg.PWR_SITEMAP, pkgReg]
    omega
  rw [siteOf, hrd _ hreg, siteOf]

theorem siteState_congr : siteState u t = siteState s t := by
  have hsite : siteOf s t ≤ 32 := by
    rw [siteOf]
    split <;> omega
  have hreg : (Reg.PWR_DOM_CUR (siteDomain s t)).reg < 0x80000000 := by
    have := (tileBrick t).isLt
    simp only [Reg.PWR_DOM_CUR, Reg.PWR_DOM, pkgReg, siteDomain]
    omega
  rw [siteState, siteDomain, siteOf_congr hrd t, ← siteDomain, hrd _ hreg, siteState]

theorem tileFenced_congr : tileFenced u t = tileFenced s t := by
  have hreg : (Reg.SAF_FENCED_FENCED (tileBrick t)).reg < 0x80000000 := by
    have := (tileBrick t).isLt
    simp only [Reg.SAF_FENCED_FENCED, Reg.SAF_FENCED, brickReg]
    omega
  rw [tileFenced, hrd _ hreg, tileFenced]

theorem tileRuns_congr (hpower : u.power = s.power) : tileRuns u t = tileRuns s t := by
  rw [tileRuns, siteState_congr hrd t, tileFenced_congr hrd t, hpower, tileRuns]

end

theorem tileRuns_wr (s : State) (t : Tile) {f : FieldRef} (v : Nat) (hf : 0x80000000 ≤ f.reg) : tileRuns (s.wr f v) t = tileRuns s t :=
  tileRuns_congr (fun g hg => s.rd_wr_other f g v (by omega)) t (State.wr_power ..)

theorem tileRuns_raise (s : State) (t : Tile) (code : Nat) (args : List Nat) : tileRuns (s.raise code args) t = tileRuns s t :=
  tileRuns_congr (fun _ _ => State.raise_rd ..) t (State.raise_power ..)

/-- What the mason stores report is written to registers of the tiles (R489). -/
theorem tileRuns_tileReports {e : MemEnv} (he : e.storeUnc = []) (s : State) (t : Tile) : tileRuns (tileReports e s) t = tileRuns s t := by
  rw [tileReports, he]
  refine (State.each_view (V := fun s => tileRuns s t) (fun s u => ?corrected) _ _).trans
    (State.each_view (V := fun s => tileRuns s t) (fun s u => ?uncorrectable) _ _)
  case corrected => exact tileRuns_wr s t _ (by simp only [Reg.MSN_CNT1_MSCORR, Reg.MSN_CNT1, tileReg]; omega)
  case uncorrectable =>
    exact (tileRuns_raise ..).trans (tileRuns_wr s t _ (by simp only [Reg.MSN_ERR_FETCHUNC, Reg.MSN_ERR, tileReg]; omega))

/-- Where a mason reaches an instruction its tile runs, and nothing has changed but what the mason stores report of the fetch (R292, R487, R848). -/
theorem masonAt_inv {t : Tile} {e : MemEnv} {s s' : State} {op : MOp} {w : Nat} (h : MasonAt t e s op w s') :
    tileRuns s t = true ∧ s' = tileReports { e with storeUnc := [] } s := by
  unfold MasonAt boundary at h
  dsimp only at h
  split at h
  · cases h
  · next hgo =>
    refine ⟨by simp_all, ?_⟩
    iterate 4 (split at h; · cases h)
    split at h
    · cases h
    · exact (Prod.mk.inj h).2.symm

theorem tileRuns_of_masonAt {t : Tile} {e : MemEnv} {s s' : State} {op : MOp} {w : Nat} (h : MasonAt t e s op w s') : tileRuns s' t = true := by
  obtain ⟨hruns, rfl⟩ := masonAt_inv h
  rw [tileRuns_tileReports rfl, hruns]

/-! ### The tile's own store (R296, R488) -/

theorem tileServes_of_runs {s : State} {t : Tile} (h : tileRuns s t = true) : tileServes s t = true := by
  simp only [tileRuns, Bool.and_eq_true] at h
  obtain ⟨⟨hon, -⟩, -⟩ := h
  simp [tileServes, hon]

theorem tileFenced_of_runs {s : State} {t : Tile} (h : tileRuns s t = true) : tileFenced s t = false := by
  simp only [tileRuns, Bool.and_eq_true] at h
  obtain ⟨⟨-, hfence⟩, -⟩ := h
  simpa using hfence

section
variable {s : State} {t : Tile} (hruns : tileRuns s t = true) {off : Nat}
include hruns

theorem slotLoad_of_runs {n : Nat} {e : MemEnv} (hin : off + n ≤ tileStoreSize) (hunc : e.storeUnc = []) (hmark : storeMarked s t off n = false) :
    slotLoad t off n e s = ((0x00, storeBytes s t off n), s) := by
  simp only [slotLoad, tileFenced_of_runs hruns, tileServes_of_runs hruns, hin, tileReports_quiet hunc, hmark]
  rfl

theorem slotStore_of_runs {bs : Bytes} (hin : off + bs.length ≤ tileStoreSize) (hmark : storeMarked (storePut t off bs false s) t off bs.length = false) :
    slotStore t off bs true s = ((0x00, []), storePut t off bs false s) := by
  simp only [slotStore, tileFenced_of_runs hruns, tileServes_of_runs hruns, hin, hmark]
  rfl

end

/-! ### Loads, stores and atomics (R495 to R498) -/

theorem bitsOf_code (w : Nat) : bitsOf w 15 13 = iMod w / 2 := by
  simp only [iMod, bitsOf]
  omega

theorem bitsOf_size (w : Nat) : bitsOf w 15 14 = iMod w / 4 := by
  simp only [iMod, bitsOf]
  omega

theorem bitOf_bypass (w : Nat) : bitOf w 12 = (iMod w % 2 == 1) := by
  simp only [iMod, bitsOf, bitOf]
  congr 1
  omega

theorem whenRoom_of_room {t : Tile} {s : State} (hroom : queueFull s t = false) (f : State → State) : whenRoom t f s = f s := if_neg (by simp [hroom])

theorem block_number (t : Tile) (why : Nat) (f : Nat → Blocked) (s : State) : (block t why f s).1 = (s.mason t).blockNo := rfl

/-- Blocking leaves the label under which the mason's operation goes out. -/
theorem masonOp_block (t : Tile) (why : Nat) (f : Nat → Blocked) (s : State) (a opc aux : Nat) (payload : Bytes) :
    masonOp (block t why f s).2 t a opc aux payload = masonOp s t a opc aux payload := by
  rw [masonOp, block, State.onMason_mason, masonOp]

theorem loadStore_addr (s : State) (t : Tile) (w : Nat) :
    addSigned (s.mreg t (iRa w)) 12 (bitsOf w 11 0) = (regWord s t (iRa w) + (BitVec.ofNat 12 w).signExtend 64).toNat := by
  rw [addSigned_eq_toNat, ofNat_bitsOf _ _ _ rfl]

section
variable {t : Tile} {e : MemEnv} {s s' : State} {w a bytes : Nat} (hlabel : labelPermitted s' t = true)
  (haddr : a = (regWord s' t (iRa w) + (BitVec.ofNat 12 w).signExtend 64).toNat) (hbytes : bytes = 2 ^ (iMod w / 4)) (hal : a % bytes = 0)
include hlabel haddr hbytes hal

theorem does_ld_of_own {off : Nat} (h : MasonAt t e s .ld w s') (hoff : ownOffset s' t a = some off)
    (hkey : ownKey t rightLD 0x01 a bytes s' = (true, s')) (hin : off + bytes ≤ tileStoreSize) (hunc : e.storeUnc = [])
    (hmark : storeMarked s' t off bytes = false) :
    Does (.ld t e) s (tally t 53 bytes (completeWith t (iRd w)
      (loadedValue bytes (iMod w / 2 % 2 == 0 && decide (iMod w / 2 < 6)) (s'.bytes (tileStoreKey t off) bytes)) s')) := by
  refine does_of_masonAt rfl h ?_
  have hbytes : 2 ^ (iMod w / 2 / 2) = bytes := by rw [hbytes, Nat.div_div_eq_div_mul]
  simp [underLabel_of_permitted hlabel, loadStore_addr, ← haddr, bitsOf_code, hbytes, hal, hoff, hkey,
    slotLoad_of_runs (tileRuns_of_masonAt h) hin hunc hmark, storeBytes, Bool.and_comm]

theorem does_ld_of_other (h : MasonAt t e s .ld w s') (hoff : ownOffset s' t a = none) (hbypass : iMod w % 2 = 1) (hroom : queueFull s' t = false) :
    Does (.ld t e) s (issueOp (tileBrick t) (.masonLoad t.val (s'.mason t).blockNo) { masonOp s' t a 0x01 0 [] with size := bytes }
      (block t stallLoad (fun n => .load n (iRd w) bytes (iMod w / 2 % 2 == 0 && decide (iMod w / 2 < 6)) a) s').2) := by
  refine does_of_masonAt rfl h ?_
  have hbytes : 2 ^ (iMod w / 2 / 2) = bytes := by rw [hbytes, Nat.div_div_eq_div_mul]
  simp [underLabel_of_permitted hlabel, loadStore_addr, ← haddr, bitsOf_code, hbytes, hal, hoff, bitOf_bypass, hbypass, whenRoom_of_room hroom,
    block_number, masonOp_block, Bool.and_comm]

theorem does_st_of_own {off : Nat} (h : MasonAt t e s .st w s') (hoff : ownOffset s' t a = some off)
    (hkey : ownKey t rightST 0x02 a bytes s' = (true, s')) (hin : off + bytes ≤ tileStoreSize)
    (hmark : storeMarked (storePut t off (leBytes bytes (s'.mreg t (iRd w))) false s') t off bytes = false) :
    Does (.st t e) s (tally t 54 bytes (complete t (storePut t off (leBytes bytes (s'.mreg t (iRd w))) false s'))) := by
  refine does_of_masonAt rfl h ?_
  have hstore := slotStore_of_runs (tileRuns_of_masonAt h) (bs := leBytes bytes (s'.mreg t (iRd w))) (off := off) (by rwa [length_leBytes])
    (by rwa [length_leBytes])
  simp [underLabel_of_permitted hlabel, loadStore_addr, ← haddr, bitsOf_size, ← hbytes, hal, hoff, hkey, hstore]

theorem does_st_of_other (h : MasonAt t e s .st w s') (hoff : ownOffset s' t a = none) (hroom : queueFull s' t = false) :
    Does (.st t e) s (tally t 54 bytes (complete t
      (issueOp (tileBrick t) (.masonPosted t.val) (masonOp s' t a 0x02 0 (leBytes bytes (s'.mreg t (iRd w)))) s'))) := by
  refine does_of_masonAt rfl h ?_
  simp [underLabel_of_permitted hlabel, loadStore_addr, ← haddr, bitsOf_size, ← hbytes, hal, hoff, whenRoom_of_room hroom]

end

section
variable {t : Tile} {e : MemEnv} {s s' : State} {w : Nat} (hlabel : labelPermitted s' t = true) (h : MasonAt t e s .atom w s')
  (hal : s'.mreg t (iRa w) % ((fmtWidth (bitsOf w 5 3)).getD 8) = 0) (hoff : ownOffset s' t (s'.mreg t (iRa w)) = none) (hroom : queueFull s' t = false)
include hlabel h hal hoff hroom

/-- The bytes that an ATOM sends: RB, with RD before it for a compare and swap (R498). -/
def atomBytes (s : State) (t : Tile) (w : Nat) : Bytes :=
  let wd := (fmtWidth (bitsOf w 5 3)).getD 8
  if atomOpc w = 0x12 then leBytes wd (s.mreg t (iRd w)) ++ leBytes wd (s.mreg t (iRb w)) else leBytes wd (s.mreg t (iRb w))

theorem does_atom_of_class1 (hclass : atomOpc w < 0x20) :
    Does (.atom t e) s (issueOp (tileBrick t) (.masonLoad t.val ((tally t 55 1 s').mason t).blockNo)
      (masonOp (tally t 55 1 s') t (s'.mreg t (iRa w)) (atomOpc w) (bitsOf w 5 3) (atomBytes s' t w))
      (block t stallAnswer (fun n => .atom n (iRd w) ((fmtWidth (bitsOf w 5 3)).getD 8) (s'.mreg t (iRa w))) (tally t 55 1 s')).2) := by
  refine does_of_masonAt rfl h ?_
  simp [underLabel_of_permitted hlabel, hal, hoff, whenRoom_of_room hroom, hclass, block_number, masonOp_block, atomBytes]

theorem does_atom_of_class2 (hclass : 0x20 ≤ atomOpc w) :
    Does (.atom t e) s (complete t (issueOp (tileBrick t) (.masonPosted t.val)
      (masonOp (tally t 55 1 s') t (s'.mreg t (iRa w)) (atomOpc w) (bitsOf w 5 3) (atomBytes s' t w)) (tally t 55 1 s'))) := by
  refine does_of_masonAt rfl h ?_
  simp [underLabel_of_permitted hlabel, hal, hoff, whenRoom_of_room hroom, hclass.not_gt, atomBytes]

end

/-- Settles O31: a mason that reaches an instruction runs, so that its own store answers; any other location gets an operation. -/
theorem masonMemoryAccess : Obligations.MasonMemoryAccess := fun _ _ _ _ _ _ _ _ hlabel haddr =>
  ⟨fun h hbytes hal hoff hkey hin hunc hmark => does_ld_of_own hlabel haddr hbytes hal h hoff hkey hin hunc hmark,
    fun h hbytes hal hoff hbypass hroom => does_ld_of_other hlabel haddr hbytes hal h hoff hbypass hroom,
    fun h hbytes hal hoff hkey hin hmark => does_st_of_own hlabel haddr hbytes hal h hoff hkey hin hmark,
    fun h hbytes hal hoff hroom => does_st_of_other hlabel haddr hbytes hal h hoff hroom,
    fun h hal hoff hroom => ⟨does_atom_of_class1 hlabel h hal hoff hroom, does_atom_of_class2 hlabel h hal hoff hroom⟩⟩

end Sys2Proof.Machine
end

section
/-! PROOFS. The outcomes of a mason's operations, and MSN_CTL (R495, R518, R520, R524 to R528, R535). -/
namespace Sys2Proof.Machine
open Sys2Proof

theorem exec_masonLoadReturn (t : Tile) (s : State) : exec (.masonLoadReturn t) s = execMasonLoadReturn t s := rfl
theorem exec_postedOutcome (t : Tile) (s : State) : exec (.postedOutcome t) s = execPostedOutcome t s := rfl
theorem exec_masonStart (t : Tile) (s : State) : exec (.masonStart t) s = execMasonStart t s := rfl
theorem exec_masonStop (t : Tile) (s : State) : exec (.masonStop t) s = execMasonStop t s := rfl
theorem exec_suspreq (t : Tile) (s : State) : exec (.suspreq t) s = execSuspreq t s := rfl
theorem exec_masonResume (t : Tile) (s : State) : exec (.masonResume t) s = execMasonResume t s := rfl
theorem exec_clrflt (t : Tile) (s : State) : exec (.clrflt t) s = execClrflt t s := rfl

/-! ### Outcomes (R495, R518, R520) -/

theorem Mason.put_stopReq (m : Mason) (r v : Nat) : (m.put r v).stopReq = m.stopReq := by
  rw [Mason.put, apply_ite Mason.stopReq, ite_self]

theorem stopIfAsked_of_notAsked {t : Tile} {s : State} (h : (s.mason t).stopReq = false) : stopIfAsked t s = s := if_neg (by simp [h])

theorem completeWith_stopReq (t : Tile) (rd v : Nat) (s : State) : ((completeWith t rd v s).mason t).stopReq = (s.mason t).stopReq := by
  rw [completeWith, complete, completeAt_mason, State.putReg, State.onMason_mason, Mason.put_stopReq]

/-- The mason goes on from a blocking operation, once its result is there. -/
def unblocked (t : Tile) (s : State) : State := s.onMason t (fun m => { m with blocked := none })

theorem unblocked_mason (t : Tile) (s : State) : (unblocked t s).mason t = { s.mason t with blocked := none } := s.onMason_mason t _

section
variable {t : Tile} {s s' : State} {r : Result} {n rd bytes a : Nat} {sg : Bool} (hload : (s.mason t).blocked = some (.load n rd bytes sg a))
  (htake : takeResult (isBlocking t n) s = some (r, s')) (hstop : (s'.mason t).stopReq = false)
include hload htake

theorem does_masonLoadReturn : Does (.masonLoadReturn t) s (stopIfAsked t (unblock t (.load n rd bytes sg a) r s')) := by
  rw [Does, exec_masonLoadReturn, execMasonLoadReturn, hload]
  simp only [Blocked.number, htake, ended_next]

include hstop

theorem does_masonLoadReturn_of_completed (hkind : r.kind = .completed) (hstatus : r.status = 0) :
    Does (.masonLoadReturn t) s (tally t 53 bytes (completeWith t rd (loadedValue bytes sg r.data) (unblocked t s'))) := by
  have hdoes := does_masonLoadReturn hload htake
  have hunblock : unblock t (.load n rd bytes sg a) r s' = tally t 53 bytes (completeWith t rd (loadedValue bytes sg r.data) (unblocked t s')) := by
    simp [unblock, hkind, hstatus, unblocked]
  rwa [hunblock, stopIfAsked_of_notAsked (by rw [tally_mason, completeWith_stopReq, unblocked_mason, hstop])] at hdoes

theorem does_masonLoadReturn_of_unreachable (hkind : r.kind = .unreachable) (htrap : (s'.mason t).trap = false) :
    Does (.masonLoadReturn t) s (trapEntry t causeMemory 0x06 r.status (s'.mason t).pc a (unblocked t s')) := by
  have hdoes := does_masonLoadReturn hload htake
  have hunblock : unblock t (.load n rd bytes sg a) r s' = trapEntry t causeMemory 0x06 r.status (s'.mason t).pc a (unblocked t s') := by
    rw [← takeTrap_of_free (by rw [unblocked_mason, htrap])]
    simp [unblock, hkind, dataFault, faultSub, unblocked, State.onMason_mason]
  rwa [hunblock, stopIfAsked_of_notAsked (by rw [trapEntry_mason, unblocked_mason, hstop])] at hdoes

end

theorem deferFault_mason (t : Tile) (sub status opc addr : Nat) (s : State) : (deferFault t sub status opc addr s).mason t = s.mason t := by
  refine State.mason_congr ?_ t
  rw [deferFault]
  split
  · rw [State.raise_tiles, State.flag_tiles, State.flag_tiles]
  · rw [State.wr_tiles, State.wr_tiles, State.wr_tiles, State.wr_tiles, State.wr_tiles]

theorem does_postedOutcome_of_rejected {t : Tile} {s s' : State} {r : Result} (htake : takeResult (fun i => decide (i = .masonPosted t.val)) s = some (r, s'))
    (hfence : tileFenced s' t = false) (hbond : r.op.opc.toNat / 16 ≠ 3) (hkind : r.kind = .rejected) (hstatus : r.status ≠ 0)
    (hrun : (s'.mason t).run = .running) :
    Does (.postedOutcome t) s (deferFault t 0x04 r.status r.op.opc.toNat r.op.addr.toNat s') := by
  rw [Does, exec_postedOutcome, execPostedOutcome, htake]
  simp [hfence, hbond, hkind, hstatus, faultSub, deferFault_mason, hrun]

/-! ### MSN_CTL (R524 to R528, R535) -/

section
variable {t : Tile} {s : State} (hserves : tileServes s t = true)
include hserves

theorem does_suspreq_of_running (hrun : (s.mason t).run = .running) : Does (.suspreq t) s (s.onMason t (fun m => { m with sreq := true })) := by
  rw [Does, exec_suspreq, execSuspreq, if_pos hserves, ended_next, requestSuspend]
  simp [State.onMason_mason, hrun]

theorem does_masonResume_of_suspended (hrun : (s.mason t).run = .suspended) :
    Does (.masonResume t) s (s.onMason t (fun m => { m with run := .running, stall := stallNone })) := by
  rw [Does, exec_masonResume, execMasonResume, ended_next, resumeMason, if_pos (by simp [hrun, hserves])]

variable (hfence : tileFenced s t = false)
include hfence

/-- START clears the pending operation error (log entry 39). -/
theorem does_masonStart_of_idle (hrun : (s.mason t).run = .idle) :
    Does (.masonStart t) s (fullAcquire t ((s.onMason t (fun m => { m with
      cwin := 0, res := 1, nspill := 0, ssp := s.rd (Reg.MSN_SSPLO_LO t) * 128, trap := false, lbl := s.rd (Reg.MSN_CTL_LBLINIT t),
      pc := s.rd (Reg.MSN_ENTRY_PC t) * 4, run := .running, stopReq := false, tccnt := 0, stall := stallNone })).wr (Reg.MSN_OPERR_PEND t) 0)) := by
  rw [Does, exec_masonStart, execMasonStart, ended_next, startMason, if_neg (by simp [hrun, hserves, hfence])]
  refine congrArg (fun u : State => Host.Outcome.next (s.done (fullAcquire t (u.wr (Reg.MSN_OPERR_PEND t) 0)))) (s.onMason_congr ?_)
  rw [if_pos hrun]

theorem does_masonStop_of_running (hrun : (s.mason t).run = .running) (hblocked : (s.mason t).blocked = none) (hopen : slotsIn s t .opened = [])
    (hdone : slotsIn s t .done = []) :
    Does (.masonStop t) s (((s.onMason t (fun m => { m with run := .halted, stopReq := false, stall := 0xD })).flag (Reg.MSN_ERR_STOPPED t)).raise 0x3004
      [t.val, (s.mason t).pc]) := by
  rw [Does, exec_masonStop, execMasonStop, ended_next, stopMason, if_neg (by simp [hrun, hserves, hfence]), if_neg (by simp [hblocked])]
  have hstop : stopNow t s = ((s.onMason t (fun m => { m with run := if m.run = .faulted then .faulted else .halted, stopReq := false, stall := 0xD })).flag
      (Reg.MSN_ERR_STOPPED t)).raise 0x3004 [t.val, (s.mason t).pc] := by
    simp [stopNow, hopen, hdone, State.each, State.onMason_mason]
  rw [hstop, s.onMason_congr (g := fun m => { m with run := .halted, stopReq := false, stall := 0xD }) (by simp [hrun])]

theorem does_clrflt_of_faulted (hrun : (s.mason t).run = .faulted) :
    Does (.clrflt t) s ((s.onMason t (fun m => { m with run := .halted })).setReg (Reg.MSN_DFLT t) 0) := by
  rw [Does, exec_clrflt, execClrflt, if_pos (by simp [hrun, hserves, hfence]), ended_next]

end

/-- Settles O33. That START clears the pending operation error (log entry 39), and that the event of a STOP comes when the mason halts (162), are the
model's choices. -/
theorem masonOutcomesAndControl : Obligations.MasonOutcomesAndControl :=
  ⟨fun _ _ _ _ _ _ _ _ _ => ⟨fun hload htake hkind hstatus hstop => does_masonLoadReturn_of_completed hload htake hstop hkind hstatus,
      fun hload htake hkind hstop htrap => does_masonLoadReturn_of_unreachable hload htake hstop hkind htrap,
      does_postedOutcome_of_rejected⟩,
    fun _ _ hserves hfence => ⟨does_masonStart_of_idle hserves hfence, does_masonStop_of_running hserves hfence,
      does_suspreq_of_running hserves, does_masonResume_of_suspended hserves, does_clrflt_of_faulted hserves hfence⟩⟩

end Sys2Proof.Machine
end

section
/-! PROOFS. An MMA that the press accepts (R536, R540, R547, R549, R554): what it writes to the tile store, and what it leaves as it was. -/
namespace Sys2Proof.Machine
open Sys2Proof

theorem exec_mma (t : Tile) (fault : Option (Fin 256 × Fin 256 × Fin 2048)) (e : MemEnv) (s : State) :
    exec (.mma t fault e) s = execMma t fault e s := rfl

/-! ### What flags, counters, events, free values and poison marks leave as it was -/

/-- The memory, the bricks, the ports, and tile `t` but for its poison marks. -/
def sansMarks (t : Tile) (s : State) : List Host.Cell × Vector BrickState 4 × Vector Link 24 × TileState :=
  (s.mem, s.bricks, s.ports, { s.tile t with marks := [] })

section
variable (t v : Tile) (s : State)

theorem sansMarks_wr (f : FieldRef) (n : Nat) : sansMarks t (s.wr f n) = sansMarks t s := rfl

theorem sansMarks_raise (code : Nat) (args : List Nat) : sansMarks t (s.raise code args) = sansMarks t s := rfl

theorem sansMarks_draw (n : Nat) : sansMarks t (s.draw n).2 = sansMarks t s := rfl

theorem sansMarks_markWord (bad : Bool) (w : Nat) : sansMarks t (markWord v bad s w) = sansMarks t s :=
  congrArg (fun T => (s.mem, s.bricks, s.ports, T)) (State.onTile_view (p := fun T => { T with marks := [] }) s v t)

theorem sansMarks_when {f : State → State} (hf : ∀ s, sansMarks t (f s) = sansMarks t s) (c : Bool) : sansMarks t (s.when c f) = sansMarks t s := by
  rw [State.when, apply_ite (sansMarks t), hf, ite_self]

theorem sansMarks_tally (i n : Nat) : sansMarks t (tally v i n s) = sansMarks t s := by
  rw [tally, apply_ite (sansMarks t), sansMarks_wr, ite_self]

theorem sansMarks_noteConvs (cs : List Conv) : sansMarks t (noteConvs v cs s) = sansMarks t s := by
  have hflag (s : State) (c : Bool) (f : FieldRef) : sansMarks t (s.when c (fun s => s.flag f)) = sansMarks t s :=
    sansMarks_when t s (fun s => sansMarks_wr t s f 1) c
  rw [noteConvs, State.count, sansMarks_wr, State.count, sansMarks_wr, hflag, hflag, hflag, hflag]

/-- The state in which a unit reads its command's descriptor, once the tile stores have reported (R489). -/
def storeReported (e : MemEnv) (s : State) : State := tileReports { e with masonUnc := [], masonCorr := [] } s

theorem tileReports_eq_storeReported (e : MemEnv) : tileReports { e with masonUnc := [], masonCorr := [] } s = storeReported e s := rfl

/-- The reports of the tile stores only mark words and raise events. -/
theorem sansMarks_storeReported (e : MemEnv) : sansMarks t (storeReported e s) = sansMarks t s :=
  State.each_view (fun s _ => (sansMarks_raise t _ _ _).trans (sansMarks_markWord t _ s true _)) e.storeUnc s

theorem sansMarks_settleQuarter : sansMarks t (settleQuarter v s) = sansMarks t s := sansMarks_wr t s _ _

end

section
variable {t : Tile} {s u : State} (h : sansMarks t u = sansMarks t s)
include h

theorem mem_of_sansMarks : u.mem = s.mem := congrArg Prod.fst h

theorem storeBytes_of_sansMarks : storeBytes u = storeBytes s := by
  funext v off n
  rw [storeBytes, State.bytes, mem_of_sansMarks h, storeBytes, State.bytes]

end

section
variable {t : Tile} {s u : State} (h : (sansMarks t u).2 = (sansMarks t s).2)
include h

theorem bricks_of_sansMarks : u.bricks = s.bricks := congrArg Prod.fst h

theorem ports_of_sansMarks : u.ports = s.ports := congrArg (fun x => x.2.1) h

/-- What a tile holds beside its marks is as it was. -/
theorem tile_of_sansMarks {β : Type} (p : TileState → β) (hp : ∀ T, p { T with marks := [] } = p T := by exact fun _ => rfl) :
    p (u.tile t) = p (s.tile t) := by
  rw [← hp, ← hp (s.tile t)]
  exact congrArg (fun x => p x.2.2) h

end

/-! ### Bytes put into a tile store -/

theorem tileStoreKey_add (t o i : Nat) : tileStoreKey t (o + i) = tileStoreKey t o + i := by simp only [tileStoreKey, memKey, Nat.add_assoc]

theorem storePut_mem (t : Tile) (off : Nat) (bs : Bytes) (bad : Bool) (s : State) :
    (storePut t off bs bad s).mem = memWrite s.mem (tileStoreKey t off) bs :=
  State.each_view (V := State.mem) (fun s w => by rw [apply_ite State.mem, apply_ite State.mem]; simp only [markWord, State.onTile_mem, ite_self]) _ _

/-- Beside memory and marks, bytes put into a tile store change nothing. -/
theorem sansMarks_storePut (t v : Tile) (off : Nat) (bs : Bytes) (s : State) : (sansMarks v (storePut t off bs false s)).2 = (sansMarks v s).2 :=
  State.each_view (V := fun s => (sansMarks v s).2)
    (fun s w => by rw [if_neg Bool.false_ne_true, apply_ite (sansMarks v), sansMarks_markWord, ite_self]) _ _

/-- An element of a tile store, and with it a result, depends on memory alone. -/
theorem storeNumAt_eq_of_mem (s : State) : storeNumAt s = storeNumAt { State.reset with mem := s.mem } := rfl

theorem pressResult_eq_of_mem (s : State) : pressResult s = pressResult { State.reset with mem := s.mem } := rfl

section
variable {α : Type} (t : Tile) {off : α → Nat} {bytes : α → Bytes} {w : Nat} (hw : ∀ x, (bytes x).length = w)
include hw

theorem memByte_each_storePut_outside {a : Nat} {xs : List α} (hout : ∀ x ∈ xs, a < tileStoreKey t (off x) ∨ tileStoreKey t (off x) + w ≤ a)
    (s : State) : memByte (s.each xs (fun s x => storePut t (off x) (bytes x) false s)).mem a = memByte s.mem a := by
  induction xs generalizing s with
  | nil => rfl
  | cons x xs ih =>
    obtain ⟨hx, hxs⟩ := List.forall_mem_cons.mp hout
    exact (ih hxs _).trans (by rw [storePut_mem, memByte_memWrite_outside _ _ _ _ (by rwa [hw])])

/-- Where no two of the pieces meet, each is there in the end. -/
theorem storeBytes_each_storePut {xs : List α} {x : α} (hx : x ∈ xs) (hapart : ∀ y ∈ xs, y ≠ x → off x + w ≤ off y ∨ off y + w ≤ off x)
    (s : State) : storeBytes (s.each xs (fun s x => storePut t (off x) (bytes x) false s)) t (off x) w = bytes x := by
  rw [storeBytes, State.bytes, ← hw x]
  refine memRead_eq_of_memByte _ _ _ fun i hi => ?_
  induction xs generalizing s with
  | nil => cases hx
  | cons y ys ih =>
    obtain ⟨-, hys⟩ := List.forall_mem_cons.mp hapart
    by_cases hrest : x ∈ ys
    · exact ih hrest hys _
    · obtain rfl : x = y := (List.mem_cons.mp hx).resolve_right hrest
      have hout : ∀ z ∈ ys, tileStoreKey t (off x) + i < tileStoreKey t (off z) ∨ tileStoreKey t (off z) + w ≤ tileStoreKey t (off x) + i := by
        intro z hz
        have := hys z hz (ne_of_mem_of_not_mem hz hrest)
        rw [hw] at hi
        simp only [tileStoreKey, memKey]
        omega
      exact (memByte_each_storePut_outside t hw hout _).trans (by rw [storePut_mem, memByte_memWrite_inside])

end

/-! ### The rows of D (R540) -/

section
variable {d : PressDesc} (hpitch : d.wd * d.n ≤ 64 * d.dpitch) {m n m' n' : Nat} (hn : n < d.n)
include hpitch hn

/-- Rows that hold their elements hold them one after another. -/
theorem PressDesc.offD_before (h : m < m' ∨ m = m' ∧ n < n') : d.offD m n + d.wd ≤ d.offD m' n' := by
  simp only [PressDesc.offD]
  rcases h with hm | ⟨rfl, hlt⟩
  · have hin : d.wd * (n + 1) ≤ d.wd * d.n := Nat.mul_le_mul_left _ hn
    have hrow : 64 * d.dpitch * (m + 1) ≤ 64 * d.dpitch * m' := Nat.mul_le_mul_left _ hm
    rw [Nat.mul_succ] at hin hrow
    omega
  · have hin : d.wd * (n + 1) ≤ d.wd * n' := Nat.mul_le_mul_left _ hlt
    rw [Nat.mul_succ] at hin
    omega

theorem PressDesc.offD_apart (hn' : n' < d.n) (hne : (m, n) ≠ (m', n')) :
    d.offD m' n' + d.wd ≤ d.offD m n ∨ d.offD m n + d.wd ≤ d.offD m' n' := by
  have hlex : (m' < m ∨ m' = m ∧ n' < n) ∨ (m < m' ∨ m = m' ∧ n < n') := by
    rw [Ne, Prod.mk.injEq] at hne
    omega
  exact hlex.imp (PressDesc.offD_before hpitch hn') (PressDesc.offD_before hpitch hn)

end

theorem PressDesc.mem_elements {d : PressDesc} {x : Nat × Nat} : x ∈ d.elements ↔ x.1 < d.m ∧ x.2 < d.n := by
  simp [PressDesc.elements, List.mem_flatMap, Prod.ext_iff]

/-- A byte outside the rows of D is outside each element. -/
theorem outside_element {t a : Nat} {d : PressDesc} (hnod : d.nod = false) (h : ∀ x ∈ d.rangesD, a < tileStoreKey t x.1 ∨ tileStoreKey t x.1 + x.2 ≤ a)
    {x : Nat × Nat} (hx : x ∈ d.elements) : a < tileStoreKey t (d.offD x.1 x.2) ∨ tileStoreKey t (d.offD x.1 x.2) + d.wd ≤ a := by
  obtain ⟨hm, hn⟩ := PressDesc.mem_elements.mp hx
  have hrow := h (d.dbase + 64 * d.dpitch * x.1, d.wd * d.n) (by
    rw [PressDesc.rangesD, if_neg (by simp [hnod]), rowRanges]
    exact List.mem_map.mpr ⟨x.1, List.mem_range.mpr hm, rfl⟩)
  have hin := Nat.mul_le_mul_left d.wd (Nat.succ_le_of_lt hn)
  rw [Nat.mul_succ] at hin
  simp only [PressDesc.offD, tileStoreKey_add] at hrow ⊢
  omega

/-- One reason does not apply, nor do the later ones. -/
theorem notRefused {c : Prop} [Decidable c] {why : Nat} {o : Option Nat} (h : (if c then some why else o) = none) : ¬c ∧ o = none := by
  by_cases hc : c
  · rw [if_pos hc] at h
    cases h
  · exact ⟨hc, by rwa [if_neg hc] at h⟩

/-- A descriptor whose rows of D do not hold their elements is refused (R541). -/
theorem pitch_of_accepted {d : PressDesc} {raw : Bytes} {sumen : Bool} (h : pressRefusal d raw sumen = none) (hnod : d.nod = false) :
    d.wd * d.n ≤ 64 * d.dpitch := by
  obtain ⟨-, hzeros⟩ := notRefused h
  obtain ⟨-, hfmt⟩ := notRefused hzeros
  obtain ⟨-, hmodes⟩ := notRefused hfmt
  obtain ⟨-, hbounds⟩ := notRefused hmodes
  obtain ⟨hlayout, -⟩ := notRefused hbounds
  by_contra hlt
  exact hlayout (by simp [hnod, Nat.lt_of_not_le hlt])

/-! ### The press takes a command -/

section
variable (t : Tile) (run : Option UnitRun) (s : State)

theorem popPress_mem : (popPress t run s).mem = s.mem := rfl
theorem popPress_bricks : (popPress t run s).bricks = s.bricks := rfl
theorem popPress_ports : (popPress t run s).ports = s.ports := rfl
theorem popPress_tile : (popPress t run s).tile t =
    { s.tile t with press := { (s.tile t).press with queue := (s.tile t).press.queue.drop 1, run := run } } := State.onTile_tile_same ..

end

/-! ### The performance of a command without a residue mismatch -/

/-- The state with D stored, unless NOD (R549, R554). -/
def pressStored (t : Tile) (cmd : TileCmd) (d : PressDesc) (s : State) : State :=
  if d.nod then s else
  s.each d.elements (fun u x => storePut t (d.offD x.1 x.2) (leBytes d.wd (pressConv cmd d.fmtD (pressResult s t d x.1 x.2).1).code) false u)

section
variable (t : Tile) (cmd : TileCmd) {d : PressDesc} (s : State)

theorem sansMarks_pressStored (v : Tile) (d : PressDesc) : (sansMarks v (pressStored t cmd d s)).2 = (sansMarks v s).2 := by
  rw [pressStored, apply_ite (sansMarks v), apply_ite Prod.snd, State.each_view (V := fun s => (sansMarks v s).2) fun s x => sansMarks_storePut ..,
    ite_self]

theorem storeNumAt_pressStored (hnod : d.nod = false) (hpitch : d.wd * d.n ≤ 64 * d.dpitch) {m n : Nat} (hm : m < d.m) (hn : n < d.n) :
    storeNumAt (pressStored t cmd d s) t (d.offD m n) d.wd = (pressConv cmd d.fmtD (pressResult s t d m n).1).code % 256 ^ d.wd := by
  have hbytes := storeBytes_each_storePut t (off := fun x => d.offD x.1 x.2) (w := d.wd)
    (bytes := fun x => leBytes d.wd (pressConv cmd d.fmtD (pressResult s t d x.1 x.2).1).code) (fun _ => length_leBytes _ _)
    (PressDesc.mem_elements.mpr ⟨hm, hn⟩ : (m, n) ∈ d.elements)
    (fun y hy hne => PressDesc.offD_apart hpitch (PressDesc.mem_elements.mp hy).2 hn hne) s
  rw [storeNumAt, pressStored, if_neg (by simp [hnod]), hbytes, leNat_leBytes]

theorem memByte_pressStored {a : Nat} (h : ∀ x ∈ d.rangesD, a < tileStoreKey t x.1 ∨ tileStoreKey t x.1 + x.2 ≤ a) :
    memByte (pressStored t cmd d s).mem a = memByte s.mem a := by
  rw [pressStored]
  split
  · rfl
  · next hnod =>
    exact memByte_each_storePut_outside t (fun _ => length_leBytes _ _) (fun x hx => outside_element (by simpa using hnod) h hx) s

end

/-- Beside D and the start of the command, the performance changes flags, counters, events and poison marks. -/
theorem performMma_inv (t v : Tile) (cmd : TileCmd) (d : PressDesc) (desc : Nat) (s : State) : ∃ u sum,
    performMma t cmd d desc none s = popPress t (some { cmd := cmd, sum := sum }) u ∧ sansMarks v u = sansMarks v (pressStored t cmd d s) := by
  have hflag (s : State) (c : Bool) (f : FieldRef) : sansMarks v (s.when c (fun s => s.flag f)) = sansMarks v s :=
    sansMarks_when v s (fun s => sansMarks_wr v s f 1) c
  unfold performMma
  extract_lets c rowsBad colsBad poisoned res good anyBad convs s0 stored marked cleared poisonMarked noted wrapped scaled first vs goodVs w
  have hstored : stored = pressStored t cmd d s := by
    simp only [stored, pressStored, res, State.each, List.foldl_map]
  have hcleared : sansMarks v cleared = sansMarks v stored := by
    rw [apply_ite (sansMarks v), State.each_view fun s r => State.each_view (fun s w => sansMarks_markWord v t s false w) _ s, ite_self]
  have hmarked : sansMarks v poisonMarked = sansMarks v cleared := by
    rw [apply_ite (sansMarks v), State.each_view fun s x => State.each_view (fun s w => sansMarks_markWord v t s true w) _ s, ite_self]
  have hscaled : sansMarks v scaled = sansMarks v poisonMarked := (hflag ..).trans ((hflag ..).trans (sansMarks_noteConvs v t _ convs))
  have hdrawn : sansMarks v (scaled.draw 1).2 = sansMarks v scaled := sansMarks_draw v scaled 1
  generalize scaled.draw 1 = k at hdrawn ⊢
  obtain ⟨k, drawn⟩ := k
  dsimp -zeta only at hdrawn ⊢
  extract_lets free flagged reported tallied sum summed started
  have htallied : sansMarks v tallied = sansMarks v drawn := (sansMarks_tally ..).trans
    ((sansMarks_when v flagged (fun s => (sansMarks_raise v _ _ _).trans (sansMarks_wr v s _ _)) anyBad).trans
      (sansMarks_when v drawn (fun s => sansMarks_wr v s _ _) anyBad))
  have hsummed : sansMarks v summed = sansMarks v tallied := by rw [apply_ite (sansMarks v), sansMarks_tally, ite_self]
  exact ⟨summed, sum, rfl, by rw [hsummed, htallied, hdrawn, hscaled, hmarked, hcleared, hstored]⟩

/-! ### A command that the press accepts -/

/-- The state in which the press performs a command: the mode is settled (R558). -/
def pressReady (t : Tile) (e : MemEnv) (s : State) : State := storeReported e (settleQuarter t s)

theorem storeReported_settleQuarter (t : Tile) (e : MemEnv) (s : State) : storeReported e (settleQuarter t s) = pressReady t e s := rfl

theorem sansMarks_pressReady (t v : Tile) (e : MemEnv) (s : State) : sansMarks v (pressReady t e s) = sansMarks v s :=
  (sansMarks_storeReported v _ e).trans (sansMarks_settleQuarter v t s)

/-- The press can start `cmd`, the head of its queue (R536). -/
structure PressNext (s : State) (t : Tile) (cmd : TileCmd) (rest : List TileCmd) : Prop where
  queue : (s.tile t).press.queue = cmd :: rest
  run : (s.tile t).press.run = none
  start : mayStart s t cmd = true

section
variable {t : Tile} {e : MemEnv} {s : State} {cmd : TileCmd} {rest : List TileCmd} (hnext : PressNext s t cmd rest)
include hnext

theorem does_mma_of_accepted (hinject : (s.tile t).press.inject = false) (hop : cOp cmd.word = 0x01) (hhigh : bitsOf cmd.word 127 57 = 0)
    (hlow : bitsOf cmd.word 39 32 = 0) {desc : Nat} (hdesc : desc = bitsOf cmd.word 56 40 * 64) (hin : desc + 64 ≤ tileStoreSize)
    (hmark : storeMarked (pressReady t e s) t desc 64 = false) {d : PressDesc} (hd : d = pressDesc (storeBytes s t desc 64) cmd.word)
    (haccept : pressRefusal d (storeBytes s t desc 64) (cSumen cmd.word) = none) (hover : pressOverlap d desc = false) :
    Does (.mma t none e) s (performMma t cmd d (bitsOf cmd.word 56 40) none (pressReady t e s)) := by
  obtain ⟨hqueue, hrun, hstart⟩ := hnext
  simp [Does, exec_mma, execMma, hqueue, hrun, hinject, hstart, hop, hhigh, hlow, ← hdesc, tileReports_eq_storeReported,
    storeReported_settleQuarter, hmark, storeBytes_of_sansMarks (sansMarks_pressReady t t e s), ← hd, haccept, hover, hin.not_gt]

theorem does_mma_of_unnamed (e : MemEnv) (hmma : cOp cmd.word ≠ 0x01) (hpmode : cOp cmd.word ≠ 0x10) :
    Does (.mma t none e) s (refusePress t cmd 0x1 (settleQuarter t s)) := by
  obtain ⟨hqueue, hrun, hstart⟩ := hnext
  simp [Does, exec_mma, execMma, hqueue, hrun, hstart, hmma, hpmode]

end

end Sys2Proof.Machine

namespace Sys2Proof.Proofs
open Sys2Proof Sys2Proof.Machine

/-- Settles O34: D is stored piece by piece, no two of which meet, and nothing else that the performance does touches memory or another unit. That the
results are there when the command starts is the model's choice (log entry 224). -/
theorem pressResult : Obligations.PressResult := by
  intro t e s cmd rest hqueue hrun hinject hstart hop hhigh hlow desc raw d hin hmark haccept hover
  have hdoes := does_mma_of_accepted ⟨hqueue, hrun, hstart⟩ hinject hop hhigh hlow rfl hin hmark rfl haccept hover
  have hready := sansMarks_pressReady t t e s
  obtain ⟨u, sum, hperform, hu⟩ := performMma_inv t t cmd d (bitsOf cmd.word 56 40) (pressReady t e s)
  have hframe : (sansMarks t u).2 = (sansMarks t s).2 :=
    (congrArg Prod.snd hu).trans ((sansMarks_pressStored ..).trans (congrArg Prod.snd hready))
  refine ⟨_, hdoes, ?_⟩
  dsimp only
  rw [State.done_mem, State.done_bricks, State.done_ports, State.done_tile, hperform]
  refine ⟨?queue, ?run, fun hnod m n hm hn => ?stored, fun a ha => ?outside, ?bricks, ?ports, ?mason, ?glaze⟩
  case queue =>
    rw [popPress_tile, tile_of_sansMarks hframe (fun T => T.press.queue), hqueue]
    rfl
  case run => rw [popPress_tile]; rfl
  case stored =>
    rw [storeNumAt_eq_of_mem, State.done_mem, popPress_mem, mem_of_sansMarks hu, ← storeNumAt_eq_of_mem,
      storeNumAt_pressStored t cmd _ hnod (pitch_of_accepted haccept hnod) hm hn, pressResult_eq_of_mem, mem_of_sansMarks hready,
      ← pressResult_eq_of_mem]
  case outside =>
    rw [popPress_mem, mem_of_sansMarks hu, memByte_pressStored t cmd _ ha, mem_of_sansMarks hready]
  case bricks => exact (popPress_bricks ..).trans (bricks_of_sansMarks hframe)
  case ports => exact (popPress_ports ..).trans (ports_of_sansMarks hframe)
  case mason => rw [popPress_tile]; exact tile_of_sansMarks hframe TileState.mason
  case glaze => rw [popPress_tile]; exact tile_of_sansMarks hframe TileState.glaze

end Sys2Proof.Proofs
end

section
/-! PROOFS. The controls of the press, the glaze and the sieve, and the start and the end of their commands (R550, R557, R570, R577, R614, R623, R680 to
R686, R690, R693, R700, R702, R712, R716). -/
namespace Sys2Proof.Machine
open Sys2Proof

theorem exec_pmode (t : Tile) (s : State) : exec (.pmode t) s = execPmode t s := rfl
theorem exec_pressCommandComplete (t : Tile) (s : State) : exec (.pressCommandComplete t) s = execPressCommandComplete t s := rfl
theorem exec_pressClrq (t : Tile) (s : State) : exec (.pressClrq t) s = execPressClrq t s := rfl
theorem exec_rinj (t : Tile) (s : State) : exec (.rinj t) s = execRinj t s := rfl
theorem exec_glazeCommandComplete (t : Tile) (s : State) : exec (.glazeCommandComplete t) s = execGlazeCommandComplete t s := rfl
theorem exec_glazeClrq (t : Tile) (s : State) : exec (.glazeClrq t) s = execGlazeClrq t s := rfl
theorem exec_gather (t : Tile) (e : MemEnv) (s : State) : exec (.gather t e) s = execGather t e s := rfl
theorem exec_sieveYard (t : Tile) (e : MemEnv) (s : State) : exec (.sieveYard t e) s = execSieveYard t e s := rfl
theorem exec_dispatch (t : Tile) (e : MemEnv) (s : State) : exec (.dispatch t e) s = execDispatch t e s := rfl
theorem exec_combine (t : Tile) (e : MemEnv) (s : State) : exec (.combine t e) s = execCombine t e s := rfl
theorem exec_points (t : Tile) (e : MemEnv) (s : State) : exec (.points t e) s = execPoints t e s := rfl
theorem exec_sieveCommandComplete (t : Tile) (s : State) : exec (.sieveCommandComplete t) s = execSieveCommandComplete t s := rfl
theorem exec_sieveSusp (t : Tile) (s : State) : exec (.sieveSusp t) s = execSieveSusp t s := rfl
theorem exec_sieveSuspensionPoint (t : Tile) (s : State) : exec (.sieveSuspensionPoint t) s = execSieveSuspensionPoint t s := rfl
theorem exec_sieveResume (t : Tile) (s : State) : exec (.sieveResume t) s = execSieveResume t s := rfl
theorem exec_sieveCancel (t : Tile) (s : State) : exec (.sieveCancel t) s = execSieveCancel t s := rfl
theorem exec_sieveClrq (t : Tile) (s : State) : exec (.sieveClrq t) s = execSieveClrq t s := rfl

/-! ### The press and the glaze: modes, completion, and RINJ (R550, R557, R577, R614) -/

section
variable {t : Tile} {s : State}

theorem does_pmode_of_next {cmd : TileCmd} {rest : List TileCmd} (hnext : PressNext s t cmd rest) (hop : cOp cmd.word = 0x10)
    (hhigh : bitsOf cmd.word 127 33 = 0) (hlow : bitsOf cmd.word 31 10 = 0) :
    Does (.pmode t) s ((s.wr (Reg.PRS_STAT_QREQ t) (bitsOf cmd.word 32 32)).onTile t (fun T =>
      { T with press := { T.press with queue := rest, run := some { cmd := cmd } } })) := by
  obtain ⟨hqueue, hrun, hstart⟩ := hnext
  have htile : (s.wr (Reg.PRS_STAT_QREQ t) (bitsOf cmd.word 32 32)).tile t = s.tile t := State.tile_congr (State.wr_tiles ..) t
  rw [Does, exec_pmode, execPmode]
  simp only [hqueue, hstart, hrun, hop, hhigh, hlow]
  refine congrArg (fun u : State => Host.Outcome.next (s.done u)) (State.onTile_congr _ ?_)
  rw [htile, hqueue]
  rfl

theorem does_pressCommandComplete_of_run {r : UnitRun} (hrun : (s.tile t).press.run = some r) (hgoes : tileGoes s t = true) :
    Does (.pressCommandComplete t) s (settleQuarter t (tally t 7 1 ((finishSummary t r.cmd r.sum
      (s.onTile t (fun T => { T with press := { T.press with run := none } }))).count (Reg.PRS_CNT0_CMDS t) 1))) := by
  rw [Does, exec_pressCommandComplete, execPressCommandComplete, hrun]
  simp only [hgoes, Bool.not_true, Bool.false_eq_true, if_false, ended_next]

theorem does_rinj_of_enabled (henabled : s.isSet (Reg.PRS_CTL_RINJEN t) = true) (hserves : tileServes s t = true) :
    Does (.rinj t) s (s.onTile t (fun T => { T with press := { T.press with inject := true } })) := by
  rw [Does, exec_rinj, execRinj, if_pos (by simp [henabled, hserves]), ended_next]

theorem does_glazeCommandComplete_of_run {r : UnitRun} (hrun : (s.tile t).glaze.run = some r) (hgoes : tileGoes s t = true) :
    Does (.glazeCommandComplete t) s (tally t 21 1 ((finishSummary t r.cmd r.sum (s.onGlaze t (fun G => { G with run := none }))).count
      (Reg.GLZ_CNT0_CMDS t) 1)) := by
  rw [Does, exec_glazeCommandComplete, execGlazeCommandComplete, hrun]
  simp only [hgoes, Bool.not_true, Bool.false_eq_true, if_false, ended_next]

end

/-! ### Registers of a tile -/

theorem tileReg_ne_seatOwn (t blk off : Nat) : tileReg t blk off ≠ Reg.SEAT_OWN := by
  simp only [tileReg, Reg.SEAT_OWN, pkgReg]
  omega

/-- SVE_STAT is the register at 8 of its block. -/
theorem sveStat_ne {t off : Nat} (h : off ≠ 8) : Reg.SVE_STAT t ≠ tileReg t 5 off := by
  simp only [Reg.SVE_STAT, tileReg]
  omega

theorem tally_regsOnly (t : Tile) (i n : Nat) (s : State) : RegsOnly s (tally t i n s) := by
  rw [tally]
  split
  · exact State.wr_regsOnly ..
  · exact .refl s

/-- The counters of a tile lie in block 6 of its registers, from 0x100 on (R894). -/
theorem tally_reg_other {t : Tile} {blk off : Nat} (hblk : blk < 6) (hoff : off < 0x10000) (i n : Nat) (s : State) :
    (tally t i n s).reg (tileReg t blk off) = s.reg (tileReg t blk off) := by
  rw [tally]
  split
  · refine State.reg_setReg_other _ _ _ _ ?_
    simp only [Reg.OBS_CNT_COUNT, Reg.OBS_CNT, tileReg]
    omega
  · rfl

/-! ### A queue is dropped (R577, R623, R716) -/

/-- Memory, events, and the units of tile `t` but for its mason. -/
def unitsOf (t : Tile) (s : State) : List Host.Cell × List Event × Press × Glaze × Sieve :=
  (s.mem, s.events, (s.tile t).press, (s.tile t).glaze, (s.tile t).sieve)

theorem unitsOf_of_regsOnly {s u : State} (t : Tile) (h : RegsOnly s u) : unitsOf t u = unitsOf t s := by
  obtain ⟨_, rfl⟩ := h
  rfl

/-- A summary goes into the mason of its tile (R512). -/
theorem unitsOf_finishSummary (t : Tile) (cmd : TileCmd) (v : Word) (s : State) : unitsOf t (finishSummary t cmd v s) = unitsOf t s := by
  rw [finishSummary]
  split
  · exact congrArg (fun x => (s.mem, s.events, x)) (State.onTile_view (p := fun T => (T.press, T.glaze, T.sieve)) s t t)
  · rfl

/-- Each command of a queue ends as if refused: its summary is empty, and it is flagged and counted (R577). -/
def endRefused (t : Tile) (err cnt : FieldRef) (told : State → State) (q : List TileCmd) (s : State) : State :=
  s.each q (fun s cmd => told (((finishSummary t cmd 0 s).flag err).count cnt 1))

section
variable {t : Tile} {err cnt : FieldRef} {told : State → State}

theorem unitsOf_endRefused (htold : ∀ s, RegsOnly s (told s)) (q : List TileCmd) (s : State) : unitsOf t (endRefused t err cnt told q s) = unitsOf t s :=
  State.each_view (V := unitsOf t) (fun s cmd => (unitsOf_of_regsOnly t (htold _)).trans
    ((unitsOf_of_regsOnly t ((State.wr_regsOnly ..).trans (State.wr_regsOnly ..))).trans (unitsOf_finishSummary t cmd 0 s))) q s

/-- A flag that the counter and what is told after it leave alone is set by each command. -/
theorem rd_endRefused (htold : ∀ s, (told s).rd err = s.rd err) (hcnt : err.reg ≠ cnt.reg) (hbit : err.hi = err.lo) (h64 : err.hi < 64)
    {q : List TileCmd} (hq : q ≠ []) (s : State) : (endRefused t err cnt told q s).rd err = 1 := by
  have hset (s : State) (cmd : TileCmd) : (told (((finishSummary t cmd 0 s).flag err).count cnt 1)).rd err = 1 := by
    rw [htold, State.count, State.rd_wr_other _ _ _ _ hcnt, State.rd_flag_same _ _ hbit h64]
  exact State.each_of_mem (P := fun _ => True) (Q := fun u => u.rd err = 1) (fun _ _ _ => trivial) (fun s cmd _ => hset s cmd)
    (fun s _ => hset s _) (List.head_mem hq) trivial

end

/-- A unit's REFUSED flag is bit 0 of the register at 0x10 of its block. -/
theorem leaves_of_endRefused {i : Instr} {t : Tile} {s s' : State} {blk : Nat} {cnt : FieldRef} {told : State → State} {q : List TileCmd}
    (hdoes : Does i s (endRefused t ⟨tileReg t blk 0x10, 0, 0⟩ cnt told q s')) (htold : ∀ s, RegsOnly s (told s))
    (herr : ∀ s, (told s).reg (tileReg t blk 0x10) = s.reg (tileReg t blk 0x10)) (hcnt : cnt.reg = tileReg t blk 0x20) :
    Leaves i s (fun u => unitsOf t u = unitsOf t s' ∧ (q ≠ [] → u.isSet ⟨tileReg t blk 0x10, 0, 0⟩ = true)) := by
  refine ⟨_, hdoes, unitsOf_endRefused htold q s', fun hq => ?_⟩
  have hne : tileReg t blk 0x10 ≠ cnt.reg := by
    rw [hcnt]
    simp only [tileReg]
    omega
  rw [State.isSet, State.done_rd_other _ _ (g := ⟨tileReg t blk 0x10, 0, 0⟩) (tileReg_ne_seatOwn _ _ _),
    rd_endRefused (fun s => by rw [State.rd, herr, State.rd]) hne rfl (Nat.zero_lt_succ _) hq]
  rfl

section
variable {t : Tile} {s : State} (hclear : mayClear s t = true)
include hclear

theorem does_pressClrq_of_clear : Does (.pressClrq t) s (endRefused t (Reg.PRS_ERR_REFUSED t) (Reg.PRS_CNT0_REFUSALS t) (tally t 8 1)
    (s.tile t).press.queue (s.onTile t (fun T => { T with press := { T.press with queue := [] } }))) := by
  rw [Does, exec_pressClrq, execPressClrq, if_neg (by simp [hclear]), ended_next, endRefused]

theorem does_glazeClrq_of_clear : Does (.glazeClrq t) s (endRefused t (Reg.GLZ_ERR_REFUSED t) (Reg.GLZ_CNT0_REFUSALS t) (tally t 22 1)
    (s.tile t).glaze.queue (s.onGlaze t (fun G => { G with queue := [] }))) := by
  rw [Does, exec_glazeClrq, execGlazeClrq, if_neg (by simp [hclear]), ended_next, endRefused]

theorem does_sieveClrq_of_clear : Does (.sieveClrq t) s (endRefused t (Reg.SVE_ERR_REFUSED t) (Reg.SVE_CNT0_REFUSALS t) id
    (s.sieve t).queue (s.onSieve t (fun S => { S with queue := [] }))) := by
  rw [Does, exec_sieveClrq, execSieveClrq, if_pos hclear, ended_next, dropSieveQueue, endRefused]
  rfl

theorem leaves_pressClrq_of_clear : Leaves (.pressClrq t) s (fun u => (u.tile t).press.queue = [] ∧ (u.tile t).press.run = (s.tile t).press.run ∧
    u.mem = s.mem ∧ u.events = s.events ∧ ((s.tile t).press.queue ≠ [] → u.isSet (Reg.PRS_ERR_REFUSED t) = true)) := by
  obtain ⟨u, hexec, hunits, hset⟩ := leaves_of_endRefused (does_pressClrq_of_clear hclear) (tally_regsOnly t 8 1)
    (tally_reg_other (by decide) (by decide) 8 1) rfl
  simp only [unitsOf, State.onTile_mem, State.onTile_events, State.onTile_tile_same, Prod.mk.injEq] at hunits
  obtain ⟨hmem, hevents, hpress, -⟩ := hunits
  exact ⟨u, hexec, by rw [hpress], by rw [hpress], hmem, hevents, hset⟩

theorem leaves_glazeClrq_of_clear : Leaves (.glazeClrq t) s (fun u => (u.tile t).glaze.queue = [] ∧ (u.tile t).glaze.run = (s.tile t).glaze.run ∧
    u.events = s.events ∧ u.mem = s.mem ∧ ((s.tile t).glaze.queue ≠ [] → u.isSet (Reg.GLZ_ERR_REFUSED t) = true)) := by
  obtain ⟨u, hexec, hunits, hset⟩ := leaves_of_endRefused (does_glazeClrq_of_clear hclear) (tally_regsOnly t 22 1)
    (tally_reg_other (by decide) (by decide) 22 1) rfl
  simp only [unitsOf, State.onGlaze, State.onTile_mem, State.onTile_events, State.onTile_tile_same, Prod.mk.injEq] at hunits
  obtain ⟨hmem, hevents, -, hglaze, -⟩ := hunits
  exact ⟨u, hexec, by rw [hglaze], by rw [hglaze], hevents, hmem, hset⟩

theorem leaves_sieveClrq_of_clear : Leaves (.sieveClrq t) s (fun u => (u.sieve t).queue = [] ∧ (u.sieve t).run = (s.sieve t).run ∧
    u.events = s.events ∧ u.mem = s.mem ∧ ((s.sieve t).queue ≠ [] → u.isSet (Reg.SVE_ERR_REFUSED t) = true)) := by
  obtain ⟨u, hexec, hunits, hset⟩ := leaves_of_endRefused (does_sieveClrq_of_clear hclear) RegsOnly.refl (fun _ => rfl) rfl
  simp only [unitsOf, State.onSieve, State.onTile_mem, State.onTile_events, State.onTile_tile_same, Prod.mk.injEq] at hunits
  obtain ⟨hmem, hevents, -, -, hsieve⟩ := hunits
  exact ⟨u, hexec, by rw [State.sieve, hsieve], by rw [State.sieve, hsieve, State.sieve], hevents, hmem, hset⟩

end

/-! ### A sieve command starts (R680 to R682, R686, R690, R693, R700, R702) -/

/-- The commands that wait for a sieve, and the one it runs with its descriptor. -/
def Sieve.commands (S : Sieve) : List TileCmd × Option (TileCmd × Bytes) := (S.queue, S.run.map (fun r => (r.cmd, r.desc)))

/-- Memory, bricks, SVE_STAT of tile `t`, and the commands of its sieve. -/
def sieveView (t : Tile) (s : State) : List Host.Cell × Vector BrickState 4 × Nat × List TileCmd × Option (TileCmd × Bytes) :=
  (s.mem, s.bricks, s.reg (Reg.SVE_STAT t), (s.sieve t).commands)

section
variable (t : Tile) (s : State)

theorem sieveView_wr_other {f : FieldRef} (hf : Reg.SVE_STAT t ≠ f.reg) (v : Nat) : sieveView t (s.wr f v) = sieveView t s :=
  congrArg (fun n => (s.mem, s.bricks, n, (s.sieve t).commands)) (State.reg_setReg_other s _ _ _ hf)

theorem sieveView_onTile (v : Tile) {f : TileState → TileState}
    (hf : ∀ T : TileState, (f T).sieve.commands = T.sieve.commands := by exact fun _ => rfl) : sieveView t (s.onTile v f) = sieveView t s :=
  congrArg (fun c => (s.mem, s.bricks, s.reg (Reg.SVE_STAT t), c)) (State.onTile_view (p := fun T => T.sieve.commands) s v t hf)

theorem sieveView_onRun {f : SieveRun → SieveRun} (hf : ∀ r, ((f r).cmd, (f r).desc) = (r.cmd, r.desc) := by exact fun _ => rfl) :
    sieveView t (s.onRun t f) = sieveView t s :=
  sieveView_onTile t s t fun T => by
    rw [Sieve.commands, Option.map_map]
    exact congrArg (fun g => (T.sieve.queue, T.sieve.run.map g)) (funext hf)

theorem sieveView_markWord (v : Tile) (bad : Bool) (w : Nat) : sieveView t (markWord v bad s w) = sieveView t s := sieveView_onTile t s v

theorem sieveView_raise (code : Nat) (args : List Nat) : sieveView t (s.raise code args) = sieveView t s := rfl

theorem sieveView_storeReported (e : MemEnv) : sieveView t (storeReported e s) = sieveView t s :=
  State.each_view (V := sieveView t) (fun s _ => (sieveView_raise t _ _ _).trans (sieveView_markWord t s _ true _)) e.storeUnc s

theorem sieveView_sieveRead (off n : Nat) : sieveView t (sieveRead t off n s).2.2 = sieveView t s := by
  rw [sieveRead]
  split <;> rfl

theorem sieveView_notePoison (bad : Bool) : sieveView t (notePoison t bad s) = sieveView t s := by
  rw [notePoison]
  split
  · exact (sieveView_onRun t _).trans (sieveView_wr_other t s (sveStat_ne (by decide)) 1)
  · rfl

theorem sieveView_routingAt (off i : Nat) : sieveView t (routingAt t off i s).2 = sieveView t s :=
  (sieveView_notePoison ..).trans (sieveView_sieveRead ..)

theorem sieveView_landingAt (off i : Nat) : sieveView t (landingAt t off i s).2 = sieveView t s :=
  (sieveView_notePoison ..).trans (sieveView_sieveRead ..)

theorem sieveView_readTable {α : Type} {one : Nat → State → α × State} (hone : ∀ i s, sieveView t (one i s).2 = sieveView t s) (n : Nat) :
    sieveView t (readTable one n s).2 = sieveView t s :=
  List.foldlRecOn (motive := fun acc : List α × State => sieveView t acc.2 = sieveView t s) (List.range n) _ rfl
    fun acc hacc i _ => (hone i acc.2).trans hacc

theorem sieveView_routingTable (off n : Nat) : sieveView t (readTable (routingAt t off) n s).2 = sieveView t s :=
  sieveView_readTable t s (fun i s => sieveView_routingAt t s off i) n

theorem sieveView_landingTable (off n : Nat) : sieveView t (readTable (landingAt t off) n s).2 = sieveView t s :=
  sieveView_readTable t s (fun i s => sieveView_landingAt t s off i) n

theorem sieveView_moveTo (pos : SievePos) : sieveView t (moveTo t pos s) = sieveView t s := sieveView_onRun t s

end

/-- The sieve runs `cmd`, whose descriptor is `d`, from a place `pos`: STATE is Running, OP is the command's, and nothing is done yet (R712, R719). -/
def sieveBegun (t : Tile) (cmd : TileCmd) (d : Bytes) (pos : SievePos) (s : State) : State :=
  (((s.onSieve t (fun S => { S with queue := S.queue.drop 1, run := some { cmd := cmd, desc := d, pos := pos } })).wr (Reg.SVE_STAT_STATE t) svRunning).wr
    (Reg.SVE_STAT_OP t) (cOp cmd.word)).wr (Reg.SVE_STAT_PROG t) 0

/-- The sieve can start `cmd`, the head of its queue, which is an `op` with a descriptor at `off`, of `size` bytes, in the tile store (R680, R681, R716). -/
structure SieveNext (t : Tile) (e : MemEnv) (s : State) (cmd : TileCmd) (rest : List TileCmd) (op off size : Nat) : Prop where
  queue : (s.sieve t).queue = cmd :: rest
  run : (s.sieve t).run = none
  start : mayStart s t cmd = true
  idle : sieveState s t = 0
  isOp : cOp cmd.word = op
  header : sieveHeaderOk cmd.word = true
  high : bitsOf cmd.word 127 57 = 0
  low : bitsOf cmd.word 39 32 = 0
  isOff : bitsOf cmd.word 56 40 * 64 = off
  isSize : sieveDescSize op = size
  inside : inStore off size = true
  aligned : size = 64 ∨ off % 128 = 0
  sound : storeMarked (storeReported e s) t off size = false

/-- The descriptor `d` is one for which an `op` is not refused (R686, R690, R693, R700, R703). -/
inductive SieveAccepts (t : Tile) (s : State) (c : Nat) (d : Bytes) : Nat → Prop
  | gather : gatherRefusal (fun i n => leNat ((d.drop i).take n)) = none → SieveAccepts t s c d 1
  | yard : yardRefusal (fun i n => leNat ((d.drop i).take n)) = none → SieveAccepts t s c d 2
  | dispatch : expertRefusal false 0 (fun i n => leNat ((d.drop i).take n)) = none → SieveAccepts t s c d 3
  | combine : expertRefusal true (elemWidth (cFmtD c)) (fun i n => leNat ((d.drop i).take n)) = none → SieveAccepts t s c d 4
  | points : pointsRefusal s (tileBrick t) (fun i n => leNat ((d.drop i).take n)) = none → SieveAccepts t s c d 5

theorem SieveAccepts.le {t : Tile} {s : State} {c : Nat} {d : Bytes} {op : Nat} (h : SieveAccepts t s c d op) : 0 < op ∧ op ≤ 5 := by
  cases h <;> decide

section
variable {t : Tile} {e : MemEnv} {s : State} {cmd : TileCmd} {rest : List TileCmd} {op off size : Nat}

/-- A start whose checks pass: a DISPATCH and a COMBINE read their tables, and nothing else sets the commands apart. -/
theorem sieveView_startSieve {mine : Nat → Bool} (hnext : SieveNext t e s cmd rest op off size) (hmine : mine op = true) {d : Bytes}
    (hd : d = storeBytes s t off size) (haccept : SieveAccepts t (storeReported e s) cmd.word d op) :
    ∃ pos, sieveView t (startSieve t mine e s) = sieveView t (sieveBegun t cmd d pos (storeReported e s)) := by
  obtain ⟨hqueue, hrun, hstart, hidle, hop, hheader, hhigh, hlow, hoff, hsize, hin, halign, hmark⟩ := hnext
  obtain ⟨hpos, hle⟩ := haccept.le
  have heven : (decide (size = 128) && decide (bitsOf cmd.word 56 40 % 2 = 1)) = false := by
    simp only [Bool.and_eq_false_iff, decide_eq_false_iff_not]
    omega
  simp only [startSieve, hqueue, hrun, hstart, hidle, hop, hheader, hhigh, hlow, hoff, hsize, hin, hmark, hmine, tileReports_eq_storeReported,
    storeBytes_of_sansMarks (sansMarks_storeReported t s e), ← hd, hpos.ne', hle.not_gt, heven]
  cases haccept with
  | gather hno => exact ⟨.gather {}, by simp [hno, sieveBegun, hop]⟩
  | yard hno => exact ⟨.yard 0 0, by simp [hno, sieveBegun, hop]⟩
  | dispatch hno => exact ⟨.dispatch {}, by simp [hno, sieveBegun, hop, sieveView_moveTo, sieveView_routingTable]⟩
  | combine hno => exact ⟨.combine {}, by simp [hno, sieveBegun, hop, sieveView_moveTo, sieveView_landingTable, sieveView_routingTable]⟩
  | points hno => exact ⟨.points { startedAt := (storeReported e s).plumb.toNat }, by simp [hno, sieveBegun, hop]⟩

theorem State.onSieve_sieve (s : State) (t : Tile) (f : Sieve → Sieve) : (s.onSieve t f).sieve t = f (s.sieve t) := by
  rw [State.sieve, State.onSieve, State.onTile_tile_same, State.sieve]

theorem State.wr_sieve (s : State) (f : FieldRef) (v : Nat) (t : Tile) : (s.wr f v).sieve t = s.sieve t := by
  rw [State.sieve, State.tile_congr (State.wr_tiles ..), State.sieve]

/-- The command at the head of the queue is the one that runs. -/
theorem sieveBegun_frame (t : Tile) (cmd : TileCmd) (d : Bytes) (pos : SievePos) (s : State) :
    (sieveBegun t cmd d pos s).mem = s.mem ∧ (sieveBegun t cmd d pos s).bricks = s.bricks ∧
    ((sieveBegun t cmd d pos s).sieve t).commands = ((s.sieve t).queue.drop 1, some (cmd, d)) := by
  rw [sieveBegun, State.wr_mem, State.wr_mem, State.wr_mem, State.wr_bricks, State.wr_bricks, State.wr_bricks, State.wr_sieve, State.wr_sieve,
    State.wr_sieve, State.onSieve_sieve]
  exact ⟨rfl, rfl, rfl⟩

/-- STATE, OP and PROG share SVE_STAT, and no bit of it. -/
theorem rd_sieveBegun (t : Tile) (cmd : TileCmd) (d : Bytes) (pos : SievePos) (s : State) :
    sieveState (sieveBegun t cmd d pos s) t = svRunning ∧ (sieveBegun t cmd d pos s).rd (Reg.SVE_STAT_OP t) = cOp cmd.word := by
  rw [sieveState, sieveBegun]
  refine ⟨?state, ?op⟩
  case state =>
    rw [State.rd_wr_apart, State.rd_wr_apart, State.rd_wr_same] <;>
      simp [Reg.SVE_STAT_STATE, Reg.SVE_STAT_OP, Reg.SVE_STAT_PROG, svRunning]
  case op =>
    rw [State.rd_wr_apart, State.rd_wr_same]
    · exact Nat.mod_eq_of_lt (bitsOf_lt cmd.word 7 0)
    all_goals simp [Reg.SVE_STAT_OP, Reg.SVE_STAT_PROG]

theorem leaves_of_sieveStart {i : Instr} {mine : Nat → Bool} (hexec : exec i s = ended s (.next (sieveRow t mine e s)))
    (hnext : SieveNext t e s cmd rest op off size) (hmine : mine op = true)
    (haccept : SieveAccepts t (storeReported e s) cmd.word (storeBytes s t off size) op) : Leaves i s (fun u =>
      (u.sieve t).queue = rest ∧ (u.sieve t).run.map (fun r => (r.cmd, r.desc)) = some (cmd, storeBytes s t off size) ∧ sieveState u t = svRunning ∧
      u.rd (Reg.SVE_STAT_OP t) = op ∧ u.mem = s.mem ∧ u.bricks = s.bricks) := by
  obtain ⟨pos, hview⟩ := sieveView_startSieve hnext hmine rfl haccept
  have hready := sieveView_storeReported t s e
  have hrow : sieveRow t mine e s = startSieve t mine e s := by rw [sieveRow, hnext.run]
  obtain ⟨hmem, hbricks, hcommands⟩ := sieveBegun_frame t cmd (storeBytes s t off size) pos (storeReported e s)
  obtain ⟨hstate, hop⟩ := rd_sieveBegun t cmd (storeBytes s t off size) pos (storeReported e s)
  simp only [sieveView, Prod.mk.injEq] at hview hready
  obtain ⟨hmem₁, hbricks₁, hstat₁, hcommands₁⟩ := hview
  obtain ⟨hmem₀, hbricks₀, -, hcommands₀⟩ := hready
  have hqueue : ((storeReported e s).sieve t).queue = cmd :: rest := (congrArg Prod.fst hcommands₀).trans hnext.queue
  rw [hqueue] at hcommands
  have hrd (g : FieldRef) (hg : g.reg = Reg.SVE_STAT t) : (s.done (startSieve t mine e s)).rd g =
      (sieveBegun t cmd (storeBytes s t off size) pos (storeReported e s)).rd g := by
    rw [State.done_rd_other _ _ (hg ▸ tileReg_ne_seatOwn _ _ _), State.rd, State.rd, hg, hstat₁]
  refine ⟨_, by rw [hexec, ended_next, hrow], ?queue, ?run, (hrd _ rfl).trans hstate, (hrd _ rfl).trans (hop.trans hnext.isOp),
    hmem₁.trans (hmem.trans hmem₀), hbricks₁.trans (hbricks.trans hbricks₀)⟩
  case queue => exact congrArg Prod.fst (hcommands₁.trans hcommands)
  case run => exact congrArg Prod.snd (hcommands₁.trans hcommands)

end

/-! ### A sieve command completes (R684, R685, R712) -/

/-- Memory, bricks, tiles, and SVE_STAT of tile `t`. -/
def statView (t : Tile) (s : State) : List Host.Cell × Vector BrickState 4 × Vector TileState 128 × Nat :=
  (s.mem, s.bricks, s.tiles, s.reg (Reg.SVE_STAT t))

theorem statView_raise (t : Tile) (s : State) (code : Nat) (args : List Nat) : statView t (s.raise code args) = statView t s := rfl

theorem statView_of_regsOnly {t : Tile} {s u : State} (h : RegsOnly s u) (hreg : u.reg (Reg.SVE_STAT t) = s.reg (Reg.SVE_STAT t)) :
    statView t u = statView t s := by
  obtain ⟨_, rfl⟩ := h
  exact congrArg (fun n => (s.mem, s.bricks, s.tiles, n)) hreg

/-- What a completed command counts and reports comes between its summary and the change of SVE_STAT. -/
theorem does_sieveCommandComplete_of_done {t : Tile} {s : State} {r : SieveRun} {v : Word} (hrun : (s.sieve t).run = some r) (hdone : r.done = some v)
    (hgoes : tileGoes s t = true) : ∃ told,
      Does (.sieveCommandComplete t) s ((told.wr (Reg.SVE_STAT_OP t) 0).wr (Reg.SVE_STAT_STATE t)
        (if sieveState (told.wr (Reg.SVE_STAT_OP t) 0) t = svSuspending then svSuspended else 0)) ∧
      statView t told = statView t ((finishSummary t r.cmd v s).onSieve t (fun S => { S with run := none })) := by
  change ∃ told, execSieveCommandComplete t s = _ ∧ _
  unfold execSieveCommandComplete
  rw [hrun]
  dsimp -zeta only
  rw [hdone]
  dsimp -zeta only
  rw [if_neg (by simp [hgoes])]
  extract_lets op finished freed counted reported told idle
  refine ⟨told, rfl, ?_⟩
  have htold : statView t told = statView t counted := by
    rw [apply_ite (statView t), statView_raise, ite_self, apply_ite (statView t), statView_raise, ite_self]
  have hcounted : statView t counted = statView t freed :=
    (statView_of_regsOnly (tally_regsOnly ..) (tally_reg_other (by decide) (by decide) _ _ _)).trans
      (statView_of_regsOnly (State.wr_regsOnly ..) (State.reg_setReg_other _ _ _ _ (sveStat_ne (by decide))))
  exact htold.trans hcounted

/-- A summary goes into no register, no brick and no memory. -/
theorem finishSummary_frame (t : Tile) (cmd : TileCmd) (v : Word) (s : State) (k : Nat) :
    (finishSummary t cmd v s).mem = s.mem ∧ (finishSummary t cmd v s).bricks = s.bricks ∧ (finishSummary t cmd v s).reg k = s.reg k := by
  rw [finishSummary]
  split <;> exact ⟨rfl, rfl, rfl⟩

theorem sums_finishSummary {t : Tile} {cmd : TileCmd} (hsumen : cSumen cmd.word = true) (v : Word) (s : State) :
    tabGet 0 ((finishSummary t cmd v s).mason t).sums (cSreg cmd.word) = v := by
  rw [finishSummary, if_pos hsumen, State.onMason_mason, tabGet_tabSet_same]

theorem State.onSieve_mason (s : State) (t : Tile) (f : Sieve → Sieve) : (s.onSieve t f).mason t = s.mason t := by
  rw [State.mason, State.onSieve, State.onTile_tile_same, State.mason]

theorem sieveState_of_reg {s u : State} {t : Tile} (h : u.reg (Reg.SVE_STAT t) = s.reg (Reg.SVE_STAT t)) : sieveState u t = sieveState s t :=
  congrArg (fun n => bitsOf n 63 61) h

/-- The writes of OP and STATE that end a command give both their values. -/
theorem rd_sieveEnded (t : Tile) {st : Nat} (hst : st < 8) (s : State) :
    sieveState ((s.wr (Reg.SVE_STAT_OP t) 0).wr (Reg.SVE_STAT_STATE t) st) t = st ∧
    ((s.wr (Reg.SVE_STAT_OP t) 0).wr (Reg.SVE_STAT_STATE t) st).rd (Reg.SVE_STAT_OP t) = 0 := by
  rw [sieveState]
  refine ⟨?state, ?op⟩
  case state =>
    exact (State.rd_wr_same _ (Reg.SVE_STAT_STATE t) st (by simp [Reg.SVE_STAT_STATE]) (by simp [Reg.SVE_STAT_STATE])).trans (Nat.mod_eq_of_lt hst)
  case op => rw [State.rd_wr_apart, State.rd_wr_same] <;> simp [Reg.SVE_STAT_STATE, Reg.SVE_STAT_OP]

theorem leaves_sieveCommandComplete_of_done {t : Tile} {s : State} {r : SieveRun} {v : Word} (hrun : (s.sieve t).run = some r) (hdone : r.done = some v)
    (hgoes : tileGoes s t = true) : Leaves (.sieveCommandComplete t) s (fun u => (u.sieve t).run = none ∧
      sieveState u t = (if sieveState s t = svSuspending then svSuspended else 0) ∧ u.rd (Reg.SVE_STAT_OP t) = 0 ∧
      (cSumen r.cmd.word = true → tabGet 0 (u.mason t).sums (cSreg r.cmd.word) = v) ∧ u.mem = s.mem ∧ u.bricks = s.bricks) := by
  obtain ⟨told, hdoes, hview⟩ := does_sieveCommandComplete_of_done hrun hdone hgoes
  simp only [statView, Prod.mk.injEq] at hview
  obtain ⟨hmem, hbricks, htiles, hstat⟩ := hview
  obtain ⟨hmem₀, hbricks₀, hstat₀⟩ := finishSummary_frame t r.cmd v s (Reg.SVE_STAT t)
  have hidle : sieveState (told.wr (Reg.SVE_STAT_OP t) 0) t = sieveState s t :=
    (State.rd_wr_apart told (Reg.SVE_STAT_OP t) (Reg.SVE_STAT_STATE t) 0 rfl (by simp [Reg.SVE_STAT_OP]) (by simp [Reg.SVE_STAT_STATE])
      (by simp [Reg.SVE_STAT_OP, Reg.SVE_STAT_STATE])).trans (sieveState_of_reg (hstat.trans hstat₀))
  rw [hidle] at hdoes
  have hst : (if sieveState s t = svSuspending then svSuspended else 0) < 8 := by split <;> decide
  obtain ⟨hstate, hop⟩ := rd_sieveEnded t hst told
  have htile : ((told.wr (Reg.SVE_STAT_OP t) 0).wr (Reg.SVE_STAT_STATE t) (if sieveState s t = svSuspending then svSuspended else 0)).tile t =
      ((finishSummary t r.cmd v s).onSieve t (fun S => { S with run := none })).tile t :=
    State.tile_congr ((State.wr_tiles ..).trans ((State.wr_tiles ..).trans htiles)) t
  refine ⟨_, hdoes, ?run, ?state, ?op, fun hsumen => ?sums, ?mem, ?bricks⟩
  case run => rw [State.sieve, State.done_tile, htile, ← State.sieve, State.onSieve_sieve]
  case state => exact (State.done_rd_other _ _ (g := Reg.SVE_STAT_STATE t) (tileReg_ne_seatOwn _ _ _)).trans hstate
  case op => exact (State.done_rd_other _ _ (g := Reg.SVE_STAT_OP t) (tileReg_ne_seatOwn _ _ _)).trans hop
  case sums => rw [State.mason, State.done_tile, htile, ← State.mason, State.onSieve_mason, sums_finishSummary hsumen]
  case mem => rw [State.done_mem, State.wr_mem, State.wr_mem, hmem, State.onSieve, State.onTile_mem, hmem₀]
  case bricks => rw [State.done_bricks, State.wr_bricks, State.wr_bricks, hbricks, State.onSieve, State.onTile_bricks, hbricks₀]

/-! ### STATE of the sieve (R680, R712) -/

section
variable {t : Tile} {s : State}

theorem does_sieveSuspensionPoint_of_suspending {r : SieveRun} (hrun : (s.sieve t).run = some r) (hgoes : tileGoes s t = true)
    (hstate : sieveState s t = svSuspending) (hat : atSuspension r = true) :
    Does (.sieveSuspensionPoint t) s (s.wr (Reg.SVE_STAT_STATE t) svSuspended) := by
  rw [Does, exec_sieveSuspensionPoint, execSieveSuspensionPoint, if_neg (by simp [hgoes]), hrun]
  simp only [hstate, hat, decide_true, Bool.and_self, if_true, ended_next]

variable (hserves : tileServes s t = true) (hfence : tileFenced s t = false)
include hserves hfence

theorem does_sieveSusp_of_running (hstate : sieveState s t = svRunning) : Does (.sieveSusp t) s (s.wr (Reg.SVE_STAT_STATE t) svSuspending) := by
  rw [Does, exec_sieveSusp, execSieveSusp, ended_next, suspendSieve, if_neg (by simp [hserves, hfence]), if_pos hstate]

theorem does_sieveResume_of_suspended {r : SieveRun} (hstate : sieveState s t = svSuspended) (hrun : (s.sieve t).run = some r) :
    Does (.sieveResume t) s (s.wr (Reg.SVE_STAT_STATE t) svRunning) := by
  rw [Does, exec_sieveResume, execSieveResume, ended_next, resumeSieve, if_neg (by simp [hserves, hfence]), if_pos (by simp [hstate]), hrun]
  rfl

theorem does_sieveCancel_of_running {r : SieveRun} (hstate : sieveState s t = svRunning) (hrun : (s.sieve t).run = some r)
    (hqueue : (s.sieve t).queue = []) :
    Does (.sieveCancel t) s ((s.onSieve t (fun S => { S with queue := [] })).wr (Reg.SVE_STAT_STATE t) svCancelling) := by
  have hdrop : dropSieveQueue t s = s.onSieve t (fun S => { S with queue := [] }) := by rw [dropSieveQueue, hqueue]; rfl
  have hsome : ((s.onSieve t (fun S => { S with queue := [] })).sieve t).run.isSome = true := by rw [State.onSieve_sieve, hrun]; rfl
  rw [Does, exec_sieveCancel, execSieveCancel, ended_next, cancelSieve, if_neg (by simp [hserves, hfence, hstate, svRunning]), hdrop]
  dsimp only
  rw [if_pos hsome]

end

/-! ### Assembly -/

/-- Settles O36: each command from what it does (`does_…`) or leaves (`leaves_…`). -/
theorem unitCommands : Obligations.UnitCommands := by
  refine ⟨fun t s => ?press, fun t e s => ?sieve⟩
  case press =>
    exact ⟨fun _ _ hqueue hrun hstart => does_pmode_of_next ⟨hqueue, hrun, hstart⟩, fun _ => does_pressCommandComplete_of_run,
      leaves_pressClrq_of_clear, does_rinj_of_enabled, fun _ _ e hqueue hrun hstart => does_mma_of_unnamed ⟨hqueue, hrun, hstart⟩ e⟩
  case sieve =>
    intro starts
    have hstarts {i : Instr} {op : Nat} {refusal : Nat → (Nat → Nat → Nat) → Option Nat} {mine : Nat → Bool}
        (hexec : exec i s = ended s (.next (sieveRow t mine e s))) (hmine : mine op = true)
        (haccept : ∀ c (d : Bytes), refusal c (fun i n => leNat ((d.drop i).take n)) = none → SieveAccepts t (storeReported e s) c d op) :
        starts i op refusal := by
      intro cmd rest hqueue hrun hstart hidle hop hheader hhigh hlow off size s1 d hin halign hmark hno
      exact leaves_of_sieveStart hexec ⟨hqueue, hrun, hstart, hidle, hop, hheader, hhigh, hlow, rfl, rfl, hin, halign, hmark⟩ hmine (haccept _ _ hno)
    -- `starts` is settled, and would be unfolded in each use of `hstarts`.
    clear_value starts
    exact ⟨hstarts (exec_gather t e s) rfl fun _ _ => .gather, hstarts (exec_sieveYard t e s) rfl fun _ _ => .yard,
      hstarts (exec_dispatch t e s) rfl fun _ _ => .dispatch, hstarts (exec_combine t e s) rfl fun _ _ => .combine,
      hstarts (exec_points t e s) rfl fun _ _ => .points, fun _ _ => leaves_sieveCommandComplete_of_done, does_sieveSusp_of_running,
      fun _ => does_sieveSuspensionPoint_of_suspending, fun _ hserves hfence => does_sieveResume_of_suspended hserves hfence,
      fun _ hserves hfence => does_sieveCancel_of_running hserves hfence, leaves_sieveClrq_of_clear, leaves_glazeClrq_of_clear,
      fun _ => does_glazeCommandComplete_of_run⟩

end Sys2Proof.Machine
end

section
/-! PROOFS. The registers of the glaze (R578 to R580): elements that a command writes read back, and every other byte reads as before. -/
namespace Sys2Proof.Machine
open Sys2Proof

/-! ### Bytes of a table, as bytes of memory -/

theorem leBytes_mod (n v : Nat) : leBytes n (v % 256 ^ n) = leBytes n v := by
  induction n generalizing v with
  | zero => rfl
  | succ n ih =>
    have hhead : BitVec.ofNat 8 (v % 256 ^ (n + 1)) = BitVec.ofNat 8 v := by
      apply BitVec.eq_of_toNat_eq
      rw [BitVec.toNat_ofNat, BitVec.toNat_ofNat]
      exact Nat.mod_mod_of_dvd v (Dvd.intro_left (256 ^ n) rfl)
    have htail : v % 256 ^ (n + 1) / 256 = v / 256 % 256 ^ n := by rw [pow_succ', Nat.mod_mul_right_div_self]
    rw [leBytes, leBytes, hhead, htail, ih]

theorem leNat_lt (bs : Bytes) : leNat bs < 256 ^ bs.length := by
  induction bs with
  | nil => simp [leNat]
  | cons b bs ih =>
    have := b.isLt
    rw [leNat, List.length_cons, pow_succ]
    omega

theorem memRead_eq_map (m : List Host.Cell) (a n : Nat) : memRead m a n = (List.range n).map (fun k => memByte m (a + k)) := by
  induction n generalizing a with
  | zero => rfl
  | succ n ih =>
    rw [memRead, ih, List.range_succ_eq_map, List.map_cons, List.map_map]
    exact congrArg (memByte m a :: ·) (List.map_congr_left fun k _ => congrArg (memByte m) (by simp only [Nat.succ_eq_add_one]; omega))

/-- The bytes of a number put down one after another are the number written. -/
theorem foldl_tabSet_eq_memWrite (m : List Host.Cell) (a n v : Nat) :
    (List.range n).foldl (fun r k => tabSet 0 r (a + k) (BitVec.ofNat 8 (v / 256 ^ k))) m = memWrite m a (leBytes n v) := by
  induction n generalizing m a v with
  | zero => rfl
  | succ n ih =>
    have hstep (r : List Host.Cell) (k : Nat) : tabSet 0 r (a + k.succ) (BitVec.ofNat 8 (v / 256 ^ k.succ)) =
        tabSet 0 r (a + 1 + k) (BitVec.ofNat 8 (v / 256 / 256 ^ k)) := by
      rw [Nat.div_div_eq_div_mul, ← pow_succ', Nat.succ_eq_add_one, Nat.add_assoc a 1 k, Nat.add_comm 1 k]
    rw [List.range_succ_eq_map, List.foldl_cons, List.foldl_map, leBytes, memWrite, ← ih]
    simp only [hstep, pow_zero, Nat.div_one, Nat.add_zero]
    rfl

section
variable {α : Type} {place : α → Nat} {bytes : α → Bytes} {w : Nat} (hw : ∀ x, (bytes x).length = w)
include hw

theorem memByte_foldl_memWrite_outside {a : Nat} {xs : List α} (hout : ∀ x ∈ xs, a < place x ∨ place x + w ≤ a) (m : List Host.Cell) :
    memByte (xs.foldl (fun m x => memWrite m (place x) (bytes x)) m) a = memByte m a := by
  induction xs generalizing m with
  | nil => rfl
  | cons x xs ih =>
    obtain ⟨hx, hxs⟩ := List.forall_mem_cons.mp hout
    rw [List.foldl_cons, ih hxs, memByte_memWrite_outside _ _ _ _ (by rwa [hw])]

/-- Where no two of the pieces meet, each is there in the end. -/
theorem memRead_foldl_memWrite {xs : List α} {x : α} (hx : x ∈ xs)
    (hapart : ∀ y ∈ xs, y ≠ x → place x + w ≤ place y ∨ place y + w ≤ place x) (m : List Host.Cell) :
    memRead (xs.foldl (fun m x => memWrite m (place x) (bytes x)) m) (place x) w = bytes x := by
  rw [← hw x]
  refine memRead_eq_of_memByte _ _ _ fun i hi => ?_
  induction xs generalizing m with
  | nil => cases hx
  | cons y ys ih =>
    obtain ⟨-, hys⟩ := List.forall_mem_cons.mp hapart
    by_cases hrest : x ∈ ys
    · exact ih hrest hys _
    · obtain rfl : x = y := (List.mem_cons.mp hx).resolve_right hrest
      have hout : ∀ z ∈ ys, place x + i < place z ∨ place z + w ≤ place x + i := by
        intro z hz
        have := hys z hz (ne_of_mem_of_not_mem hz hrest)
        rw [hw] at hi
        omega
      rw [List.foldl_cons, memByte_foldl_memWrite_outside hw hout, memByte_memWrite_inside]

end

/-! ### Elements of a register -/

theorem gregByte_eq_memByte (G : Glaze) (v b : Nat) : gregByte G v b = memByte G.regs (512 * v + b) := rfl

theorem gregElem_eq_memRead (G : Glaze) (v w i : Nat) : gregElem G v w i = leNat (memRead G.regs (512 * v + w * i) w) := by
  rw [gregElem, memRead_eq_map]
  exact congrArg leNat (List.map_congr_left fun k _ => by rw [gregByte_eq_memByte, Nat.add_assoc])

theorem gregElem_lt (G : Glaze) (v w i : Nat) : gregElem G v w i < 256 ^ w := by
  have h := leNat_lt ((List.range w).map (fun k => gregByte G v (w * i + k)))
  rwa [List.length_map, List.length_range] at h

/-- Elements and bytes depend on the registers alone, not on poison marks. -/
theorem gregElem_congr {G H : Glaze} (h : G.regs = H.regs) : gregElem G = gregElem H := by
  funext v w i
  rw [gregElem_eq_memRead, gregElem_eq_memRead, h]

theorem gregByte_congr {G H : Glaze} (h : G.regs = H.regs) : gregByte G = gregByte H := by
  funext v b
  rw [gregByte_eq_memByte, gregByte_eq_memByte, h]

theorem operandB_code_congr {G H : Glaze} (h : G.regs = H.regs) (c w i : Nat) : (operandB G c w i).1 = (operandB H c w i).1 := by
  rw [operandB, operandB]
  split
  · rfl
  · rw [gregElem_congr h]

theorem operandB_code_lt (G : Glaze) (c w i : Nat) : (operandB G c w i).1 < 256 ^ w := by
  rw [operandB]
  split
  · exact Nat.mod_lt _ (by positivity)
  · exact gregElem_lt ..

/-! ### Elements written -/

/-- The index of an element written, and as much of its code as `w` bytes hold. -/
def OutElem.written (w : Nat) (x : OutElem) : Nat × Nat := (x.ix, x.code % 256 ^ w)

theorem regs_gregPut (v w : Nat) (es : List OutElem) (G : Glaze) : (gregPut v w es G).regs =
    (es.map (OutElem.written w)).foldl (fun r p => memWrite r (512 * v + w * p.1) (leBytes w p.2)) G.regs := by
  rw [List.foldl_map]
  exact List.foldl_ext _ _ _ fun r x _ => (foldl_tabSet_eq_memWrite r _ w _).trans (by rw [OutElem.written, leBytes_mod])

/-- `es` are `n` elements: `f k`, as `w` bytes hold it, at the index `ix k`. -/
def Spells (es : List OutElem) (w n : Nat) (ix f : Nat → Nat) : Prop :=
  es.map (OutElem.written w) = (List.range n).map (fun k => (ix k, f k % 256 ^ w))

theorem spells_map {w n : Nat} {ix f : Nat → Nat} {el : Nat → OutElem} (h : ∀ k, k < n → (el k).written w = (ix k, f k % 256 ^ w)) :
    Spells ((List.range n).map el) w n ix f := by
  rw [Spells, List.map_map]
  exact List.map_congr_left fun k hk => h k (List.mem_range.mp hk)

section
variable {es : List OutElem} {w n : Nat} {ix f : Nat → Nat} (hes : Spells es w n ix f)
include hes

theorem regs_gregPut_of_spells (v : Nat) (G : Glaze) : (gregPut v w es G).regs =
    (List.range n).foldl (fun r k => memWrite r (512 * v + w * ix k) (leBytes w (f k % 256 ^ w))) G.regs := by
  rw [regs_gregPut, hes, List.foldl_map]

theorem gregElem_gregPut (hix : Function.Injective ix) (v : Nat) (G : Glaze) {k : Nat} (hk : k < n) :
    gregElem (gregPut v w es G) v w (ix k) = f k % 256 ^ w := by
  have hapart : ∀ j ∈ List.range n, j ≠ k → 512 * v + w * ix k + w ≤ 512 * v + w * ix j ∨ 512 * v + w * ix j + w ≤ 512 * v + w * ix k := by
    intro j _ hjk
    rcases Nat.lt_or_gt_of_ne (hix.ne hjk) with hlt | hlt <;>
    · have := Nat.mul_le_mul_left w (Nat.succ_le_of_lt hlt)
      rw [Nat.mul_succ] at this
      omega
  rw [gregElem_eq_memRead, regs_gregPut_of_spells hes, memRead_foldl_memWrite (place := fun k => 512 * v + w * ix k) (fun _ => length_leBytes _ _)
    (List.mem_range.mpr hk) hapart, leNat_leBytes, Nat.mod_mod]

theorem gregByte_gregPut_other (hw : 0 < w) (hfit : ∀ k, k < n → ix k < lanes w) {v v' b : Nat} (hb : b < 512)
    (hother : v' ≠ v ∨ ∀ k, k < n → b / w ≠ ix k) (G : Glaze) : gregByte (gregPut v w es G) v' b = gregByte G v' b := by
  rw [gregByte_eq_memByte, regs_gregPut_of_spells hes]
  refine memByte_foldl_memWrite_outside (place := fun k => 512 * v + w * ix k) (fun _ => length_leBytes _ _) (fun k hk => ?_) _
  have hk := List.mem_range.mp hk
  have hin : w * (ix k + 1) ≤ 512 := (Nat.mul_le_mul_left w (hfit k hk)).trans (Nat.mul_div_le 512 w)
  rw [Nat.mul_succ] at hin
  rcases hother with hv | hne
  · omega
  · have hout : ¬(ix k * w ≤ b ∧ b < (ix k + 1) * w) := fun ⟨hlo, hhi⟩ => hne k hk (Nat.div_eq_of_lt_le hlo hhi)
    rw [Nat.succ_mul, Nat.mul_comm] at hout
    by_cases hv : v' = v
    · rw [hv]
      omega
    · omega

end

end Sys2Proof.Machine
end

section
/-! PROOFS. A glaze command that passes its checks (R582 to R586, R614, R617 to R620): what its performance may change besides what it writes. -/
namespace Sys2Proof.Machine
open Sys2Proof

/-! ### What a performance notes on the way -/

/-- A state but for its registers, its events and the counter of free values. -/
def State.bare (s : State) : State := { s with regs := [], events := [], freeCtr := 0 }

section
variable (s : State) (t : Tile)

@[simp] theorem State.bare_wr (f : FieldRef) (v : Nat) : (s.wr f v).bare = s.bare := (rfl)
@[simp] theorem State.bare_flag (f : FieldRef) : (s.flag f).bare = s.bare := (rfl)
@[simp] theorem State.bare_count (f : FieldRef) (n : Nat) : (s.count f n).bare = s.bare := (rfl)
@[simp] theorem State.bare_raise (code : Nat) (args : List Nat) : (s.raise code args).bare = s.bare := (rfl)
@[simp] theorem State.bare_draw (n : Nat) : (s.draw n).2.bare = s.bare := (rfl)
@[simp] theorem State.bare_onGlaze (f : Glaze → Glaze) : (s.onGlaze t f).bare = s.bare.onGlaze t f := (rfl)

theorem State.bare_when {f : State → State} (hf : ∀ s, (f s).bare = s.bare) (c : Bool) : (s.when c f).bare = s.bare := by
  rw [State.when, apply_ite State.bare, hf, ite_self]

@[simp] theorem bare_tally (i n : Nat) : (tally t i n s).bare = s.bare := by rw [tally, apply_ite State.bare, State.bare_wr, ite_self]

@[simp] theorem bare_noteConvs (cs : List Conv) : (noteConvs t cs s).bare = s.bare := by
  simp only [noteConvs, State.bare_count, State.bare_when _ (fun s => State.bare_flag s _)]

@[simp] theorem bare_glazePoisIn (c : Nat) (bad : Bool) (what : Nat) : (glazePoisIn t c bad what s).bare = s.bare := by
  rw [glazePoisIn, apply_ite State.bare, State.bare_raise, State.bare_flag, ite_self]

@[simp] theorem bare_noteSf (iter f : Nat) (rs : List SfResult) : (noteSf t iter f rs s).bare = s.bare := by
  simp only [noteSf, bare_tally, State.bare_count, State.bare_when _ (fun s => State.bare_flag s _)]

@[simp] theorem bare_glazeSum (kind val : Nat) (any all nan bad : Bool) : (glazeSum kind val any all nan bad s).2.bare = s.bare := by
  rw [glazeSum]
  split <;> rfl

@[simp] theorem bare_rowSum (kind val : Nat) (bad : Bool) : (rowSum kind val bad s).2.bare = s.bare := (rfl)

end

section
variable {s u : State} (h : u.bare = s.bare)
include h

/-- Whatever does not look at registers, events and the counter is as it was. -/
theorem view_of_bare {β : Type} (p : State → β) (hp : ∀ s, p s.bare = p s := by exact fun _ => rfl) : p u = p s := by
  rw [← hp, h, hp]

end

/-! ### What lies beside the glaze, and what the memories report of it -/

/-- The memory, the bricks, the links, and the other units of tile `t`. -/
def besideGlaze (t : Tile) (s : State) : List Host.Cell × Vector BrickState 4 × Vector Link 24 × Vector Link 12 × Press × Sieve × Mason :=
  (s.mem, s.bricks, s.ports, s.bridges, (s.tile t).press, (s.tile t).sieve, (s.tile t).mason)

theorem besideGlaze_onTile (t v : Tile) (s : State) {f : TileState → TileState}
    (hf : ∀ T, ((f T).press, (f T).sieve, (f T).mason) = (T.press, T.sieve, T.mason) := by exact fun _ => rfl) :
    besideGlaze t (s.onTile v f) = besideGlaze t s :=
  congrArg (fun T => (s.mem, s.bricks, s.ports, s.bridges, T)) (State.onTile_view (p := fun T => (T.press, T.sieve, T.mason)) s v t hf)

/-- A tile's glaze but for its poison marks. -/
def sansGlazeMarks (t : Tile) (s : State) : Glaze := { (s.tile t).glaze with marks := [] }

theorem sansGlazeMarks_onTile (t v : Tile) (s : State) {f : TileState → TileState}
    (hf : ∀ T, { (f T).glaze with marks := [] } = { T.glaze with marks := [] } := by exact fun _ => rfl) :
    sansGlazeMarks t (s.onTile v f) = sansGlazeMarks t s := State.onTile_view (p := fun T => { T.glaze with marks := [] }) s v t hf

/-- The state in which the glaze performs a command, once tile stores and glaze registers have reported (R489, R620). -/
def glazeReported (t : Tile) (e : MemEnv) (s : State) : State := glazeReports t e (storeReported e s)

/-- The reports keep whatever word marks, registers and events leave alone. -/
theorem glazeReported_view {β : Type} {V : State → β} (t : Tile) (hbare : ∀ s, V s.bare = V s)
    (hmark : ∀ v w s, V (markWord v true s w) = V s) (hglaze : ∀ w s, V (s.onGlaze t (fun G => { G with marks := insertNum G.marks w })) = V s)
    (e : MemEnv) (s : State) : V (glazeReported t e s) = V s := by
  have hstore (s : State) : V (storeReported e s) = V s :=
    State.each_view (fun s u => (view_of_bare (State.bare_raise ..) V hbare).trans (hmark ..)) e.storeUnc s
  refine (State.each_view (V := V) (fun s u => ?_) _ _).trans (hstore s)
  exact (view_of_bare ((State.bare_raise ..).trans (State.bare_flag ..)) V hbare).trans (hglaze ..)

theorem besideGlaze_glazeReported (t : Tile) (e : MemEnv) (s : State) : besideGlaze t (glazeReported t e s) = besideGlaze t s :=
  glazeReported_view t (fun _ => rfl) (fun v _ s => besideGlaze_onTile t v s) (fun _ s => besideGlaze_onTile t t s) e s

theorem sansGlazeMarks_glazeReported (t : Tile) (e : MemEnv) (s : State) : sansGlazeMarks t (glazeReported t e s) = sansGlazeMarks t s :=
  glazeReported_view t (fun _ => rfl) (fun v _ s => sansGlazeMarks_onTile t v s) (fun _ s => sansGlazeMarks_onTile t t s) e s

/-- What a glaze holds beside its poison marks is as it was before the reports. -/
theorem glaze_glazeReported {β : Type} (p : Glaze → β) (t : Tile) (e : MemEnv) (s : State)
    (hp : ∀ G : Glaze, p { G with marks := [] } = p G := by exact fun _ => rfl) :
    p ((glazeReported t e s).tile t).glaze = p (s.tile t).glaze := by
  rw [← hp, ← hp (s.tile t).glaze]
  exact congrArg p (sansGlazeMarks_glazeReported t e s)

section
variable (t : Tile) (e : MemEnv) (s : State)

@[simp] theorem gregElem_glazeReported : gregElem ((glazeReported t e s).tile t).glaze = gregElem (s.tile t).glaze :=
  gregElem_congr (glaze_glazeReported Glaze.regs t e s)

@[simp] theorem gregByte_glazeReported : gregByte ((glazeReported t e s).tile t).glaze = gregByte (s.tile t).glaze :=
  gregByte_congr (glaze_glazeReported Glaze.regs t e s)

@[simp] theorem operandB_glazeReported (c w i : Nat) :
    (operandB ((glazeReported t e s).tile t).glaze c w i).1 = (operandB (s.tile t).glaze c w i).1 :=
  operandB_code_congr (glaze_glazeReported Glaze.regs t e s) c w i

@[simp] theorem rowSlot_glazeReported (k : Nat) : rowSlot ((glazeReported t e s).tile t).glaze k = rowSlot (s.tile t).glaze k :=
  glaze_glazeReported (fun G => rowSlot G k) t e s

@[simp] theorem storeNumAt_glazeReported : storeNumAt (glazeReported t e s) = storeNumAt s := by
  rw [storeNumAt_eq_of_mem, show (glazeReported t e s).mem = s.mem from congrArg Prod.fst (besideGlaze_glazeReported t e s), ← storeNumAt_eq_of_mem]

end

/-! ### The checks of a command (R618) -/

theorem ifRefused_eq_none {c : Prop} [Decidable c] {why : Nat} {o : Option Nat} : (if c then some why else o) = none ↔ ¬c ∧ o = none :=
  ⟨notRefused, fun ⟨hc, ho⟩ => by rw [if_neg hc, ho]⟩

theorem GlazeCheck.why_eq_none {k : GlazeCheck} {c : Nat} :
    k.why c = none ↔ k.fmt = true ∧ k.fields = true ∧ k.addr = true ∧ (cSumen c = true → k.sums = true) ∧ k.slot = true := by
  rw [GlazeCheck.why, ifRefused_eq_none, ifRefused_eq_none, ifRefused_eq_none, ifRefused_eq_none, ifRefused_eq_none]
  simp

theorem elemWidth_pos (f : Nat) : 0 < elemWidth f := by
  unfold elemWidth
  split <;> decide

/-- What passing the shared check says of the format and of VL (R585, R587). -/
theorem of_elementCheck {fmts : List Nat} {useB useC subOk sums : Bool} {c : Nat} (h : (elementCheck fmts useB useC subOk sums c).why c = none) :
    cFmtA c ∈ fmts ∧ active c (lanes (elemWidth (cFmtA c))) ≤ lanes (elemWidth (cFmtA c)) := by
  obtain ⟨hfmt, hfields, -⟩ := GlazeCheck.why_eq_none.mp h
  simp only [elementCheck, Bool.and_eq_true, List.contains_iff_mem, decide_eq_true_eq] at hfmt hfields
  obtain ⟨⟨hmem, -⟩, -⟩ := hfmt
  obtain ⟨-, hactive⟩ := hfields
  exact ⟨hmem, hactive⟩

/-! ### A command starts (R614) -/

section
variable {t : Tile} {s : State} {cmd : TileCmd} {rest : List TileCmd} (hnext : GlazeNext s t cmd rest)
include hnext

theorem glazeHead_of_next (mine : Nat → Bool) : glazeHead s t mine = if mine cmd.word then some cmd else none := by
  obtain ⟨hqueue, hrun, hstart⟩ := hnext
  simp [glazeHead, hqueue, hrun, hstart]

/-- A command whose checks pass is performed once the memories have reported, and starts with the summary that the performance gives. -/
theorem does_of_glazeDo {i : Instr} {e : MemEnv} {mine : Nat → Bool} {check : Nat → State → GlazeCheck}
    {perform : TileCmd → State → Word × State} (hexec : exec i s = ended s (glazeDo t mine check perform e s)) (hmine : mine cmd.word = true)
    (hwhy : (check cmd.word s).why cmd.word = none) :
    Does i s (startGlaze t cmd (perform cmd (glazeReported t e s)).1 (perform cmd (glazeReported t e s)).2) := by
  rw [Does, hexec, glazeDo, glazeHead_of_next hnext, if_pos hmine]
  dsimp only
  rw [hwhy]
  rfl

end

/-- A command that starts leaves the queue, and nothing but its summary is still to be written. -/
theorem startGlaze_tile (t : Tile) (cmd : TileCmd) (sum : Word) (s : State) : (startGlaze t cmd sum s).tile t =
    { s.tile t with glaze := { (s.tile t).glaze with queue := (s.tile t).glaze.queue.drop 1, run := some { cmd := cmd, sum := sum } } } :=
  State.onTile_tile_same ..

/-! ### What is left of a command that changes its glaze alone -/

/-- A performance that leads from `r` to `u`, and but for notes changes the glaze of tile `t` by `g` alone. -/
def ChangesGlaze (t : Tile) (g : Glaze → Glaze) (r u : State) : Prop := u.bare = (r.onGlaze t g).bare

theorem changesGlaze_onGlaze {t : Tile} {g : Glaze → Glaze} {r u : State} (h : u.bare = r.bare) : ChangesGlaze t g r (u.onGlaze t g) := by
  rw [ChangesGlaze, State.bare_onGlaze, h, State.bare_onGlaze]

theorem ChangesGlaze.noted {t : Tile} {g : Glaze → Glaze} {r u v : State} (h : ChangesGlaze t g r u) (hv : v.bare = u.bare) :
    ChangesGlaze t g r v := Eq.trans hv h

section
variable {t : Tile} {e : MemEnv} {s u : State} {cmd : TileCmd} {g : Glaze → Glaze}
  (hu : ChangesGlaze t g (glazeReported t e s) u) (sum : Word)
include hu

theorem glaze_of_changesGlaze : ((s.done (startGlaze t cmd sum u)).tile t).glaze =
    { g ((glazeReported t e s).tile t).glaze with
      queue := (g ((glazeReported t e s).tile t).glaze).queue.drop 1, run := some { cmd := cmd, sum := sum } } := by
  rw [State.done_tile, startGlaze_tile, view_of_bare hu (fun s => s.tile t), State.onGlaze, State.onTile_tile_same]

theorem besideGlaze_of_changesGlaze : besideGlaze t (s.done (startGlaze t cmd sum u)) = besideGlaze t s :=
  calc besideGlaze t (s.done (startGlaze t cmd sum u))
    _ = besideGlaze t (startGlaze t cmd sum u) := rfl
    _ = besideGlaze t u := besideGlaze_onTile t t u
    _ = besideGlaze t ((glazeReported t e s).onGlaze t g) := view_of_bare hu (besideGlaze t)
    _ = besideGlaze t (glazeReported t e s) := besideGlaze_onTile t t _
    _ = besideGlaze t s := besideGlaze_glazeReported t e s

end

/-- A performance from `r` to `u` that writes `n` elements of `w` bytes to register VD, `f k` at the index `ix k`. -/
def WritesElems (t : Tile) (cmd : TileCmd) (w n : Nat) (ix f : Nat → Nat) (r u : State) : Prop :=
  ∃ es, Spells es w n ix f ∧ ChangesGlaze t (gregPut (gVd cmd.word) w es) r u

theorem WritesElems.noted {t : Tile} {cmd : TileCmd} {w n : Nat} {ix f : Nat → Nat} {r u v : State} (h : WritesElems t cmd w n ix f r u)
    (hv : v.bare = u.bare) : WritesElems t cmd w n ix f r v := by
  obtain ⟨es, hes, hu⟩ := h
  exact ⟨es, hes, hu.noted hv⟩

/-- A command that is performed by writing elements writes those elements. -/
theorem glazeWrites_of_glazeDo {i : Instr} {t : Tile} {e : MemEnv} {s : State} {cmd : TileCmd} {rest : List TileCmd} {mine : Nat → Bool}
    {check : Nat → State → GlazeCheck} {perform : TileCmd → State → Word × State} {w n : Nat} {ix f : Nat → Nat}
    (hnext : GlazeNext s t cmd rest) (hexec : exec i s = ended s (glazeDo t mine check perform e s)) (hmine : mine cmd.word = true)
    (hwhy : (check cmd.word s).why cmd.word = none) (hw : 0 < w) (hix : Function.Injective ix) (hfit : ∀ k, k < n → ix k < lanes w)
    (hperform : WritesElems t cmd w n ix f (glazeReported t e s) (perform cmd (glazeReported t e s)).2) : GlazeWrites i s t cmd rest w n ix f := by
  have hdoes := does_of_glazeDo hnext hexec hmine hwhy
  generalize perform cmd (glazeReported t e s) = performed at hperform hdoes
  obtain ⟨sum, u⟩ := performed
  obtain ⟨es, hes, hu⟩ := hperform
  obtain ⟨hqueue, -, -⟩ := hnext
  have hglaze := glaze_of_changesGlaze (cmd := cmd) hu sum
  have hbeside := besideGlaze_of_changesGlaze (cmd := cmd) hu sum
  simp only [besideGlaze, Prod.mk.injEq] at hbeside
  obtain ⟨hmem, hbricks, hports, hbridges, hpress, hsieve, hmason⟩ := hbeside
  refine ⟨_, hdoes, ?queue, ?run, fun k hk => ?elem, fun v b hb hother => ?byte, ?slots, hpress, hsieve, hmason, hmem, hbricks, hports, hbridges⟩
  case queue =>
    rw [hglaze]
    exact congrArg (List.drop 1) ((glaze_glazeReported Glaze.queue t e s).trans hqueue)
  case run => rw [hglaze]; rfl
  case elem =>
    rw [hglaze]
    exact gregElem_gregPut hes hix _ _ hk
  case byte =>
    rw [hglaze, ← gregByte_glazeReported t e s]
    exact gregByte_gregPut_other hes hw hfit hb hother _
  case slots =>
    rw [hglaze]
    exact glaze_glazeReported Glaze.slots t e s

end Sys2Proof.Machine
end

section
/-! PROOFS. Element-wise arithmetic of the glaze (R585 to R588). -/
namespace Sys2Proof.Machine
open Sys2Proof

theorem exec_glzAdd (t : Tile) (e : MemEnv) (s : State) : exec (.glzAdd t e) s = ended s (arithCmd t 0x10 e s) := rfl
theorem exec_glzSub (t : Tile) (e : MemEnv) (s : State) : exec (.glzSub t e) s = ended s (arithCmd t 0x11 e s) := rfl
theorem exec_glzMul (t : Tile) (e : MemEnv) (s : State) : exec (.glzMul t e) s = ended s (arithCmd t 0x12 e s) := rfl
theorem exec_fma (t : Tile) (e : MemEnv) (s : State) : exec (.fma t e) s = ended s (arithCmd t 0x13 e s) := rfl
theorem exec_glzMin (t : Tile) (e : MemEnv) (s : State) : exec (.glzMin t e) s = ended s (arithCmd t 0x14 e s) := rfl
theorem exec_glzMax (t : Tile) (e : MemEnv) (s : State) : exec (.glzMax t e) s = ended s (arithCmd t 0x15 e s) := rfl
theorem exec_abs (t : Tile) (e : MemEnv) (s : State) : exec (.abs t e) s = ended s (arithCmd t 0x16 e s) := rfl
theorem exec_neg (t : Tile) (e : MemEnv) (s : State) : exec (.neg t e) s = ended s (arithCmd t 0x17 e s) := rfl

/-! ### One element (R588) -/

/-- What a number wraps to is known modulo 2^32. -/
theorem wrapNat_of_natCast_modEq {x : Int} {m : Nat} (h : x ≡ m [ZMOD 2 ^ 32]) : wrapNat 32 x = m % 2 ^ 32 := by
  rw [wrapNat_of_modEq h, wrapNat]
  omega

/-- An element of an operation that is exact in INT32 and otherwise gives `k`: the INT32 result is known modulo 2^32. -/
theorem code_intOrFloat {f m : Nat} {x : Int} (k : Conv) (h : f = 6 → x ≡ m [ZMOD 2 ^ 32]) :
    (if f = 6 then { code := wrapNat 32 x } else k).code % 256 ^ elemWidth f = (if f = 6 then m else k.code) % 256 ^ elemWidth f := by
  by_cases hf : f = 6
  · rw [if_pos hf, if_pos hf, hf, wrapNat_of_natCast_modEq (h hf)]
    exact Nat.mod_mod m (2 ^ 32)
  · rw [if_neg hf, if_neg hf]

section
variable {a b : Nat}

theorem sextInt_sub_modEq (hb : b ≤ 2 ^ 32) : sextInt 32 a - sextInt 32 b ≡ (a + 2 ^ 32 - b : Nat) [ZMOD 2 ^ 32] := by
  have hcast : ((a + 2 ^ 32 - b : Nat) : Int) = a - b + 2 ^ 32 := by omega
  rw [hcast]
  exact ((sextInt_modEq 32 a).sub (sextInt_modEq 32 b)).trans (Int.add_modulus_modEq_iff.mpr rfl).symm

theorem sextInt_neg_modEq (ha : a ≤ 2 ^ 32) : -sextInt 32 a ≡ (2 ^ 32 - a : Nat) [ZMOD 2 ^ 32] := by
  have hcast : ((2 ^ 32 - a : Nat) : Int) = -a + 2 ^ 32 := by omega
  rw [hcast]
  exact (sextInt_modEq 32 a).neg.trans (Int.add_modulus_modEq_iff.mpr rfl).symm

/-- A choice between two numbers is the choice between what they are modulo 2^32. -/
theorem ite_modEq {c : Prop} [Decidable c] {x y : Int} {m n : Nat} (hx : x ≡ m [ZMOD 2 ^ 32]) (hy : y ≡ n [ZMOD 2 ^ 32]) :
    (if c then x else y) ≡ (if c then m else n : Nat) [ZMOD 2 ^ 32] := by
  split
  · exact hx
  · exact hy

theorem sextInt_min_modEq : min (sextInt 32 a) (sextInt 32 b) ≡ (if sextInt 32 b < sextInt 32 a then b else a : Nat) [ZMOD 2 ^ 32] := by
  rw [min_comm, min_def_lt]
  exact ite_modEq (sextInt_modEq 32 b) (sextInt_modEq 32 a)

theorem sextInt_max_modEq : max (sextInt 32 a) (sextInt 32 b) ≡ (if sextInt 32 a < sextInt 32 b then b else a : Nat) [ZMOD 2 ^ 32] := by
  rw [max_def_lt]
  exact ite_modEq (sextInt_modEq 32 b) (sextInt_modEq 32 a)

end

/-! ### The commands -/

/-- What an arithmetic operation makes of element `k` of the registers it reads (R587, R588). -/
def arithElem (G : Glaze) (cmd : TileCmd) (op k : Nat) : Conv :=
  let w := elemWidth (cFmtA cmd.word)
  glazeArith op (cFmtA cmd.word) cmd.rtz (gregElem G (gVa cmd.word) w k) (if op ≤ 0x15 then (operandB G cmd.word w k).1 else 0)
    (if op == 0x13 then gregElem G (gVc cmd.word) w k else 0)

theorem glazeWrites_arith {i : Instr} {t : Tile} {op : Nat} {e : MemEnv} {s : State} {cmd : TileCmd} {rest : List TileCmd} {g : Nat → Nat}
    (hnext : GlazeNext s t cmd rest) (hexec : exec i s = ended s (arithCmd t op e s)) (hop : cOp cmd.word = op)
    (hwhy : (elementCheck (if op == 0x13 then [3, 2] else [3, 2, 6]) (decide (op ≤ 0x15)) (op == 0x13)
      (if decide (op ≤ 0x15) then bitsOf (gSub cmd.word) 6 0 == 0 else gSub cmd.word == 0) false cmd.word).why cmd.word = none)
    (hcode : ∀ k, (arithElem (s.tile t).glaze cmd op k).code % 256 ^ elemWidth (cFmtA cmd.word) = g k % 256 ^ elemWidth (cFmtA cmd.word)) :
    GlazeWrites i s t cmd rest (elemWidth (cFmtA cmd.word)) (active cmd.word (lanes (elemWidth (cFmtA cmd.word)))) (fun k => k) g := by
  obtain ⟨-, hactive⟩ := of_elementCheck hwhy
  unfold arithCmd at hexec
  extract_lets two fma at hexec
  refine glazeWrites_of_glazeDo hnext hexec (by simp [hop]) hwhy (elemWidth_pos _) Function.injective_id (fun k hk => hk.trans_le hactive) ?_
  extract_lets c f w n G rs es poisoned noted
  refine ⟨es, ?_, (changesGlaze_onGlaze (by simp [noted, poisoned])).noted (bare_tally ..)⟩
  simp only [es, rs, List.map_map]
  refine spells_map fun k _ => Prod.ext rfl ?_
  simpa [OutElem.written, arithElem, apply_ite Prod.fst, G, c, w, f, two, fma] using hcode k

/-- Settles O37: each operation by what it makes of one element. That the results are there when the command starts is the model's
choice (log entry 224). -/
theorem glazeArithmetic : Obligations.GlazeArithmetic := by
  intro t e s cmd rest hnext c f w n G F a b two one writes rounded
  have hle (hf : f = 6) {x : Nat} (hx : x < 256 ^ w) : x ≤ 2 ^ 32 := by
    simp only [w, hf] at hx
    exact hx.le
  have ha (hf : f = 6) (k : Nat) : a k ≤ 2 ^ 32 := hle hf (gregElem_lt ..)
  have hb (hf : f = 6) (k : Nat) : b k ≤ 2 ^ 32 := hle hf (operandB_code_lt ..)
  refine ⟨fun hop htwo => ?add, fun hop htwo => ?sub, fun hop htwo => ?mul, fun hop hthree => ?fma, fun hop htwo => ?min, fun hop htwo => ?max,
    fun hop hone => ?abs, fun hop hone => ?neg⟩
  case add =>
    exact glazeWrites_arith hnext (exec_glzAdd t e s) hop htwo fun k =>
      code_intOrFloat _ fun _ => (sextInt_modEq 32 _).add (sextInt_modEq 32 _)
  case sub => exact glazeWrites_arith hnext (exec_glzSub t e s) hop htwo fun k => code_intOrFloat _ fun hf => sextInt_sub_modEq (hb hf k)
  case mul =>
    exact glazeWrites_arith hnext (exec_glzMul t e s) hop htwo fun k =>
      code_intOrFloat _ fun _ => (sextInt_modEq 32 _).mul (sextInt_modEq 32 _)
  case fma =>
    obtain ⟨hmem, -⟩ := of_elementCheck hthree
    have hf : f ≠ 6 := ne_of_mem_of_not_mem hmem (by decide)
    exact glazeWrites_arith hnext (exec_fma t e s) hop hthree fun k => by
      rw [arithElem, glazeArith, if_neg hf]
      rfl
  case min => exact glazeWrites_arith hnext (exec_glzMin t e s) hop htwo fun k => code_intOrFloat _ fun _ => sextInt_min_modEq
  case max => exact glazeWrites_arith hnext (exec_glzMax t e s) hop htwo fun k => code_intOrFloat _ fun _ => sextInt_max_modEq
  case abs =>
    exact glazeWrites_arith hnext (exec_abs t e s) hop hone fun k =>
      code_intOrFloat _ fun hf => ite_modEq (sextInt_neg_modEq (ha hf k)) (sextInt_modEq 32 _)
  case neg => exact glazeWrites_arith hnext (exec_neg t e s) hop hone fun k => code_intOrFloat _ fun hf => sextInt_neg_modEq (ha hf k)
end Sys2Proof.Machine
end

section
/-! PROOFS. Bitwise operations, comparison, selection and conversion of the glaze (R585 to R587, R589 to R592). -/
namespace Sys2Proof.Machine
open Sys2Proof

theorem exec_glzAnd (t : Tile) (e : MemEnv) (s : State) : exec (.glzAnd t e) s = ended s (bitwiseCmd t 0x18 Nat.land e s) := rfl
theorem exec_glzOr (t : Tile) (e : MemEnv) (s : State) : exec (.glzOr t e) s = ended s (bitwiseCmd t 0x19 Nat.lor e s) := rfl
theorem exec_glzXor (t : Tile) (e : MemEnv) (s : State) : exec (.glzXor t e) s = ended s (bitwiseCmd t 0x1A Nat.xor e s) := rfl
theorem exec_glzAndn (t : Tile) (e : MemEnv) (s : State) :
    exec (.glzAndn t e) s = ended s (bitwiseCmd t 0x1B (fun a b => Nat.land a (2 ^ 32 - 1 - b)) e s) := rfl
theorem exec_cmp (t : Tile) (e : MemEnv) (s : State) : exec (.cmp t e) s = execCmp t e s := rfl
theorem exec_sel (t : Tile) (e : MemEnv) (s : State) : exec (.sel t e) s = execSel t e s := rfl
theorem exec_cvt (t : Tile) (e : MemEnv) (s : State) : exec (.cvt t e) s = execCvt t e s := rfl
theorem exec_qnt (t : Tile) (e : MemEnv) (s : State) : exec (.qnt t e) s = execQnt t e s := rfl

/-! ### Parts of a register (R591) -/

theorem partIndex_injective (part n : Nat) : Function.Injective (partIndex part n) := fun _ _ h => Nat.add_left_cancel h

/-- A part of a register of narrower elements holds as many elements as a register of the wider ones (R591). -/
theorem partIndex_lt_lanes {part w wd k : Nat} (hlt : wd < w) (hwd : 0 < wd) (hpart : part < widthRatio w wd) (hk : k < lanes w) :
    partIndex part (lanes w) k < lanes wd := by
  rw [widthRatio, max_eq_left hlt.le, min_eq_right hlt.le] at hpart
  calc partIndex part (lanes w) k
    _ < (part + 1) * lanes w := by rw [partIndex, Nat.succ_mul]; omega
    _ ≤ w / wd * lanes w := Nat.mul_le_mul_right _ hpart
    _ ≤ lanes wd := (Nat.le_div_iff_mul_le hwd).mpr (by
      rw [Nat.mul_right_comm]
      exact (Nat.mul_le_mul_right _ (Nat.div_mul_le_self w wd)).trans (Nat.mul_div_le 512 w))

section
variable {t : Tile} {e : MemEnv} {s : State} {cmd : TileCmd} {rest : List TileCmd} (hnext : GlazeNext s t cmd rest)
include hnext

/-! ### Bitwise operations, CMP and SEL (R586, R587, R589) -/

theorem glazeWrites_bitwise {i : Instr} {op : Nat} {g : Nat → Nat → Nat} (hexec : exec i s = ended s (bitwiseCmd t op g e s))
    (hop : cOp cmd.word = op)
    (hwhy : (elementCheck [0, 1, 2, 3, 4, 5, 6, 7] true false
      (bitsOf (gSub cmd.word) 6 0 == 0 && !(gBimm cmd.word && elemWidth (cFmtA cmd.word) == 1)) false cmd.word).why cmd.word = none) :
    GlazeWrites i s t cmd rest (elemWidth (cFmtA cmd.word)) (active cmd.word (lanes (elemWidth (cFmtA cmd.word)))) (fun k => k)
      (fun k => g (gregElem (s.tile t).glaze (gVa cmd.word) (elemWidth (cFmtA cmd.word)) k)
        (operandB (s.tile t).glaze cmd.word (elemWidth (cFmtA cmd.word)) k).1) := by
  obtain ⟨-, hactive⟩ := of_elementCheck hwhy
  unfold bitwiseCmd at hexec
  refine glazeWrites_of_glazeDo hnext hexec (by simp [hop]) hwhy (elemWidth_pos _) Function.injective_id (fun k hk => hk.trans_le hactive) ?_
  extract_lets c w n G es poisoned
  refine ⟨es, spells_map fun k _ => Prod.ext rfl ?_, (changesGlaze_onGlaze (bare_glazePoisIn ..)).noted (bare_tally ..)⟩
  simp [OutElem.written, G, w, c]

theorem glazeWrites_cmp (hop : cOp cmd.word = 0x20)
    (hwhy : (elementCheck [3, 2, 6] true false (bitsOf (gSub cmd.word) 6 3 == 0 && bitsOf (gSub cmd.word) 2 0 != 7) true cmd.word).why cmd.word = none) :
    GlazeWrites (.cmp t e) s t cmd rest (elemWidth (cFmtA cmd.word)) (active cmd.word (lanes (elemWidth (cFmtA cmd.word)))) (fun k => k)
      (fun k => if cmpHolds (cFmtA cmd.word) (bitsOf (gSub cmd.word) 2 0)
          (gregElem (s.tile t).glaze (gVa cmd.word) (elemWidth (cFmtA cmd.word)) k)
          (operandB (s.tile t).glaze cmd.word (elemWidth (cFmtA cmd.word)) k).1
        then 256 ^ elemWidth (cFmtA cmd.word) - 1 else 0) := by
  obtain ⟨-, hactive⟩ := of_elementCheck hwhy
  refine glazeWrites_of_glazeDo hnext (exec_cmp t e s) (by simp [hop]) hwhy (elemWidth_pos _) Function.injective_id
    (fun k hk => hk.trans_le hactive) ?_
  extract_lets c f w n G rs es bad good k poisoned told
  refine ⟨es, ?_, (changesGlaze_onGlaze (bare_glazePoisIn ..)).noted ((bare_glazeSum ..).trans (bare_tally ..))⟩
  simp only [es, rs, List.map_map]
  refine spells_map fun k _ => Prod.ext rfl ?_
  simp [OutElem.written, G, w, c, f]

theorem glazeWrites_sel (hop : cOp cmd.word = 0x21) (hfmt : fmtListed (cFmtA cmd.word) = true) (hfmtD : cFmtD cmd.word = cFmtA cmd.word)
    (hfmtB : cFmtB cmd.word = cFmtA cmd.word) (hsub : gSub cmd.word = 0)
    (hactive : active cmd.word (lanes (elemWidth (cFmtA cmd.word))) ≤ lanes (elemWidth (cFmtA cmd.word))) (hsumen : cSumen cmd.word = false)
    (hunused : unusedZero { fa := true, fb := true, fd := true, vd := true, va := true, vb := true, vc := true } cmd.word = true) :
    GlazeWrites (.sel t e) s t cmd rest (elemWidth (cFmtA cmd.word)) (active cmd.word (lanes (elemWidth (cFmtA cmd.word)))) (fun k => k)
      (fun k => if gregElem (s.tile t).glaze (gVc cmd.word) (elemWidth (cFmtA cmd.word)) k ≠ 0
        then gregElem (s.tile t).glaze (gVa cmd.word) (elemWidth (cFmtA cmd.word)) k
        else gregElem (s.tile t).glaze (gVb cmd.word) (elemWidth (cFmtA cmd.word)) k) := by
  refine glazeWrites_of_glazeDo hnext (exec_sel t e s) (by simp [hop])
    (GlazeCheck.why_eq_none.mpr (by simp [hfmt, hfmtD, hfmtB, hsub, hactive, hsumen, hunused])) (elemWidth_pos _) Function.injective_id
    (fun k hk => hk.trans_le hactive) ?_
  extract_lets c w n G es poisoned
  refine ⟨es, spells_map fun k _ => Prod.ext rfl ?_, (changesGlaze_onGlaze (bare_glazePoisIn ..)).noted (bare_tally ..)⟩
  simp only [OutElem.written, G, w, c, gregElem_glazeReported]
  rw [apply_ite (fun v => gregElem (s.tile t).glaze v _ k)]

/-! ### CVT and QNT (R590 to R592) -/

theorem glazeWrites_cvt (hop : cOp cmd.word = 0x30) (hfmt : cvtOk (cFmtA cmd.word) (cFmtD cmd.word) = true) {w wd n : Nat}
    (hw : w = elemWidth (cFmtA cmd.word)) (hwd : wd = elemWidth (cFmtD cmd.word)) (hn : n = lanes (max w wd))
    (hpart : gSub cmd.word < widthRatio w wd) (hactive : active cmd.word n ≤ n) (hsumen : cSumen cmd.word = false)
    (hunused : unusedZero { fa := true, fd := true, vd := true, va := true } cmd.word = true) :
    GlazeWrites (.cvt t e) s t cmd rest wd (active cmd.word n) (fun k => if wd < w then partIndex (gSub cmd.word) n k else k)
      (fun k => (cvtElem cmd (cFmtA cmd.word) (cFmtD cmd.word)
        (gregElem (s.tile t).glaze (gVa cmd.word) w (if w < wd then partIndex (gSub cmd.word) n k else k))).code) := by
  have hpos : 0 < wd := hwd ▸ elemWidth_pos _
  have hix : Function.Injective (fun k => if wd < w then partIndex (gSub cmd.word) n k else k) := by
    split
    · exact partIndex_injective _ _
    · exact Function.injective_id
  have hfit : ∀ k, k < active cmd.word n → (if wd < w then partIndex (gSub cmd.word) n k else k) < lanes wd := by
    intro k hk
    have hk := hk.trans_le hactive
    split
    · next hlt =>
      rw [hn, max_eq_left hlt.le] at hk ⊢
      exact partIndex_lt_lanes hlt hpos hpart hk
    · next hle => rwa [hn, max_eq_right (not_lt.mp hle)] at hk
  refine glazeWrites_of_glazeDo hnext (exec_cvt t e s) (by simp [hop])
    (GlazeCheck.why_eq_none.mpr (by simp [hfmt, ← hw, ← hwd, ← hn, hpart, hactive, hsumen, hunused])) hpos hix hfit ?_
  subst hw hwd hn
  extract_lets c wa wd n part G rs es poisoned noted
  refine ⟨es, ?_, (changesGlaze_onGlaze (by simp [noted, poisoned])).noted (bare_tally ..)⟩
  simp only [es, rs, List.map_map]
  refine spells_map fun k _ => Prod.ext rfl ?_
  simp [OutElem.written, G, wa, wd, n, c, part]

theorem glazeWrites_qnt (hop : cOp cmd.word = 0x31) (hfmt : cFmtA cmd.word = 3) (hfmtB : cFmtB cmd.word = 3)
    (hfmtD : cFmtD cmd.word = 4 ∨ cFmtD cmd.word = 5) (hsub : bitsOf (gSub cmd.word) 6 2 = 0) (hactive : active cmd.word 128 ≤ 128)
    (hsumen : cSumen cmd.word = false)
    (hunused : unusedZero
      { fa := true, fb := true, fd := true, vd := true, va := true, vb := !gBimm cmd.word, vc := true, imm := gBimm cmd.word } cmd.word = true)
    (hzero : ∀ k, k < active cmd.word 128 → if cFmtD cmd.word = 4
      then -128 ≤ sextInt 32 (gregElem (s.tile t).glaze (gVc cmd.word) 4 k) ∧ sextInt 32 (gregElem (s.tile t).glaze (gVc cmd.word) 4 k) ≤ 127
      else 0 ≤ sextInt 32 (gregElem (s.tile t).glaze (gVc cmd.word) 4 k) ∧ sextInt 32 (gregElem (s.tile t).glaze (gVc cmd.word) 4 k) ≤ 255) :
    ∃ free : Nat → Nat, GlazeWrites (.qnt t e) s t cmd rest 1 (active cmd.word 128) (fun k => partIndex (bitsOf (gSub cmd.word) 1 0) 128 k)
      (fun k => (quantise (cFmtD cmd.word == 4) cmd.rtz (gregElem (s.tile t).glaze (gVa cmd.word) 4 k) (operandB (s.tile t).glaze cmd.word 4 k).1
        (sextInt 32 (gregElem (s.tile t).glaze (gVc cmd.word) 4 k)) (free k)).code) := by
  have hfit : ∀ k, k < active cmd.word 128 → partIndex (bitsOf (gSub cmd.word) 1 0) 128 k < lanes 1 := by
    intro k hk
    have hpart := bitsOf_lt (gSub cmd.word) 1 0
    simp only [partIndex, lanes]
    omega
  refine ⟨fun k => (Config.freeByte ((glazeReported t e s).freeCtr + k)).toNat,
    glazeWrites_of_glazeDo hnext (exec_qnt t e s) (by simp [hop])
      (GlazeCheck.why_eq_none.mpr (by simp [hfmt, hfmtB, hfmtD, hsub, hactive, hsumen, hunused])) Nat.one_pos (partIndex_injective _ _) hfit ?_⟩
  have hctr : (glazeReported t e s).freeCtr = ((glazeReported t e s).draw 128).1 := rfl
  have hdrawn := State.bare_draw (glazeReported t e s) 128
  extract_lets c n part signed G
  rw [hctr]
  generalize (glazeReported t e s).draw 128 = drawn at hdrawn ⊢
  obtain ⟨ctr, drawn⟩ := drawn
  dsimp -zeta only at hdrawn ⊢
  extract_lets rs es poisoned noted
  refine ⟨es, ?_, (changesGlaze_onGlaze (by simp [noted, poisoned, hdrawn])).noted (bare_tally ..)⟩
  simp only [es, rs, List.map_map]
  refine spells_map fun k hk => Prod.ext rfl ?_
  have hin := hzero k hk
  by_cases hd : cFmtD cmd.word = 4
  · rw [if_pos hd] at hin
    simp [OutElem.written, G, c, signed, hd, hin]
  · rw [if_neg hd] at hin
    simp [OutElem.written, G, c, signed, hd, hin]

end

/-- Settles O38: each operation by the elements it writes. That the results are there when the command starts is the model's choice (log entry 224). -/
theorem glazeBitsAndConversions : Obligations.GlazeBitsAndConversions := by
  intro t e s cmd rest hnext c f w wd n G a b bits writes
  refine ⟨glazeWrites_bitwise hnext (exec_glzAnd t e s), glazeWrites_bitwise hnext (exec_glzOr t e s), glazeWrites_bitwise hnext (exec_glzXor t e s),
    glazeWrites_bitwise hnext (exec_glzAndn t e s), glazeWrites_cmp hnext, glazeWrites_sel hnext,
    fun hop hfmt => glazeWrites_cvt hnext hop hfmt rfl rfl rfl, ?_⟩
  intro hop hfmt
  have hw : w = 4 := by rw [show w = elemWidth f from rfl, hfmt]; rfl
  simp only [a, b, hw]
  exact glazeWrites_qnt hnext hop hfmt

end Sys2Proof.Machine
end

section
/-! PROOFS. Moves, reductions and special functions of the glaze (R585, R586, R594, R597). -/
namespace Sys2Proof.Machine
open Sys2Proof

theorem exec_vld (t : Tile) (e : MemEnv) (s : State) : exec (.vld t e) s = execVld t e s := rfl
theorem exec_vst (t : Tile) (e : MemEnv) (s : State) : exec (.vst t e) s = execVst t e s := rfl
theorem exec_vbc (t : Tile) (e : MemEnv) (s : State) : exec (.vbc t e) s = execVbc t e s := rfl
theorem exec_redSum (t : Tile) (e : MemEnv) (s : State) : exec (.redSum t e) s = execRedSum t e s := rfl
theorem exec_redMax (t : Tile) (e : MemEnv) (s : State) : exec (.redMax t e) s = ended s (redCmd t 2 e s) := rfl
theorem exec_redMin (t : Tile) (e : MemEnv) (s : State) : exec (.redMin t e) s = ended s (redCmd t 3 e s) := rfl
theorem exec_redArgmax (t : Tile) (e : MemEnv) (s : State) : exec (.redArgmax t e) s = ended s (redCmd t 4 e s) := rfl
theorem exec_redCount (t : Tile) (e : MemEnv) (s : State) : exec (.redCount t e) s = ended s (redCmd t 5 e s) := rfl
theorem exec_sfnExp (t : Tile) (e : MemEnv) (s : State) : exec (.sfnExp t e) s = execSfnExp t e s := rfl
theorem exec_sfnExp2 (t : Tile) (e : MemEnv) (s : State) : exec (.sfnExp2 t e) s = ended s (sfnCmd t 1 e s) := rfl
theorem exec_sfnLog (t : Tile) (e : MemEnv) (s : State) : exec (.sfnLog t e) s = ended s (sfnCmd t 2 e s) := rfl
theorem exec_sfnRec (t : Tile) (e : MemEnv) (s : State) : exec (.sfnRec t e) s = ended s (sfnCmd t 3 e s) := rfl
theorem exec_sfnRsq (t : Tile) (e : MemEnv) (s : State) : exec (.sfnRsq t e) s = ended s (sfnCmd t 4 e s) := rfl
theorem exec_sfnTanh (t : Tile) (e : MemEnv) (s : State) : exec (.sfnTanh t e) s = ended s (sfnCmd t 5 e s) := rfl
theorem exec_sfnSigmoid (t : Tile) (e : MemEnv) (s : State) : exec (.sfnSigmoid t e) s = ended s (sfnCmd t 6 e s) := rfl
theorem exec_sfnErf (t : Tile) (e : MemEnv) (s : State) : exec (.sfnErf t e) s = ended s (sfnCmd t 7 e s) := rfl

theorem reduce_sum (f arg : Nat) (vs : List Nat) :
    (reduce 1 f arg vs).1 = if f = 6 then vs.foldl (fun x v => x + v) 0 % 2 ^ 32 else treeSum (if f = 2 then 256 else 128) vs := by
  by_cases hf : f = 6
  · simp [reduce, hf]
  · simp [reduce, hf]

section
variable {t : Tile} {e : MemEnv} {s : State} {cmd : TileCmd} {rest : List TileCmd} (hnext : GlazeNext s t cmd rest)
include hnext

/-! ### Moves (R586, R615) -/

theorem glazeWrites_vld (hop : cOp cmd.word = 0x01) {w : Nat} (hw : w = elemWidth (cFmtD cmd.word)) (hfmt : fmtListed (cFmtD cmd.word) = true)
    (hsub : gSub cmd.word = 0) (hactive : active cmd.word (lanes w) ≤ lanes w)
    (haddr : moveAddrOk cmd.word (active cmd.word (lanes w) * w) = true) (hsumen : cSumen cmd.word = false)
    (hunused : unusedZero { fd := true, vd := true, imm := true } cmd.word = true) :
    GlazeWrites (.vld t e) s t cmd rest w (active cmd.word (lanes w)) (fun k => k) (fun k => storeNumAt s t (gImm cmd.word + w * k) w) := by
  subst hw
  have hexec := exec_vld t e s
  unfold execVld at hexec
  extract_lets known at hexec
  rw [glazeHead_of_next hnext, if_neg (by simp [hop, known])] at hexec
  refine glazeWrites_of_glazeDo hnext hexec (by simp [hop])
    (GlazeCheck.why_eq_none.mpr (by simp [hfmt, hsub, hactive, haddr, hsumen, hunused])) (elemWidth_pos _) Function.injective_id
    (fun k hk => hk.trans_le hactive) ?_
  extract_lets c w n es poisoned
  refine ⟨es, spells_map fun k _ => Prod.ext rfl ?_, (changesGlaze_onGlaze (bare_glazePoisIn ..)).noted (bare_tally ..)⟩
  simp [OutElem.written, w, c]

theorem glazeWrites_vbc (hop : cOp cmd.word = 0x03) {w : Nat} (hw : w = elemWidth (cFmtD cmd.word)) (hfmt : fmtListed (cFmtD cmd.word) = true)
    (hsub : gSub cmd.word = 0) (hactive : active cmd.word (lanes w) ≤ lanes w) (hsumen : cSumen cmd.word = false)
    (hunused : unusedZero { fd := true, vd := true, imm := true } cmd.word = true) :
    GlazeWrites (.vbc t e) s t cmd rest w (active cmd.word (lanes w)) (fun k => k) (fun _ => gImm cmd.word) := by
  subst hw
  refine glazeWrites_of_glazeDo hnext (exec_vbc t e s) (by simp [hop])
    (GlazeCheck.why_eq_none.mpr (by simp [hfmt, hsub, hactive, hsumen, hunused])) (elemWidth_pos _) Function.injective_id
    (fun k hk => hk.trans_le hactive) ?_
  extract_lets c w n es
  exact ⟨es, spells_map fun k _ => Prod.ext rfl (Nat.mod_mod _ _), (changesGlaze_onGlaze rfl).noted (bare_tally ..)⟩

theorem leaves_vst (hop : cOp cmd.word = 0x02) {w n : Nat} (hw : w = elemWidth (cFmtA cmd.word)) (hn : n = active cmd.word (lanes w))
    (hfmt : fmtListed (cFmtA cmd.word) = true) (hsub : gSub cmd.word = 0) (hactive : n ≤ lanes w) (haddr : moveAddrOk cmd.word (n * w) = true)
    (hsumen : cSumen cmd.word = false) (hunused : unusedZero { fa := true, va := true, imm := true } cmd.word = true) :
    Leaves (.vst t e) s (fun u => (u.tile t).glaze.queue = rest ∧
      u.mem = memWrite s.mem (tileStoreKey t (gImm cmd.word)) ((List.range (n * w)).map (gregByte (s.tile t).glaze (gVa cmd.word))) ∧
      (u.tile t).glaze.regs = (s.tile t).glaze.regs ∧ u.bricks = s.bricks) := by
  subst hw hn
  have hdoes := does_of_glazeDo hnext (exec_vst t e s) (by simp [hop])
    (GlazeCheck.why_eq_none.mpr (by simp [hfmt, hsub, hactive, haddr, hsumen, hunused]))
  extract_lets c w n G bytes bad poisoned stored marked at hdoes
  obtain ⟨hqueue, -, -⟩ := hnext
  have hbeside := besideGlaze_glazeReported t e s
  simp only [besideGlaze, Prod.mk.injEq] at hbeside
  obtain ⟨hmem, hbricks, -⟩ := hbeside
  have hpoisoned : poisoned.bare = (glazeReported t e s).bare := bare_glazePoisIn ..
  have hmarked : sansMarks t (tally t 12 n marked) = sansMarks t stored :=
    (sansMarks_tally ..).trans (State.each_view (V := sansMarks t) (fun s x => sansMarks_markWord t t s true _) bad stored)
  have hframe : (sansMarks t (tally t 12 n marked)).2 = (sansMarks t (glazeReported t e s)).2 :=
    (congrArg Prod.snd hmarked).trans ((sansMarks_storePut ..).trans (congrArg Prod.snd (view_of_bare hpoisoned (sansMarks t))))
  have hglaze : ((tally t 12 n marked).tile t).glaze = ((glazeReported t e s).tile t).glaze := tile_of_sansMarks hframe TileState.glaze
  refine ⟨_, hdoes, ?queue, ?mem, ?regs, (bricks_of_sansMarks hframe).trans hbricks⟩
  case queue =>
    rw [State.done_tile, startGlaze_tile]
    dsimp only
    rw [hglaze, glaze_glazeReported Glaze.queue, hqueue]
    rfl
  case mem =>
    refine (mem_of_sansMarks hmarked).trans ?_
    rw [storePut_mem, view_of_bare hpoisoned State.mem, hmem]
    simp only [bytes, G, gregByte_glazeReported, c, w, n]
  case regs =>
    rw [State.done_tile, startGlaze_tile]
    dsimp only
    rw [hglaze, glaze_glazeReported Glaze.regs]

/-! ### Reductions (R594) -/

theorem glazeWrites_red {i : Instr} {red : Nat} {v : Nat} (hexec : exec i s = ended s (redCmd t red e s)) (hop : cOp cmd.word = 0x40)
    {w n : Nat} (hw : w = elemWidth (cFmtA cmd.word)) (hn : n = active cmd.word (lanes w))
    (hv : (reduce red (cFmtA cmd.word) (redElem (cFmtA cmd.word) (gImm cmd.word % 256 ^ w))
      ((List.range n).map (fun k => redElem (cFmtA cmd.word) (gregElem (s.tile t).glaze (gVa cmd.word) w k)))).1 = v)
    (hsub : gSub cmd.word = red) (hfmt : redFmtOk red (cFmtA cmd.word) (cFmtD cmd.word) = true) (hactive : n ≤ lanes w)
    (hsumen : cSumen cmd.word = true → red ≠ 3)
    (hunused : unusedZero { fa := true, fd := true, vd := true, va := true, imm := true } cmd.word = true) :
    GlazeWrites i s t cmd rest 4 128 (fun k => k) (fun k => if k = 0 then v else 0) := by
  subst hw hn
  unfold redCmd at hexec
  refine glazeWrites_of_glazeDo hnext hexec (by simp [hop, hsub])
    (GlazeCheck.why_eq_none.mpr (by simpa [hfmt, hactive, hunused] using hsumen)) (Nat.succ_pos 3) Function.injective_id (fun k hk => hk) ?_
  extract_lets c f w n G arg vs good bad r es poisoned noted told int nan
  have hnoted : noted.bare = (glazeReported t e s).bare := by
    simp only [noted, apply_ite State.bare, bare_noteConvs, ite_self, poisoned, bare_glazePoisIn]
  refine ⟨es, ?_, (changesGlaze_onGlaze hnoted).noted ((bare_glazeSum ..).trans (bare_tally ..))⟩
  have hr : r.1 = v := by
    rw [← hv]
    simp only [r, vs, G, gregElem_glazeReported, arg, f, w, n, c]
  rw [Spells, List.range_succ_eq_map, List.map_cons, List.map_cons, List.map_map, List.map_map]
  refine congrArg₂ List.cons (Prod.ext rfl (congrArg (· % 256 ^ 4) hr)) (List.map_congr_left fun k _ => rfl)

theorem exec_redSum_of_sub (hsub : gSub cmd.word = 1) : exec (.redSum t e) s = ended s (redCmd t 1 e s) := by
  rw [exec_redSum, execRedSum, glazeHead_of_next hnext, if_neg (by simp [hsub])]

/-! ### Special functions (R597) -/

theorem glazeWrites_sfn {i : Instr} {g : Nat} (hexec : exec i s = ended s (sfnCmd t g e s)) (hop : cOp cmd.word = 0x50) (hsub : gSub cmd.word = g)
    {f w : Nat} (hf : f = cFmtA cmd.word) (hw : w = elemWidth f) (hfmt : f = 3 ∨ f = 2) (hfmtD : cFmtD cmd.word = f)
    (hactive : active cmd.word (lanes w) ≤ lanes w) (hsumen : cSumen cmd.word = false)
    (hunused : unusedZero { fa := true, fd := true, vd := true, va := true } cmd.word = true) :
    GlazeWrites i s t cmd rest w (active cmd.word (lanes w)) (fun k => k)
      (fun k => (sfEval cmd (gIter cmd.word) g (redElem f (gregElem (s.tile t).glaze (gVa cmd.word) w k)) (f == 2)).code) := by
  unfold sfnCmd at hexec
  refine glazeWrites_of_glazeDo hnext hexec (by simp [hop, hsub])
    (GlazeCheck.why_eq_none.mpr (by simp [hfmt, hfmtD, ← hf, ← hw, hactive, hsumen, hunused])) (hw ▸ elemWidth_pos f) Function.injective_id
    (fun k hk => hk.trans_le hactive) ?_
  extract_lets c wa wd n
  have hdrawn := State.bare_draw (glazeReported t e s) 1
  have htile : ((glazeReported t e s).draw 1).2.tile t = (glazeReported t e s).tile t := rfl
  generalize (glazeReported t e s).draw 1 = drawn at hdrawn htile ⊢
  obtain ⟨ctr, drawn⟩ := drawn
  dsimp -zeta only at hdrawn htile ⊢
  extract_lets part G rs es poisoned noted told
  have htold : told.bare = (glazeReported t e s).bare := by simp [told, noted, poisoned, hdrawn]
  have hwd : wd = w := by rw [hw, ← hfmtD]
  have hwa : wa = w := by rw [hw, hf]
  have hn : active c n = active cmd.word (lanes w) := by simp only [n, hwa, hwd, max_self, c]
  rw [hwd]
  refine ⟨es, ?_, changesGlaze_onGlaze htold⟩
  simp only [es, rs, List.map_map, hn]
  refine spells_map fun k _ => Prod.ext ?_ ?_
  · simp [OutElem.written, hwa, hwd]
  · simp [OutElem.written, hwa, hwd, G, htile, c, ← hf, hfmtD]

theorem exec_sfnExp_of_sub (hsub : gSub cmd.word = 0) : exec (.sfnExp t e) s = ended s (sfnCmd t 0 e s) := by
  rw [exec_sfnExp, execSfnExp, glazeHead_of_next hnext, if_neg (by simp [hsub])]

end

/-- Settles O39: each operation by the elements it writes, and VST by the bytes it stores. That the results are there when the command starts is the
model's choice (log entry 224), and so is the order in which RED compares (log entry 44). -/
theorem glazeMovesAndReductions : Obligations.GlazeMovesAndReductions := by
  intro t e s cmd rest hnext c f w wd n G vs red sfn
  have hred {i : Instr} {r v : Nat} (hexec : gSub c = r → exec i s = ended s (redCmd t r e s))
      (hv : (reduce r f (redElem f (gImm c % 256 ^ w)) vs).1 = v) : red i r v :=
    fun hop hsub => glazeWrites_red hnext (hexec hsub) hop rfl rfl hv hsub
  have hsfn {i : Instr} {g : Nat} (hexec : gSub c = g → exec i s = ended s (sfnCmd t g e s)) : sfn i g :=
    fun hop hsub => glazeWrites_sfn hnext (hexec hsub) hop hsub rfl rfl
  exact ⟨fun hop => glazeWrites_vld hnext hop rfl, fun hop => glazeWrites_vbc hnext hop rfl, fun hop => leaves_vst hnext hop rfl rfl,
    hred (exec_redSum_of_sub hnext) (reduce_sum ..), hred (fun _ => exec_redMax t e s) rfl, hred (fun _ => exec_redMin t e s) rfl,
    hred (fun _ => exec_redArgmax t e s) rfl, hred (fun _ => exec_redCount t e s) rfl,
    hsfn (exec_sfnExp_of_sub hnext), hsfn fun _ => exec_sfnExp2 t e s, hsfn fun _ => exec_sfnLog t e s, hsfn fun _ => exec_sfnRec t e s,
    hsfn fun _ => exec_sfnRsq t e s, hsfn fun _ => exec_sfnTanh t e s, hsfn fun _ => exec_sfnSigmoid t e s, hsfn fun _ => exec_sfnErf t e s⟩

end Sys2Proof.Machine
end

section
/-! PROOFS. The FP32 code that a special function gives where the exact values leave it open (R600, R601, R603). -/
namespace Sys2Proof.Machine
open Sys2Proof

/-! ### The device's choice among the codes of a window -/

section
variable {w : Int × Int} (c : Nat)

/-- A window of finite codes gives one of them, or −0 where zero is one. -/
theorem sfPick_within (hlow : -(fmtFP32.maxCode : Int) < w.1) (hle : w.1 ≤ w.2) (hhigh : w.2 < (fmtFP32.maxCode : Int)) :
    (∃ k : Int, w.1 ≤ k ∧ k ≤ w.2 ∧ sfPick w c = keyCode k) ∨ (w.1 ≤ 0 ∧ 0 ≤ w.2 ∧ sfPick w c = 2 ^ 31) := by
  rw [sfPick]
  rw [if_neg (by omega), if_neg (by omega), if_neg (by omega), if_neg (by omega)]
  extract_lets n j
  by_cases hzero : w.1 ≤ 0 ∧ 0 ≤ w.2
  · obtain ⟨hneg, hpos⟩ := hzero
    have hj : j < n + 1 := by
      simp only [j, hneg, hpos, and_self, if_true]
      exact Nat.mod_lt _ n.succ_pos
    by_cases hlast : j = n
    · exact .inr ⟨hneg, hpos, if_pos hlast⟩
    · exact .inl ⟨w.1 + j, by omega, by omega, if_neg hlast⟩
  · have hj : j < n := by
      simp only [j, if_neg hzero]
      exact Nat.mod_lt _ (by omega)
    exact .inl ⟨w.1 + j, by omega, by omega, if_neg hj.ne⟩

theorem sfPick_above (h : (fmtFP32.maxCode : Int) < w.1) : sfPick w c = fmtFP32.infCode := if_pos h

theorem sfPick_at_top (hlow : w.1 ≤ (fmtFP32.maxCode : Int)) (hhigh : (fmtFP32.maxCode : Int) ≤ w.2) :
    sfPick w c = fmtFP32.maxCode ∨ sfPick w c = fmtFP32.infCode := by
  rw [sfPick]
  rw [if_neg (not_lt.mpr hlow), if_pos hhigh]
  exact ite_eq_or_eq ..

theorem sfPick_below (hle : w.1 ≤ w.2) (hhigh : w.2 < -(fmtFP32.maxCode : Int)) : sfPick w c = 2 ^ 31 + fmtFP32.infCode := by
  rw [sfPick]
  rw [if_neg (by omega), if_neg (by omega), if_pos hhigh]

end

theorem sfBounded_of_fin {f iter x m : Nat} {neg : Bool} {e : Int} (h : fmtFP32.dec x = .fin neg m e) :
    sfBounded f iter x = sfPick (sfWindow f iter neg m e) (Config.specialFn f iter x) := by
  rw [sfBounded, h]

/-- Settles O60: a special function's code is the device's choice within the window of R603 (log entries 14 and 217). -/
theorem specialFunctionBound : Obligations.SpecialFunctionBound := by
  intro f iter x neg m e hx w
  rw [sfBounded_of_fin hx]
  exact ⟨sfPick_within _, sfPick_above _, sfPick_at_top _, sfPick_below _⟩

end Sys2Proof.Machine
end

section
/-! PROOFS. Row statistics (R605 to R611): what each operation leaves in its slot, and what RD writes. -/
namespace Sys2Proof.Machine
open Sys2Proof

theorem exec_clrs (t : Tile) (e : MemEnv) (s : State) : exec (.clrs t e) s = execClrs t e s := rfl
theorem exec_clrn (t : Tile) (e : MemEnv) (s : State) : exec (.clrn t e) s = execClrn t e s := rfl
theorem exec_smx (t : Tile) (e : MemEnv) (s : State) : exec (.smx t e) s = execSmx t e s := rfl
theorem exec_nacc (t : Tile) (e : MemEnv) (s : State) : exec (.nacc t e) s = execNacc t e s := rfl
theorem exec_mrg (t : Tile) (e : MemEnv) (s : State) : exec (.mrg t e) s = execMrg t e s := rfl
theorem exec_rstatRd (t : Tile) (e : MemEnv) (s : State) : exec (.rstatRd t e) s = execRstatRd t e s := rfl

/-! ### Slots -/

theorem rowSlot_putRow_same (k : Nat) (r : RowSlot) (G : Glaze) : rowSlot (putRow k r G) k = r := tabGet_tabSet_same ..

theorem rowSlot_putRow_other {k j : Nat} (h : j ≠ k) (r : RowSlot) (G : Glaze) : rowSlot (putRow k r G) j = rowSlot G j :=
  tabGet_tabSet_other _ _ _ _ _ h

theorem isSoftmax_of_rowSlot {G : Glaze} {k m l r : Nat} (h : rowSlot G k = .softmax m l r) : isSoftmax G k = true := by rw [isSoftmax, h]

theorem isNorm_of_rowSlot {G : Glaze} {k m K s1 s2 : Nat} (h : rowSlot G k = .norm m K s1 s2) : isNorm G k = true := by rw [isNorm, h]

theorem isNorm_of_softmax {G : Glaze} {k m l r : Nat} (h : rowSlot G k = .softmax m l r) : isNorm G k = false := by rw [isNorm, h]

/-- A change of a glaze that leaves `r` in slot `k`, every other slot as it was, and the queue. -/
def SetsRow (k : Nat) (r : RowSlot) (g : Glaze → Glaze) (G : Glaze) : Prop :=
  rowSlot (g G) k = r ∧ (∀ j, j ≠ k → rowSlot (g G) j = rowSlot G j) ∧ (g G).queue = G.queue

/-- Poison flags and registers are beside the slots. -/
theorem setsRow_putRow (k : Nat) (r : RowSlot) (G : Glaze) {g : Glaze → Glaze} (hslots : (g G).slots = (putRow k r G).slots)
    (hqueue : (g G).queue = G.queue) : SetsRow k r g G := by
  refine ⟨?_, fun j hj => ?_, hqueue⟩
  · exact (congrArg (fun x => tabGet RowSlot.empty x k) hslots).trans (rowSlot_putRow_same k r G)
  · exact (congrArg (fun x => tabGet RowSlot.empty x j) hslots).trans (rowSlot_putRow_other hj r G)

/-! ### An operation on a slot (R606) -/

/-- What RD writes to VD of a softmax slot: m, l, r and 1 ÷ l, and zeros (R610). -/
def rdElem (m l r k : Nat) : Nat := [m, l, r, f32div f32unit l].getD k 0

/-- What an operation leaves: `r` in the command's slot, every other slot, memory, the bricks and the mason as they were, and the command taken. -/
abbrev LeavesRow (i : Instr) (s : State) (t : Tile) (cmd : TileCmd) (rest : List TileCmd) (r : RowSlot) : Prop :=
  Leaves i s (fun u => (u.tile t).glaze.queue = rest ∧ rowSlot (u.tile t).glaze (gSlot cmd.word) = r ∧
    (∀ j, j ≠ gSlot cmd.word → rowSlot (u.tile t).glaze j = rowSlot (s.tile t).glaze j) ∧ u.mem = s.mem ∧ u.bricks = s.bricks ∧
    (u.tile t).mason = (s.tile t).mason)

section
variable {t : Tile} {e : MemEnv} {s : State} {cmd : TileCmd} {rest : List TileCmd} (hnext : GlazeNext s t cmd rest)
include hnext

theorem does_of_rstatCmd {i : Instr} {sub : Nat} {check : Nat → Glaze → GlazeCheck} {perform : TileCmd → State → Word × State}
    (hexec : exec i s = ended s (rstatCmd t sub check perform e s)) (hop : cOp cmd.word = 0x60) (hsub : gSub cmd.word = sub)
    (hwhy : (check cmd.word (s.tile t).glaze).why cmd.word = none) :
    Does i s (startGlaze t cmd (perform cmd (glazeReported t e s)).1 (tally t 20 1 (perform cmd (glazeReported t e s)).2)) :=
  does_of_glazeDo hnext hexec (by simp [hop, hsub]) hwhy

theorem leavesRow_of_rstatCmd {i : Instr} {sub : Nat} {check : Nat → Glaze → GlazeCheck} {perform : TileCmd → State → Word × State} {r : RowSlot}
    (hexec : exec i s = ended s (rstatCmd t sub check perform e s)) (hop : cOp cmd.word = 0x60) (hsub : gSub cmd.word = sub)
    (hwhy : (check cmd.word (s.tile t).glaze).why cmd.word = none)
    (hperform : ∃ g, ChangesGlaze t g (glazeReported t e s) (perform cmd (glazeReported t e s)).2 ∧
      SetsRow (gSlot cmd.word) r g ((glazeReported t e s).tile t).glaze) : LeavesRow i s t cmd rest r := by
  obtain ⟨g, hchange, hrow, hothers, hsame⟩ := hperform
  have hu := hchange.noted (bare_tally _ t 20 1)
  have hdoes := does_of_rstatCmd hnext hexec hop hsub hwhy
  obtain ⟨hqueue, -, -⟩ := hnext
  have hglaze := glaze_of_changesGlaze (cmd := cmd) hu (perform cmd (glazeReported t e s)).1
  have hbeside := besideGlaze_of_changesGlaze (cmd := cmd) hu (perform cmd (glazeReported t e s)).1
  simp only [besideGlaze, Prod.mk.injEq] at hbeside
  obtain ⟨hmem, hbricks, -, -, -, -, hmason⟩ := hbeside
  refine ⟨_, hdoes, ?queue, ?row, fun j hj => ?others, hmem, hbricks, hmason⟩
  case queue =>
    rw [hglaze]
    exact congrArg (List.drop 1) (hsame.trans ((glaze_glazeReported Glaze.queue t e s).trans hqueue))
  case row =>
    rw [hglaze]
    exact hrow
  case others =>
    rw [hglaze, ← rowSlot_glazeReported t e s]
    exact hothers j hj

theorem glazeWrites_of_rstatCmd {i : Instr} {sub : Nat} {check : Nat → Glaze → GlazeCheck} {perform : TileCmd → State → Word × State}
    {w n : Nat} {ix f : Nat → Nat}
    (hexec : exec i s = ended s (rstatCmd t sub check perform e s)) (hop : cOp cmd.word = 0x60)
    (hsub : gSub cmd.word = sub) (hwhy : (check cmd.word (s.tile t).glaze).why cmd.word = none) (hw : 0 < w) (hix : Function.Injective ix)
    (hfit : ∀ k, k < n → ix k < lanes w)
    (hperform : WritesElems t cmd w n ix f (glazeReported t e s) (perform cmd (glazeReported t e s)).2) : GlazeWrites i s t cmd rest w n ix f :=
  glazeWrites_of_glazeDo hnext hexec (by simp [hop, hsub]) hwhy hw hix hfit (hperform.noted (bare_tally ..))

/-! ### CLRS and CLRN (R606) -/

variable (hop : cOp cmd.word = 0x60)
include hop

theorem leavesRow_clrs (hsub : gSub cmd.word = 1) (hunused : unusedZero {} cmd.word = true) (hsumen : cSumen cmd.word = false) :
    LeavesRow (.clrs t e) s t cmd rest (.softmax f32ninf 0 f32unit) := by
  have hexec := exec_clrs t e s
  rw [execClrs, glazeHead_of_next hnext, if_neg (by simp [hsub])] at hexec
  exact leavesRow_of_rstatCmd hnext hexec hop hsub (GlazeCheck.why_eq_none.mpr (by simp [hunused, hsumen]))
    ⟨_, changesGlaze_onGlaze rfl, setsRow_putRow _ _ _ rfl rfl⟩

theorem leavesRow_clrn (hsub : gSub cmd.word = 2) (hunused : unusedZero { imm := true } cmd.word = true) (hsumen : cSumen cmd.word = false) :
    LeavesRow (.clrn t e) s t cmd rest (.norm 0 (gImm cmd.word) 0 0) :=
  leavesRow_of_rstatCmd hnext (exec_clrn t e s) hop hsub (GlazeCheck.why_eq_none.mpr (by simp [hunused, hsumen]))
    ⟨_, changesGlaze_onGlaze rfl, setsRow_putRow _ _ _ rfl rfl⟩

/-! ### SMX and NACC (R607 to R609) -/

section
variable {f w n : Nat} (hf : f = cFmtA cmd.word) (hw : w = elemWidth f) (hn : n = active cmd.word (lanes w)) (hfmt : f = 3 ∨ f = 2)
  (hactive : n ≤ lanes w)
include hf hw hn hfmt hactive

theorem leavesRow_smx {m l r : Nat} (hsub : gSub cmd.word = 3) (hrow : rowSlot (s.tile t).glaze (gSlot cmd.word) = .softmax m l r)
    (hfmtD : cFmtD cmd.word = f) (hunused : unusedZero { fa := true, fd := true, vd := true, va := true, imm := true } cmd.word = true) {ys : List Nat}
    (hys : ys = (List.range n).map (fun i => f32mul (redElem f (gregElem (s.tile t).glaze (gVa cmd.word) w i)) (gImm cmd.word))) {mn : Nat}
    (hmn : mn = fmtFP32.maxOf m (ys.foldl fmtFP32.maxOf f32ninf)) (hfinite : mn ≠ f32ninf) :
    LeavesRow (.smx t e) s t cmd rest (.softmax mn (f32add (f32mul l (expDiff cmd m mn).1) (treeSum (lanes w) (ys.map (fun y => (expDiff cmd y mn).1))))
      (expDiff cmd m mn).1) := by
  refine leavesRow_of_rstatCmd hnext (exec_smx t e s) hop hsub
    (GlazeCheck.why_eq_none.mpr (by simp [← hf, ← hw, ← hn, hfmt, hfmtD, hactive, hunused, isSoftmax_of_rowSlot hrow])) ?_
  extract_lets c k w' n' G bad ys' poisoned
  rw [show rowSlot G k = .softmax m l r from (rowSlot_glazeReported ..).trans hrow]
  dsimp -zeta only
  extract_lets mn' none' ps c1 l' outs es evals noted told placed
  have hw' : w' = w := by rw [hw, hf]
  have hn' : n' = n := by rw [hn, ← hw']
  have hys' : ys' = ys := by simp only [hys, ys', hn', hw', G, gregElem_glazeReported, c, hf]
  have hmn' : mn' = mn := by simp only [hmn, mn', hys']
  have hnone : ¬none' = true := by simp [none', hmn', hfinite]
  have hc1 : c1 = expDiff cmd m mn := by simp only [c1, if_neg hnone, hmn']
  have hl' : l' = f32add (f32mul l (expDiff cmd m mn).1) (treeSum (lanes w) (ys.map (fun y => (expDiff cmd y mn).1))) := by
    simp only [l', ps, hc1, hw', hys', hmn', if_neg hnone, List.map_map, Function.comp_def]
  have htold : told.bare = (glazeReported t e s).bare := by
    simp only [told, noted, poisoned, bare_noteSf, apply_ite State.bare, State.bare_count, ite_self, bare_noteConvs, bare_glazePoisIn]
  rw [← hl', ← hc1, ← hmn']
  exact ⟨_, (changesGlaze_onGlaze htold).noted (bare_rowSum ..), setsRow_putRow _ _ _ rfl rfl⟩

theorem leavesRow_nacc {m K s1 s2 : Nat} (hsub : gSub cmd.word = 4) (hrow : rowSlot (s.tile t).glaze (gSlot cmd.word) = .norm m K s1 s2)
    (hsumen : cSumen cmd.word = false) (hunused : unusedZero { fa := true, va := true } cmd.word = true) {ys : List Nat}
    (hys : ys = (List.range n).map (fun i => f32sub (redElem f (gregElem (s.tile t).glaze (gVa cmd.word) w i)) K)) :
    LeavesRow (.nacc t e) s t cmd rest
      (.norm (satNat 32 (m + n)) K (f32add s1 (treeSum (lanes w) ys)) (f32add s2 (treeSum (lanes w) (ys.map (fun y => f32mul y y))))) := by
  refine leavesRow_of_rstatCmd hnext (exec_nacc t e s) hop hsub
    (GlazeCheck.why_eq_none.mpr (by simp [← hf, ← hw, ← hn, hfmt, hactive, hsumen, hunused, isNorm_of_rowSlot hrow])) ?_
  extract_lets c k w' n' G bad poisoned
  rw [show rowSlot G k = .norm m K s1 s2 from (rowSlot_glazeReported ..).trans hrow]
  dsimp -zeta only
  extract_lets ys' s1' s2'
  have hw' : w' = w := by rw [hw, hf]
  have hn' : n' = n := by rw [hn, ← hw']
  have hys' : ys' = ys := by simp only [hys, ys', hn', hw', G, gregElem_glazeReported, c, hf]
  rw [← hys', ← hw', ← hn']
  exact ⟨_, changesGlaze_onGlaze (bare_glazePoisIn ..), setsRow_putRow _ _ _ rfl rfl⟩

end

/-! ### MRG (R608) -/

theorem leavesRow_mrg {m l r : Nat} (hsub : gSub cmd.word = 5) (hrow : rowSlot (s.tile t).glaze (gSlot cmd.word) = .softmax m l r)
    (hfmt : cFmtA cmd.word = 3) (hunused : unusedZero { fa := true, va := true } cmd.word = true) {m2 l2 mn : Nat}
    (hm2 : m2 = gregElem (s.tile t).glaze (gVa cmd.word) 4 0) (hl2 : l2 = gregElem (s.tile t).glaze (gVa cmd.word) 4 1)
    (hmn : mn = fmtFP32.maxOf m m2) (hfinite : mn ≠ f32ninf) :
    LeavesRow (.mrg t e) s t cmd rest
      (.softmax mn (f32add (f32mul l (expDiff cmd m mn).1) (f32mul l2 (expDiff cmd m2 mn).1)) (expDiff cmd m mn).1) := by
  refine leavesRow_of_rstatCmd hnext (exec_mrg t e s) hop hsub
    (GlazeCheck.why_eq_none.mpr (by simp [hfmt, hunused, isSoftmax_of_rowSlot hrow])) ?_
  extract_lets c k G bad m2' l2' poisoned
  rw [show rowSlot G k = .softmax m l r from (rowSlot_glazeReported ..).trans hrow]
  dsimp -zeta only
  extract_lets mn' none' c1 c2 row evals told
  have hm2' : m2' = m2 := by simp only [hm2, m2', G, gregElem_glazeReported, c]
  have hl2' : l2' = l2 := by simp only [hl2, l2', G, gregElem_glazeReported, c]
  have hmn' : mn' = mn := by simp only [hmn, mn', hm2']
  have hnone : ¬none' = true := by simp [none', hmn', hfinite]
  have hrow' : row = .softmax mn (f32add (f32mul l (expDiff cmd m mn).1) (f32mul l2 (expDiff cmd m2 mn).1)) (expDiff cmd m mn).1 := by
    simp only [row, c1, c2, if_neg hnone, hm2', hl2', hmn']
  have htold : told.bare = (glazeReported t e s).bare := by
    simp only [told, poisoned, bare_noteSf, apply_ite State.bare, State.bare_count, ite_self, bare_glazePoisIn]
  rw [← hrow']
  exact ⟨_, (changesGlaze_onGlaze htold).noted (bare_rowSum ..), setsRow_putRow _ _ _ rfl rfl⟩

/-! ### RD (R610) -/

theorem glazeWrites_rstatRd {m l r : Nat} (hsub : gSub cmd.word = 6) (hrow : rowSlot (s.tile t).glaze (gSlot cmd.word) = .softmax m l r)
    (hfmtD : cFmtD cmd.word = 3) (hvl : gVl cmd.word = 0) (hunused : unusedZero { fd := true, vd := true } cmd.word = true) :
    GlazeWrites (.rstatRd t e) s t cmd rest 4 128 (fun k => k) (rdElem m l r) := by
  refine glazeWrites_of_rstatCmd hnext (exec_rstatRd t e s) hop hsub
    (GlazeCheck.why_eq_none.mpr (by simp [hfmtD, hvl, hunused, isSoftmax_of_rowSlot hrow, isNorm_of_softmax hrow])) (Nat.succ_pos 3)
    Function.injective_id (fun k hk => hk) ?_
  extract_lets c k G bad poisoned
  rw [show rowSlot G k = .softmax m l r from (rowSlot_glazeReported ..).trans hrow]
  dsimp -zeta only
  extract_lets es noted told placed
  have htold : told.bare = (glazeReported t e s).bare := by simp [told, noted, poisoned]
  exact ⟨es, spells_map fun k _ => rfl, (changesGlaze_onGlaze htold).noted (bare_rowSum ..)⟩

end

section
variable {i : Instr} {t : Tile} {s : State} {cmd : TileCmd} {rest : List TileCmd} {w n : Nat} {ix f : Nat → Nat}
  (h : GlazeWrites i s t cmd rest w n ix f)
include h

/-- A command that writes elements keeps every slot. -/
theorem leavesRow_of_glazeWrites : LeavesRow i s t cmd rest (rowSlot (s.tile t).glaze (gSlot cmd.word)) := by
  obtain ⟨u, hexec, hqueue, -, -, -, hslots, -, -, hmason, hmem, hbricks, -⟩ := h
  have hrow (k : Nat) : rowSlot (u.tile t).glaze k = rowSlot (s.tile t).glaze k := congrArg (fun x => tabGet RowSlot.empty x k) hslots
  exact ⟨u, hexec, hqueue, hrow _, fun j _ => hrow j, hmem, hbricks, hmason⟩

/-- The elements written, in order. -/
theorem leaves_elems_of_glazeWrites {j : Nat} (hj : j ≤ n) : Leaves i s (fun u =>
    (List.range j).map (fun k => gregElem (u.tile t).glaze (gVd cmd.word) w (ix k)) = (List.range j).map (fun k => f k % 256 ^ w)) := by
  obtain ⟨u, hexec, -, -, helem, -⟩ := h
  exact ⟨u, hexec, List.map_congr_left fun k hk => helem k ((List.mem_range.mp hk).trans_le hj)⟩

end

/-- Settles O40: each operation by what it leaves in its slot, and RD by the elements it writes. That the results are there when the command starts is
the model's choice (log entry 224). -/
theorem rowStatistics : Obligations.RowStatistics := by
  intro t e s cmd rest hnext hop c k f w n G x row
  refine ⟨leavesRow_clrs hnext hop, leavesRow_clrn hnext hop,
    fun m l r hsub hrow hfmt hfmtD hactive hunused => leavesRow_smx hnext hop rfl rfl rfl hfmt hactive hsub hrow hfmtD hunused rfl rfl,
    fun m K s1 s2 hsub hrow hfmt hactive hsumen hunused => leavesRow_nacc hnext hop rfl rfl rfl hfmt hactive hsub hrow hsumen hunused rfl,
    fun m l r hsub hrow hfmt hunused => leavesRow_mrg hnext hop hsub hrow hfmt hunused rfl rfl rfl,
    fun m l r hsub hrow hfmtD hvl hunused => ?_⟩
  have hwrites := glazeWrites_rstatRd (e := e) hnext hop hsub hrow hfmtD hvl hunused
  exact ⟨hrow ▸ leavesRow_of_glazeWrites hwrites, leaves_elems_of_glazeWrites hwrites (by decide : 5 ≤ 128)⟩

end Sys2Proof.Machine
end
